-- ==== Sys2Proof/Word.lean ====
section
/-! DEFINITION. Numbers, bytes and keyed records: the plainest data of the model.

The manual's quantities are integers with stated ranges (00_scope.md, "Arithmetic"), so they are `Nat` or
`Int`; only what travels on a link is a byte. A record kept by number (a bed, a slot, a pour) lives in a `Map`:
a list of number and record in strictly rising number, so that equal contents are equal data. -/

namespace Sys2Proof

/-- Records kept by number, in strictly rising number. -/
abbrev Map (α : Type) := List (Nat × α)

namespace Map

variable {α : Type}

/-- The record kept under a number, if there is one. -/
def find : Map α → Nat → Option α
  | [], _ => none
  | (j, v) :: m, k => if j = k then some v else find m k

/-- Keep a record under a number, in place of any record kept there. -/
def put : Map α → Nat → α → Map α
  | [], k, v => [(k, v)]
  | (j, w) :: m, k, v =>
    if k < j then (k, v) :: (j, w) :: m
    else if j = k then (k, v) :: m
    else (j, w) :: put m k v

/-- Drop the record kept under a number. -/
def del (m : Map α) (k : Nat) : Map α := m.filter fun e => e.1 != k

/-- The numbers in use, rising. -/
def keys (m : Map α) : List Nat := m.map Prod.fst

/-- Change every record, each with its number at hand. -/
def mapRecords (f : Nat → α → α) (m : Map α) : Map α := m.map fun e => (e.1, f e.1 e.2)

/-- Whether the numbers rise strictly: the canonical form of a `Map`. -/
def rising : Map α → Bool
  | [] => true
  | [_] => true
  | (j, _) :: (k, w) :: m => decide (j < k) && rising ((k, w) :: m)

end Map

/-- The greatest value of an unsigned 32-bit accumulator. -/
def maxU32 : Nat := 4294967295

/-- Addition that saturates at the greatest 32-bit value (00_scope.md, "Arithmetic"). -/
def satAdd32 (a b : Nat) : Nat := min maxU32 (a + b)

/-- Counting up to a greatest value, where the count stays. -/
def satSucc (limit n : Nat) : Nat := min limit (n + 1)

/-- The nearer limit for a value outside `lo..hi`, the value itself inside. -/
def clampInt (lo hi v : Int) : Int := max lo (min hi v)

/-- The nearer limit for a value outside `lo..hi`, the value itself inside. -/
def clampNat (lo hi v : Nat) : Nat := max lo (min hi v)

/-- The distance between two values, without regard to sign. -/
def distance (a b : Int) : Nat := (a - b).natAbs

/-- The number spelled by bytes, most significant first. -/
def bigEndian (bs : List Nat) : Nat := bs.foldl (fun n b => n * 256 + b) 0

/-- The signed reading of a number of `bits` bits. -/
def signedOf (bits n : Nat) : Int := if n < 2 ^ (bits - 1) then (n : Int) else (n : Int) - 2 ^ bits

/-- The low `count` bytes of a number, most significant first. -/
def toBytes : Nat → Nat → List Nat
  | 0, _ => []
  | k + 1, n => toBytes k (n / 256) ++ [n % 256]

/-- The number of `bits` bits that reads as a signed value. -/
def unsignedOf (bits : Nat) (v : Int) : Nat := (v % (2 ^ bits : Int)).toNat

end Sys2Proof
end

