-- ==== Sys2Proof/Syntax.lean ====
section
/-! DEFINITION. The commands of the OH624: one constructor per row of spec/opcode_table.json.

A request carries the TAG of its frame and the fields of its payload (R172, section 10.5). An event carries what
the outside world contributes to it: the characters that arrived, or which timer expired. -/

namespace Sys2Proof

/-- Crane A works the west part of the runway, crane B the east part (section 1.1). -/
inductive CraneId where
  | A
  | B
  deriving DecidableEq, Repr

/-- A zone as SET BED gives it: east boundary, node address, rating (R4). -/
structure ZoneSpec where
  east   : Nat
  node   : Nat
  rating : Nat
  deriving DecidableEq, Repr

/-- A piece as a POUR ORDER lists it: mark, length, mass, position (R20, section 10.5). -/
structure PieceSpec where
  mark   : Nat
  length : Nat
  mass   : Nat
  x      : Nat
  deriving DecidableEq, Repr

/-- The fields of SET PRODUCT after the index (R9). A code is eight bytes. -/
structure ProductSpec where
  code     : List Nat
  strip    : Nat
  ship     : Nat
  preset   : Nat
  rampRate : Nat
  hold     : Nat
  coolRate : Nat
  coolEnd  : Nat
  gain     : Nat
  deriving DecidableEq, Repr

/-- One character as the Command Link's receiver sees it: its data byte, and whether its stop bit was missing (R173),
as `lineCharOfBits` reads them from the character's ten bits (R172). -/
structure RxChar where
  data    : Nat
  framing : Bool
  deriving DecidableEq, Repr

/-- One character of a field node's reply: its data byte, its address flag, and whether it had a framing error or no
stop bit (section 9.2, R157), as `charOfBits` reads them from the character's eleven bits (R156). -/
structure FieldChar where
  data    : Nat
  address : Bool
  framing : Bool
  deriving DecidableEq, Repr

/-- The commands: requests of the plant computer, events of the two links, timer expiries, and the supply and reset
pins. -/
inductive Instr where
  /-- POWER_UP (R185): main power returns. -/
  | powerUp
  /-- RESET_PIN (R185). -/
  | resetPin
  /-- FRAME_RECEIVED (R174): these characters arrive on the Command Link, none later than the inter-character limit. -/
  | frameReceived (chars : List RxChar)
  /-- INTER_CHARACTER_GAP (R174): more than the inter-character limit passes, and this character ends the gap. -/
  | interCharacterGap (char : RxChar)
  /-- UNKNOWN_KIND (R176): a good frame arrives with this KIND, TAG and payload. -/
  | unknownKind (tag kind : Nat) (payload : List Nat)
  /-- FRAME_SENT (R179): the outgoing frame ends. -/
  | frameSent
  | setRunway (tag length : Nat)
  | setBed (tag bed xStart xEnd : Nat) (zones : List ZoneSpec)
  | setSlot (tag slot x massLimit tierLimit area : Nat)
  | setArea (tag area node : Nat)
  | setBay (tag bay x : Nat)
  | setCrane (tag crane node home : Nat)
  | setProduct (tag index : Nat) (spec : ProductSpec)
  | clearProduct (tag index : Nat)
  | setPlant (tag number : Nat) (value : Int)
  | setBoiler (tag capacity : Nat)
  | setMode (tag mode : Nat)
  | restart (tag : Nat)
  | prepare (tag bed : Nat) (code : List Nat)
  | pourOrder (tag bed : Nat) (code : List Nat) (planned : Nat) (pieces : List PieceSpec)
  | batch (tag bed volume : Nat)
  | pourEnd (tag bed : Nat)
  /-- GAP_TIMER_EXPIRY (R23) of a bed's cold-joint gap timer. -/
  | gapTimerExpiry (bed : Nat)
  | zoneOut (tag bed zone : Nat)
  | detension (tag bed : Nat)
  | clearBed (tag bed : Nat)
  | ship (tag mark bay : Nat)
  | scrap (tag mark bay : Nat)
  | holdPiece (tag mark : Nat)
  | releasePiece (tag mark : Nat)
  | rejectPiece (tag mark : Nat)
  | locate (tag mark slot : Nat)
  | removePiece (tag mark : Nat)
  | expedite (tag move : Nat)
  | cancelMove (tag move : Nat)
  | retryMove (tag move : Nat)
  | resumeCrane (tag crane : Nat)
  | craneOut (tag crane : Nat)
  | craneIn (tag crane : Nat)
  | readPlant (tag cls index : Nat)
  | readBed (tag bed : Nat)
  | readZone (tag bed zone : Nat)
  | readPour (tag pour : Nat)
  | readPiece (tag mark : Nat)
  | readSlot (tag slot : Nat)
  | readMoves (tag page : Nat)
  | readCrane (tag crane : Nat)
  | readNodes (tag page : Nat)
  | readStatus (tag : Nat)
  /-- CURING_INTERVAL_EXPIRY (R55). -/
  | curingIntervalExpiry
  /-- YARD_INTERVAL_EXPIRY (R103). -/
  | yardIntervalExpiry
  /-- STEP_TIMER_EXPIRY (R146) of a crane's step timer. -/
  | stepTimerExpiry (crane : CraneId)
  /-- REPLY_TIMER_EXPIRY (R156): no reply character arrived in time. -/
  | replyTimerExpiry
  /-- REPLY_COMPLETE (R157): these characters arrived, and the field line has been quiet for two character times. -/
  | replyComplete (chars : List FieldChar)
  /-- ROUND_TIMER_EXPIRY (R162). -/
  | roundTimerExpiry
  /-- CRANE_POLL_TIMER_EXPIRY (R163) of a crane's poll timer. -/
  | cranePollTimerExpiry (crane : CraneId)
  /-- MAIN_POWER_FAILS (R15, R184). -/
  | mainPowerFails
  /-- BACKUP_SUPPLY_BELOW_THRESHOLD (R184). -/
  | backupSupplyBelowThreshold
  deriving DecidableEq, Repr

end Sys2Proof
end

