-- ==== Sys2Proof/Decode.lean ====
section
/-! DEFINITION. Reading a command from bits and bytes.

No row of spec/opcode_table.json gives bits, so no word spells a command. What the spec does give is the payload of
each request (R172, section 10.5): `decodeRequest` reads it, with the kind and length checks of R176, and
`requestPayload` writes it. -/

namespace Sys2Proof

/-- The command a word of the table's bits spells: none, because no row has bits. -/
def decodeTableWord (_nbits _w : Nat) : Option Instr := none

/-- What CL makes of a good frame before it hands it on (R176). -/
inductive Reading where
  | unknownKind
  | badLength
  | request (i : Instr)
  deriving DecidableEq, Repr

/-- Two bytes as a number. -/
def word16 (a b : Nat) : Nat := a * 256 + b

/-- Four bytes as a number. -/
def word32 (a b c d : Nat) : Nat := ((a * 256 + b) * 256 + c) * 256 + d

/-- The zones of a SET BED payload. -/
def readZones : List Nat → Option (List ZoneSpec)
  | [] => some []
  | a :: b :: n :: c :: d :: rest =>
    match readZones rest with
    | some zs => some ({ east := word16 a b, node := n, rating := word16 c d } :: zs)
    | none => none
  | _ => none

/-- The entries of a POUR ORDER payload. -/
def readPieces : List Nat → Option (List PieceSpec)
  | [] => some []
  | a :: b :: c :: d :: e :: f :: g :: h :: rest =>
    match readPieces rest with
    | some es => some ({ mark := word16 a b, length := word16 c d, mass := word16 e f, x := word16 g h } :: es)
    | none => none
  | _ => none

/-- A payload that is one byte. -/
def oneByte (payload : List Nat) (f : Nat → Instr) : Reading :=
  match payload with
  | [a] => .request (f a)
  | _ => .badLength

/-- A payload that is two bytes, each a field. -/
def twoBytes (payload : List Nat) (f : Nat → Nat → Instr) : Reading :=
  match payload with
  | [a, b] => .request (f a b)
  | _ => .badLength

/-- A payload that is one number of two bytes. -/
def oneWord (payload : List Nat) (f : Nat → Instr) : Reading :=
  match payload with
  | [a, b] => .request (f (word16 a b))
  | _ => .badLength

/-- A payload that is a number of two bytes and then a byte. -/
def wordByte (payload : List Nat) (f : Nat → Nat → Instr) : Reading :=
  match payload with
  | [a, b, c] => .request (f (word16 a b) c)
  | _ => .badLength

/-- A payload that is a byte and then a number of two bytes. -/
def byteWord (payload : List Nat) (f : Nat → Nat → Instr) : Reading :=
  match payload with
  | [a, b, c] => .request (f a (word16 b c))
  | _ => .badLength

/-- An empty payload. -/
def noBytes (payload : List Nat) (i : Instr) : Reading :=
  match payload with
  | [] => .request i
  | _ => .badLength

/-- The fields of SET BED; the count carried gives the length (R176). -/
def readSetBed (tag : Nat) (payload : List Nat) : Reading :=
  match payload with
  | bed :: a :: b :: c :: d :: n :: rest =>
    if rest.length = 5 * n then
      match readZones rest with
      | some zs => .request (.setBed tag bed (word16 a b) (word16 c d) zs)
      | none => .badLength
    else .badLength
  | _ => .badLength

/-- The fields of SET SLOT. -/
def readSetSlot (tag : Nat) (payload : List Nat) : Reading :=
  match payload with
  | [slot, a, b, c, d, e, f, tier, area] => .request (.setSlot tag slot (word16 a b) (word32 c d e f) tier area)
  | _ => .badLength

/-- The fields of SET CRANE. -/
def readSetCrane (tag : Nat) (payload : List Nat) : Reading :=
  match payload with
  | [crane, node, a, b] => .request (.setCrane tag crane node (word16 a b))
  | _ => .badLength

/-- The fields of SET PRODUCT. -/
def readSetProduct (tag : Nat) (payload : List Nat) : Reading :=
  match payload with
  | [index, k1, k2, k3, k4, k5, k6, k7, k8, a, b, c, d, e, f, g, h, i, j, k, l, m, n, gain] =>
    .request (.setProduct tag index
      { code := [k1, k2, k3, k4, k5, k6, k7, k8], strip := word16 a b, ship := word16 c d, preset := word16 e f,
        rampRate := word16 g h, hold := word16 i j, coolRate := word16 k l, coolEnd := word16 m n, gain := gain })
  | _ => .badLength

/-- The fields of SET PLANT: the value is signed (section 10.5). -/
def readSetPlant (tag : Nat) (payload : List Nat) : Reading :=
  match payload with
  | [number, a, b, c, d] => .request (.setPlant tag number (signedOf 32 (word32 a b c d)))
  | _ => .badLength

/-- The fields of PREPARE. -/
def readPrepare (tag : Nat) (payload : List Nat) : Reading :=
  match payload with
  | [bed, k1, k2, k3, k4, k5, k6, k7, k8] => .request (.prepare tag bed [k1, k2, k3, k4, k5, k6, k7, k8])
  | _ => .badLength

/-- The fields of POUR ORDER; the count carried gives the length (R176). -/
def readPourOrder (tag : Nat) (payload : List Nat) : Reading :=
  match payload with
  | bed :: k1 :: k2 :: k3 :: k4 :: k5 :: k6 :: k7 :: k8 :: a :: b :: n :: rest =>
    if rest.length = 8 * n then
      match readPieces rest with
      | some es => .request (.pourOrder tag bed [k1, k2, k3, k4, k5, k6, k7, k8] (word16 a b) es)
      | none => .badLength
    else .badLength
  | _ => .badLength

/-- The request a good frame carries, by the catalogue of section 10.5 (R176). -/
def decodeRequest (kind tag : Nat) (payload : List Nat) : Reading :=
  match kind with
  | 0x01 => oneWord payload (.setRunway tag)
  | 0x02 => readSetBed tag payload
  | 0x03 => readSetSlot tag payload
  | 0x04 => twoBytes payload (.setArea tag)
  | 0x05 => byteWord payload (.setBay tag)
  | 0x06 => readSetCrane tag payload
  | 0x07 => readSetProduct tag payload
  | 0x08 => oneByte payload (.clearProduct tag)
  | 0x09 => readSetPlant tag payload
  | 0x0A => oneWord payload (.setBoiler tag)
  | 0x0E => oneByte payload (.setMode tag)
  | 0x0F => noBytes payload (.restart tag)
  | 0x10 => readPrepare tag payload
  | 0x11 => readPourOrder tag payload
  | 0x12 => byteWord payload (.batch tag)
  | 0x13 => oneByte payload (.pourEnd tag)
  | 0x14 => twoBytes payload (.zoneOut tag)
  | 0x15 => oneByte payload (.detension tag)
  | 0x16 => oneByte payload (.clearBed tag)
  | 0x20 => wordByte payload (.ship tag)
  | 0x21 => wordByte payload (.scrap tag)
  | 0x22 => oneWord payload (.holdPiece tag)
  | 0x23 => oneWord payload (.releasePiece tag)
  | 0x24 => oneWord payload (.rejectPiece tag)
  | 0x25 => wordByte payload (.locate tag)
  | 0x26 => oneWord payload (.removePiece tag)
  | 0x28 => oneByte payload (.expedite tag)
  | 0x29 => oneByte payload (.cancelMove tag)
  | 0x2A => oneByte payload (.retryMove tag)
  | 0x2C => oneByte payload (.resumeCrane tag)
  | 0x2D => oneByte payload (.craneOut tag)
  | 0x2E => oneByte payload (.craneIn tag)
  | 0x40 => twoBytes payload (.readPlant tag)
  | 0x41 => oneByte payload (.readBed tag)
  | 0x42 => twoBytes payload (.readZone tag)
  | 0x43 => oneByte payload (.readPour tag)
  | 0x44 => oneWord payload (.readPiece tag)
  | 0x45 => oneByte payload (.readSlot tag)
  | 0x46 => oneByte payload (.readMoves tag)
  | 0x47 => oneByte payload (.readCrane tag)
  | 0x48 => oneByte payload (.readNodes tag)
  | 0x49 => noBytes payload (.readStatus tag)
  | _ => .unknownKind

/-! ### Writing a request -/

/-- The two bytes of a number. -/
def bytes16 (n : Nat) : List Nat := [n / 256, n % 256]

/-- The four bytes of a number. -/
def bytes32 (n : Nat) : List Nat := [n / 16777216, n / 65536 % 256, n / 256 % 256, n % 256]

def zoneBytes (z : ZoneSpec) : List Nat := bytes16 z.east ++ [z.node] ++ bytes16 z.rating

def pieceBytes (e : PieceSpec) : List Nat := bytes16 e.mark ++ bytes16 e.length ++ bytes16 e.mass ++ bytes16 e.x

/-- The payload bytes of a request (section 10.5). An event has none. -/
def requestPayload : Instr → List Nat
  | .setRunway _ length => bytes16 length
  | .setBed _ bed xStart xEnd zones =>
    [bed] ++ bytes16 xStart ++ bytes16 xEnd ++ [zones.length] ++ zones.flatMap zoneBytes
  | .setSlot _ slot x massLimit tierLimit area => [slot] ++ bytes16 x ++ bytes32 massLimit ++ [tierLimit, area]
  | .setArea _ area node => [area, node]
  | .setBay _ bay x => [bay] ++ bytes16 x
  | .setCrane _ crane node home => [crane, node] ++ bytes16 home
  | .setProduct _ index q =>
    [index] ++ q.code ++ bytes16 q.strip ++ bytes16 q.ship ++ bytes16 q.preset ++ bytes16 q.rampRate ++
    bytes16 q.hold ++ bytes16 q.coolRate ++ bytes16 q.coolEnd ++ [q.gain]
  | .clearProduct _ index => [index]
  | .setPlant _ number value => [number] ++ bytes32 (unsignedOf 32 value)
  | .setBoiler _ capacity => bytes16 capacity
  | .setMode _ mode => [mode]
  | .prepare _ bed code => [bed] ++ code
  | .pourOrder _ bed code planned pieces =>
    [bed] ++ code ++ bytes16 planned ++ [pieces.length] ++ pieces.flatMap pieceBytes
  | .batch _ bed volume => [bed] ++ bytes16 volume
  | .pourEnd _ bed => [bed]
  | .zoneOut _ bed zone => [bed, zone]
  | .detension _ bed => [bed]
  | .clearBed _ bed => [bed]
  | .ship _ mark bay => bytes16 mark ++ [bay]
  | .scrap _ mark bay => bytes16 mark ++ [bay]
  | .holdPiece _ mark => bytes16 mark
  | .releasePiece _ mark => bytes16 mark
  | .rejectPiece _ mark => bytes16 mark
  | .locate _ mark slot => bytes16 mark ++ [slot]
  | .removePiece _ mark => bytes16 mark
  | .expedite _ move => [move]
  | .cancelMove _ move => [move]
  | .retryMove _ move => [move]
  | .resumeCrane _ crane => [crane]
  | .craneOut _ crane => [crane]
  | .craneIn _ crane => [crane]
  | .readPlant _ cls index => [cls, index]
  | .readBed _ bed => [bed]
  | .readZone _ bed zone => [bed, zone]
  | .readPour _ pour => [pour]
  | .readPiece _ mark => bytes16 mark
  | .readSlot _ slot => [slot]
  | .readMoves _ page => [page]
  | .readCrane _ crane => [crane]
  | .readNodes _ page => [page]
  | .restart _ => []
  | .readStatus _ => []
  | .powerUp => []
  | .resetPin => []
  | .frameReceived _ => []
  | .interCharacterGap _ => []
  | .unknownKind _ _ payload => payload
  | .frameSent => []
  | .gapTimerExpiry _ => []
  | .curingIntervalExpiry => []
  | .yardIntervalExpiry => []
  | .stepTimerExpiry _ => []
  | .replyTimerExpiry => []
  | .replyComplete _ => []
  | .roundTimerExpiry => []
  | .cranePollTimerExpiry _ => []
  | .mainPowerFails => []
  | .backupSupplyBelowThreshold => []

/-- The KIND and TAG of a request; none for an event (section 10.5). -/
def requestHead : Instr → Option (Nat × Nat)
  | .setRunway tag _ => some (0x01, tag)
  | .setBed tag _ _ _ _ => some (0x02, tag)
  | .setSlot tag _ _ _ _ _ => some (0x03, tag)
  | .setArea tag _ _ => some (0x04, tag)
  | .setBay tag _ _ => some (0x05, tag)
  | .setCrane tag _ _ _ => some (0x06, tag)
  | .setProduct tag _ _ => some (0x07, tag)
  | .clearProduct tag _ => some (0x08, tag)
  | .setPlant tag _ _ => some (0x09, tag)
  | .setBoiler tag _ => some (0x0A, tag)
  | .setMode tag _ => some (0x0E, tag)
  | .restart tag => some (0x0F, tag)
  | .prepare tag _ _ => some (0x10, tag)
  | .pourOrder tag _ _ _ _ => some (0x11, tag)
  | .batch tag _ _ => some (0x12, tag)
  | .pourEnd tag _ => some (0x13, tag)
  | .zoneOut tag _ _ => some (0x14, tag)
  | .detension tag _ => some (0x15, tag)
  | .clearBed tag _ => some (0x16, tag)
  | .ship tag _ _ => some (0x20, tag)
  | .scrap tag _ _ => some (0x21, tag)
  | .holdPiece tag _ => some (0x22, tag)
  | .releasePiece tag _ => some (0x23, tag)
  | .rejectPiece tag _ => some (0x24, tag)
  | .locate tag _ _ => some (0x25, tag)
  | .removePiece tag _ => some (0x26, tag)
  | .expedite tag _ => some (0x28, tag)
  | .cancelMove tag _ => some (0x29, tag)
  | .retryMove tag _ => some (0x2A, tag)
  | .resumeCrane tag _ => some (0x2C, tag)
  | .craneOut tag _ => some (0x2D, tag)
  | .craneIn tag _ => some (0x2E, tag)
  | .readPlant tag _ _ => some (0x40, tag)
  | .readBed tag _ => some (0x41, tag)
  | .readZone tag _ _ => some (0x42, tag)
  | .readPour tag _ => some (0x43, tag)
  | .readPiece tag _ => some (0x44, tag)
  | .readSlot tag _ => some (0x45, tag)
  | .readMoves tag _ => some (0x46, tag)
  | .readCrane tag _ => some (0x47, tag)
  | .readNodes tag _ => some (0x48, tag)
  | .readStatus tag => some (0x49, tag)
  | .powerUp => none
  | .resetPin => none
  | .frameReceived _ => none
  | .interCharacterGap _ => none
  | .unknownKind _ _ _ => none
  | .frameSent => none
  | .gapTimerExpiry _ => none
  | .curingIntervalExpiry => none
  | .yardIntervalExpiry => none
  | .stepTimerExpiry _ => none
  | .replyTimerExpiry => none
  | .replyComplete _ => none
  | .roundTimerExpiry => none
  | .cranePollTimerExpiry _ => none
  | .mainPowerFails => none
  | .backupSupplyBelowThreshold => none

end Sys2Proof
end

