-- ==== Sys2Proof/Config.lean ====
section
/-! DEFINITION. What the part's documents fix once (counts, capacities, the settings table of section 1.3), and the
free value where the manual leaves a choice open. -/

namespace Sys2Proof.Config

/-- FREE VALUE. R164: when both supervisors hold refused commands and an entry frees, "The offer taken first is
accepted", and no rule says whose is first. `bReoffersFirst n` says it for the n-th such tie: true for crane B.
It has no body, so no proof can see what it is (notes/assumptions/5.md). -/
opaque bReoffersFirst : Nat → Bool

/-- Places of the notice queue (R178). -/
def noticePlaces : Nat := 24

/-- Places of the receive buffer (R175). -/
def bufferPlaces : Nat := 2

/-- Entries of the directed queue other than STOPs (R164). -/
def directedPlaces : Nat := 16

/-- Entries of the move queue (R117). -/
def movePlaces : Nat := 32

/-- Pour records (section 2.7). -/
def pourRecords : Nat := 24

/-- Piece records (section 6.1). -/
def pieceRecords : Nat := 480

/-- Entries of a deviation list (section 2.7). -/
def deviationPlaces : Nat := 6

/-- The age at which a record's ages stop, in ms (R38, section 9.3). -/
def maxAge : Nat := 3600000

/-- Maturity: one °C·h in tenth-°C·seconds (section 4.4). -/
def perDegreeHour : Nat := 36000

end Sys2Proof.Config
end

