-- ==== Sys2Proof/Machine/State.lean ====
section
/-! DEFINITION. Everything the OH624 holds (INVENTORY.md, "State"), as plain data, and the state after reset.

A `State` is the non-volatile `Store`, the `Part` (one record per block of the functional overview in 00_scope.md),
and the queue of waiting commands. Keeping the store apart makes it plain which rules can change a setting:
only those whose meaning returns a `Store`. -/

namespace Sys2Proof.Machine

/-! ### Mode Control and the non-volatile store -/

/-- The operating mode (chapter 11). -/
inductive Mode where
  | setup
  | watch
  | run
  deriving DecidableEq, Repr

/-- The cause of a start (R182, R189). -/
inductive StartCause where
  | powerUp
  | resetPin
  | restart
  deriving DecidableEq, Repr

/-- A configured heat zone: east boundary, zone-node address, rating in kW (R3). -/
structure ZoneCfg where
  east   : Int
  node   : Nat
  rating : Nat
  deriving DecidableEq, Repr

/-- A configured bed: extent and zones from west to east (R3). -/
structure BedCfg where
  xStart : Int
  xEnd   : Int
  zones  : List ZoneCfg
  deriving DecidableEq, Repr

/-- A configured slot (R5). -/
structure SlotCfg where
  x         : Int
  massLimit : Nat
  tierLimit : Nat
  area      : Nat
  deriving DecidableEq, Repr

/-- A configured crane (R7). -/
structure CraneCfg where
  node : Nat
  home : Int
  deriving DecidableEq, Repr

/-- A DEFINED product table entry (section 1.2). -/
structure Product where
  code     : List Nat
  strip    : Nat
  ship     : Nat
  preset   : Nat
  rampRate : Nat
  hold     : Int
  coolRate : Nat
  coolEnd  : Int
  gain     : Nat
  deriving DecidableEq, Repr

/-- The plant settings, in the order of their setting numbers 1 to 27 (section 1.3). -/
structure Settings where
  agreementBand    : Int := 30
  datum            : Int := -100
  curingInterval   : Int := 60
  yardInterval     : Int := 600
  holdLastGood     : Int := 3
  starveLimit      : Int := 10
  overtempMargin   : Int := 50
  minimumFresh     : Int := 50
  coldJointLimit   : Int := 30
  volumeTolerance  : Int := 3
  maximumBatch     : Int := 120
  clearance        : Int := 150
  arrivalTolerance : Int := 2
  travelTimeout    : Int := 300
  hookTimeout      : Int := 90
  loadTolerance    : Int := 10
  cranePollPeriod  : Int := 100
  replyTimeout     : Int := 10
  missLimit        : Int := 3
  faultFilter      : Int := 2
  roundMinimum     : Int := 500
  fieldLineRate    : Int := 57600
  commandLineRate  : Int := 115200
  interCharacter   : Int := 20
  deviationMode    : Int := 1
  startUpMode      : Int := 0
  retain           : Int := 1
  deriving DecidableEq, Repr

/-- The non-volatile store (R15): an item that is not listed is unconfigured, a product not listed is UNUSED. -/
structure Store where
  runway   : Int
  beds     : Map BedCfg
  slots    : Map SlotCfg
  areas    : Map Nat
  bays     : Map Int
  craneA   : Option CraneCfg
  craneB   : Option CraneCfg
  products : Map Product
  plant    : Settings
  boiler   : Nat
  lastMode : Mode
  deriving DecidableEq, Repr

/-- The store of a fresh part (R15). -/
def Store.fresh : Store :=
  { runway := 2400, beds := [], slots := [], areas := [], bays := [], craneA := none, craneB := none,
    products := [], plant := {}, boiler := 1200, lastMode := .setup }

/-- Mode Control's own records (R182 to R184). -/
structure ModeControl where
  /-- Main power is present. -/
  power      : Bool
  /-- The backup supply has held since main power was lost, and retained memory holds records of this part (R184). -/
  backupHeld : Bool
  mode       : Mode
  startCause : StartCause
  /-- Records were retained at the last start. -/
  retained   : Bool
  deriving DecidableEq, Repr

/-! ### Timers -/

/-- A running timer: the length it was started with and the time left, in ms. -/
structure Timer where
  length : Nat
  left   : Nat
  deriving DecidableEq, Repr

/-- A timer just started. -/
def Timer.start (ms : Nat) : Timer := { length := ms, left := ms }

/-! ### Bed Sequencer -/

/-- The bed states (section 2.1). -/
inductive BedState where
  | empty
  | prepared
  | pouring
  | curing
  | ready
  | stripping
  | rejected
  deriving DecidableEq, Repr

/-- A bed record (section 2.1): `gap` is the cold-joint gap timer while it runs. -/
structure Bed where
  state   : BedState
  product : Option Nat
  pour    : Option Nat
  gap     : Option Timer
  deriving DecidableEq, Repr

/-- An EMPTY bed. -/
def Bed.vacant : Bed := { state := .empty, product := none, pour := none, gap := none }

/-- The deviation kinds (section 2.8). -/
inductive DeviationKind where
  | short
  | over
  | freeze
  | overtemp
  | unmeasured
  | starved
  | zoneExcluded
  | powerGap
  deriving DecidableEq, Repr

/-- A deviation entry (R33); its severity follows from its kind. -/
structure Deviation where
  kind    : DeviationKind
  zone    : Option Nat
  value   : Int
  minutes : Nat
  deriving DecidableEq, Repr

inductive PourState where
  | opened
  | closed
  | aborted
  deriving DecidableEq, Repr

inductive CloseCause where
  | volume
  | ended
  | gap
  | power
  deriving DecidableEq, Repr

/-- A pour record in use (section 2.7). `order` keeps the marks of its order in list order (R21). -/
structure Pour where
  bed        : Nat
  product    : Nat
  planned    : Nat
  delivered  : Nat
  batches    : Nat
  state      : PourState
  cause      : Option CloseCause
  seq        : Option Nat
  review     : Bool
  deviations : List Deviation
  overflow   : Bool
  count      : Nat
  current    : Bool
  order      : List Nat
  deriving DecidableEq, Repr

/-- The Bed Sequencer: six bed records, the pour records in use, the pour sequence counter. -/
structure BedSequencer where
  beds  : Map Bed
  pours : Map Pour
  seq   : Nat
  deriving DecidableEq, Repr

/-! ### Curing Controller and Heat Allocator -/

inductive Phase where
  | preset
  | ramp
  | hold
  | cool
  | finished
  deriving DecidableEq, Repr

inductive HeatClass where
  | none
  | frost
  | hold
  | ramp
  | cool
  deriving DecidableEq, Repr

/-- A zone curing record (section 4.1). -/
structure ZoneCuring where
  acc            : Nat
  held           : Option Int
  heldCount      : Nat
  lapsed         : Bool
  unmeasuredSeen : Bool
  freezeEdge     : Bool
  overEdge       : Bool
  demand         : Nat
  cls            : HeatClass
  request        : Nat
  grant          : Nat
  excluded       : Bool
  deriving DecidableEq, Repr

/-- A zone curing record as a context opens it (R51). -/
def ZoneCuring.opened : ZoneCuring :=
  { acc := 0, held := none, heldCount := 0, lapsed := false, unmeasuredSeen := false, freezeEdge := false,
    overEdge := false, demand := 0, cls := .none, request := 0, grant := 0, excluded := false }

/-- A curing context (section 4.1), kept under its bed's number. -/
structure Context where
  pour          : Nat
  seq           : Nat
  product       : Nat
  phase         : Phase
  sp            : Option Int
  remainder     : Nat
  presetElapsed : Nat
  curingTime    : Nat
  starved       : Bool
  starvedCount  : Nat
  fresh         : Bool
  repairPending : Bool
  zones         : Map ZoneCuring
  deriving DecidableEq, Repr

/-- A valve record (section 5.1). -/
structure Valve where
  wanted : Nat
  handed : Option Nat
  resend : Bool
  deriving DecidableEq, Repr

/-- A valve record as a start builds it (R77). -/
def Valve.fresh : Valve := { wanted := 0, handed := none, resend := false }

/-- What the last expiry did about allocation (section 5.1). -/
inductive AllocKind where
  | allocated
  | withheld
  | null
  deriving DecidableEq, Repr

/-- The allocation record (section 5.1). -/
structure Alloc where
  capacity    : Option Nat
  requested   : Nat
  granted     : Nat
  served      : Nat
  short       : Nat
  partialZone : Option (Nat × Nat)
  last        : Option AllocKind
  heatShort   : Bool
  deriving DecidableEq, Repr

/-- The allocation record as a start leaves it (R77). -/
def Alloc.fresh : Alloc :=
  { capacity := none, requested := 0, granted := 0, served := 0, short := 0, partialZone := none, last := none,
    heatShort := false }

/-- The Curing Controller: contexts by bed, the curing interval timer, valve records by `zoneKey`, allocation. -/
structure CuringController where
  contexts : Map Context
  timer    : Timer
  valves   : Map Valve
  alloc    : Alloc
  deriving DecidableEq, Repr

/-! ### Temperature Unit -/

/-- The invalidity causes of R43. -/
inductive Validity where
  | valid
  | noneReceived
  | lost
  | opened
  | range
  | stale
  deriving DecidableEq, Repr

inductive Unmeasured where
  | tooFew
  | disagree
  deriving DecidableEq, Repr

/-- How a measured zone result was formed (R45, R46); `pair` names the outlier probe. -/
inductive Basis where
  | median
  | pair (outlier : Nat)
  | two
  deriving DecidableEq, Repr

inductive ZoneResult where
  | measured (t : Int) (basis : Basis)
  | unmeasured (reason : Unmeasured)
  deriving DecidableEq, Repr

inductive AreaResult where
  | measured (t : Int)
  | unmeasured (cause : Validity)
  deriving DecidableEq, Repr

/-- A probe slot: the value as received, and its age in ms. -/
structure Probe where
  value : Option Int
  age   : Nat
  deriving DecidableEq, Repr

/-- A probe slot with no reading. -/
def Probe.blank : Probe := { value := none, age := 0 }

/-- A zone record of TU (section 3.1). -/
structure ZoneRecord where
  node      : Nat
  probe1    : Probe
  probe2    : Probe
  probe3    : Probe
  echo      : Option Nat
  result    : Option ZoneResult
  resultAge : Nat
  deriving DecidableEq, Repr

/-- A zone record as a start or a change of address builds it (R37, R42). -/
def ZoneRecord.fresh (node : Nat) : ZoneRecord :=
  { node := node, probe1 := .blank, probe2 := .blank, probe3 := .blank, echo := none, result := none, resultAge := 0 }

/-- An area record of TU (section 3.1). -/
structure AreaRecord where
  node      : Option Nat
  value     : Option Int
  age       : Nat
  result    : Option AreaResult
  resultAge : Nat
  deriving DecidableEq, Repr

/-- An area record as a start or a change of address builds it (R37, R42). -/
def AreaRecord.fresh (node : Option Nat) : AreaRecord :=
  { node := node, value := none, age := 0, result := none, resultAge := 0 }

/-- The Temperature Unit: zone records by `zoneKey`, area records by area. -/
structure TemperatureUnit where
  zones : Map ZoneRecord
  areas : Map AreaRecord
  deriving DecidableEq, Repr

/-! ### Stock Map -/

/-- Where a piece is (section 6.1). -/
inductive Place where
  | bed (bed : Nat) (x : Int)
  | slot (slot tier : Nat)
  | hook (crane : CraneId)
  | unlocated
  deriving DecidableEq, Repr

inductive Condition where
  | cast
  | curing
  | held
  | shippable
  | rejected
  deriving DecidableEq, Repr

/-- A live piece record (section 6.1), kept under its mark. -/
structure Piece where
  product   : Nat
  pour      : Nat
  length    : Nat
  mass      : Nat
  place     : Place
  zone      : Option Nat
  condition : Condition
  acc       : Nat
  stripAcc  : Option Nat
  move      : Option Nat
  released  : Bool
  deriving DecidableEq, Repr

inductive Role where
  | source
  | destination
  deriving DecidableEq, Repr

/-- What a slot holds (section 6.2): marks from bottom to top, the engaged move, the dig lock. -/
structure Slot where
  stack   : List Nat
  engaged : Option (Nat × Role)
  lock    : Option Nat
  deriving DecidableEq, Repr

/-- An empty, free slot. -/
def Slot.clear : Slot := { stack := [], engaged := none, lock := none }

/-- The Stock Map: pieces by mark, slots by number (a slot not listed is empty and free), the yard interval timer. -/
structure StockMap where
  pieces : Map Piece
  slots  : Map Slot
  timer  : Timer
  deriving DecidableEq, Repr

/-! ### Move Planner -/

inductive MoveKind where
  | strip
  | rehandle
  | ship
  | scrap
  | park
  deriving DecidableEq, Repr

/-- A move's source (R118). -/
inductive Source where
  | bed (bed : Nat) (x : Int)
  | slot (slot : Nat)
  | runway (x : Int)
  deriving DecidableEq, Repr

/-- A move's destination (R118). -/
inductive Dest where
  | slot (slot : Nat)
  | bay (bay : Nat)
  | home
  deriving DecidableEq, Repr

inductive MoveState where
  | queued
  | dispatched
  | suspended
  deriving DecidableEq, Repr

/-- Why a move is SUSPENDED (section 7.1). -/
inductive SuspendReason where
  | loadHigh
  | loadLow
  | held
  | timeout
  | driveFault
  | nodeLost
  | overrun
  | overrunOther
  | mode
  deriving DecidableEq, Repr

/-- A move record (section 7.1). `rank` is the model's own: the move's position in its dig chain as queued (R122). -/
structure Move where
  number : Nat
  kind   : MoveKind
  piece  : Option Nat
  source : Source
  dest   : Option Dest
  chain  : Option Nat
  rank   : Nat
  state  : MoveState
  crane  : Option CraneId
  reason : Option SuspendReason
  deriving DecidableEq, Repr

/-- A reservation `[lo, hi]` and the basis MP last set it from (R119). -/
structure Reservation where
  lo    : Int
  hi    : Int
  basis : List Int
  deriving DecidableEq, Repr

/-- The Move Planner: queue from head to tail, move-number counter, strip backlog, reservations. -/
structure MovePlanner where
  queue   : List Move
  counter : Nat
  backlog : List Nat
  resA    : Option Reservation
  resB    : Option Reservation
  deriving DecidableEq, Repr

/-! ### Crane Supervisors and the commands of the field line -/

/-- The commands of section 9.2. -/
inductive FieldCmd where
  | poll
  | setValve (opening : Nat)
  | goto (x : Int)
  | takeUp
  | lift
  | lower
  | stop
  deriving DecidableEq, Repr

inductive CraneState where
  | unlocated
  | idle
  | toSource
  | takeUp
  | lift
  | toDest
  | lower
  | parking
  | stopped
  | outOfService
  deriving DecidableEq, Repr

/-- The steps of a move (section 8.2). -/
inductive Step where
  | toSource
  | takeUp
  | lift
  | toDest
  | lower
  | parking
  deriving DecidableEq, Repr

inductive StopReason where
  | timeout
  | driveFault
  | nodeLost
  | overrun
  | overrunOther
  | mode
  | clearance
  deriving DecidableEq, Repr

inductive Hook where
  | up
  | strained
  | released
  deriving DecidableEq, Repr

inductive Motion where
  | stopped
  | moving
  deriving DecidableEq, Repr

/-- Where a step command stands (section 8.1); `carried` names the exchange that carried it (R140). -/
inductive CmdState where
  | waiting
  | queued
  | carried (exchange : Nat)
  deriving DecidableEq, Repr

inductive TimeoutKind where
  | travel
  | hook
  deriving DecidableEq, Repr

/-- A supervisor's record (section 8.1), and in `kept` a command outside any step that FL refused (R151, R164). -/
structure Crane where
  state       : CraneState
  slackening  : Bool
  pos         : Option Int
  hook        : Option Hook
  motion      : Option Motion
  driveFault  : Option Bool
  fresh       : Bool
  move        : Option Nat
  dispatchPos : Option Int
  stoppedStep : Option Step
  command     : Option (FieldCmd × CmdState)
  timer       : Option (TimeoutKind × Timer)
  reason      : Option StopReason
  load        : Option Nat
  faults      : Nat
  kept        : Option FieldCmd
  deriving DecidableEq, Repr

/-- A supervisor's record after a reset (R138). -/
def Crane.atReset : Crane :=
  { state := .unlocated, slackening := false, pos := none, hook := none, motion := none, driveFault := none,
    fresh := false, move := none, dispatchPos := none, stoppedStep := none, command := none, timer := none,
    reason := none, load := none, faults := 0, kept := none }

/-! ### Field Link -/

/-- The item that names a node (section 9.3); it fixes the node's kind. -/
inductive Owner where
  | zone (bed zone : Nat)
  | area (area : Nat)
  | crane (crane : CraneId)
  deriving DecidableEq, Repr

inductive NodeKind where
  | zone
  | yard
  | crane
  deriving DecidableEq, Repr

/-- The node kind is the kind of the item that names the address (R8). -/
def Owner.kind : Owner → NodeKind
  | .zone _ _ => .zone
  | .area _ => .yard
  | .crane _ => .crane

inductive Standing where
  | unpolled
  | alive
  | lost
  deriving DecidableEq, Repr

/-- The failure causes of an attempt (R157). -/
inductive AttemptFailure where
  | timeout
  | framing
  | address
  | gap
  | length
  | check
  | content
  deriving DecidableEq, Repr

/-- A node table entry (section 9.3), kept under its address. -/
structure Node where
  owner     : Owner
  standing  : Standing
  misses    : Nat
  lastCause : Option AttemptFailure
  lastReply : Option (List Nat)
  age       : Nat
  deriving DecidableEq, Repr

/-- A node as it enters the table (R8, R158). DESIGN CHOICE (notes/assumptions/26.md): the age of the last good reply of a node
that has none is 0, holds there, and is what READ NODES reports; neither rule gives it a value. -/
def Node.fresh (owner : Owner) : Node :=
  { owner := owner, standing := .unpolled, misses := 0, lastCause := none, lastReply := none, age := 0 }

/-- Who handed FL a directed command (section 9.5). -/
inductive Requester where
  | cc
  | cs (crane : CraneId)
  deriving DecidableEq, Repr

/-- A directed queue entry (section 9.5); its class follows from its command. -/
structure Entry where
  addr : Nat
  cmd  : FieldCmd
  by_  : Requester
  deriving DecidableEq, Repr

/-- The exchange classes of section 9.1. -/
inductive ExchangeClass where
  | stop
  | directed
  | motion
  | round
  deriving DecidableEq, Repr

/-- An exchange (section 9.1): `owner` is the node's item as it stood when the exchange began, `orphan` that the address
has ceased to be named since (R166), `rate` the line rate it began at (R14), `id` its number in order of beginning. -/
structure Exchange where
  id        : Nat
  addr      : Nat
  owner     : Owner
  cls       : ExchangeClass
  cmd       : FieldCmd
  by_       : Option Requester
  attempt   : Nat
  withdrawn : Bool
  orphan    : Bool
  rate      : Nat
  deriving DecidableEq, Repr

/-- The Field Link. `waiting` holds the exchanges waiting for their retry, the one that began last first (R161). -/
structure FieldLink where
  nodes      : Map Node
  queue      : List Entry
  line       : Option Exchange
  waiting    : List Exchange
  repeatStop : Option Entry
  replyTimer : Option Timer
  roundPos   : Nat
  roundOn    : Bool
  roundTimer : Option Timer
  pollA      : Option Timer
  pollB      : Option Timer
  due        : List CraneId
  serial     : Nat
  ties       : Nat
  opened     : Bool
  deriving DecidableEq, Repr

/-- The Field Link with no node and an idle line (R158). DESIGN CHOICE (notes/assumptions/26.md): the round's position is 0
while no round has begun since the start; R162 gives it a value from the start of a round only. -/
def FieldLink.fresh : FieldLink :=
  { nodes := [], queue := [], line := none, waiting := [], repeatStop := none, replyTimer := none, roundPos := 0,
    roundOn := false, roundTimer := none, pollA := none, pollB := none, due := [], serial := 0, ties := 0,
    opened := false }

/-! ### Command Link -/

/-- The status codes of R177. -/
inductive Status where
  | ok
  | clamped
  | busy
  | state
  | mode
  | range
  | unknown
  | mismatch
  | duplicate
  | full
  | notReady
  | locked
  | clearance
  | format
  deriving DecidableEq, Repr

/-- A field of a message, with its width (R172). -/
inductive Field where
  | u8 (n : Nat)
  | u16 (n : Nat)
  | u32 (n : Nat)
  | i8 (v : Int)
  | i16 (v : Int)
  | i32 (v : Int)
  | bytes (bs : List Nat)
  deriving DecidableEq, Repr

/-- What the end of a reply brings about (R173, R180). -/
inductive After where
  | nothing
  | newRate (rate : Nat)
  | restart
  deriving DecidableEq, Repr

/-- A reply in the reply queue (R177): `fields` follow the status and flags bytes. -/
structure Reply where
  kind   : Nat
  tag    : Nat
  status : Status
  fields : List Field
  after  : After
  deriving DecidableEq, Repr

/-- What became of a reported deviation (R34). -/
inductive Recorded where
  | appended
  | replaced
  | dropped
  deriving DecidableEq, Repr

/-- SHORT, OVER or neither, as POUR CLOSED tells it (R35). -/
inductive VolumeNote where
  | short
  | over
  | neither
  deriving DecidableEq, Repr

/-- Where PIECE PLACED and MOVE DONE say a piece now lies. -/
inductive Spot where
  | place (place : Place)
  | bay (bay : Nat)
  deriving DecidableEq, Repr

/-- The notices of section 10.5, each with the contents its rule gives. -/
inductive Notice where
  | started (cause : StartCause) (retained : Bool) (mode : Mode) (aborted : Nat)
  | pourClosed (bed pour : Nat) (code : List Nat) (planned delivered batches : Nat) (cause : CloseCause)
      (note : VolumeNote) (seq : Nat)
  | pourAborted (bed pour delivered batches : Nat) (cause : CloseCause)
  | phase (bed pour : Nat) (phase : Phase)
  | bedReady (bed pour maturity : Nat)
  | bedEmpty (bed pour : Nat)
  | deviation (bed pour : Nat) (entry : Deviation) (outcome : Recorded)
  | heatShort (capacity requested granted short bed zone : Nat) (cls : HeatClass)
  | heatOk (capacity requested : Nat)
  | piecePlaced (mark : Nat) (spot : Spot) (condition : Condition) (maturity move : Nat)
  | pieceShippable (mark slot tier maturity : Nat)
  | moveDone (move : Nat) (kind : MoveKind) (piece : Nat) (spot : Spot)
  | moveSuspended (move piece : Nat) (reason : SuspendReason) (masses : Option (Nat × Nat))
  | craneStopped (crane : CraneId) (reason : StopReason) (pos : Option Int) (move load : Option Nat)
  | nodeLost (addr : Nat) (owner : Owner) (misses : Nat) (cause : Option AttemptFailure)
  | nodeBack (addr : Nat) (owner : Owner)
  deriving DecidableEq, Repr

/-- The frame on the outgoing line, with its flags byte and the rate it is sent at (R173, R177, R179). -/
inductive Frame where
  | reply (reply : Reply) (flags rate : Nat)
  | notice (notice : Notice) (flags rate : Nat)
  deriving DecidableEq, Repr

/-- The receiver (R174): `collecting got` has taken SYNC and then the bytes `got`. -/
inductive Receiver where
  | hunting
  | collecting (got : List Nat)
  deriving DecidableEq, Repr

/-- The Command Link. `places` holds the KIND and TAG of each request in the receive buffer, oldest first (R175). -/
structure CommandLink where
  rx              : Receiver
  lengthDiscards  : Nat
  gapDiscards     : Nat
  framingDiscards : Nat
  checkDiscards   : Nat
  places          : List (Nat × Nat)
  rxOverrun       : Bool
  overruns        : Nat
  replies         : List Reply
  notices         : List Notice
  overflow        : Bool
  dropped         : Nat
  sending         : Option Frame
  rate            : Nat
  restarting      : Bool
  deriving DecidableEq, Repr

/-- The Command Link after a reset, at a line rate (R173 to R175, R178). -/
def CommandLink.fresh (rate : Nat) : CommandLink :=
  { rx := .hunting, lengthDiscards := 0, gapDiscards := 0, framingDiscards := 0, checkDiscards := 0, places := [],
    rxOverrun := false, overruns := 0, replies := [], notices := [], overflow := false, dropped := 0, sending := none,
    rate := rate, restarting := false }

/-! ### The whole -/

/-- The model's own: what the present event has changed that its end must act on. `changed` names the pieces whose
condition changed (R114), `scan` that a trigger of R121 arose. Both are clear between events. -/
structure Changes where
  changed : List Nat
  scan    : Bool
  deriving DecidableEq, Repr

def Changes.none : Changes := { changed := [], scan := false }

/-- The nine blocks' records: all state but the store and the waiting commands. -/
structure Part where
  mc  : ModeControl
  bs  : BedSequencer
  cc  : CuringController
  tu  : TemperatureUnit
  sm  : StockMap
  mp  : MovePlanner
  csA : Crane
  csB : Crane
  fl  : FieldLink
  cl  : CommandLink
  evt : Changes
  deriving DecidableEq, Repr

/-- The machine: the blocks' records, the non-volatile store, and the commands waiting, first in first out. -/
structure State extends Part where
  store   : Store
  pending : List Instr
  deriving DecidableEq, Repr

/-- No step of this machine faults: the manual describes no event that halts the part, and what goes wrong in the plant
is state, a refusal status or a notice. The type is therefore empty; this is safe, since no claim about a fault can be
made true by it. -/
inductive Fault where
  deriving DecidableEq, Repr

/-- Why the model would decline a command. -/
inductive Refusal where
  /-- Raised only by an arm of `exec` whose command has no meaning yet (no arm is in that state). Safe: the machine
  stops where the part goes on. -/
  | notModelled (mnemonic : String)
  deriving DecidableEq, Repr

/-- The six beds, EMPTY. -/
def allVacant : Map Bed :=
  [(1, .vacant), (2, .vacant), (3, .vacant), (4, .vacant), (5, .vacant), (6, .vacant)]

/-- The part of a fresh controller right after its first power-up (R15, R185 to R189): mode SETUP, no records, every
item unconfigured, the two interval timers running, and the STARTED notice on the outgoing line. -/
def Part.reset : Part :=
  { mc := { power := true, backupHeld := true, mode := .setup, startCause := .powerUp, retained := false },
    bs := { beds := allVacant, pours := [], seq := 1 },
    cc := { contexts := [], timer := .start 60000, valves := [], alloc := .fresh },
    tu := { zones := [],
            areas := [(1, .fresh none), (2, .fresh none), (3, .fresh none), (4, .fresh none)] },
    sm := { pieces := [], slots := [], timer := .start 600000 },
    mp := { queue := [], counter := 1, backlog := [], resA := none, resB := none },
    csA := .atReset, csB := .atReset,
    fl := { FieldLink.fresh with opened := true },
    cl := { CommandLink.fresh 115200 with
              sending := some (.notice (.started .powerUp false .setup 0) 0 115200) },
    evt := .none }

/-- The machine right after reset. -/
def State.reset : State := { toPart := Part.reset, store := Store.fresh, pending := [] }

end Sys2Proof.Machine
end

