-- ==== Sys2Proof/Machine/Ops.lean ====
section
/-! DEFINITION. The named operations over the records: every reading and writing of a record kept by number, the
setting-dependent quantities, raising a notice, and noting what the present event changed. A function on the part
takes the store `g` it reads and never returns one. -/

namespace Sys2Proof.Machine

/-! ### Configuration -/

/-- The key of a zone: zone 3 of bed 2 is 23. Zones run 1 to 4, so ascending keys are ascending bed, then zone. -/
def zoneKey (bed zone : Nat) : Nat := 10 * bed + zone

/-- The bed of a zone key. -/
def keyBed (k : Nat) : Nat := k / 10

/-- The zone of a zone key. -/
def keyZone (k : Nat) : Nat := k % 10

/-- The configured zones of a bed, from west to east; none for an unconfigured bed. -/
def zonesOf (g : Store) (bed : Nat) : List ZoneCfg :=
  match Map.find g.beds bed with
  | some cfg => cfg.zones
  | none => []

/-- Zone `zone` of a bed. -/
def zoneCfg (g : Store) (bed zone : Nat) : Option ZoneCfg :=
  if zone = 0 then none else (zonesOf g bed)[zone - 1]?

/-- Zone numbers of a list of zones, from a first number on. -/
def numbered {α : Type} : Nat → List α → List (Nat × α)
  | _, [] => []
  | n, z :: zs => (n, z) :: numbered (n + 1) zs

/-- Every configured zone as (bed, zone, zone record), ascending. -/
def allZones (g : Store) : List (Nat × Nat × ZoneCfg) :=
  g.beds.flatMap fun b => (numbered 1 b.2.zones).map fun z => (b.1, z.1, z.2)

/-- A crane's configuration, absent while it is unconfigured. -/
def craneCfg (g : Store) : CraneId → Option CraneCfg
  | .A => g.craneA
  | .B => g.craneB

/-- A crane's node address. -/
def craneNode (g : Store) (c : CraneId) : Option Nat := (craneCfg g c).map (·.node)

/-- The other crane. -/
def otherCrane : CraneId → CraneId
  | .A => .B
  | .B => .A

/-- Every named address with the item that names it (R8). -/
def namedItems (g : Store) : List (Nat × Owner) :=
  (allZones g).map (fun z => (z.2.2.node, Owner.zone z.1 z.2.1)) ++
  g.areas.map (fun a => (a.2, Owner.area a.1)) ++
  (match g.craneA with | some c => [(c.node, Owner.crane .A)] | none => []) ++
  (match g.craneB with | some c => [(c.node, Owner.crane .B)] | none => [])

/-- The entry of the product table under an index. -/
def product (g : Store) (index : Nat) : Option Product := Map.find g.products index

/-- The index of the DEFINED entry with a code, and the entry. -/
def productByCode (g : Store) (code : List Nat) : Option (Nat × Product) :=
  g.products.find? fun e => e.2.code == code

/-- Seconds as ms. -/
def seconds (v : Int) : Nat := v.toNat * 1000

/-- Minutes as ms. -/
def minutes (v : Int) : Nat := v.toNat * 60000

/-! ### Records by number -/

/-- A bed's record; a bed never written is EMPTY. -/
def bedOf (p : Part) (bed : Nat) : Bed := (Map.find p.bs.beds bed).getD .vacant

def putBed (bed : Nat) (r : Bed) (p : Part) : Part := { p with bs := { p.bs with beds := Map.put p.bs.beds bed r } }

def pourOf (p : Part) (pour : Nat) : Option Pour := Map.find p.bs.pours pour

def putPour (pour : Nat) (r : Pour) (p : Part) : Part :=
  { p with bs := { p.bs with pours := Map.put p.bs.pours pour r } }

def freePour (pour : Nat) (p : Part) : Part := { p with bs := { p.bs with pours := Map.del p.bs.pours pour } }

def contextOf (p : Part) (bed : Nat) : Option Context := Map.find p.cc.contexts bed

def putContext (bed : Nat) (r : Context) (p : Part) : Part :=
  { p with cc := { p.cc with contexts := Map.put p.cc.contexts bed r } }

/-- CC removes a bed's context with its zone records (R52). -/
def closeContext (bed : Nat) (p : Part) : Part :=
  { p with cc := { p.cc with contexts := Map.del p.cc.contexts bed } }

def valveOf (p : Part) (bed zone : Nat) : Valve := (Map.find p.cc.valves (zoneKey bed zone)).getD .fresh

def putValve (bed zone : Nat) (v : Valve) (p : Part) : Part :=
  { p with cc := { p.cc with valves := Map.put p.cc.valves (zoneKey bed zone) v } }

def zoneRecord (p : Part) (bed zone : Nat) : Option ZoneRecord := Map.find p.tu.zones (zoneKey bed zone)

def putZoneRecord (bed zone : Nat) (r : ZoneRecord) (p : Part) : Part :=
  { p with tu := { p.tu with zones := Map.put p.tu.zones (zoneKey bed zone) r } }

def areaRecord (p : Part) (area : Nat) : AreaRecord := (Map.find p.tu.areas area).getD (.fresh none)

def putAreaRecord (area : Nat) (r : AreaRecord) (p : Part) : Part :=
  { p with tu := { p.tu with areas := Map.put p.tu.areas area r } }

def pieceOf (p : Part) (mark : Nat) : Option Piece := Map.find p.sm.pieces mark

def putPiece (mark : Nat) (r : Piece) (p : Part) : Part :=
  { p with sm := { p.sm with pieces := Map.put p.sm.pieces mark r } }

def dropPiece (mark : Nat) (p : Part) : Part :=
  { p with sm := { p.sm with pieces := Map.del p.sm.pieces mark } }

/-- What a slot holds; a slot never written is empty and free. -/
def slotOf (p : Part) (slot : Nat) : Slot := (Map.find p.sm.slots slot).getD .clear

def putSlot (slot : Nat) (r : Slot) (p : Part) : Part :=
  { p with sm := { p.sm with slots := Map.put p.sm.slots slot r } }

/-- Change every slot's contents. -/
def mapSlots (f : Slot → Slot) (p : Part) : Part :=
  { p with sm := { p.sm with slots := Map.mapRecords (fun _ r => f r) p.sm.slots } }

/-- The move with a number, if it is in the queue. -/
def moveOf (p : Part) (n : Nat) : Option Move := p.mp.queue.find? fun m => m.number == n

/-- Write a move back in its place in the queue. -/
def putMove (m : Move) (p : Part) : Part :=
  { p with mp := { p.mp with queue := p.mp.queue.map fun k => if k.number = m.number then m else k } }

def setQueue (q : List Move) (p : Part) : Part := { p with mp := { p.mp with queue := q } }

def craneOf (p : Part) : CraneId → Crane
  | .A => p.csA
  | .B => p.csB

def putCrane (c : CraneId) (r : Crane) (p : Part) : Part :=
  match c with
  | .A => { p with csA := r }
  | .B => { p with csB := r }

def reservationOf (p : Part) : CraneId → Option Reservation
  | .A => p.mp.resA
  | .B => p.mp.resB

/-- Write a crane's reservation as it stands, with no check and no trigger. -/
def writeReservation (c : CraneId) (r : Option Reservation) (p : Part) : Part :=
  match c with
  | .A => { p with mp := { p.mp with resA := r } }
  | .B => { p with mp := { p.mp with resB := r } }

def nodeOf (p : Part) (addr : Nat) : Option Node := Map.find p.fl.nodes addr

def putNode (addr : Nat) (r : Node) (p : Part) : Part :=
  { p with fl := { p.fl with nodes := Map.put p.fl.nodes addr r } }

/-- Whether FL holds a node LOST; UNPOLLED, and an address not named, count as not LOST (R158). -/
def nodeLost (p : Part) (addr : Nat) : Bool :=
  match nodeOf p addr with
  | some nd => nd.standing == .lost
  | none => false

/-! ### Pieces and pours -/

/-- Reported maturity in whole °C·h (R60, R100). -/
def reported (acc : Nat) : Nat := acc / Config.perDegreeHour

/-- The pieces of a pour that lie on a bed, in the pour's list order (R29). -/
def piecesOnBed (p : Part) (bed pour : Nat) : List Nat :=
  match pourOf p pour with
  | none => []
  | some r => r.order.filter fun mark =>
      match pieceOf p mark with
      | some q => q.pour == pour && (match q.place with | .bed b _ => b == bed | _ => false)
      | none => false

/-- The live pieces of a pour in its list order, wherever they lie (R93). -/
def piecesOfPour (p : Part) (pour : Nat) : List Nat :=
  match pourOf p pour with
  | none => []
  | some r => r.order.filter fun mark =>
      match pieceOf p mark with
      | some q => q.pour == pour
      | none => false

/-- The mass of the pieces stacked on a slot (R95). -/
def stackMass (p : Part) (stack : List Nat) : Nat :=
  (stack.map fun mark => match pieceOf p mark with | some q => q.mass | none => 0).sum

/-! ### Maturity of a bed -/

/-- The least of a list of numbers. -/
def leastNat : List Nat → Option Nat
  | [] => none
  | a :: l => match leastNat l with
    | none => some a
    | some b => some (min a b)

/-- The least of a list of temperatures. -/
def leastInt : List Int → Option Int
  | [] => none
  | a :: l => match leastInt l with
    | none => some a
    | some b => some (min a b)

/-- Bed maturity: the least reported maturity among the included zones (R60). DESIGN CHOICE (notes/assumptions/23.md): a READ
BED between ZONE OUT and the next curing interval expiry leaves the zone out already, by R53 and R60, where R28 leaves it
out from that expiry onward. -/
def bedMaturity (ctx : Context) : Nat :=
  (leastNat ((ctx.zones.filter fun z => !z.2.excluded).map fun z => reported z.2.acc)).getD 0

/-- Curing minutes of a context (R64). -/
def curingMinutes (ctx : Context) : Nat := min 65535 (ctx.curingTime / 60)

/-! ### Notices and the event's changes -/

/-- A block raises a notice: it joins the tail, or is dropped when the queue is full (R178). -/
def raise (n : Notice) (p : Part) : Part :=
  if p.cl.notices.length < Config.noticePlaces then
    { p with cl := { p.cl with notices := p.cl.notices ++ [n] } }
  else
    { p with cl := { p.cl with overflow := true, dropped := satSucc 65535 p.cl.dropped } }

/-- A trigger of the dispatch scan arose in this event (R121). -/
def triggerScan (p : Part) : Part := { p with evt := { p.evt with scan := true } }

/-- SM's stock change: a trigger of the scan, and the pieces whose condition the event changed (R114). -/
def stockChange (marks : List Nat) (p : Part) : Part :=
  { p with evt := { changed := p.evt.changed ++ marks, scan := true } }

/-! ### Time -/

/-- 1 ms passes on a timer; a timer run down waits for its expiry event. -/
def Timer.tick (t : Timer) : Timer := { t with left := t.left - 1 }

/-- 1 ms passes on an age (R38). -/
def ageTick (age : Nat) : Nat := min Config.maxAge (age + 1)

end Sys2Proof.Machine
end

