-- ==== Sys2Proof/Machine/Clock.lean ====
section
/-! DEFINITION. What 1 ms of elapsed time does while main power is present (notes/assumptions/1.md): ages rise to
their greatest value (R38, R166) and the time left on each running timer falls. An expiry is a command. -/

namespace Sys2Proof.Machine

/-- 1 ms passes on a probe slot; an absent value has no age (R38). -/
def tickProbe (r : Probe) : Probe := if r.value.isSome then { r with age := ageTick r.age } else r

/-- 1 ms passes on a zone record (R38). -/
def tickZone (r : ZoneRecord) : ZoneRecord :=
  { r with probe1 := tickProbe r.probe1, probe2 := tickProbe r.probe2, probe3 := tickProbe r.probe3,
           resultAge := if r.result.isSome then ageTick r.resultAge else r.resultAge }

/-- 1 ms passes on an area record (R38). -/
def tickArea (r : AreaRecord) : AreaRecord :=
  { r with age := if r.value.isSome then ageTick r.age else r.age
           resultAge := if r.result.isSome then ageTick r.resultAge else r.resultAge }

/-- 1 ms passes on a node table entry (R166). -/
def tickNode (r : Node) : Node := if r.lastReply.isSome then { r with age := ageTick r.age } else r

/-- 1 ms passes on a bed's gap timer. -/
def tickBed (r : Bed) : Bed := { r with gap := r.gap.map Timer.tick }

/-- 1 ms passes on a step timer. -/
def tickCrane (r : Crane) : Crane := { r with timer := r.timer.map fun t => (t.1, t.2.tick) }

/-- 1 ms passes on the Field Link. -/
def tickField (f : FieldLink) : FieldLink :=
  { f with nodes := Map.mapRecords (fun _ r => tickNode r) f.nodes, replyTimer := f.replyTimer.map Timer.tick,
           roundTimer := f.roundTimer.map Timer.tick, pollA := f.pollA.map Timer.tick, pollB := f.pollB.map Timer.tick }

/-- 1 ms passes on the part. -/
def tickPart (p : Part) : Part :=
  { p with
    bs := { p.bs with beds := Map.mapRecords (fun _ r => tickBed r) p.bs.beds }
    cc := { p.cc with timer := p.cc.timer.tick }
    tu := { zones := Map.mapRecords (fun _ r => tickZone r) p.tu.zones
            areas := Map.mapRecords (fun _ r => tickArea r) p.tu.areas }
    sm := { p.sm with timer := p.sm.timer.tick }
    csA := tickCrane p.csA
    csB := tickCrane p.csB
    fl := tickField p.fl }

/-- 1 ms passes; without main power nothing runs. -/
def tick (s : State) : State := if s.mc.power then { s with toPart := tickPart s.toPart } else s

end Sys2Proof.Machine
end

