-- ==== Sys2Proof/Machine/Operands.lean ====
section
/-! DEFINITION. The operands of requests: identifiers and their ranges (R2), the plant settings by number (section
1.3), product codes (section 1.2). -/

namespace Sys2Proof.Machine

/-- Whether an identifier lies in `1..last` (R2). -/
def isId (last n : Nat) : Bool := decide (1 ≤ n) && decide (n ≤ last)

/-- A crane is named by one byte, 0x41 for A and 0x42 for B (R172). -/
def craneOfByte : Nat → Option CraneId
  | 0x41 => some .A
  | 0x42 => some .B
  | _ => none

def craneByte : CraneId → Nat
  | .A => 0x41
  | .B => 0x42

/-- A mode by its code (R183). -/
def modeOfCode : Nat → Option Mode
  | 0 => some .setup
  | 1 => some .watch
  | 2 => some .run
  | _ => none

/-- A character of a product code: A to Z, 0 to 9, or '-' (section 1.2). -/
def isCodeChar (b : Nat) : Bool :=
  (decide (65 ≤ b) && decide (b ≤ 90)) || (decide (48 ≤ b) && decide (b ≤ 57)) || b == 45

/-- A product code: eight such characters (section 1.2). -/
def isProductCode (code : List Nat) : Bool := decide (code.length = 8) && code.all isCodeChar

/-- Whether a position lies on the runway (R1). -/
def onRunway (g : Store) (x : Int) : Bool := decide (0 ≤ x) && decide (x ≤ g.runway)

/-! ### Plant settings by number -/

/-- The value of setting `n`. -/
def Settings.value (g : Settings) : Nat → Option Int
  | 1 => some g.agreementBand
  | 2 => some g.datum
  | 3 => some g.curingInterval
  | 4 => some g.yardInterval
  | 5 => some g.holdLastGood
  | 6 => some g.starveLimit
  | 7 => some g.overtempMargin
  | 8 => some g.minimumFresh
  | 9 => some g.coldJointLimit
  | 10 => some g.volumeTolerance
  | 11 => some g.maximumBatch
  | 12 => some g.clearance
  | 13 => some g.arrivalTolerance
  | 14 => some g.travelTimeout
  | 15 => some g.hookTimeout
  | 16 => some g.loadTolerance
  | 17 => some g.cranePollPeriod
  | 18 => some g.replyTimeout
  | 19 => some g.missLimit
  | 20 => some g.faultFilter
  | 21 => some g.roundMinimum
  | 22 => some g.fieldLineRate
  | 23 => some g.commandLineRate
  | 24 => some g.interCharacter
  | 25 => some g.deviationMode
  | 26 => some g.startUpMode
  | 27 => some g.retain
  | _ => none

/-- Setting `n` with a new value. -/
def Settings.change (g : Settings) (n : Nat) (v : Int) : Settings :=
  match n with
  | 1 => { g with agreementBand := v }
  | 2 => { g with datum := v }
  | 3 => { g with curingInterval := v }
  | 4 => { g with yardInterval := v }
  | 5 => { g with holdLastGood := v }
  | 6 => { g with starveLimit := v }
  | 7 => { g with overtempMargin := v }
  | 8 => { g with minimumFresh := v }
  | 9 => { g with coldJointLimit := v }
  | 10 => { g with volumeTolerance := v }
  | 11 => { g with maximumBatch := v }
  | 12 => { g with clearance := v }
  | 13 => { g with arrivalTolerance := v }
  | 14 => { g with travelTimeout := v }
  | 15 => { g with hookTimeout := v }
  | 16 => { g with loadTolerance := v }
  | 17 => { g with cranePollPeriod := v }
  | 18 => { g with replyTimeout := v }
  | 19 => { g with missLimit := v }
  | 20 => { g with faultFilter := v }
  | 21 => { g with roundMinimum := v }
  | 22 => { g with fieldLineRate := v }
  | 23 => { g with commandLineRate := v }
  | 24 => { g with interCharacter := v }
  | 25 => { g with deviationMode := v }
  | 26 => { g with startUpMode := v }
  | 27 => { g with retain := v }
  | _ => g

/-- The range of a setting that is clamped: 1 to 21, 23 and 24 (R11). -/
def clampRange : Nat → Option (Int × Int)
  | 1 => some (10, 100)
  | 2 => some (-100, 0)
  | 3 => some (30, 600)
  | 4 => some (60, 3600)
  | 5 => some (0, 10)
  | 6 => some (1, 60)
  | 7 => some (10, 150)
  | 8 => some (0, 150)
  | 9 => some (5, 120)
  | 10 => some (0, 10)
  | 11 => some (10, 150)
  | 12 => some (50, 500)
  | 13 => some (1, 20)
  | 14 => some (30, 900)
  | 15 => some (10, 300)
  | 16 => some (2, 25)
  | 17 => some (50, 500)
  | 18 => some (2, 50)
  | 19 => some (1, 8)
  | 20 => some (1, 8)
  | 21 => some (100, 5000)
  | 23 => some (19200, 230400)
  | 24 => some (5, 100)
  | _ => none

/-- The greatest code of a setting whose value is a code: 25, 26 and 27 (R11). -/
def greatestCode : Nat → Option Int
  | 25 => some 1
  | 26 => some 2
  | 27 => some 1
  | _ => none

/-- The listed field line rate nearest to a value, the lower of two at equal distance (R11). -/
def nearestRate (v : Int) : Int :=
  if distance v 38400 ≤ distance v 57600 then
    if distance v 38400 ≤ distance v 115200 then 38400 else 115200
  else if distance v 57600 ≤ distance v 115200 then 57600 else 115200

/-- The value setting `n` takes for a requested value, or none where the value is a code not listed (R11). -/
def settingTaken (n : Nat) (v : Int) : Option Int :=
  match clampRange n with
  | some (lo, hi) => some (clampInt lo hi v)
  | none => match greatestCode n with
    | some top => if 0 ≤ v ∧ v ≤ top then some v else none
    | none => some (nearestRate v)

/-- The plant settings as READ PLANT reports them, each in the width of its range (R16, R172). -/
def Settings.fields (g : Settings) : List Field := [
   .u8 g.agreementBand.toNat,
   .i8 g.datum,
   .u16 g.curingInterval.toNat,
   .u16 g.yardInterval.toNat,
   .u8 g.holdLastGood.toNat,
   .u8 g.starveLimit.toNat,
   .u8 g.overtempMargin.toNat,
   .u8 g.minimumFresh.toNat,
   .u8 g.coldJointLimit.toNat,
   .u8 g.volumeTolerance.toNat,
   .u8 g.maximumBatch.toNat,
   .u16 g.clearance.toNat,
   .u8 g.arrivalTolerance.toNat,
   .u16 g.travelTimeout.toNat,
   .u16 g.hookTimeout.toNat,
   .u8 g.loadTolerance.toNat,
   .u16 g.cranePollPeriod.toNat,
   .u8 g.replyTimeout.toNat,
   .u8 g.missLimit.toNat,
   .u8 g.faultFilter.toNat,
   .u16 g.roundMinimum.toNat,
   .u32 g.fieldLineRate.toNat,
   .u32 g.commandLineRate.toNat,
   .u8 g.interCharacter.toNat,
   .u8 g.deviationMode.toNat,
   .u8 g.startUpMode.toNat,
   .u8 g.retain.toNat]

end Sys2Proof.Machine
end

