-- ==== Sys2Proof/Machine/Flags.lean ====
section
/-! DEFINITION. Status codes, the flags byte, and the byte forms of fields and messages (R172, R177, R179). An
enumerated value is one byte counting from 0 in the order its owning chapter lists the values. -/

namespace Sys2Proof.Machine

/-- Status codes (R177). -/
def Status.byte : Status → Nat
  | .ok => 0x00
  | .clamped => 0x01
  | .busy => 0x10
  | .state => 0x11
  | .mode => 0x12
  | .range => 0x13
  | .unknown => 0x14
  | .mismatch => 0x15
  | .duplicate => 0x16
  | .full => 0x17
  | .notReady => 0x18
  | .locked => 0x19
  | .clearance => 0x1A
  | .format => 0x1F

/-- The flags byte: RX_OVERRUN bit 0, NOTICE_PENDING bit 1, NOTICE_OVERFLOW_SEEN bit 2 (R177). -/
def flagsByte (rxOverrun noticePending overflowSeen : Bool) : Nat :=
  (if rxOverrun then 1 else 0) + (if noticePending then 2 else 0) + (if overflowSeen then 4 else 0)

/-! ### Fields and their bytes -/

/-- The bytes of a field, big-endian (R172). -/
def Field.toBytes : Field → List Nat
  | .u8 n => Sys2Proof.toBytes 1 n
  | .u16 n => Sys2Proof.toBytes 2 n
  | .u32 n => Sys2Proof.toBytes 4 n
  | .i8 v => Sys2Proof.toBytes 1 (unsignedOf 8 v)
  | .i16 v => Sys2Proof.toBytes 2 (unsignedOf 16 v)
  | .i32 v => Sys2Proof.toBytes 4 (unsignedOf 32 v)
  | .bytes bs => bs

/-- A flag, 1 when set. DESIGN CHOICE (notes/assumptions/6.md): R172 gives no byte for "set or clear". -/
def flagField (b : Bool) : Field := .u8 (if b then 1 else 0)

/-- An optional field: presence byte, then the field if it is present (R172). -/
def optFields {α : Type} (x : Option α) (f : α → List Field) : List Field :=
  match x with
  | none => [.u8 0]
  | some a => .u8 1 :: f a

/-- A list: count byte, then the entries (R172). -/
def listFields {α : Type} (xs : List α) (f : α → List Field) : List Field := .u8 xs.length :: xs.flatMap f

/-- A position in dm, two unsigned bytes. -/
def posField (x : Int) : Field := .u16 x.toNat

/-! ### Enumerated values -/

def Mode.code : Mode → Nat
  | .setup => 0
  | .watch => 1
  | .run => 2

def StartCause.code : StartCause → Nat
  | .powerUp => 0
  | .resetPin => 1
  | .restart => 2

def BedState.code : BedState → Nat
  | .empty => 0
  | .prepared => 1
  | .pouring => 2
  | .curing => 3
  | .ready => 4
  | .stripping => 5
  | .rejected => 6

def DeviationKind.code : DeviationKind → Nat
  | .short => 0
  | .over => 1
  | .freeze => 2
  | .overtemp => 3
  | .unmeasured => 4
  | .starved => 5
  | .zoneExcluded => 6
  | .powerGap => 7

/-- Whether the severity of a kind is REVIEW; the others are NOTE (section 2.8). -/
def DeviationKind.isReview : DeviationKind → Bool
  | .short => true
  | .over => false
  | .freeze => true
  | .overtemp => true
  | .unmeasured => true
  | .starved => false
  | .zoneExcluded => true
  | .powerGap => true

def PourState.code : PourState → Nat
  | .opened => 0
  | .closed => 1
  | .aborted => 2

def CloseCause.code : CloseCause → Nat
  | .volume => 0
  | .ended => 1
  | .gap => 2
  | .power => 3

def Phase.code : Phase → Nat
  | .preset => 0
  | .ramp => 1
  | .hold => 2
  | .cool => 3
  | .finished => 4

def HeatClass.code : HeatClass → Nat
  | .none => 0
  | .frost => 1
  | .hold => 2
  | .ramp => 3
  | .cool => 4

def AllocKind.code : AllocKind → Nat
  | .allocated => 0
  | .withheld => 1
  | .null => 2

def Validity.code : Validity → Nat
  | .noneReceived => 0
  | .lost => 1
  | .opened => 2
  | .range => 3
  | .stale => 4
  | .valid => 5

def Unmeasured.code : Unmeasured → Nat
  | .tooFew => 0
  | .disagree => 1

def Basis.code : Basis → Nat
  | .median => 0
  | .pair _ => 1
  | .two => 2

def Condition.code : Condition → Nat
  | .cast => 0
  | .curing => 1
  | .held => 2
  | .shippable => 3
  | .rejected => 4

def Role.code : Role → Nat
  | .source => 0
  | .destination => 1

def MoveKind.code : MoveKind → Nat
  | .strip => 0
  | .rehandle => 1
  | .ship => 2
  | .scrap => 3
  | .park => 4

def MoveState.code : MoveState → Nat
  | .queued => 0
  | .dispatched => 1
  | .suspended => 2

def SuspendReason.code : SuspendReason → Nat
  | .loadHigh => 0
  | .loadLow => 1
  | .held => 2
  | .timeout => 3
  | .driveFault => 4
  | .nodeLost => 5
  | .overrun => 6
  | .overrunOther => 7
  | .mode => 8

def CraneState.code : CraneState → Nat
  | .unlocated => 0
  | .idle => 1
  | .toSource => 2
  | .takeUp => 3
  | .lift => 4
  | .toDest => 5
  | .lower => 6
  | .parking => 7
  | .stopped => 8
  | .outOfService => 9

def Step.code : Step → Nat
  | .toSource => 0
  | .takeUp => 1
  | .lift => 2
  | .toDest => 3
  | .lower => 4
  | .parking => 5

def StopReason.code : StopReason → Nat
  | .timeout => 0
  | .driveFault => 1
  | .nodeLost => 2
  | .overrun => 3
  | .overrunOther => 4
  | .mode => 5
  | .clearance => 6

def Hook.code : Hook → Nat
  | .up => 0
  | .strained => 1
  | .released => 2

def Motion.code : Motion → Nat
  | .stopped => 0
  | .moving => 1

def CmdState.code : CmdState → Nat
  | .waiting => 0
  | .queued => 1
  | .carried _ => 2

def TimeoutKind.code : TimeoutKind → Nat
  | .travel => 0
  | .hook => 1

def NodeKind.code : NodeKind → Nat
  | .zone => 0
  | .yard => 1
  | .crane => 2

def Standing.code : Standing → Nat
  | .unpolled => 0
  | .alive => 1
  | .lost => 2

/-- TIMEOUT, which R157 gives beside its table, counts as the first cause. -/
def AttemptFailure.code : AttemptFailure → Nat
  | .timeout => 0
  | .framing => 1
  | .address => 2
  | .gap => 3
  | .length => 4
  | .check => 5
  | .content => 6

def ExchangeClass.code : ExchangeClass → Nat
  | .stop => 0
  | .directed => 1
  | .motion => 2
  | .round => 3

def Recorded.code : Recorded → Nat
  | .appended => 0
  | .replaced => 1
  | .dropped => 2

def VolumeNote.code : VolumeNote → Nat
  | .short => 0
  | .over => 1
  | .neither => 2

def Requester.code : Requester → Nat
  | .cc => 0
  | .cs .A => 1
  | .cs .B => 2

/-- Command codes of the field line (section 9.2). -/
def FieldCmd.code : FieldCmd → Nat
  | .poll => 0x10
  | .setValve _ => 0x21
  | .goto _ => 0x32
  | .takeUp => 0x43
  | .lift => 0x44
  | .lower => 0x45
  | .stop => 0x5A

/-- Data characters of a field command (section 9.2). -/
def FieldCmd.data : FieldCmd → List Nat
  | .setValve n => [n % 256]
  | .goto x => Sys2Proof.toBytes 2 x.toNat
  | _ => []

/-! ### Groups of fields that several messages share -/

/-- The item that names a node (R168): bed and zone, area, or crane, after the kind. -/
def Owner.fields : Owner → List Field
  | .zone b z => [.u8 b, .u8 z]
  | .area a => [.u8 a]
  | .crane c => [.u8 (craneByte c)]

/-- A piece's place: which of the four, then its particulars. -/
def Place.fields : Place → List Field
  | .bed b x => [.u8 0, .u8 b, posField x]
  | .slot n t => [.u8 1, .u8 n, .u8 t]
  | .hook c => [.u8 2, .u8 (craneByte c)]
  | .unlocated => [.u8 3]

/-- A deviation entry (R33): kind, severity, zone, value, curing minutes. -/
def Deviation.fields (d : Deviation) : List Field :=
  [.u8 d.kind.code, .u8 (if d.kind.isReview then 0 else 1)] ++ optFields d.zone (fun z => [.u8 z]) ++
  [.i16 d.value, .u16 d.minutes]

/-- A notice's KIND (section 10.5). -/
def Notice.kind : Notice → Nat
  | .started .. => 0x70
  | .pourClosed .. => 0x71
  | .pourAborted .. => 0x72
  | .phase .. => 0x73
  | .bedReady .. => 0x74
  | .bedEmpty .. => 0x75
  | .deviation .. => 0x76
  | .heatShort .. => 0x77
  | .heatOk .. => 0x78
  | .piecePlaced .. => 0x79
  | .pieceShippable .. => 0x7A
  | .moveDone .. => 0x7B
  | .moveSuspended .. => 0x7C
  | .craneStopped .. => 0x7D
  | .nodeLost .. => 0x7E
  | .nodeBack .. => 0x7F

/-- A notice's fields, in the order its rule lists them (R172). DESIGN CHOICE (notes/assumptions/6.md): the strain and
record masses of MOVE SUSPENDED, which R143 lists and R128 and R145 do not, have no presence byte; the reason tells whether
they follow. CRANE STOPPED's last position and NODE LOST's last failure cause have one, because sections 8.1 and 9.3 make them
optional, though R145 and R168 list them without "or absent". -/
def Notice.fields : Notice → List Field
  | .started cause retained mode aborted => [.u8 cause.code, flagField retained, .u8 mode.code, .u8 aborted]
  | .pourClosed bed pour code planned delivered batches cause note seq =>
    [.u8 bed, .u8 pour, .bytes code, .u16 planned, .u16 delivered, .u8 batches, .u8 cause.code, .u8 note.code,
     .u32 seq]
  | .pourAborted bed pour delivered batches cause => [.u8 bed, .u8 pour, .u16 delivered, .u8 batches, .u8 cause.code]
  | .phase bed pour ph => [.u8 bed, .u8 pour, .u8 ph.code]
  | .bedReady bed pour maturity => [.u8 bed, .u8 pour, .u32 maturity]
  | .bedEmpty bed pour => [.u8 bed, .u8 pour]
  | .deviation bed pour entry outcome => [.u8 bed, .u8 pour] ++ entry.fields ++ [.u8 outcome.code]
  | .heatShort capacity requested granted short bed zone cls =>
    [.u16 capacity, .u32 requested, .u32 granted, .u8 short, .u8 bed, .u8 zone, .u8 cls.code]
  | .heatOk capacity requested => [.u16 capacity, .u32 requested]
  | .piecePlaced mark spot condition maturity move =>
    [.u16 mark] ++
    (match spot with
     | .place (.slot n t) => [.u8 n, .u8 t]
     | .place q => q.fields
     | .bay n => [.u8 n]) ++
    [.u8 condition.code, .u32 maturity, .u8 move]
  | .pieceShippable mark slot tier maturity => [.u16 mark, .u8 slot, .u8 tier, .u32 maturity]
  | .moveDone move kind piece spot =>
    [.u8 move, .u8 kind.code, .u16 piece] ++
    (match spot with
     | .place q => q.fields
     | .bay n => [.u8 4, .u8 n])
  | .moveSuspended move piece reason masses =>
    [.u8 move, .u16 piece, .u8 reason.code] ++
    (match masses with
     | some (strain, mass) => [.u16 strain, .u16 mass]
     | none => [])
  | .craneStopped crane reason pos move load =>
    [.u8 (craneByte crane), .u8 reason.code] ++ optFields pos (fun x => [posField x]) ++
    optFields move (fun n => [.u8 n]) ++ optFields load (fun m => [.u16 m])
  | .nodeLost addr owner misses cause =>
    [.u8 addr, .u8 owner.kind.code] ++ owner.fields ++ [.u8 misses] ++ optFields cause (fun c => [.u8 c.code])
  | .nodeBack addr owner => [.u8 addr, .u8 owner.kind.code] ++ owner.fields

end Sys2Proof.Machine
end

