-- ==== Sys2Proof/Machine/FieldOps.lean ====
section
/-! DEFINITION. The Field Link's shared operations (chapter 9): the directed queue, the choice of the next exchange,
rounds, motion polls, withdrawal, and the node table under a change of configuration. The step timer of a supervisor is
here too, because an accepted step command starts it (R139). -/

namespace Sys2Proof.Machine

/-- The directed classes (section 9.2). -/
inductive DirectedClass where
  | valve
  | travel
  | hook
  | stop
  deriving DecidableEq, Repr

/-- The directed class of a command; POLL has none (section 9.2). -/
def directedClass : FieldCmd → Option DirectedClass
  | .poll => none
  | .setValve _ => some .valve
  | .goto _ => some .travel
  | .takeUp => some .hook
  | .lift => some .hook
  | .lower => some .hook
  | .stop => some .stop

/-- Whether a command is a STOP. -/
def isStop (cmd : FieldCmd) : Bool := directedClass cmd == some .stop

/-! ### Step timers -/

/-- The timeout of a step (table of section 8.2). -/
def timeoutKind : CraneState → TimeoutKind
  | .toSource => .travel
  | .toDest => .travel
  | .parking => .travel
  | _ => .hook

def timeoutLength (g : Store) : TimeoutKind → Nat
  | .travel => seconds g.plant.travelTimeout
  | .hook => seconds g.plant.hookTimeout

/-- The timer starts at the first acceptance of the step's command and then runs on (R139). -/
def startStepTimer (g : Store) (r : Crane) : Crane :=
  match r.timer with
  | some _ => r
  | none => { r with timer := some (timeoutKind r.state, .start (timeoutLength g (timeoutKind r.state))) }

/-! ### Offers to the directed queue -/

/-- FL's answer to an offer (R164). -/
inductive Offer where
  | accepted
  | refused
  | discarded
  deriving DecidableEq, Repr

/-- Whether an entry has the address and class of another (R164). -/
def sameEntry (e d : Entry) : Bool := d.addr == e.addr && directedClass d.cmd == directedClass e.cmd

/-- The entries that count against the sixteen places (R164). -/
def placesTaken (q : List Entry) : Nat := (q.filter fun e => !isStop e.cmd).length

def setDirected (q : List Entry) (p : Part) : Part := { p with fl := { p.fl with queue := q } }

/-- The directed queue judges an offer (R164): a LOST node discards it, a pending entry of its class is replaced in
place, a STOP or an entry with room joins at the tail, and otherwise it is refused. -/
def enqueue (e : Entry) (p : Part) : Offer × Part :=
  match nodeOf p e.addr with
  | none => (.discarded, p)
  | some nd =>
    if nd.standing = .lost then (.discarded, p)
    else if p.fl.queue.any (sameEntry e) then
      (.accepted, setDirected (p.fl.queue.map fun d => if sameEntry e d then e else d) p)
    else if isStop e.cmd || decide (placesTaken p.fl.queue < Config.directedPlaces) then
      (.accepted, setDirected (p.fl.queue ++ [e]) p)
    else (.refused, p)

/-- What a supervisor does with FL's answer to its step command (R139): QUEUED with the timer started, WAITING, or, for
a discarded offer, no copy kept (R164). -/
def commandAnswered (g : Store) (c : CraneId) (cmd : FieldCmd) (answer : Offer) (p : Part) : Part :=
  match answer with
  | .accepted => putCrane c (startStepTimer g { craneOf p c with command := some (cmd, .queued) }) p
  | .refused => putCrane c { craneOf p c with command := some (cmd, .waiting) } p
  | .discarded => putCrane c { craneOf p c with command := none } p

/-- The command a supervisor holds WAITING. -/
def waitingCommand (p : Part) (c : CraneId) : Option FieldCmd :=
  match (craneOf p c).command with
  | some (cmd, .waiting) => some cmd
  | _ => none

/-- What a supervisor does with FL's answer to a command outside any step (R148, R151): it keeps a refused one, and no copy
of one that is accepted or discarded (R164). -/
def plainAnswered (c : CraneId) (cmd : FieldCmd) (answer : Offer) (p : Part) : Part :=
  match answer with
  | .refused => putCrane c { craneOf p c with kept := some cmd } p
  | _ => putCrane c { craneOf p c with kept := none } p

/-- A supervisor offers again the command outside any step that it keeps (R164). -/
def reofferKept (g : Store) (c : CraneId) (p : Part) : Part :=
  match (craneOf p c).kept, craneNode g c with
  | some cmd, some addr =>
    plainAnswered c cmd (enqueue ⟨addr, cmd, .cs c⟩ p).1 (enqueue ⟨addr, cmd, .cs c⟩ p).2
  | _, _ => p

/-- A supervisor offers its waiting step command again (R139). -/
def reofferStep (g : Store) (c : CraneId) (p : Part) : Part :=
  match waitingCommand p c, craneNode g c with
  | some cmd, some addr =>
    commandAnswered g c cmd (enqueue ⟨addr, cmd, .cs c⟩ p).1 (enqueue ⟨addr, cmd, .cs c⟩ p).2
  | _, _ => p

/-- A supervisor offers its refused commands again, the one it was refused first before the other
(notes/assumptions/11.md). -/
def reoffer (g : Store) (c : CraneId) (p : Part) : Part := reofferStep g c (reofferKept g c p)

/-- Whether a supervisor holds a refused command. -/
def holdsRefused (p : Part) (c : CraneId) : Bool := (waitingCommand p c).isSome || (craneOf p c).kept.isSome

/-- FL tells each supervisor that an entry has freed, and their refused commands compete for it (R164). Whose offer is
taken first is a free value (notes/assumptions/5.md). -/
def entryFreed (g : Store) (p : Part) : Part :=
  if holdsRefused p .A && holdsRefused p .B then
    if Config.bReoffersFirst p.fl.ties then
      reoffer g .A (reoffer g .B { p with fl := { p.fl with ties := p.fl.ties + 1 } })
    else
      reoffer g .B (reoffer g .A { p with fl := { p.fl with ties := p.fl.ties + 1 } })
  else reoffer g .B (reoffer g .A p)

/-! ### Beginning an exchange -/

/-- A new exchange begins with a node: the reply timer runs, and a due motion poll of that crane is cleared
(R156, R163). -/
def beginExchange (g : Store) (addr : Nat) (cls : ExchangeClass) (cmd : FieldCmd) (by_ : Option Requester)
    (p : Part) : Part :=
  match nodeOf p addr with
  | none => p
  | some nd =>
    { p with fl := { p.fl with
        line := some { id := p.fl.serial, addr := addr, owner := nd.owner, cls := cls, cmd := cmd, by_ := by_,
                       attempt := 1, withdrawn := false, orphan := false, rate := g.plant.fieldLineRate.toNat },
        serial := p.fl.serial + 1,
        replyTimer := some (.start g.plant.replyTimeout.toNat),
        due := p.fl.due.filter fun c => decide (Owner.crane c ≠ nd.owner) } }

/-- A directed entry's exchange begins, and the entry leaves the queue at that moment (R161, R164). -/
def beginEntry (g : Store) (e : Entry) (cls : ExchangeClass) (p : Part) : Part :=
  entryFreed g
    (beginExchange g e.addr cls e.cmd (some e.by_) (setDirected (p.fl.queue.filter fun d => !sameEntry e d) p))

/-- The second attempt of an exchange: the same request, or POLL where its command was withdrawn (R159, R160). -/
def retryOf (ex : Exchange) : Exchange :=
  if ex.withdrawn then { ex with attempt := 2, cmd := .poll, by_ := none } else { ex with attempt := 2 }

def beginRetry (g : Store) (ex : Exchange) (rest : List Exchange) (p : Part) : Part :=
  { p with fl := { p.fl with line := some (retryOf ex), waiting := rest,
                             replyTimer := some (.start g.plant.replyTimeout.toNat) } }

/-- The lowest named address above a round position (R162). -/
def nextAddress (p : Part) : Option Nat := (Map.keys p.fl.nodes).find? fun a => decide (p.fl.roundPos < a)

/-- The next round poll of the present round (R162). -/
def beginRoundPoll (g : Store) (p : Part) : Part :=
  match p.fl.roundOn, nextAddress p with
  | true, some a => beginExchange g a .round .poll none { p with fl := { p.fl with roundPos := a } }
  | _, _ => p

/-- The line arbiter (R161): on a free line, the first that applies of a repeated STOP, a queued STOP, a retry, another
directed command, a due motion poll, the next round poll. -/
def nextExchange (g : Store) (p : Part) : Part :=
  if p.fl.line.isSome || !p.fl.opened then p
  else match p.fl.repeatStop with
  | some e => beginExchange g e.addr .stop e.cmd (some e.by_) { p with fl := { p.fl with repeatStop := none } }
  | none =>
    match p.fl.queue.find? fun e => isStop e.cmd with
    | some e => beginEntry g e .stop p
    | none =>
      match p.fl.waiting with
      | ex :: rest => beginRetry g ex rest p
      | [] =>
        match p.fl.queue with
        | e :: _ => beginEntry g e .directed p
        | [] =>
          match p.fl.due with
          | c :: _ =>
            match craneNode g c with
            | some a => beginExchange g a .motion .poll none p
            | none => p
          | [] => beginRoundPoll g p

/-- An owner offers a command; on an idle line FL begins its exchange at once (R161, R164). -/
def offer (g : Store) (e : Entry) (p : Part) : Offer × Part :=
  ((enqueue e p).1, nextExchange g (enqueue e p).2)

/-! ### Rounds -/

/-- Whether a round poll is on the line or waits for its retry. -/
def roundPollOut (f : FieldLink) : Bool :=
  (match f.line with | some ex => ex.cls == .round | none => false) || f.waiting.any fun ex => ex.cls == .round

/-- A round ends when its last round poll's exchange has ended and no named address lies above the position (R162). -/
def endRound (p : Part) : Part :=
  if p.fl.roundOn && !roundPollOut p.fl && (nextAddress p).isNone then { p with fl := { p.fl with roundOn := false } }
  else p

/-- A round begins when the previous one has ended, the round timer has expired and an address is named (R162). -/
def beginRound (g : Store) (p : Part) : Part :=
  if !p.fl.roundOn && p.fl.roundTimer.isNone && !p.fl.nodes.isEmpty && p.fl.opened then
    { p with fl := { p.fl with roundOn := true, roundPos := 0,
                               roundTimer := some (.start g.plant.roundMinimum.toNat) } }
  else p

/-- The line is free: the round is brought up to date and FL begins the next exchange. -/
def lineFree (g : Store) (p : Part) : Part := nextExchange g (beginRound g (endRound p))

/-! ### Withdrawal -/

/-- Whether an entry or exchange carries a TRAVEL or HOOK command (R165). -/
def isMotionCommand (cmd : FieldCmd) : Bool :=
  directedClass cmd == some .travel || directedClass cmd == some .hook

def markWithdrawn (addr : Nat) (ex : Exchange) : Exchange :=
  if ex.addr = addr ∧ isMotionCommand ex.cmd = true then { ex with withdrawn := true } else ex

/-- FL withdraws a supervisor's uncarried TRAVEL and HOOK commands; a pending STOP is kept (R165). -/
def withdraw (g : Store) (c : CraneId) (p : Part) : Part :=
  match craneNode g c with
  | none => p
  | some addr =>
    let kept := p.fl.queue.filter fun e => !(e.addr == addr && isMotionCommand e.cmd)
    let marked : Part := { p with fl := { p.fl with queue := kept, line := p.fl.line.map (markWithdrawn addr),
                                                    waiting := p.fl.waiting.map (markWithdrawn addr) } }
    if kept.length < p.fl.queue.length then entryFreed g marked else marked

/-! ### Crane motion polls -/

/-- The polled states of R163. -/
def polled : CraneState → Bool
  | .toSource => true
  | .takeUp => true
  | .lift => true
  | .toDest => true
  | .lower => true
  | .parking => true
  | _ => false

def setPollTimer (c : CraneId) (t : Option Timer) (p : Part) : Part :=
  match c with
  | .A => { p with fl := { p.fl with pollA := t } }
  | .B => { p with fl := { p.fl with pollB := t } }

def pollTimer (p : Part) : CraneId → Option Timer
  | .A => p.fl.pollA
  | .B => p.fl.pollB

/-- A supervisor writes its record, and tells FL when its crane enters or leaves the polled states (R163). -/
def enterState (g : Store) (c : CraneId) (r : Crane) (p : Part) : Part :=
  let was := polled (craneOf p c).state
  let written := putCrane c r p
  if !was && polled r.state then
    setPollTimer c (some (.start g.plant.cranePollPeriod.toNat)) written
  else if was && !polled r.state then
    setPollTimer c none { written with fl := { written.fl with due := written.fl.due.filter fun d => d != c } }
  else written

/-! ### The node table under a change of configuration -/

/-- The table entry an address gets: the one it has, if the same item names it still, else a fresh one (R8, R170). -/
def namedEntry (p : Part) (addr : Nat) (owner : Owner) : Node :=
  match nodeOf p addr with
  | some nd => if nd.owner = owner then nd else Node.fresh owner
  | none => Node.fresh owner

/-- The node table the configuration names. -/
def namedTable (g : Store) (p : Part) : Map Node :=
  (namedItems g).foldl (fun m e => Map.put m e.1 (namedEntry p e.1 e.2)) []

/-- Whether the item that named an address names it no longer. -/
def unnamed (before after : Map Node) (addr : Nat) : Bool :=
  match Map.find before addr, Map.find after addr with
  | some a, some b => decide (a.owner ≠ b.owner)
  | some _, none => true
  | none, _ => false

def orphanIf (gone : Nat → Bool) (ex : Exchange) : Exchange := if gone ex.addr then { ex with orphan := true } else ex

/-- FL follows a change of configuration (R8, R166, R170): new addresses enter UNPOLLED, unnamed ones leave with their
queued commands, and an exchange to one of them goes on with its outcome to be dropped. -/
def syncNodes (g : Store) (p : Part) : Part :=
  let after := namedTable g p
  let gone := unnamed p.fl.nodes after
  let kept := p.fl.queue.filter fun e => !gone e.addr
  let moved : Part := { p with fl := { p.fl with nodes := after, queue := kept, line := p.fl.line.map (orphanIf gone),
                                                 waiting := p.fl.waiting.map (orphanIf gone) } }
  lineFree g (if kept.length < p.fl.queue.length then entryFreed g moved else moved)

/-! ### What a node sees -/

/-- The characters of a request, its check last: the data bytes sum to 0 modulo 256 (R156). -/
def requestBytes (addr : Nat) (cmd : FieldCmd) : List Nat :=
  let body := addr :: cmd.code :: cmd.data
  body ++ [(256 - body.sum % 256) % 256]

/-- A request's characters as FL sends them: address flag 1 on the first, 0 on the others (R156, layout of section 9.2). -/
def requestChars (addr : Nat) (cmd : FieldCmd) : List FieldChar :=
  match requestBytes addr cmd with
  | [] => []
  | b :: rest => { data := b, address := true, framing := false } ::
      rest.map fun d => { data := d, address := false, framing := false }

/-- The request an exchange puts on the line. -/
def exchangeChars (ex : Exchange) : List FieldChar := requestChars ex.addr ex.cmd

/-- The bits of a data byte, least significant first: the order of both lines (R156, R172). -/
def byteBits (n : Nat) : List Bool := (List.range 8).map n.testBit

/-- The eleven bits of a character on the pair, the first sent first (R156, layout of section 9.2): a start bit 0, the data
byte with its least significant bit first, the address flag, and the stop bit, 1 unless it is missing. -/
def charBits (ch : FieldChar) : List Bool :=
  false :: byteBits ch.data ++ [ch.address, !ch.framing]

/-- The byte whose bits these are, the least significant first. -/
def byteOfBits : List Bool → Nat
  | [] => 0
  | b :: rest => b.toNat + 2 * byteOfBits rest

/-- The character that FL reads from the bits of a character time (R156): one whose start bit is not 0, whose stop bit is
not 1 or that has not eleven bits has a framing error (R157). The characters of REPLY_COMPLETE are read so. -/
def charOfBits (bits : List Bool) : FieldChar :=
  { data := byteOfBits ((bits.drop 1).take 8), address := bits[9]?.getD false,
    framing := decide (bits.length ≠ 11 ∨ bits.head? ≠ some false ∨ bits.getLast? ≠ some true) }

/-- The bits of an exchange's request, its characters back to back (R156). -/
def exchangeBits (ex : Exchange) : List Bool := (exchangeChars ex).flatMap charBits

end Sys2Proof.Machine
end

