-- ==== Sys2Proof/Machine/Temperature.lean ====
section
/-! DEFINITION. The Temperature Unit (chapter 3): readings as they arrive, their validity, the two-of-three agreement
rule, area temperatures, and the records under a change of configuration. -/

namespace Sys2Proof.Machine

/-! ### Validity -/

/-- The invalidity cause of a stored value: the first failing condition of R43. -/
def validity (value : Option Int) (age : Nat) (lost : Bool) (limit : Nat) : Validity :=
  match value with
  | none => .noneReceived
  | some v =>
    if lost then .lost
    else if v = -32768 then .opened
    else if v < -400 ∨ 1250 < v then .range
    else if limit ≤ age then .stale
    else .valid

/-- A probe's number and value, if the value is valid. -/
def validReading (lost : Bool) (limit : Nat) (n : Nat) (pr : Probe) : Option (Nat × Int) :=
  match pr.value, validity pr.value pr.age lost limit with
  | some v, .valid => some (n, v)
  | _, _ => none

/-- The valid readings of a zone, in probe order (R44). -/
def validReadings (lost : Bool) (limit : Nat) (r : ZoneRecord) : List (Nat × Int) :=
  (validReading lost limit 1 r.probe1).toList ++ (validReading lost limit 2 r.probe2).toList ++
  (validReading lost limit 3 r.probe3).toList

/-! ### The agreement rule -/

/-- The mean of two values, rounded toward negative infinity (R47). -/
def meanDown (a b : Int) : Int := (a + b) / 2

/-- Insert a reading before the first one that is not less, so that equal values keep probe order (R45). -/
def insertReading (e : Nat × Int) : List (Nat × Int) → List (Nat × Int)
  | [] => [e]
  | d :: l => if e.2 ≤ d.2 then e :: d :: l else d :: insertReading e l

/-- Readings in ascending order, equal values by probe number (R45). -/
def sortReadings : List (Nat × Int) → List (Nat × Int)
  | [] => []
  | e :: l => insertReading e (sortReadings l)

/-- The temperature of a zone from its valid readings, in probe order, under agreement band `b` (R44 to R46). -/
def agree (b : Int) (readings : List (Nat × Int)) : ZoneResult :=
  match sortReadings readings with
  | [a, m, c] =>
    if m.2 - a.2 ≤ b then
      if c.2 - m.2 ≤ b then .measured m.2 .median else .measured (meanDown a.2 m.2) (.pair c.1)
    else if c.2 - m.2 ≤ b then .measured (meanDown m.2 c.2) (.pair a.1)
    else .unmeasured .disagree
  | [a, c] => if c.2 - a.2 ≤ b then .measured (meanDown a.2 c.2) .two else .unmeasured .disagree
  | _ => .unmeasured .tooFew

/-- The outcome of forming a zone's temperature at a freshness limit in ms (R43, R44). -/
def zoneOutcome (g : Store) (p : Part) (limit bed zone : Nat) : ZoneResult :=
  match zoneRecord p bed zone with
  | none => .unmeasured .tooFew
  | some r => agree g.plant.agreementBand (validReadings (nodeLost p r.node) limit r)

/-- TU stores the outcome of a forming as the zone's last result (R44). -/
def storeZoneResult (bed zone : Nat) (result : ZoneResult) (p : Part) : Part :=
  match zoneRecord p bed zone with
  | none => p
  | some r => putZoneRecord bed zone { r with result := some result, resultAge := 0 } p

/-- Whether an area's node is LOST. -/
def areaLost (p : Part) (r : AreaRecord) : Bool :=
  match r.node with
  | some a => nodeLost p a
  | none => false

/-- The outcome of forming an area's temperature at a freshness limit in ms (R49). -/
def areaOutcome (p : Part) (limit area : Nat) : AreaResult :=
  let r := areaRecord p area
  match r.value, validity r.value r.age (areaLost p r) limit with
  | some v, .valid => .measured v
  | _, cause => .unmeasured cause

/-- TU stores the outcome of a forming as the area's last result (R49). -/
def storeAreaResult (area : Nat) (result : AreaResult) (p : Part) : Part :=
  putAreaRecord area { areaRecord p area with result := some result, resultAge := 0 } p

/-! ### Readings arriving -/

/-- The contents of a good zone reply: three probe values and the valve echo (section 9.2). -/
def zoneContents (bytes : List Nat) : Option (Int × Int × Int × Nat) :=
  match bytes with
  | [_, a, b, c, d, e, f, echo, _] =>
    some (signedOf 16 (a * 256 + b), signedOf 16 (c * 256 + d), signedOf 16 (e * 256 + f), echo)
  | _ => none

/-- The contents of a good yard reply (section 9.2). -/
def yardContents (bytes : List Nat) : Option Int :=
  match bytes with
  | [_, a, b, _] => some (signedOf 16 (a * 256 + b))
  | _ => none

/-- TU takes a zone node's reply: all three values at age 0, and the valve echo, exactly as received (R39). -/
def takeZoneReply (bed zone : Nat) (bytes : List Nat) (p : Part) : Part :=
  match zoneContents bytes, zoneRecord p bed zone with
  | some (v1, v2, v3, echo), some r =>
    putZoneRecord bed zone
      { r with probe1 := Probe.mk (some v1) 0, probe2 := Probe.mk (some v2) 0, probe3 := Probe.mk (some v3) 0,
                       echo := some echo } p
  | _, _ => p

/-- TU takes a yard node's reply (R39). -/
def takeYardReply (area : Nat) (bytes : List Nat) (p : Part) : Part :=
  match yardContents bytes with
  | some v => putAreaRecord area { areaRecord p area with value := some v, age := 0 } p
  | none => p

/-! ### Records under a change of configuration -/

/-- Whether zone `zone` of a bed whose zones were `before` had a node address. -/
def hadNode (before : List ZoneCfg) (zone node : Nat) : Bool :=
  match before[zone - 1]? with
  | some z => z.node == node
  | none => false

/-- Records of a bed's zones after SET BED: a zone that keeps its number and its node address keeps its record, any
other zone gets a fresh one, and the records of removed zones go (R42, R77). -/
def rebuiltRecords {α : Type} (old : Map α) (fresh : Nat → α) (bed : Nat) (before after : List ZoneCfg) : Map α :=
  (numbered 1 after).foldl
    (fun m z => Map.put m (zoneKey bed z.1)
      (match Map.find old (zoneKey bed z.1) with
       | some r => if hadNode before z.1 z.2.node then r else fresh z.2.node
       | none => fresh z.2.node))
    (old.filter fun e => keyBed e.1 != bed)

/-- TU and CC rebuild a bed's zone and valve records for its new zones (R42, R77). -/
def rebuildBed (bed : Nat) (before after : List ZoneCfg) (p : Part) : Part :=
  { p with
    tu := { p.tu with zones := rebuiltRecords p.tu.zones ZoneRecord.fresh bed before after }
    cc := { p.cc with valves := rebuiltRecords p.cc.valves (fun _ => Valve.fresh) bed before after } }

/-- TU follows SET AREA: a changed address, and a request that clears the area, discard the area's value and last result
(R42), also where the area was clear before. -/
def rebuildArea (area : Nat) (node : Option Nat) (p : Part) : Part :=
  if node.isSome ∧ (areaRecord p area).node = node then p else putAreaRecord area (.fresh node) p

/-! ### The records at a start -/

/-- The zone records a start builds (R37). -/
def freshZoneRecords (g : Store) : Map ZoneRecord :=
  (allZones g).foldl (fun m z => Map.put m (zoneKey z.1 z.2.1) (.fresh z.2.2.node)) []

/-- The area records a start builds (R37). -/
def freshAreaRecords (g : Store) : Map AreaRecord :=
  [(1, .fresh (Map.find g.areas 1)), (2, .fresh (Map.find g.areas 2)), (3, .fresh (Map.find g.areas 3)),
   (4, .fresh (Map.find g.areas 4))]

/-- The valve records a start builds (R77). -/
def freshValves (g : Store) : Map Valve :=
  (allZones g).foldl (fun m z => Map.put m (zoneKey z.1 z.2.1) .fresh) []

end Sys2Proof.Machine
end

