-- ==== Sys2Proof/Machine/StockOps.lean ====
section
/-! DEFINITION. The shared operations of the Stock Map and of the Bed Sequencer's pour records (chapters 2 and 6):
placement test, destination chooser, engagement, lift and placement, removal of a piece, recording a deviation. The two
blocks tell each other what they own, so their operations stand together. -/

namespace Sys2Proof.Machine

/-! ### Pours: piece count, current flag, freeing -/

/-- Write a pour record, freeing it when its piece count is 0 and its current flag is clear (R32). -/
def settlePour (pour : Nat) (r : Pour) (p : Part) : Part :=
  if r.count = 0 ∧ r.current = false then freePour pour p else putPour pour r p

/-- BS is told that a piece record naming the pour has been removed (R32). -/
def pieceGone (pour : Nat) (p : Part) : Part :=
  match pourOf p pour with
  | some r => settlePour pour { r with count := r.count - 1 } p
  | none => p

/-- The pour's current flag is cleared (R30, R31). -/
def clearCurrent (pour : Nat) (p : Part) : Part :=
  match pourOf p pour with
  | some r => settlePour pour { r with current := false } p
  | none => p

/-! ### Engagement and locks -/

def freeOf (n : Nat) (s : Slot) : Slot :=
  match s.engaged with
  | some (m, _) => if m = n then { s with engaged := none } else s
  | none => s

/-- SM clears every engagement that names a move; naming none changes nothing (R98). -/
def release (n : Nat) (p : Part) : Part :=
  if p.sm.slots.any fun s => decide (freeOf n s.2 ≠ s.2) then stockChange [] (mapSlots (freeOf n) p) else p

def engageSlot (n : Nat) (role : Role) (slot : Nat) (p : Part) : Part :=
  putSlot slot { slotOf p slot with engaged := some (n, role) } p

/-- SM engages the slots a dispatched move names, all of them or none (R98). -/
def engage (n : Nat) (source dest : Option Nat) (p : Part) : Part :=
  let free (s : Option Nat) : Bool := match s with | some k => (slotOf p k).engaged.isNone | none => true
  if free source && free dest then
    let first := match source with | some k => engageSlot n .source k p | none => p
    let both := match dest with | some k => engageSlot n .destination k first | none => first
    stockChange [] both
  else p

def unlockOf (n : Nat) (s : Slot) : Slot := if s.lock = some n then { s with lock := none } else s

/-- SM clears the dig lock that names a move (R108). -/
def unlock (n : Nat) (p : Part) : Part :=
  if p.sm.slots.any fun s => decide (s.2.lock = some n) then stockChange [] (mapSlots (unlockOf n) p) else p

/-! ### Placement -/

/-- The placement test of R96 for a piece of a length and mass on a slot; `source` is the slot the piece came from when
a move carries it. -/
def placementTest (g : Store) (p : Part) (len mass : Nat) (source : Option Nat) (slot : Nat) : Bool :=
  match Map.find g.slots slot with
  | none => false
  | some cfg =>
    let s := slotOf p slot
    s.engaged.isNone && s.lock.isNone && decide (source ≠ some slot) &&
    decide (s.stack.length < cfg.tierLimit) && decide (stackMass p s.stack + mass ≤ cfg.massLimit) &&
    (match s.stack.getLast? with
     | none => true
     | some top => match pieceOf p top with
       | some q => decide (len ≤ q.length)
       | none => true)

/-- The chooser's rank of a slot for a piece of a product: same product on top, empty, other (R97). -/
def slotRank (p : Part) (prod slot : Nat) : Nat :=
  match (slotOf p slot).stack.getLast? with
  | none => 1
  | some top => match pieceOf p top with
    | some q => if q.product = prod then 0 else 2
    | none => 2

/-- Whether slot `a` is chosen before slot `b`: by rank, then distance, then number (R97). -/
def chosenBefore (a b : Nat × Nat × Nat) : Bool :=
  decide (a.1 < b.1) || (decide (a.1 = b.1) &&
    (decide (a.2.1 < b.2.1) || (decide (a.2.1 = b.2.1) && decide (a.2.2 < b.2.2))))

/-- The best of a list of (rank, distance, slot). -/
def bestSlot : List (Nat × Nat × Nat) → Option (Nat × Nat × Nat)
  | [] => none
  | a :: l => match bestSlot l with
    | none => some a
    | some b => if chosenBefore b a then some b else some a

/-- SM's destination chooser (R97): the slot for a piece, from a source position, within a span. -/
def chooseSlot (g : Store) (p : Part) (q : Piece) (source : Option Nat) (xSource lo hi : Int) : Option Nat :=
  let passing := g.slots.filter fun s =>
    decide (lo ≤ s.2.x) && decide (s.2.x ≤ hi) && placementTest g p q.length q.mass source s.1
  (bestSlot (passing.map fun s => (slotRank p q.product s.1, distance s.2.x xSource, s.1))).map fun b => b.2.2

/-- Push a piece on top of a slot's stack; it takes the tier of the new count (R100, R112). -/
def pushPiece (mark : Nat) (q : Piece) (slot : Nat) (p : Part) : Part :=
  putPiece mark { q with place := .slot slot ((slotOf p slot).stack.length + 1) }
    (putSlot slot { slotOf p slot with stack := (slotOf p slot).stack ++ [mark] } p)

/-- The condition of a piece that is judged against its ship target (R100, R110). -/
def judged (g : Store) (q : Piece) : Condition :=
  match product g q.product with
  | some prod => if prod.ship * Config.perDegreeHour ≤ q.acc then .shippable else .curing
  | none => .curing

/-- Whether the review flag of a piece's pour is set. -/
def underReview (p : Part) (q : Piece) : Bool :=
  match pourOf p q.pour with
  | some r => r.review
  | none => false

/-! ### Removal -/

/-- SM removes a piece record: out of its place, record freed, BS told (R94). -/
def removePiece (mark : Nat) (p : Part) : Part :=
  match pieceOf p mark with
  | none => p
  | some q =>
    let out := match q.place with
      | .slot n _ => putSlot n { slotOf p n with stack := (slotOf p n).stack.erase mark } p
      | _ => p
    stockChange [] (pieceGone q.pour (dropPiece mark out))

/-- Removal of several pieces, in order (R93). -/
def removePieces (marks : List Nat) (p : Part) : Part := marks.foldl (fun p m => removePiece m p) p

/-! ### Condition changes -/

def setCondition (mark : Nat) (c : Condition) (p : Part) : Part :=
  match pieceOf p mark with
  | some q => stockChange [mark] (putPiece mark { q with condition := c } p)
  | none => p

/-- The pieces of a pour that R102 makes HELD: unreleased, CURING or SHIPPABLE. -/
def caughtByReview (pour : Nat) (q : Piece) : Bool :=
  q.pour == pour && !q.released && (q.condition == .curing || q.condition == .shippable)

/-- A pour's review flag has become set: its unreleased CURING and SHIPPABLE pieces become HELD (R102). -/
def reviewHold (pour : Nat) (p : Part) : Part :=
  let caught := (p.sm.pieces.filter fun e => caughtByReview pour e.2).map Prod.fst
  let pieces := Map.mapRecords
    (fun _ q => if caughtByReview pour q then { q with condition := .held } else q) p.sm.pieces
  if caught.isEmpty then p else stockChange caught { p with sm := { p.sm with pieces := pieces } }

/-- Each piece of a pour that has a condition takes another (R93). -/
def changePour (pour : Nat) (which : Condition → Bool) (c : Condition) (p : Part) : Part :=
  (piecesOfPour p pour).foldl
    (fun p m => match pieceOf p m with
      | some q => if which q.condition then setCondition m c p else p
      | none => p) p

/-! ### Deviations -/

/-- What becomes of an entry reported to a list, and the list after it (R34). -/
def listDeviation (keepLatest : Bool) (d : Deviation) (l : List Deviation) : Recorded × List Deviation :=
  if l.length < Config.deviationPlaces then (.appended, l ++ [d])
  else if keepLatest then (.replaced, l.tail ++ [d])
  else (.dropped, l)

/-- BS applies a deviation to a pour (R34): review flag, list and overflow flag, notice. -/
def recordDeviation (g : Store) (bed pour : Nat) (d : Deviation) (p : Part) : Part :=
  match pourOf p pour with
  | none => p
  | some r =>
    let listed := listDeviation (decide (g.plant.deviationMode = 1)) d r.deviations
    let written := putPour pour
      { r with review := r.review || d.kind.isReview
               deviations := listed.2
               overflow := r.overflow || decide (listed.1 ≠ .appended) } p
    raise (.deviation bed pour d listed.1)
      (if d.kind.isReview && !r.review then reviewHold pour written else written)

/-- CC reports a deviation; BS discards it unless the pour it carries is the bed's current pour and CLOSED (R34). -/
def reportDeviation (g : Store) (bed pour : Nat) (d : Deviation) (p : Part) : Part :=
  if (bedOf p bed).pour = some pour ∧ (pourOf p pour).map (·.state) = some .closed then recordDeviation g bed pour d p
  else p

/-! ### A piece leaves its source -/

/-- The bed goes to EMPTY and its context closes (R30, R31). -/
def emptyBed (bed : Nat) (p : Part) : Part :=
  let closed := match (bedOf p bed).pour with
    | some n => clearCurrent n p
    | none => p
  putBed bed .vacant (closeContext bed closed)

/-- SM tells BS that a piece has left a bed; the last one empties a STRIPPING bed (R30). -/
def leftBed (bed pour : Nat) (p : Part) : Part :=
  if (bedOf p bed).state = .stripping ∧ piecesOnBed p bed pour = [] then
    raise (.bedEmpty bed pour) (emptyBed bed p)
  else p

/-- CC's answer to SM: the accumulator of a zone, 0 for a bed without a context (R61). -/
def zoneAccumulator (p : Part) (bed : Nat) (zone : Option Nat) : Nat :=
  match contextOf p bed, zone with
  | some ctx, some z => match Map.find ctx.zones z with
    | some r => r.acc
    | none => 0
  | _, _ => 0

/-- SM takes the lift of a piece whose load a crane has accepted (R99). -/
def liftPiece (c : CraneId) (mark : Nat) (p : Part) : Part :=
  match pieceOf p mark with
  | none => p
  | some q =>
    match q.place with
    | .bed b _ =>
      let a := zoneAccumulator p b q.zone
      leftBed b q.pour
        (putPiece mark { q with acc := a, stripAcc := some a, zone := none, place := .hook c } p)
    | .slot n _ =>
      stockChange []
        (putPiece mark { q with place := .hook c }
          (putSlot n { slotOf p n with stack := (slotOf p n).stack.erase mark } p))
    | _ => putPiece mark { q with place := .hook c } p

/-! ### A piece arrives -/

/-- The condition a STRIP move's piece takes when it is placed (R100). -/
def stripCondition (g : Store) (p : Part) (q : Piece) : Condition :=
  if underReview p q && !q.released then .held else judged g q

/-- SM places a move's piece on its destination slot (R100). -/
def placeOnSlot (g : Store) (m : Move) (mark slot : Nat) (p : Part) : Part :=
  match pieceOf p mark with
  | none => p
  | some q =>
    let cond := if m.kind = .strip then stripCondition g p q else q.condition
    let tier := (slotOf p slot).stack.length + 1
    raise (.piecePlaced mark (.place (.slot slot tier)) cond (reported q.acc) m.number)
      (stockChange (if cond = q.condition then [] else [mark])
        (release m.number (pushPiece mark { q with condition := cond } slot p)))

/-- SM takes a piece set down in a bay out of its records (R101). -/
def placeInBay (m : Move) (mark bay : Nat) (p : Part) : Part :=
  match pieceOf p mark with
  | none => p
  | some q =>
    removePiece mark
      (raise (.piecePlaced mark (.bay bay) q.condition (reported q.acc) m.number) (release m.number p))

end Sys2Proof.Machine
end

