-- ==== Sys2Proof/Machine/MoveOps.lean ====
section
/-! DEFINITION. The Move Planner's records (sections 7.1, 7.2): reservations and their bases, move numbers, joining and
leaving the queue, suspension, the strip backlog. -/

namespace Sys2Proof.Machine

/-! ### Reservations -/

/-- The greatest of a list of positions. -/
def greatestInt : List Int → Option Int
  | [] => none
  | a :: l => match greatestInt l with
    | none => some a
    | some b => some (max a b)

/-- The reservation of a basis (R119): [min − cl, max + cl], clamped to the runway. -/
def stretch (g : Store) (basis : List Int) : Reservation :=
  { lo := clampInt 0 g.runway ((leastInt basis).getD 0 - g.plant.clearance)
    hi := clampInt 0 g.runway ((greatestInt basis).getD 0 + g.plant.clearance)
    basis := basis }

/-- Crane A's reservation ends strictly west of the start of crane B's (R119). -/
def westOf (a b : Reservation) : Bool := decide (a.hi < b.lo)

/-- The condition of R119 for two cranes' reservations, met when one holds none. -/
def ordered (a b : Option Reservation) : Bool :=
  match a, b with
  | some ra, some rb => westOf ra rb
  | _, _ => true

/-- Whether a reservation for a crane meets the condition of R119 with the other crane's. -/
def fits (c : CraneId) (r : Reservation) (p : Part) : Bool :=
  match c with
  | .A => ordered (some r) p.mp.resB
  | .B => ordered p.mp.resA (some r)

/-- Whether a reservation is smaller than the one it replaces: within it, and not the same stretch. -/
def shrinks (old : Option Reservation) (r : Reservation) : Bool :=
  match old with
  | some o => decide (o.lo ≤ r.lo) && decide (r.hi ≤ o.hi) && (decide (o.lo ≠ r.lo) || decide (r.hi ≠ o.hi))
  | none => false

/-- MP sets a reservation; a reservation that shrinks is a trigger of the scan (R121). -/
def setReservation (c : CraneId) (r : Reservation) (p : Part) : Part :=
  if shrinks (reservationOf p c) r then triggerScan (writeReservation c (some r) p)
  else writeReservation c (some r) p

/-- A supervisor asks MP to set a reservation from a basis; MP refuses one that breaks the order (R138). -/
def askReservation (g : Store) (c : CraneId) (basis : List Int) (p : Part) : Option Part :=
  if fits c (stretch g basis) p then some (setReservation c (stretch g basis) p) else none

/-- The part of a rest reservation that lies within the one held before (R120). -/
def restWithin (g : Store) (pos : Int) (old : Reservation) : Reservation :=
  { lo := max old.lo (stretch g [pos]).lo, hi := min old.hi (stretch g [pos]).hi, basis := [pos] }

/-- A crane comes to rest at a position: its reservation shrinks, which triggers the scan (R120). -/
def comeToRest (g : Store) (c : CraneId) (pos : Int) (p : Part) : Part :=
  triggerScan (writeReservation c ((reservationOf p c).map (restWithin g pos)) p)

/-- MP recomputes both reservations from their kept bases, without the cut of R120 (R1, R11, R119). -/
def recomputeReservations (g : Store) (p : Part) : Part :=
  { p with mp := { p.mp with resA := p.mp.resA.map fun r => stretch g r.basis
                             resB := p.mp.resB.map fun r => stretch g r.basis } }

/-! ### Positions of a move -/

/-- The runway position of a source (R118). -/
def sourcePos (g : Store) : Source → Int
  | .bed _ x => x
  | .slot n => match Map.find g.slots n with
    | some s => s.x
    | none => 0
  | .runway x => x

/-- The runway position of a destination for a crane (R118). -/
def destPos (g : Store) (c : CraneId) : Dest → Int
  | .slot n => match Map.find g.slots n with
    | some s => s.x
    | none => 0
  | .bay n => (Map.find g.bays n).getD 0
  | .home => match craneCfg g c with
    | some k => k.home
    | none => 0

/-- The slot a source is, if it is one. -/
def Source.slotNumber : Source → Option Nat
  | .slot n => some n
  | _ => none

/-- The slot a destination is, if it is one. -/
def Dest.slotNumber : Dest → Option Nat
  | .slot n => some n
  | _ => none

/-! ### Numbers -/

/-- The number after a number: 255 is followed by 1 (R117). -/
def nextNumber (n : Nat) : Nat := if 255 ≤ n then 1 else n + 1

/-- The first number from `n` on that no live move holds. -/
def seekNumber (q : List Move) : Nat → Nat → Nat
  | 0, n => n
  | k + 1, n => if q.any fun m => m.number == n then seekNumber q k (nextNumber n) else n

/-- The number the next new move takes (R117). -/
def newNumber (p : Part) : Nat := seekNumber p.mp.queue 255 p.mp.counter

/-- Free entries of the queue (R117). -/
def freeEntries (p : Part) : Nat := Config.movePlaces - p.mp.queue.length

/-! ### Joining and leaving the queue -/

/-- SM sets the move field of a piece (R92, R117). -/
def setPieceMove (mark : Nat) (n : Option Nat) (p : Part) : Part :=
  match pieceOf p mark with
  | some q => putPiece mark { q with move := n } p
  | none => p

/-- MP queues a move at the head or the tail; SM is told the number of a move that names a piece (R117). -/
def joinQueue (atHead : Bool) (m : Move) (p : Part) : Part :=
  let n := newNumber p
  let numbered := { m with number := n }
  let joined : Part := { p with mp := { p.mp with
    queue := if atHead then numbered :: p.mp.queue else p.mp.queue ++ [numbered]
    counter := nextNumber n } }
  triggerScan (match m.piece with
    | some mark => setPieceMove mark (some n) joined
    | none => joined)

/-- A QUEUED move with no crane and no chain, not yet numbered. -/
def plainMove (kind : MoveKind) (piece : Option Nat) (source : Source) (dest : Option Dest) : Move :=
  { number := 0, kind := kind, piece := piece, source := source, dest := dest, chain := none, rank := 0,
    state := .queued, crane := none, reason := none }

/-- MP queues a STRIP move for a piece at its bed position (R134). -/
def queueStrip (mark : Nat) (p : Part) : Part :=
  match pieceOf p mark with
  | some q => match q.place with
    | .bed b x => joinQueue false (plainMove .strip (some mark) (.bed b x) none) p
    | _ => p
  | none => p

/-- The STRIP moves of a list of pieces, in order (R134). -/
def queueStrips (marks : List Nat) (p : Part) : Part := marks.foldl (fun p m => queueStrip m p) p

/-- A move leaves the queue: SM clears the piece's move field, the dig lock that names it and its engagements
(R117). -/
def removeMove (n : Nat) (p : Part) : Part :=
  match moveOf p n with
  | none => p
  | some m =>
    let gone := setQueue (p.mp.queue.filter fun k => k.number != n) p
    triggerScan (release n (unlock n
      (match m.piece with
       | some mark => setPieceMove mark none gone
       | none => gone)))

/-! ### The strip backlog -/

def setBacklog (l : List Nat) (p : Part) : Part := { p with mp := { p.mp with backlog := l } }

/-- Whether a piece still lies on a STRIPPING bed (R135). -/
def onStrippingBed (p : Part) (mark : Nat) : Bool :=
  match pieceOf p mark with
  | some q => match q.place with
    | .bed b _ => (bedOf p b).state == .stripping
    | _ => false
  | none => false

/-- STRIP moves are queued from a list of marks while the queue has room; the rest is the backlog (R135). -/
def fillFrom : List Nat → Part → Part
  | [], p => setBacklog [] p
  | m :: l, p =>
    if p.mp.queue.length < Config.movePlaces then fillFrom l (if onStrippingBed p m then queueStrip m p else p)
    else setBacklog (m :: l) p

/-- Backlog fill (R135). -/
def backlogFill (p : Part) : Part := fillFrom p.mp.backlog p

/-! ### Suspension -/

/-- A bound suspension keeps the crane, the engagements and the reservation (R127). -/
def suspendBound (n : Nat) (reason : SuspendReason) (p : Part) : Part :=
  match moveOf p n with
  | some m => triggerScan (putMove { m with state := .suspended, reason := some reason } p)
  | none => p

/-- An unbound suspension lets go of the crane, of a chosen slot and of the engagements, and the crane comes to rest at
a position (R127). -/
def suspendUnbound (g : Store) (n : Nat) (c : CraneId) (pos : Int) (reason : SuspendReason) (p : Part) : Part :=
  match moveOf p n with
  | some m =>
    let dest := if m.kind = .strip ∨ m.kind = .rehandle then none else m.dest
    comeToRest g c pos (release n
      (putMove { m with state := .suspended, reason := some reason, crane := none, dest := dest } p))
  | none => p

/-- A supervisor reports its move done (R126): the move leaves, the crane comes to rest, backlog fill runs. -/
def moveDone (g : Store) (n : Nat) (c : CraneId) (pos : Int) (p : Part) : Part :=
  backlogFill (comeToRest g c pos (removeMove n p))

end Sys2Proof.Machine
end

