-- ==== Sys2Proof/Machine/CraneOps.lean ====
section
/-! DEFINITION. The Crane Supervisors' shared operations (chapter 8): beginning a step, stopping, halting a move with the
hook empty, locating a crane, the overrun check, the load check, and one good reply as one event. -/

namespace Sys2Proof.Machine

/-! ### Steps -/

/-- The step a state is. -/
def stepOf : CraneState → Option Step
  | .toSource => some .toSource
  | .takeUp => some .takeUp
  | .lift => some .lift
  | .toDest => some .toDest
  | .lower => some .lower
  | .parking => some .parking
  | _ => none

/-- The state of a step. -/
def stateOf : Step → CraneState
  | .toSource => .toSource
  | .takeUp => .takeUp
  | .lift => .lift
  | .toDest => .toDest
  | .lower => .lower
  | .parking => .parking

/-- The move a crane holds. -/
def moveHeld (p : Part) (c : CraneId) : Option Move :=
  match (craneOf p c).move with
  | some n => moveOf p n
  | none => none

/-- The source position of the move a crane holds. -/
def heldSource (g : Store) (p : Part) (c : CraneId) : Int :=
  match moveHeld p c with
  | some m => sourcePos g m.source
  | none => 0

/-- The destination position of the move a crane holds. -/
def heldDest (g : Store) (p : Part) (c : CraneId) : Int :=
  match moveHeld p c with
  | some m => match m.dest with
    | some d => destPos g c d
    | none => 0
  | none => 0

/-- The command of a step (table of section 8.2). -/
def stepCommand (g : Store) (p : Part) (c : CraneId) : Step → FieldCmd
  | .toSource => .goto (heldSource g p c)
  | .takeUp => .takeUp
  | .lift => .lift
  | .toDest => .goto (heldDest g p c)
  | .lower => .lower
  | .parking => .goto (destPos g c .home)

/-- A supervisor offers a command of its step; FL's answer makes it QUEUED or WAITING (R139). -/
def offerStep (g : Store) (c : CraneId) (cmd : FieldCmd) (p : Part) : Part :=
  match craneNode g c with
  | some addr => commandAnswered g c cmd (offer g ⟨addr, cmd, .cs c⟩ p).1 (offer g ⟨addr, cmd, .cs c⟩ p).2
  | none => p

/-- A command kept from before a step: a hook step's own command takes its place, as a newer command of a class does in the
queue (R164; notes/assumptions/11.md). -/
def keptBeyond (step : Step) (kept : Option FieldCmd) : Option FieldCmd :=
  match step with
  | .takeUp => none
  | .lift => none
  | .lower => none
  | _ => kept

/-- A supervisor begins a step: the completed step's timer is stopped and the step's command offered (R139). -/
def beginStep (g : Store) (c : CraneId) (step : Step) (p : Part) : Part :=
  offerStep g c (stepCommand g p c step)
    (enterState g c { craneOf p c with state := stateOf step, command := none, timer := none
                                       kept := keptBeyond step (craneOf p c).kept } p)

/-- A supervisor offers a command outside any step: STOP, or the LOWER of R151. A refused one it keeps (R164). -/
def offerPlain (g : Store) (c : CraneId) (cmd : FieldCmd) (p : Part) : Part :=
  match craneNode g c with
  | some addr => plainAnswered c cmd (offer g ⟨addr, cmd, .cs c⟩ p).1 (offer g ⟨addr, cmd, .cs c⟩ p).2
  | none => p

/-- MP hands a move to an IDLE crane's supervisor (R139). -/
def takeMove (g : Store) (c : CraneId) (m : Move) (p : Part) : Part :=
  beginStep g c (if m.kind = .park then .parking else .toSource)
    (putCrane c { craneOf p c with move := some m.number, dispatchPos := (craneOf p c).pos } p)

/-! ### Stops -/

/-- The suspend reason of a stop reason; a CLEARANCE stop holds no move. -/
def suspendReason : StopReason → SuspendReason
  | .timeout => .timeout
  | .driveFault => .driveFault
  | .nodeLost => .nodeLost
  | .overrun => .overrun
  | .overrunOther => .overrunOther
  | .mode => .mode
  | .clearance => .overrun

/-- The supervisor's record on entry to STOPPED (R145, step 2). A crane already STOPPED keeps the step it stopped in as
its present step (notes/assumptions/12.md). -/
def stoppedRecord (r : Crane) (reason : StopReason) : Crane :=
  { r with
    state := .stopped
    command := none
    timer := none
    fresh := false
    faults := 0
    reason := some reason
    stoppedStep := if r.move.isSome || r.slackening then
        (if r.state = .stopped then r.stoppedStep else stepOf r.state)
      else none }

/-- The notices of a stop (R145, step 4). -/
def stopNotices (c : CraneId) (reason : StopReason) (p : Part) : Part :=
  let r := craneOf p c
  let told := raise (.craneStopped c reason r.pos r.move r.load) p
  match moveHeld p c with
  | some m => match m.kind, m.piece with
    | .park, _ => told
    | _, some mark => raise (.moveSuspended m.number mark (suspendReason reason) none) told
    | _, none => told
  | none => told

/-- A crane enters STOPPED (R145): commands withdrawn and STOP offered, record made, move suspended bound, notices. -/
def stopCrane (g : Store) (c : CraneId) (reason : StopReason) (sendStop : Bool) (p : Part) : Part :=
  let quiet := withdraw g c (putCrane c { craneOf p c with command := none, kept := none } p)
  let halted := if sendStop then offerPlain g c .stop quiet else quiet
  let entered := enterState g c (stoppedRecord (craneOf halted c) reason) halted
  stopNotices c reason
    (match (craneOf entered c).move with
     | some n => suspendBound n (suspendReason reason) entered
     | none => entered)

/-- The located states other than STOPPED, which R146 to R149 stop. -/
def canStop : CraneState → Bool
  | .unlocated => false
  | .stopped => false
  | _ => true

/-- Stop a crane that is in a located state other than STOPPED. -/
def stopIfLocated (g : Store) (c : CraneId) (reason : StopReason) (sendStop : Bool) (p : Part) : Part :=
  if canStop (craneOf p c).state then stopCrane g c reason sendStop p else p

/-- FL reports the crane's node LOST (R148). -/
def craneNodeLost (g : Store) (c : CraneId) (p : Part) : Part := stopIfLocated g c .nodeLost false p

/-- FL reports the crane's node BACK: STOP is offered in every state (R148). -/
def craneNodeBack (g : Store) (c : CraneId) (p : Part) : Part := offerPlain g c .stop p

/-! ### Cancel and withdrawal with the hook empty -/

/-- A crane with a DISPATCHED move and an empty hook is halted and becomes IDLE without the move (R151). -/
def haltMove (g : Store) (c : CraneId) (p : Part) : Part :=
  let wasTakeUp := decide ((craneOf p c).state = .takeUp)
  let quiet := withdraw g c (putCrane c { craneOf p c with command := none, kept := none } p)
  let halted := offerPlain g c .stop quiet
  let slack := if wasTakeUp then offerPlain g c .lower halted else halted
  triggerScan (enterState g c
    { craneOf slack c with state := .idle, command := none, timer := none, move := none, dispatchPos := none,
                           stoppedStep := none } slack)

/-- MP withdraws a SHIP move whose piece is no longer SHIPPABLE (R128): taken when the move is DISPATCHED and the hook
empty, refused otherwise. -/
def withdrawShip (g : Store) (m : Move) (p : Part) : Part :=
  match m.state, m.crane, m.piece with
  | .dispatched, some c, some mark =>
    if (craneOf p c).load.isSome then p
    else
      let halted := haltMove g c p
      raise (.moveSuspended m.number mark .held none)
        (suspendUnbound g m.number c ((craneOf halted c).pos.getD 0) .held halted)
  | _, _, _ => p

/-! ### Judging a reply -/

/-- The contents of a crane reply (section 9.2). -/
structure CraneReply where
  pos    : Int
  motion : Motion
  hook   : Hook
  done   : Bool
  fault  : Bool
  strain : Nat
  deriving DecidableEq, Repr

/-- The hook field of a crane status byte (section 9.2). -/
def hookOf (status : Nat) : Option Hook :=
  match status / 2 % 4 with
  | 0 => some .up
  | 1 => some .strained
  | 2 => some .released
  | _ => none

/-- The contents of a good crane reply. -/
def craneContents (bytes : List Nat) : Option CraneReply :=
  match bytes with
  | [_, ph, pl, status, sh, sl, _] =>
    match hookOf status with
    | some hook =>
      some { pos := ((ph * 256 + pl : Nat) : Int), motion := if status % 2 = 1 then .moving else .stopped, hook := hook,
             done := status / 8 % 2 == 1, fault := status / 16 % 2 == 1, strain := sh * 256 + sl }
    | none => none
  | _ => none

/-- R140, step 1: the last values, and the fresh flag of a STOPPED crane. -/
def storeValues (y : CraneReply) (r : Crane) : Crane :=
  { r with pos := some y.pos, motion := some y.motion, hook := some y.hook, driveFault := some y.fault,
           fresh := if r.state = .stopped then true else r.fresh }

/-- R150: the first good reply of an UNLOCATED crane locates it, or stops it on CLEARANCE. -/
def locateCrane (g : Store) (c : CraneId) (pos : Int) (p : Part) : Part :=
  match askReservation g c [pos] p with
  | some q => triggerScan (putCrane c { craneOf q c with state := .idle } q)
  | none => stopCrane g c .clearance true p

/-- R149: overrun protection of a crane outside its reservation. -/
def overrunCheck (g : Store) (c : CraneId) (pos : Int) (p : Part) : Part :=
  match reservationOf p c with
  | none => p
  | some res =>
    if (pos < res.lo ∨ res.hi < pos) ∧
        ¬ ((craneOf p c).state = .stopped ∧ (craneOf p c).reason = some .overrun) then
      let own := stopCrane g c .overrun true p
      let o := otherCrane c
      stopIfLocated g o .overrunOther true (offerPlain g o .stop own)
    else p

/-- R147: the fault count, and the stop at the fault filter. -/
def countFault (g : Store) (c : CraneId) (fault : Bool) (p : Part) : Part :=
  let n := if fault then satSucc 8 (craneOf p c).faults else 0
  let counted := putCrane c { craneOf p c with faults := n } p
  if g.plant.faultFilter ≤ (n : Int) then stopIfLocated g c .driveFault true counted else counted

/-- Within the arrival tolerance of a position, at rest (table of section 8.2). -/
def arrived (g : Store) (y : CraneReply) (target : Int) : Bool :=
  y.motion == .stopped && decide ((distance y.pos target : Int) ≤ g.plant.arrivalTolerance)

/-- The completion condition of a step (table of section 8.2). -/
def stepComplete (g : Store) (p : Part) (c : CraneId) (y : CraneReply) : Step → Bool
  | .toSource => arrived g y (heldSource g p c)
  | .takeUp => y.hook == .strained && y.done
  | .lift => y.hook == .up && y.done
  | .toDest => arrived g y (heldDest g p c)
  | .lower => y.hook == .released && y.done
  | .parking => arrived g y (destPos g c .home)

/-- The outcome of the load check (R141). -/
inductive LoadJudgement where
  | accepted
  | high
  | low
  deriving DecidableEq, Repr

/-- R141: strain against recorded mass, under a tolerance in percent. -/
def judgeLoad (tolerance : Int) (mass strain : Nat) : LoadJudgement :=
  if (mass : Int) * (100 + tolerance) < (strain : Int) * 100 then .high
  else if (strain : Int) * 100 < (mass : Int) * (100 - tolerance) then .low
  else .accepted

/-- R142: the load is accepted, SM takes the lift, and LIFT begins. -/
def acceptLoad (g : Store) (c : CraneId) (mark : Nat) (p : Part) : Part :=
  beginStep g c .lift (liftPiece c mark (putCrane c { craneOf p c with load := some mark } p))

/-- R143: the load is refused; the crane slackens its hook and the move suspends unbound. -/
def refuseLoad (g : Store) (c : CraneId) (m : Move) (mark mass : Nat) (y : CraneReply) (reason : SuspendReason)
    (p : Part) : Part :=
  let slack := beginStep g c .lower
    (putCrane c { craneOf p c with slackening := true, move := none, dispatchPos := none } p)
  raise (.moveSuspended m.number mark reason (some (y.strain, mass)))
    (suspendUnbound g m.number c y.pos reason slack)

/-- The load check at the completion of TAKE_UP (R141 to R143). -/
def loadCheck (g : Store) (c : CraneId) (y : CraneReply) (p : Part) : Part :=
  match moveHeld p c with
  | none => p
  | some m => match m.piece with
    | none => p
    | some mark =>
      let mass := match pieceOf p mark with
        | some q => q.mass
        | none => 0
      match judgeLoad g.plant.loadTolerance mass y.strain with
      | .accepted => acceptLoad g c mark p
      | .high => refuseLoad g c m mark mass y .loadHigh p
      | .low => refuseLoad g c m mark mass y .loadLow p

/-- A crane becomes IDLE with nothing held: a trigger of the scan (R121). -/
def becomeIdle (g : Store) (c : CraneId) (p : Part) : Part :=
  triggerScan (enterState g c
    { craneOf p c with state := .idle, slackening := false, command := none, timer := none, move := none,
                       dispatchPos := none, stoppedStep := none, load := none } p)

/-- SM places a move's piece where the move ends (R144). -/
def placePiece (g : Store) (m : Move) (mark : Nat) (p : Part) : Part :=
  match m.dest with
  | some (.slot s) => placeOnSlot g m mark s p
  | some (.bay b) => placeInBay m mark b p
  | _ => p

/-- Where MOVE DONE says the piece now is. -/
def spotOf (m : Move) (mark : Nat) (p : Part) : Spot :=
  match m.dest with
  | some (.bay b) => .bay b
  | _ => match pieceOf p mark with
    | some q => .place q.place
    | none => .place .unlocated

/-- LOWER completes on a crane that holds a move (R144). -/
def finishMove (g : Store) (c : CraneId) (m : Move) (mark : Nat) (pos : Int) (p : Part) : Part :=
  let placed := placePiece g m mark p
  let cleared := putCrane c { craneOf placed c with load := none } placed
  let told := raise (.moveDone m.number m.kind mark (spotOf m mark placed)) cleared
  becomeIdle g c (moveDone g m.number c pos told)

/-- A step completes (R139 to R144). -/
def completeStep (g : Store) (c : CraneId) (y : CraneReply) (step : Step) (p : Part) : Part :=
  match step with
  | .toSource => beginStep g c .takeUp p
  | .takeUp => loadCheck g c y p
  | .lift => beginStep g c .toDest p
  | .toDest => beginStep g c .lower p
  | .lower =>
    match moveHeld p c with
    | some m => match m.piece with
      | some mark => finishMove g c m mark y.pos p
      | none => becomeIdle g c p
    | none => becomeIdle g c p
  | .parking =>
    match (craneOf p c).move with
    | some n => becomeIdle g c (moveDone g n c y.pos p)
    | none => becomeIdle g c p

/-- Whether a reply of an exchange is judged: the step command is CARRIED, by an earlier exchange (R140, step 5). -/
def judgesReply (r : Crane) (exchange : Nat) : Bool :=
  match r.command with
  | some (_, .carried id) => decide (id < exchange)
  | _ => false

/-- R140, step 5. -/
def judgeStep (g : Store) (c : CraneId) (exchange : Nat) (y : CraneReply) (p : Part) : Part :=
  match stepOf (craneOf p c).state with
  | none => p
  | some step =>
    if judgesReply (craneOf p c) exchange && stepComplete g p c y step then completeStep g c y step p else p

/-- One good reply of a crane's node is one event of its supervisor (R140). -/
def takeCraneReply (g : Store) (c : CraneId) (exchange : Nat) (y : CraneReply) (p : Part) : Part :=
  let stored := putCrane c (storeValues y (craneOf p c)) p
  let located := if (craneOf stored c).state = .unlocated then locateCrane g c y.pos stored else stored
  let watched := overrunCheck g c y.pos located
  let counted := countFault g c y.fault watched
  judgeStep g c exchange y counted

/-! ### Reports about a supervisor's commands -/

/-- The exchange carrying a step command drew a good reply: the command is CARRIED (R139). -/
def commandCarried (c : CraneId) (cmd : FieldCmd) (exchange : Nat) (p : Part) : Part :=
  if (craneOf p c).command = some (cmd, .queued) then
    putCrane c { craneOf p c with command := some (cmd, .carried exchange) } p
  else p

/-- The exchange carrying a supervisor's command ended in a miss: the command is offered again at once (R139, R167). -/
def commandMissed (g : Store) (c : CraneId) (cmd : FieldCmd) (p : Part) : Part :=
  if (craneOf p c).command = some (cmd, .queued) then offerStep g c cmd p else offerPlain g c cmd p

end Sys2Proof.Machine
end

