-- ==== Sys2Proof/Machine/Scan.lean ====
section
/-! DEFINITION. The dispatch scan and give-way (section 7.3), the withdrawal of SHIP moves (R128), and the end of an
event: withdrawals first, then one scan (R114, R121). -/

namespace Sys2Proof.Machine

/-! ### Candidates -/

/-- Whether a chain member queued before a move is still in the queue (R122, condition 2). -/
def heldBack (p : Part) (m : Move) : Bool :=
  match m.chain with
  | none => false
  | some k => p.mp.queue.any fun n => n.chain == some k && decide (n.rank < m.rank)

/-- Whether a move's source is available (R122, condition 3). -/
def sourceAvailable (p : Part) (m : Move) : Bool :=
  match m.source, m.piece with
  | .bed b _, some mark =>
    (match pieceOf p mark with
     | some q => (match q.place with | .bed k _ => k == b | _ => false)
     | none => false) && (bedOf p b).state == .stripping
  | .slot n, some mark => (slotOf p n).stack.getLast? == some mark && (slotOf p n).engaged.isNone
  | _, _ => false

/-- Whether a move's piece is in the condition its kind needs (R122, condition 4). -/
def conditionFits (p : Part) (m : Move) : Bool :=
  match m.kind, m.piece with
  | .ship, some mark => (pieceOf p mark).map (·.condition) == some .shippable
  | .scrap, some mark => (pieceOf p mark).map (·.condition) == some .rejected
  | .park, _ => false
  | _, _ => true

/-- R122: whether a move is a candidate. -/
def candidate (p : Part) (m : Move) : Bool :=
  m.state == .queued && !heldBack p m && sourceAvailable p m && conditionFits p m

/-! ### Legal cranes -/

/-- Whether a crane is free: IDLE with no move (R123). -/
def isFree (p : Part) (c : CraneId) : Bool := (craneOf p c).state == .idle && (craneOf p c).move.isNone

/-- The allowed span of a crane against the other crane's reservation (table of R123). -/
def allowedSpan (g : Store) (c : CraneId) (other : Option Reservation) : Option (Int × Int) :=
  match other with
  | some r => match c with
    | .A => some (0, r.lo - g.plant.clearance - 1)
    | .B => some (r.hi + g.plant.clearance + 1, g.runway)
  | none => if (craneCfg g (otherCrane c)).isSome then none else some (0, g.runway)

def within (span : Int × Int) (x : Int) : Bool := decide (span.1 ≤ x) && decide (x ≤ span.2)

/-- The destination a move would have for a crane within a span, if it can be reached (R123). -/
def destWithin (g : Store) (p : Part) (c : CraneId) (m : Move) (span : Int × Int) : Option Dest :=
  match m.dest with
  | some d => if within span (destPos g c d) then some d else none
  | none => match m.piece with
    | none => none
    | some mark => match pieceOf p mark with
      | none => none
      | some q =>
        (chooseSlot g p q m.source.slotNumber (sourcePos g m.source) span.1 span.2).map Dest.slot

/-- R123: the destination with which a crane is legal for a candidate, against a reservation of the other crane. -/
def legal (g : Store) (p : Part) (c : CraneId) (m : Move) (other : Option Reservation) : Option Dest :=
  match allowedSpan g c other, (craneOf p c).pos with
  | some span, some pos =>
    if within span pos && within span (sourcePos g m.source) then destWithin g p c m span else none
  | _, _ => none

/-- The distance of a crane from a position. -/
def craneDistance (p : Part) (c : CraneId) (x : Int) : Nat := distance ((craneOf p c).pos.getD 0) x

/-- The cranes in the order of their distance, A first on a tie (R123, R125). -/
def nearerFirst (dA dB : Nat) : List CraneId := if dA ≤ dB then [.A, .B] else [.B, .A]

/-- The first legal free crane for a candidate, and the destination (R123). -/
def firstLegal (g : Store) (p : Part) (m : Move) : List CraneId → Option (CraneId × Dest)
  | [] => none
  | c :: l =>
    if isFree p c then
      match legal g p c m (reservationOf p (otherCrane c)) with
      | some d => some (c, d)
      | none => firstLegal g p m l
    else firstLegal g p m l

/-! ### Dispatch -/

/-- R124: MP dispatches a move to a crane. -/
def dispatch (g : Store) (c : CraneId) (m : Move) (d : Dest) (p : Part) : Part :=
  let basis := [(craneOf p c).pos.getD 0, sourcePos g m.source, destPos g c d]
  let m' := { m with dest := some d, crane := some c, state := .dispatched }
  takeMove g c m'
    (writeReservation c (some (stretch g basis))
      (putMove m' (engage m.number m.source.slotNumber d.slotNumber p)))

/-- What a scan has done so far: the part, whether it dispatched a move, and the first candidate found. -/
structure Walk where
  part       : Part
  dispatched : Bool
  first      : Option Nat

/-- One move of the walk (R122, R123). -/
def visit (g : Store) (w : Walk) (n : Nat) : Walk :=
  if !(isFree w.part .A || isFree w.part .B) then w
  else match moveOf w.part n with
  | none => w
  | some m =>
    if candidate w.part m then
      let src := sourcePos g m.source
      match firstLegal g w.part m (nearerFirst (craneDistance w.part .A src) (craneDistance w.part .B src)) with
      | some (c, d) =>
        { part := dispatch g c m d w.part, dispatched := true, first := if w.first.isSome then w.first else some n }
      | none => { w with first := if w.first.isSome then w.first else some n }
    else w

/-! ### Give-way -/

/-- A crane's distance from its home (R125). -/
def homeDistance (g : Store) (p : Part) (c : CraneId) : Nat := craneDistance p c (destPos g c .home)

/-- R125: whether parking crane `o` would make the other crane legal for a candidate, and is legal itself. -/
def parkHelps (g : Store) (p : Part) (m : Move) (o : CraneId) : Bool :=
  let home := destPos g o .home
  !decide ((homeDistance g p o : Int) ≤ g.plant.arrivalTolerance) &&
  (legal g p (otherCrane o) m (some (stretch g [home]))).isSome &&
  fits o (stretch g [(craneOf p o).pos.getD 0, home]) p

/-- R125: MP queues a PARK at the head and dispatches it at once. -/
def park (g : Store) (o : CraneId) (p : Part) : Part :=
  let pos := (craneOf p o).pos.getD 0
  let n := newNumber p
  let m : Move := { plainMove .park none (.runway pos) (some .home) with
                    number := n, state := .dispatched, crane := some o }
  takeMove g o m
    (writeReservation o (some (stretch g [pos, destPos g o .home])) (joinQueue true m p))

/-- R125: give-way for the first candidate of a scan that dispatched nothing. -/
def giveWay (g : Store) (first : Option Nat) (p : Part) : Part :=
  match first with
  | none => p
  | some n => match moveOf p n with
    | none => p
    | some m =>
      if g.craneA.isSome && g.craneB.isSome && p.csA.state == .idle && p.csB.state == .idle &&
          decide (0 < freeEntries p) then
        match (nearerFirst (homeDistance g p .A) (homeDistance g p .B)).find? (parkHelps g p m) with
        | some o => park g o p
        | none => p
      else p

/-- The dispatch scan (R122 to R125). -/
def scan (g : Store) (p : Part) : Part :=
  let w := (p.mp.queue.map (·.number)).foldl (visit g) { part := p, dispatched := false, first := none }
  if w.dispatched then w.part else giveWay g w.first w.part

/-! ### The end of an event -/

/-- R128 for a piece whose condition an event changed. -/
def reviewShip (g : Store) (p : Part) (mark : Nat) : Part :=
  match pieceOf p mark with
  | none => p
  | some q => match q.move with
    | none => p
    | some n => match moveOf p n with
      | none => p
      | some m => if m.kind = .ship ∧ q.condition ≠ .shippable then withdrawShip g m p else p

/-- The end of an event: the stock change is applied to SHIP moves (R114, R128), and one scan runs in RUN if a trigger
arose (R121). In SETUP and WATCH the triggers pass without a scan. DESIGN CHOICE (notes/assumptions/25.md): where a report
names several pieces, their SHIP moves are withdrawn in the order in which the event changed the pieces. -/
def endOfEvent (g : Store) (p : Part) : Part :=
  let withdrawn := p.evt.changed.foldl (reviewShip g) p
  let scanned := if withdrawn.evt.scan && withdrawn.mc.mode == .run then scan g withdrawn else withdrawn
  { scanned with evt := .none }

end Sys2Proof.Machine
end

