-- ==== Sys2Proof/Machine/Heat.lean ====
section
/-! DEFINITION. The Heat Allocator (chapter 5): order of service, grants, starved beds, the heat short flag, valve
openings and valve commands, and what it does in each mode. -/

namespace Sys2Proof.Machine

/-! ### Requests handed over -/

/-- A zone handed to the allocator (R73, R78). -/
structure Handed where
  bed     : Nat
  zone    : Nat
  cls     : HeatClass
  seq     : Nat
  request : Nat
  rating  : Nat
  deriving DecidableEq, Repr

/-- A zone's rating from the bed's configuration. -/
def ratingOf (g : Store) (bed zone : Nat) : Nat :=
  match zoneCfg g bed zone with
  | some z => z.rating
  | none => 0

/-- The zones a context hands over: those whose request is above 0 (R73). -/
def handedBy (g : Store) (bed : Nat) (ctx : Context) : List Handed :=
  (ctx.zones.filter fun z => decide (0 < z.2.request)).map fun z =>
    { bed := bed, zone := z.1, cls := z.2.cls, seq := ctx.seq, request := z.2.request, rating := ratingOf g bed z.1 }

def handedOver (g : Store) (p : Part) : List Handed := p.cc.contexts.flatMap fun c => handedBy g c.1 c.2

/-- The rank of a class in the order FROST, HOLD, RAMP, COOL (R79). -/
def classRank : HeatClass → Nat
  | .frost => 0
  | .hold => 1
  | .ramp => 2
  | .cool => 3
  | .none => 4

/-- Whether a zone is served no later than another: by class, sequence number, bed, zone (R79). -/
def servedFirst (a b : Handed) : Bool :=
  decide (classRank a.cls < classRank b.cls) || (decide (classRank a.cls = classRank b.cls) &&
    (decide (a.seq < b.seq) || (decide (a.seq = b.seq) &&
      (decide (a.bed < b.bed) || (decide (a.bed = b.bed) && decide (a.zone ≤ b.zone))))))

def insertHanded (h : Handed) : List Handed → List Handed
  | [] => [h]
  | k :: l => if servedFirst h k then h :: k :: l else k :: insertHanded h l

/-- The handed zones in the order of service (R79). -/
def serviceOrder : List Handed → List Handed
  | [] => []
  | h :: l => insertHanded h (serviceOrder l)

/-- Each zone in turn is granted min(request, remaining) (R79). -/
def grantAll : Nat → List Handed → List (Handed × Nat)
  | _, [] => []
  | left, h :: l => (h, min h.request left) :: grantAll (left - min h.request left) l

/-- The grant of a zone at an allocation; 0 for a zone not handed over (R79). -/
def grantOf (gs : List (Handed × Nat)) (bed zone : Nat) : Nat :=
  match gs.find? fun e => e.1.bed == bed && e.1.zone == zone with
  | some e => e.2
  | none => 0

/-- Whether a served zone was granted less than its request. -/
def isShort (e : Handed × Nat) : Bool := decide (e.2 < e.1.request)

/-- The partial zone: a grant strictly between 0 and the request (R80). -/
def partialOf (gs : List (Handed × Nat)) : Option (Nat × Nat) :=
  (gs.find? fun e => isShort e && decide (0 < e.2)).map fun e => (e.1.bed, e.1.zone)

/-! ### Stage 7 -/

def mapContexts (f : Nat → Context → Context) (p : Part) : Part :=
  { p with cc := { p.cc with contexts := Map.mapRecords f p.cc.contexts } }

def setAlloc (a : Alloc) (p : Part) : Part := { p with cc := { p.cc with alloc := a } }

/-- The grants are written to the zone curing records (R79). -/
def writeGrants (gs : List (Handed × Nat)) (p : Part) : Part :=
  mapContexts (fun b ctx =>
    { ctx with zones := Map.mapRecords (fun z r => { r with grant := grantOf gs b z }) ctx.zones }) p

/-- Whether a bed was starved at an allocation (R81). -/
def bedStarved (gs : List (Handed × Nat)) (bed : Nat) : Bool := gs.any fun e => e.1.bed == bed && isShort e

/-- The starved judgement of one context, and its STARVED report at the starve limit (R81, R82). -/
def judgeStarved (g : Store) (gs : List (Handed × Nat)) (p : Part) (bed : Nat) : Part :=
  match contextOf p bed with
  | none => p
  | some ctx =>
    if bedStarved gs bed then
      let n := ctx.starvedCount + 1
      if g.plant.starveLimit ≤ (n : Int) then
        reportDeviation g bed ctx.pour { kind := .starved, zone := none, value := n, minutes := curingMinutes ctx }
          (putContext bed { ctx with starved := true, starvedCount := 0 } p)
      else putContext bed { ctx with starved := true, starvedCount := n } p
    else putContext bed { ctx with starved := false, starvedCount := 0 } p

/-- The allocation record after an allocation (R80); the heat short flag is R83's. -/
def allocRecord (cap : Nat) (gs : List (Handed × Nat)) : Alloc :=
  { capacity := some cap
    requested := (gs.map fun e => e.1.request).sum
    granted := (gs.map fun e => e.2).sum
    served := gs.length
    short := (gs.filter isShort).length
    partialZone := partialOf gs
    last := some .allocated
    heatShort := gs.any isShort }

/-- The heat short flag's notice, where the flag has changed (R83). -/
def heatNotice (g : Store) (gs : List (Handed × Nat)) (before : Bool) (p : Part) : Part :=
  let a := p.cc.alloc
  match gs.find? isShort with
  | some e =>
    if before then p
    else raise (.heatShort g.boiler a.requested a.granted a.short e.1.bed e.1.zone e.1.cls) p
  | none => if before then raise (.heatOk g.boiler a.requested) p else p

/-- The wanted opening of a zone (R84). -/
def wantedOpening (g : Store) (p : Part) (bed zone : Nat) : Nat :=
  match contextOf p bed with
  | none => 0
  | some ctx => match Map.find ctx.zones zone with
    | some r => r.grant / ratingOf g bed zone
    | none => 0

/-- Every valve record's wanted opening is set (R84). A rating of 0 divides to 0. -/
def setWanted (g : Store) (p : Part) : Part :=
  let valves := Map.mapRecords (fun k v => { v with wanted := wantedOpening g p (keyBed k) (keyZone k) }) p.cc.valves
  { p with cc := { p.cc with valves := valves } }

/-- Stage 7 in RUN (R79 to R84). -/
def allocate (g : Store) (p : Part) : Part :=
  let cap := 100 * g.boiler
  let gs := grantAll cap (serviceOrder (handedOver g p))
  let granted := writeGrants gs p
  let starved := (Map.keys granted.cc.contexts).foldl (judgeStarved g gs) granted
  let before := starved.cc.alloc.heatShort
  setWanted g (heatNotice g gs before (setAlloc (allocRecord cap gs) starved))

/-- The null allocation of stage 7 in SETUP (R88). DESIGN CHOICE (notes/assumptions/24.md): the zones served and the zones
short keep their values with C, the totals and the partial zone, which are all that R88 names. -/
def nullAllocation (p : Part) : Part :=
  let marked := mapContexts (fun _ ctx =>
    { ctx with starved := ctx.zones.any (fun z => decide (0 < z.2.request))
               zones := Map.mapRecords (fun _ r => { r with grant := 0 }) ctx.zones }) p
  setAlloc { marked.cc.alloc with last := some .null } marked

/-- The withheld allocation of stage 7 in WATCH (R87). -/
def withhold (p : Part) : Part := setAlloc { p.cc.alloc with last := some .withheld } p

/-- Stage 7 by mode (R87, R88). -/
def stage7 (g : Store) (p : Part) : Part :=
  match p.mc.mode with
  | .run => allocate g p
  | .watch => withhold p
  | .setup => nullAllocation p

/-! ### Valve commands -/

/-- CC offers FL a SET VALVE for a zone; an acceptance is handed, a refusal sets the resend flag (R85). -/
def offerValve (g : Store) (bed zone opening : Nat) (p : Part) : Part :=
  match zoneCfg g bed zone with
  | none => p
  | some z =>
    let r := offer g ⟨z.node, .setValve opening, .cc⟩ p
    match r.1 with
    | .accepted => putValve bed zone { valveOf r.2 bed zone with handed := some opening, resend := false } r.2
    | .refused => putValve bed zone { valveOf r.2 bed zone with resend := true } r.2
    | .discarded => r.2

/-- Whether a zone's node is LOST. -/
def zoneLost (g : Store) (p : Part) (bed zone : Nat) : Bool :=
  match zoneCfg g bed zone with
  | some z => nodeLost p z.node
  | none => false

/-- Stage 8 for one valve record (R85). -/
def stage8Zone (g : Store) (p : Part) (k : Nat) : Part :=
  let v := valveOf p (keyBed k) (keyZone k)
  if !zoneLost g p (keyBed k) (keyZone k) && (decide (v.handed ≠ some v.wanted) || v.resend) then
    offerValve g (keyBed k) (keyZone k) v.wanted p
  else p

/-- Stage 8 (R85): the valve records in ascending bed and zone number. -/
def offerValves (g : Store) (p : Part) : Part := (Map.keys p.cc.valves).foldl (stage8Zone g) p

/-- Stage 8 by mode: no command is offered in WATCH (R87). -/
def stage8 (g : Store) (p : Part) : Part :=
  match p.mc.mode with
  | .watch => p
  | _ => offerValves g p

/-- On entry to SETUP: every wanted opening 0, and SET VALVE 0 offered where the valve may stand open (R88). -/
def setupZone (g : Store) (p : Part) (k : Nat) : Part :=
  let v := valveOf p (keyBed k) (keyZone k)
  if !zoneLost g p (keyBed k) (keyZone k) && (decide (v.handed ≠ some 0) || v.resend) then
    offerValve g (keyBed k) (keyZone k) 0 p
  else p

def enterSetup (g : Store) (p : Part) : Part :=
  let valves := Map.mapRecords (fun _ v => { v with wanted := 0 }) p.cc.valves
  let closed : Part := { p with cc := { p.cc with valves := valves } }
  (Map.keys closed.cc.valves).foldl (setupZone g) closed

/-! ### FL's reports about a zone node -/

/-- NODE BACK: CC offers the handed opening, or 0 if none was handed, in every mode (R86). -/
def zoneNodeBack (g : Store) (bed zone : Nat) (p : Part) : Part :=
  offerValve g bed zone ((valveOf p bed zone).handed.getD 0) p

/-- A miss on a SET VALVE sets the zone's resend flag (R86). -/
def valveMissed (bed zone : Nat) (p : Part) : Part :=
  putValve bed zone { valveOf p bed zone with resend := true } p

end Sys2Proof.Machine
end

