-- ==== Sys2Proof/Machine/Curing.lean ====
section
/-! DEFINITION. The Curing Controller (chapter 4): opening a context, and the curing interval expiry with its eight
stages. Each stage is applied to every context before the next begins (R55). -/

namespace Sys2Proof.Machine

/-! ### Opening and exclusion -/

/-- CC opens a bed's curing context when its pour has closed (R51). -/
def openContext (g : Store) (bed pour : Nat) (p : Part) : Part :=
  match pourOf p pour with
  | none => p
  | some r =>
    putContext bed
      { pour := pour, seq := r.seq.getD 0, product := r.product, phase := .preset, sp := none, remainder := 0,
        presetElapsed := 0, curingTime := 0, starved := false, starvedCount := 0, fresh := true,
        repairPending := false,
        zones := (numbered 1 (zonesOf g bed)).map fun z => (z.1, ZoneCuring.opened) } p

/-- Change one zone curing record. -/
def updateZone (bed zone : Nat) (f : ZoneCuring → ZoneCuring) (p : Part) : Part :=
  match contextOf p bed with
  | none => p
  | some ctx => match Map.find ctx.zones zone with
    | none => p
    | some r => putContext bed { ctx with zones := Map.put ctx.zones zone (f r) } p

/-- CC excludes a zone (R53). -/
def excludeZone (bed zone : Nat) (p : Part) : Part := updateZone bed zone (fun r => { r with excluded := true }) p

/-- The included zones of a context. -/
def included (ctx : Context) : List (Nat × ZoneCuring) := ctx.zones.filter fun z => !z.2.excluded

/-! ### Stage 1: temperatures -/

/-- How a zone's temperature was resolved at an expiry (R56). -/
inductive Resolved where
  | measured (t : Int)
  | held (t : Int)
  | lapsed
  deriving DecidableEq, Repr

/-- The temperature of a zone resolved measured or held. -/
def Resolved.temp : Resolved → Option Int
  | .measured t => some t
  | .held t => some t
  | .lapsed => none

/-- R56: the resolution of a zone from TU's outcome. DESIGN CHOICE (notes/assumptions/13.md): the lapsed and
unmeasured-recorded flags of an excluded zone are set and cleared here too, as R56 says of every zone; R53 has them keep
their values. -/
def resolve (holdLastGood : Int) (outcome : ZoneResult) (r : ZoneCuring) : Resolved × ZoneCuring :=
  match outcome with
  | .measured t _ =>
    (.measured t, { r with held := some t, heldCount := 0, lapsed := false, unmeasuredSeen := false })
  | .unmeasured _ =>
    match r.held with
    | some t =>
      if (r.heldCount : Int) < holdLastGood then (.held t, { r with heldCount := r.heldCount + 1 })
      else (.lapsed, { r with lapsed := true })
    | none => (.lapsed, { r with lapsed := true })

/-- Every zone of every context, ascending. -/
def curedZones (p : Part) : List (Nat × Nat) := p.cc.contexts.flatMap fun c => c.2.zones.map fun z => (c.1, z.1)

/-- The outcome of resolving a zone that CC names, at a freshness limit. -/
def resolveZone (g : Store) (limit : Nat) (p : Part) (bed zone : Nat) (r : ZoneCuring) : Resolved × ZoneCuring :=
  resolve g.plant.holdLastGood (zoneOutcome g p limit bed zone) r

/-- Stage 1 for one zone: TU forms and stores its result, CC resolves it (R44, R56). -/
def formZone (g : Store) (limit : Nat) (acc : Part × Map Resolved) (bz : Nat × Nat) : Part × Map Resolved :=
  let p := acc.1
  match contextOf p bz.1 with
  | none => acc
  | some ctx => match Map.find ctx.zones bz.2 with
    | none => acc
    | some r =>
      let res := resolveZone g limit p bz.1 bz.2 r
      (updateZone bz.1 bz.2 (fun _ => res.2) (storeZoneResult bz.1 bz.2 (zoneOutcome g p limit bz.1 bz.2) p),
       Map.put acc.2 (zoneKey bz.1 bz.2) res.1)

def stage1 (g : Store) (limit : Nat) (p : Part) : Part × Map Resolved :=
  (curedZones p).foldl (formZone g limit) (p, [])

/-- The temperature a zone was resolved to at this expiry. -/
def tempOf (rs : Map Resolved) (bed zone : Nat) : Option Int :=
  match Map.find rs (zoneKey bed zone) with
  | some r => r.temp
  | none => none

/-- Whether a zone was resolved measured at this expiry, and at what temperature. -/
def measuredOf (rs : Map Resolved) (bed zone : Nat) : Option Int :=
  match Map.find rs (zoneKey bed zone) with
  | some (.measured t) => some t
  | _ => none

/-! ### Stage 2: maturity -/

/-- The credit of a temperature over a time (R59). -/
def credit (datum t : Int) (dt : Nat) : Nat := (max (t - datum) 0).toNat * dt

/-- The Δt of an expiry for a context: 0 at its first expiry (R54). -/
def deltaFor (dt : Nat) (ctx : Context) : Nat := if ctx.fresh then 0 else dt

/-- Stage 2 for a context: each zone with a temperature is credited, and the curing time runs (R59, R64). -/
def creditContext (g : Store) (rs : Map Resolved) (dt : Nat) (bed : Nat) (ctx : Context) : Context :=
  { ctx with
    curingTime := satAdd32 ctx.curingTime (deltaFor dt ctx)
    zones := Map.mapRecords (fun z r =>
      match tempOf rs bed z with
      | some t => { r with acc := satAdd32 r.acc (credit g.plant.datum t (deltaFor dt ctx)) }
      | none => r) ctx.zones }

def stage2 (g : Store) (rs : Map Resolved) (dt : Nat) (p : Part) : Part := mapContexts (creditContext g rs dt) p

/-! ### Stage 3: edges and lapses -/

/-- The FREEZE condition (R62). -/
def freezing (phase : Phase) (t : Int) : Bool := decide (t < 0) && (phase == .preset || phase == .ramp)

/-- The OVERTEMP condition (R63). -/
def overheated (hold margin : Int) (phase : Phase) (t : Int) : Bool :=
  decide (hold + margin < t) && (phase == .ramp || phase == .hold || phase == .cool)

/-- The reports of one zone at stage 3, in the order UNMEASURED, FREEZE, OVERTEMP (R58, R62, R63). -/
def zoneReports (hold margin : Int) (phase : Phase) (mins zone : Nat) (temp : Option Int) (r : ZoneCuring) :
    List Deviation :=
  if r.excluded then []
  else match temp with
  | none => if r.lapsed && !r.unmeasuredSeen then [⟨.unmeasured, some zone, r.heldCount, mins⟩] else []
  | some t =>
    (if freezing phase t && !r.freezeEdge then [⟨.freeze, some zone, t, mins⟩] else []) ++
    (if overheated hold margin phase t && !r.overEdge then [⟨.overtemp, some zone, t, mins⟩] else [])

/-- The flags of one zone after stage 3 (R58, R62, R63). -/
def zoneEdges (hold margin : Int) (phase : Phase) (temp : Option Int) (r : ZoneCuring) : ZoneCuring :=
  if r.excluded then r
  else match temp with
  | none => if r.lapsed then { r with unmeasuredSeen := true } else r
  | some t => { r with freezeEdge := freezing phase t, overEdge := overheated hold margin phase t }

/-- The hold temperature of a context's product. -/
def holdOf (g : Store) (ctx : Context) : Int :=
  match product g ctx.product with
  | some q => q.hold
  | none => 0

/-- Stage 3 for one zone. -/
def checkZone (g : Store) (rs : Map Resolved) (p : Part) (bz : Nat × Nat) : Part :=
  match contextOf p bz.1 with
  | none => p
  | some ctx => match Map.find ctx.zones bz.2 with
    | none => p
    | some r =>
      let t := tempOf rs bz.1 bz.2
      let reports := zoneReports (holdOf g ctx) g.plant.overtempMargin ctx.phase (curingMinutes ctx) bz.2 t r
      reports.foldl (fun p d => reportDeviation g bz.1 ctx.pour d p)
        (updateZone bz.1 bz.2 (zoneEdges (holdOf g ctx) g.plant.overtempMargin ctx.phase t) p)

def stage3 (g : Store) (rs : Map Resolved) (p : Part) : Part := (curedZones p).foldl (checkZone g rs) p

/-! ### Stage 4: phases -/

/-- What CC reports to BS at stage 4 (R65). -/
inductive PhaseReport where
  | phase (phase : Phase)
  | coolEnded (maturity : Nat)
  deriving DecidableEq, Repr

/-- The temperatures of the included zones resolved measured or held. -/
def includedTemps (rs : Map Resolved) (bed : Nat) (ctx : Context) : List Int :=
  (included ctx).filterMap fun z => tempOf rs bed z.1

/-- The temperatures of the included zones resolved measured. -/
def includedMeasured (rs : Map Resolved) (bed : Nat) (ctx : Context) : List Int :=
  (included ctx).filterMap fun z => measuredOf rs bed z.1

/-- R75: the setpoint repair of a context with repair pending, when an included zone is measured. -/
def repairSetpoint (q : Product) (least : Int) (ctx : Context) : Context × List PhaseReport :=
  match ctx.phase with
  | .ramp =>
    let sp := min least q.hold
    let c := { ctx with sp := some sp, remainder := 0, repairPending := false }
    if sp = q.hold then ({ c with phase := .hold }, [.phase .hold]) else (c, [])
  | .cool => ({ ctx with sp := some (min (ctx.sp.getD least) least), repairPending := false }, [])
  | _ => ({ ctx with repairPending := false }, [])

/-- R67: entry to RAMP. -/
def enterRamp (q : Product) (fresh : Int) (temps : List Int) (ctx : Context) : Context × List PhaseReport :=
  let sp := min ((leastInt temps).getD fresh) q.hold
  let c := { ctx with sp := some sp, remainder := 0 }
  if sp = q.hold then ({ c with phase := .hold }, [.phase .ramp, .phase .hold])
  else ({ c with phase := .ramp }, [.phase .ramp])

/-- R66: the preset step. -/
def presetStep (q : Product) (fresh : Int) (temps : List Int) (dt : Nat) (ctx : Context) :
    Context × List PhaseReport :=
  let c := { ctx with presetElapsed := satAdd32 ctx.presetElapsed dt }
  if q.preset * 60 ≤ c.presetElapsed then enterRamp q fresh temps c else (c, [])

/-- R68: the ramp step. -/
def rampStep (q : Product) (dt : Nat) (ctx : Context) : Context × List PhaseReport :=
  if ctx.starved then (ctx, [])
  else
    let sum := ctx.remainder + q.rampRate * dt
    let sp := ctx.sp.getD 0 + ((sum / 3600 : Nat) : Int)
    let c := { ctx with remainder := sum % 3600 }
    if q.hold ≤ sp then ({ c with sp := some q.hold, phase := .hold }, [.phase .hold])
    else ({ c with sp := some sp }, [])

/-- A zone whose bed asks for no more heat (R70). -/
def noHeat (r : ZoneCuring) : ZoneCuring := { r with demand := 0, cls := .none, request := 0, grant := 0 }

/-- R70: the cool step. -/
def coolStep (q : Product) (dt : Nat) (ctx : Context) : Context × List PhaseReport :=
  let sum := ctx.remainder + q.coolRate * dt
  let sp := ctx.sp.getD 0 - ((sum / 3600 : Nat) : Int)
  let c := { ctx with remainder := sum % 3600, sp := some sp }
  if sp ≤ q.coolEnd then
    ({ c with phase := .finished, zones := Map.mapRecords (fun _ r => noHeat r) c.zones },
     [.coolEnded (bedMaturity c)])
  else (c, [])

/-- R69: the release check. -/
def releaseCheck (q : Product) (ctx : Context) : Context × List PhaseReport :=
  if (ctx.phase = .ramp ∨ ctx.phase = .hold) ∧ q.strip ≤ bedMaturity ctx then
    ({ ctx with phase := .cool, remainder := 0 }, [.phase .cool])
  else (ctx, [])

/-- Steps 1 to 3 of R65: the preset, ramp or cool step, the last two not while repair is pending. -/
def phaseStep (q : Product) (fresh : Int) (temps : List Int) (dt : Nat) (ctx : Context) :
    Context × List PhaseReport :=
  match ctx.phase with
  | .preset => presetStep q fresh temps dt ctx
  | .ramp => if ctx.repairPending then (ctx, []) else rampStep q dt ctx
  | .cool => if ctx.repairPending then (ctx, []) else coolStep q dt ctx
  | _ => (ctx, [])

/-- Stage 4 for a context (R65): setpoint repair, phase step, release check, and the reports in order. -/
def advance (q : Product) (fresh : Int) (temps measured : List Int) (dt : Nat) (ctx : Context) :
    Context × List PhaseReport :=
  let repaired := match ctx.repairPending, leastInt measured with
    | true, some m => repairSetpoint q m ctx
    | _, _ => (ctx, [])
  let stepped := phaseStep q fresh temps dt repaired.1
  let released := releaseCheck q stepped.1
  (released.1, repaired.2 ++ stepped.2 ++ released.2)

/-- BS takes a report of CC about a bed that is CURING (R27). -/
def takePhaseReport (bed pour : Nat) (p : Part) (r : PhaseReport) : Part :=
  if (bedOf p bed).state = .curing then
    match r with
    | .phase ph => raise (.phase bed pour ph) p
    | .coolEnded m => raise (.bedReady bed pour m) (putBed bed { bedOf p bed with state := .ready } p)
  else p

/-- Stage 4 for one bed. -/
def advanceBed (g : Store) (rs : Map Resolved) (dt : Nat) (p : Part) (bed : Nat) : Part :=
  match contextOf p bed with
  | none => p
  | some ctx => match product g ctx.product with
    | none => p
    | some q =>
      let r := advance q g.plant.minimumFresh (includedTemps rs bed ctx) (includedMeasured rs bed ctx)
        (deltaFor dt ctx) ctx
      r.2.foldl (takePhaseReport bed ctx.pour) (putContext bed r.1 p)

def stage4 (g : Store) (rs : Map Resolved) (dt : Nat) (p : Part) : Part :=
  (Map.keys p.cc.contexts).foldl (advanceBed g rs dt) p

/-! ### Stages 5 and 6: setpoints, demand, class and request -/

/-- R71: the zone setpoint of an included zone of a context not FINISHED. -/
def zoneSetpoint (fresh : Int) (ctx : Context) (temp : Option Int) : Option Int :=
  match ctx.phase with
  | .preset => match temp with
    | some t => if t < fresh then some fresh else none
    | none => none
  | .finished => none
  | _ => ctx.sp

/-- R71: the demand of an error in tenths under a gain in percent per °C. -/
def demandOf (gain : Nat) (e : Int) : Nat := if e ≤ 0 then 0 else min 100 ((e * gain / 10).toNat)

/-- R58, R71: the demand of a zone at stage 6. DESIGN CHOICE (notes/assumptions/13.md): a zone both lapsed and excluded has
demand 0 by R71's last sentence, where R58 has a lapsed zone keep its demand. -/
def zoneDemand (fresh : Int) (gain : Nat) (ctx : Context) (temp : Option Int) (r : ZoneCuring) : Nat :=
  if r.excluded ∨ ctx.phase = .finished then 0
  else match temp with
  | none => r.demand
  | some t => match zoneSetpoint fresh ctx temp with
    | some sp => demandOf gain (sp - t)
    | none => 0

/-- R72: the class of a zone at stage 6; an excluded zone has none (R53). -/
def zoneClass (fresh : Int) (ctx : Context) (temp : Option Int) (r : ZoneCuring) : HeatClass :=
  if r.excluded then .none
  else match ctx.phase with
  | .preset => match temp with
    | some t => if t < fresh then .frost else .none
    | none => if r.cls = .frost then .frost else .none
  | .ramp => .ramp
  | .hold => .hold
  | .cool => .cool
  | .finished => .none

/-- R72: demand, class and request of one zone. -/
def askHeat (fresh : Int) (gain rating : Nat) (lost : Bool) (ctx : Context) (temp : Option Int) (r : ZoneCuring) :
    ZoneCuring :=
  let d := zoneDemand fresh gain ctx temp r
  let k := zoneClass fresh ctx temp r
  { r with demand := d, cls := k, request := if k = .none ∨ r.excluded ∨ lost then 0 else d * rating }

/-- The gain of a context's product. -/
def gainOf (g : Store) (ctx : Context) : Nat :=
  match product g ctx.product with
  | some q => q.gain
  | none => 0

/-- Stages 5 and 6 for a context. -/
def demandContext (g : Store) (p : Part) (rs : Map Resolved) (bed : Nat) (ctx : Context) : Context :=
  let ask (z : Nat) (r : ZoneCuring) : ZoneCuring :=
    askHeat g.plant.minimumFresh (gainOf g ctx) (ratingOf g bed z) (zoneLost g p bed z) ctx (tempOf rs bed z) r
  { ctx with zones := Map.mapRecords ask ctx.zones }

def stage6 (g : Store) (rs : Map Resolved) (p : Part) : Part := mapContexts (demandContext g p rs) p

/-! ### The expiry -/

/-- R55: the eight stages, with the Δt of the run that has ended (R54); fresh flags are cleared at the end. -/
def serveContexts (g : Store) (dt : Nat) (p : Part) : Part :=
  let formed := stage1 g (dt * 1000) p
  let rs := formed.2
  let advanced := stage4 g rs dt (stage3 g rs (stage2 g rs dt formed.1))
  let served := stage8 g (stage7 g (stage6 g rs advanced))
  mapContexts (fun _ ctx => { ctx with fresh := false }) served

/-- The curing interval timer is restarted at once with the setting in force (R14, R54). -/
def restartCuring (g : Store) (p : Part) : Part :=
  { p with cc := { p.cc with timer := .start (seconds g.plant.curingInterval) } }

/-- The curing interval expiry (R54, R55). -/
def curingExpiry (g : Store) (p : Part) : Part := serveContexts g (p.cc.timer.length / 1000) (restartCuring g p)

end Sys2Proof.Machine
end

