-- ==== Sys2Proof/Machine/Link.lean ====
section
/-! DEFINITION. The Command Link's sending side and the frame of every event (chapter 10): CRC and frame bytes, the next
outgoing frame, a request taken and answered, an event of another block. -/

namespace Sys2Proof.Machine

/-! ### Frames as bytes -/

/-- One bit through the CRC of R172: polynomial x¹⁶ + x¹² + x⁵ + 1, most significant bit first. -/
def crcBit (c : Nat) : Nat := if 32768 ≤ c then (c * 2 % 65536) ^^^ 0x1021 else c * 2

/-- One byte through the CRC. -/
def crcByte (c b : Nat) : Nat := crcBit (crcBit (crcBit (crcBit (crcBit (crcBit (crcBit (crcBit (c ^^^ (b * 256)))))))))

/-- The CRC-16 of a list of bytes, from 0xFFFF (R172). -/
def crc16 (bs : List Nat) : Nat := bs.foldl crcByte 0xFFFF

/-- SYNC, LEN, KIND, TAG, PAYLOAD and CHECK (R172). -/
def frameBytes (kind tag : Nat) (payload : List Nat) : List Nat :=
  0xA5 :: payload.length :: kind :: tag :: payload ++ toBytes 2 (crc16 (payload.length :: kind :: tag :: payload))

/-- A reply's KIND: the request's with bit 7 set (R177). -/
def replyKind (kind : Nat) : Nat := if 128 ≤ kind then kind else kind + 128

/-- The payload of a frame (R177, R179). -/
def Frame.payload : Frame → List Nat
  | .reply r flags _ => r.status.byte :: flags :: r.fields.flatMap Field.toBytes
  | .notice n flags _ => flags :: n.fields.flatMap Field.toBytes

/-- The bytes of a frame on the line (R172). -/
def Frame.bytes (f : Frame) : List Nat :=
  match f with
  | .reply r _ _ => frameBytes (replyKind r.kind) r.tag f.payload
  | .notice n _ _ => frameBytes n.kind 0 f.payload

/-- The ten bits of a character on the command line, the first sent first (R172): a start bit 0, the data byte with its
least significant bit first, and one stop bit, 1 unless it is missing (R173). There is no parity bit. -/
def lineBits (ch : RxChar) : List Bool := false :: byteBits ch.data ++ [!ch.framing]

/-- The character that CL reads from the bits of a character time (R172): one whose stop bit is missing, whose start bit is
not 0 or that has not ten bits is a framing error (R173). The characters of FRAME_RECEIVED and INTER_CHARACTER_GAP are read
so. -/
def lineCharOfBits (bits : List Bool) : RxChar :=
  { data := byteOfBits ((bits.drop 1).take 8)
    framing := decide (bits.length ≠ 10 ∨ bits.head? ≠ some false ∨ bits.getLast? ≠ some true) }

/-- The characters of a frame on the line, each as its ten bits, the first sent first (R172). -/
def Frame.bits (f : Frame) : List (List Bool) := f.bytes.map fun b => lineBits { data := b, framing := false }

/-! ### The outgoing line -/

/-- CL begins to send a reply: its flags byte is filled, and RX_OVERRUN is cleared (R175, R177). -/
def beginReply (r : Reply) (rest : List Reply) (k : CommandLink) : CommandLink :=
  { k with replies := rest, rxOverrun := false,
           sending := some (.reply r (flagsByte k.rxOverrun (!k.notices.isEmpty) k.overflow) k.rate) }

/-- CL begins to send a notice, which leaves the queue and clears the overflow flag (R179). -/
def beginNotice (n : Notice) (rest : List Notice) (k : CommandLink) : CommandLink :=
  { k with notices := rest, overflow := false,
           sending := some (.notice n (flagsByte false (!rest.isEmpty) k.overflow) k.rate) }

/-- On a free line CL begins the next frame: the oldest reply, else the oldest notice (R179). -/
def nextFrame (k : CommandLink) : CommandLink :=
  match k.sending, k.replies, k.notices with
  | some _, _, _ => k
  | none, r :: rest, _ => beginReply r rest k
  | none, [], n :: rest => beginNotice n rest k
  | none, [], [] => k

/-- The end of an event at the Command Link (notes/assumptions/8.md). -/
def sendNext (p : Part) : Part := { p with cl := nextFrame p.cl }

/-! ### Events -/

/-- The end of an event: R114 and R121, then the outgoing line. -/
def finish (g : Store) (p : Part) : Part := sendNext (endOfEvent g p)

/-- An event of the part. While main power is off nothing acts (notes/assumptions/3.md). -/
def event (f : Part → Part) (s : State) : State :=
  if s.mc.power then { s with toPart := finish s.store (f { s.toPart with evt := .none }) } else s

/-! ### Requests -/

/-- A request's owner returns its decision (R176): the store and part after it, and the reply. -/
structure Decision where
  store  : Store
  part   : Part
  status : Status
  fields : List Field
  after  : After

/-- The part after a request is taken, the fields of its reply, whether a value was clamped or adjusted, and what the
end of the reply brings about. -/
structure Taken where
  part    : Part
  fields  : List Field := []
  clamped : Bool := false
  after   : After := .nothing

/-- What an owner decides: refuse with a status, or take. -/
abbrev Judgement (α : Type) := Except Status α

/-- Go on if a check holds, else refuse with a status. -/
def need {α : Type} (c : Bool) (st : Status) (k : Judgement α) : Judgement α := if c then k else .error st

/-- Go on with what was found, else refuse with a status. -/
def must {α β : Type} (x : Option α) (st : Status) (k : α → Judgement β) : Judgement β :=
  match x with
  | some a => k a
  | none => .error st

/-- OK, or CLAMPED where a value was (R177). -/
def takenStatus (clamped : Bool) : Status := if clamped then .clamped else .ok

/-- A refused request changes nothing and its reply has no fields (R177). -/
def refusal (g : Store) (p : Part) (st : Status) : Decision :=
  { store := g, part := p, status := st, fields := [], after := .nothing }

/-- The decision of an owner that changes the part. -/
def byPart (f : Store → Part → Judgement Taken) (g : Store) (p : Part) : Decision :=
  match f g p with
  | .ok t => { store := g, part := t.part, status := takenStatus t.clamped, fields := t.fields, after := t.after }
  | .error st => refusal g p st

/-- The decision of Mode Control on a request that changes the store as well (R15). -/
def byStore (f : Store → Part → Judgement (Store × Taken)) (g : Store) (p : Part) : Decision :=
  match f g p with
  | .ok (h, t) => { store := h, part := t.part, status := takenStatus t.clamped, fields := t.fields, after := t.after }
  | .error st => refusal g p st

/-- The answer to a read, which changes no state of any block (R181). -/
def byRead (f : Store → Part → Judgement (List Field)) (g : Store) (p : Part) : Decision :=
  match f g p with
  | .ok fields => { store := g, part := p, status := .ok, fields := fields, after := .nothing }
  | .error st => refusal g p st

/-- A good frame that finds both places occupied is discarded (R175). -/
def countOverrun (k : CommandLink) : CommandLink := { k with rxOverrun := true, overruns := satSucc 65535 k.overruns }

/-- A request takes its place in the receive buffer (R175). -/
def takePlace (kind tag : Nat) (p : Part) : Part :=
  { p with cl := { p.cl with places := p.cl.places ++ [(kind, tag)] } }

/-- CL builds the reply and places it in the reply queue (R176). -/
def queueReply (r : Reply) (p : Part) : Part := { p with cl := { p.cl with replies := p.cl.replies ++ [r] } }

/-- A good frame is handed to its owner and the reply queued (R175, R176, R180). Places are never held by a request not
yet handed on, so the hand-over follows the arrival at once (notes/assumptions/7.md). -/
def receive (kind tag : Nat) (decide : Store → Part → Decision) (s : State) : State :=
  if !s.mc.power then s
  else if Config.bufferPlaces ≤ s.cl.places.length then { s with cl := countOverrun s.cl }
  else if s.cl.restarting then s
  else
    let d := decide s.store (takePlace kind tag { s.toPart with evt := .none })
    { s with store := d.store
             toPart := finish d.store (queueReply { kind := kind, tag := tag, status := d.status, fields := d.fields,
                                                    after := d.after } d.part) }

end Sys2Proof.Machine
end

