-- ==== Sys2Proof/Machine/Modes.lean ====
section
/-! DEFINITION. Mode Control's requests and starts (chapter 11): SET MODE, RESTART, power-up, the reset pin, the loss of
main power and of the backup supply. -/

namespace Sys2Proof.Machine

/-! ### SET MODE -/

/-- The states a crane may be in when SETUP is entered (R183). -/
def craneQuiet (s : CraneState) : Bool :=
  match s with
  | .idle => true
  | .unlocated => true
  | .outOfService => true
  | _ => false

/-- The four conditions of a change to SETUP (R183). -/
def plantQuiet (p : Part) : Bool :=
  (p.bs.beds.all fun b => b.2.state == .empty || b.2.state == .prepared || b.2.state == .rejected) &&
  p.mp.queue.isEmpty &&
  (p.sm.pieces.all fun e => match e.2.place with | .hook _ => false | _ => true) &&
  craneQuiet p.csA.state && craneQuiet p.csB.state

/-- R154: a crane working a move is stopped when the mode leaves RUN. -/
def stopForMode (g : Store) (c : CraneId) (p : Part) : Part :=
  if (stepOf (craneOf p c).state).isSome && (craneOf p c).move.isSome then stopCrane g c .mode true p else p

/-- The blocks are told of a change into a mode: CC, the Crane Supervisors, MP (R183). DESIGN CHOICE
(notes/assumptions/22.md): where both cranes work a move as the mode leaves RUN, A is stopped before B; R154 gives no order. -/
def tellMode (g : Store) (before : Mode) (p : Part) : Part :=
  match p.mc.mode with
  | .setup => enterSetup g p
  | .watch => if before = .run then stopForMode g .B (stopForMode g .A p) else p
  | .run => triggerScan p

def setModeOf (m : Mode) (p : Part) : Part := { p with mc := { p.mc with mode := m } }

/-- SET MODE (R183). -/
def setMode (mode : Nat) (g : Store) (p : Part) : Judgement (Store × Taken) :=
  must (modeOfCode mode) .range fun m =>
  let h := { g with lastMode := m }
  if m = p.mc.mode then .ok (h, { part := p })
  else
    need (m != .setup || plantQuiet p) .state <|
    .ok (h, { part := tellMode h p.mc.mode (setModeOf m p) })

def execSetMode (tag mode : Nat) (s : State) : Host.Outcome State Fault Refusal :=
  .next (receive 0x0E tag (byStore (setMode mode)) s)

/-! ### RESTART -/

/-- RESTART is taken in every mode; CL then hands on no further request (R180). DESIGN CHOICE (notes/assumptions/27.md): a
request in the other place whose reply is already queued keeps its reply, because each checked request draws one (opening of
chapter 10); R180 drops what is held there and gets no reply. -/
def restart (_ : Store) (p : Part) : Judgement Taken :=
  .ok { part := { p with cl := { p.cl with restarting := true } }, fields := [], after := .restart }

def execRestart (tag : Nat) (s : State) : Host.Outcome State Fault Refusal :=
  .next (receive 0x0F tag (byPart restart) s)

/-! ### A start: reset values -/

/-- Every block's volatile records take their reset values, and no timer runs yet (R185). The job records stay as
they stand. -/
def resetVolatile (g : Store) (p : Part) : Part :=
  { p with
    bs := { p.bs with beds := Map.mapRecords (fun _ b => { b with gap := none }) p.bs.beds }
    cc := { p.cc with timer := .start (seconds g.plant.curingInterval), valves := freshValves g, alloc := .fresh }
    tu := { zones := freshZoneRecords g, areas := freshAreaRecords g }
    sm := { p.sm with slots := Map.mapRecords (fun _ s => { s with engaged := none, lock := none }) p.sm.slots,
                      timer := .start (seconds g.plant.yardInterval) }
    mp := { queue := [], counter := 1, backlog := [], resA := none, resB := none }
    csA := .atReset
    csB := .atReset
    fl := { FieldLink.fresh with nodes := namedTable g { p with fl := .fresh }, ties := p.fl.ties }
    cl := .fresh g.plant.commandLineRate.toNat
    evt := .none }

/-- R186: every job record is cleared. -/
def clearJobs (p : Part) : Part :=
  { p with
    bs := { beds := allVacant, pours := [], seq := 1 }
    cc := { p.cc with contexts := [] }
    sm := { p.sm with pieces := [], slots := [] } }

/-! ### A start: repair -/

/-- R187, step 1: hook pieces become UNLOCATED, and move fields are cleared (R92). -/
def repairPiece (q : Piece) : Piece :=
  { q with move := none, place := match q.place with | .hook _ => .unlocated | other => other }

/-- R74 for a zone record. -/
def repairZone (r : ZoneCuring) : ZoneCuring :=
  { r with held := none, heldCount := 0, lapsed := false, unmeasuredSeen := false, freezeEdge := false,
           overEdge := false, demand := 0, cls := .none, request := 0, grant := 0 }

/-- R74 for a context. -/
def repairContext (ctx : Context) : Context :=
  { ctx with fresh := false, starved := false, starvedCount := 0,
             repairPending := ctx.phase == .ramp || ctx.phase == .cool,
             zones := Map.mapRecords (fun _ r => repairZone r) ctx.zones }

/-- A pour is aborted: ABORTED with a cause, its bed REJECTED, its pieces REJECTED, POUR ABORTED raised (R23, R187). -/
def abortPour (bed : Nat) (cause : CloseCause) (p : Part) : Part :=
  match (bedOf p bed).pour with
  | none => p
  | some n => match pourOf p n with
    | none => p
    | some r =>
      raise (.pourAborted bed n r.delivered r.batches cause)
        (changePour n (fun c => c != .rejected) .rejected
          (putBed bed { bedOf p bed with state := .rejected, gap := none }
            (putPour n { r with state := .aborted, cause := some cause } p)))

/-- R187, step 3, a CURING bed: POWER_GAP is recorded. -/
def powerGap (g : Store) (bed : Nat) (p : Part) : Part :=
  match (bedOf p bed).pour with
  | none => p
  | some n =>
    let mins := match contextOf p bed with
      | some ctx => curingMinutes ctx
      | none => 0
    recordDeviation g bed n { kind := .powerGap, zone := none, value := 0, minutes := mins } p

/-- R187, step 3, for one bed. -/
def repairBed (g : Store) (p : Part) (bed : Nat) : Part :=
  match (bedOf p bed).state with
  | .pouring => abortPour bed .power p
  | .curing => powerGap g bed p
  | _ => p

/-- The pieces still lying on STRIPPING beds, in ascending bed number and list order (R187, step 4). -/
def unstripped (p : Part) : List Nat :=
  p.bs.beds.flatMap fun b => match b.2.state, b.2.pour with
    | .stripping, some n => piecesOnBed p b.1 n
    | _, _ => []

/-- R187, steps 1 to 4. -/
def repair (g : Store) (p : Part) : Part :=
  let pieces : Part := { p with sm := { p.sm with pieces := Map.mapRecords (fun _ q => repairPiece q) p.sm.pieces } }
  let curing := mapContexts (fun _ ctx => repairContext ctx) pieces
  let beds := (Map.keys curing.bs.beds).foldl (repairBed g) curing
  fillFrom (unstripped beds) beds

/-- The number of pours the repair aborts (R189). -/
def poursOpen (p : Part) : Nat := (p.bs.beds.filter fun b => b.2.state == .pouring).length

/-! ### A start: mode, STARTED, and the beginning of work -/

/-- The mode a start chooses (R188). -/
def startMode (g : Store) : Mode :=
  if g.plant.startUpMode = 0 then .setup else if g.plant.startUpMode = 1 then .watch else g.lastMode

/-- STARTED goes to the head of the notice queue; a full queue loses its newest (R178). -/
def raiseStarted (n : Notice) (p : Part) : Part :=
  if p.cl.notices.length < Config.noticePlaces then
    { p with cl := { p.cl with notices := n :: p.cl.notices } }
  else
    { p with cl := { p.cl with notices := n :: p.cl.notices.dropLast, overflow := true,
                               dropped := satSucc 65535 p.cl.dropped } }

/-- The last act of a start (R189): STARTED, then the Field Link begins its first round and CL begins to send. -/
def beginWork (g : Store) (p : Part) : Part := sendNext (lineFree g { p with fl := { p.fl with opened := true } })

/-- A start (R185 to R189). `kept` says that retention is valid. -/
def startWith (g : Store) (cause : StartCause) (kept : Bool) (p : Part) : Part :=
  let reset := resetVolatile g p
  let settled := if kept then repair g reset else clearJobs reset
  let mode := startMode g
  let told := endOfEvent g (tellMode g mode
    { settled with mc := { settled.mc with power := true, backupHeld := true, mode := mode, startCause := cause,
                                           retained := kept } })
  beginWork g (raiseStarted (.started cause kept mode (if kept then poursOpen reset else 0)) told)

/-- Whether retention is valid: the indication is set and the retain setting is ON (R184). -/
def retentionValid (g : Store) (indication : Bool) : Bool := indication && decide (g.plant.retain = 1)

def start (cause : StartCause) (indication : Bool) (s : State) : State :=
  { s with toPart := startWith s.store cause (retentionValid s.store indication) s.toPart }

/-- POWER_UP (R185): the indication is what the backup supply has left (R184). -/
def execPowerUp (s : State) : Host.Outcome State Fault Refusal := .next (start .powerUp s.mc.backupHeld s)

/-- RESET_PIN (R185): retained memory stayed powered (R184). Without main power the pin does nothing. -/
def execResetPin (s : State) : Host.Outcome State Fault Refusal :=
  .next (if s.mc.power then start .resetPin true s else s)

/-! ### The supplies -/

/-- Main power is lost: all volatile state goes, and the backup supply holds the retained records (R15, R184). -/
def losePower (g : Store) (p : Part) : Part :=
  let bare := resetVolatile g p
  { bare with mc := { bare.mc with power := false } }

/-- MAIN_POWER_FAILS (R15, R184). -/
def execMainPowerFails (s : State) : Host.Outcome State Fault Refusal :=
  .next (if s.mc.power then { s with toPart := losePower s.store s.toPart } else s)

/-- Retained memory is lost with the backup supply (R184). -/
def loseRetained (p : Part) : Part :=
  let bare := clearJobs p
  { bare with mc := { bare.mc with backupHeld := false } }

/-- BACKUP_SUPPLY_BELOW_THRESHOLD (R184), which counts only while main power is off. -/
def execBackupSupplyBelowThreshold (s : State) : Host.Outcome State Fault Refusal :=
  .next (if s.mc.power then s else { s with toPart := loseRetained s.toPart })

end Sys2Proof.Machine
end

