-- ==== Sys2Proof/Machine/Settings.lean ====
section
/-! DEFINITION. The settings requests (chapter 1). Each is judged in the order of R12 and, when taken, changes the
store whole and what the rules say follows at once. -/

namespace Sys2Proof.Machine

/-- The mode check of a settings request (R13). -/
def inSetup (p : Part) : Bool := p.mc.mode == .setup

/-! ### SET RUNWAY -/

/-- Every configured position the runway must hold (R1). -/
def configuredPositions (g : Store) : List Int :=
  (g.beds.map fun b => b.2.xEnd) ++ (g.slots.map fun s => s.2.x) ++ (g.bays.map fun b => b.2) ++
  (match g.craneA with | some c => [c.home] | none => []) ++ (match g.craneB with | some c => [c.home] | none => [])

/-- The points of the bases kept for the reservations (R119). -/
def basisPoints (p : Part) : List Int :=
  (match p.mp.resA with | some r => r.basis | none => []) ++ (match p.mp.resB with | some r => r.basis | none => [])

/-- Whether the reservations recomputed under a store keep the order of the cranes (R1, R11). -/
def keepsOrder (g : Store) (p : Part) : Bool :=
  ordered (p.mp.resA.map fun r => stretch g r.basis) (p.mp.resB.map fun r => stretch g r.basis)

/-- SET RUNWAY (R1). -/
def setRunway (length : Nat) (g : Store) (p : Part) : Judgement (Store × Taken) :=
  let taken := clampInt 100 4000 length
  let h := { g with runway := taken }
  need (inSetup p) .mode <|
  need ((configuredPositions g).all fun x => decide (x ≤ taken)) .range <|
  need ((basisPoints p).all fun x => decide (x ≤ taken)) .range <|
  need (keepsOrder h p) .range <|
  .ok (h, { part := recomputeReservations h p, clamped := decide (taken ≠ length) })

def execSetRunway (tag length : Nat) (s : State) : Host.Outcome State Fault Refusal :=
  .next (receive 0x01 tag (byStore (setRunway length)) s)

/-! ### SET BED -/

/-- The boundaries of R3 from a first position on: each at least the next position, the last at the end. -/
def boundariesFit : Int → Int → List ZoneSpec → Bool
  | _, _, [] => false
  | lo, xEnd, [z] => decide (lo ≤ (z.east : Int)) && decide ((z.east : Int) = xEnd)
  | lo, xEnd, z :: l => decide (lo ≤ (z.east : Int)) && boundariesFit ((z.east : Int) + 1) xEnd l

/-- A zone's configuration, its rating clamped (R4). -/
def zoneTaken (z : ZoneSpec) : ZoneCfg := { east := z.east, node := z.node, rating := min 999 z.rating }

/-- Whether an address is named by an item other than those of which `own` holds (R8). -/
def namedElsewhere (g : Store) (own : Owner → Bool) (addr : Nat) : Bool :=
  (namedItems g).any fun e => e.1 == addr && !own e.2

/-- The items of a bed that SET BED replaces as a whole. DESIGN CHOICE (notes/assumptions/21.md): an address that another
zone of the same bed names now is no DUPLICATE, though R8's item is one zone, because R4 replaces that zone too. -/
def ownerOfBed (bed : Nat) : Owner → Bool
  | .zone b _ => b == bed
  | _ => false

/-- Whether the elements of a list are distinct. -/
def distinct : List Nat → Bool
  | [] => true
  | a :: l => !l.contains a && distinct l

/-- The records of TU, CC and FL follow a change of a bed's zones (R42, R77, R8). -/
def followBed (h : Store) (bed : Nat) (before : List ZoneCfg) (p : Part) : Part :=
  syncNodes h (rebuildBed bed before (zonesOf h bed) p)

/-- SET BED (R4), in the order of R12. DESIGN CHOICE (notes/assumptions/21.md): zone count 0 for a bed that is already
unconfigured is taken with OK. R2 refuses a request that names an unconfigured bed; R4 lets the count 0 clear any EMPTY bed. -/
def setBed (bed xStart xEnd : Nat) (zones : List ZoneSpec) (g : Store) (p : Part) : Judgement (Store × Taken) :=
  need (inSetup p) .mode <|
  need (isId 6 bed && decide (zones.length ≤ 4) && zones.all fun z => decide (z.node ≤ 30)) .range <|
  need ((bedOf p bed).state == .empty) .state <|
  if zones.isEmpty then
    let h := { g with beds := Map.del g.beds bed }
    .ok (h, { part := followBed h bed (zonesOf g bed) p })
  else
    let cfg : BedCfg := { xStart := xStart, xEnd := xEnd, zones := zones.map zoneTaken }
    let h := { g with beds := Map.put g.beds bed cfg }
    need (decide (xStart < xEnd) && decide ((xEnd : Int) ≤ g.runway)) .range <|
    need (boundariesFit xStart xEnd zones) .range <|
    need (zones.all fun z => isId 30 z.node) .range <|
    need (distinct (zones.map (·.node))) .duplicate <|
    need (zones.all fun z => !namedElsewhere g (ownerOfBed bed) z.node) .duplicate <|
    .ok (h, { part := followBed h bed (zonesOf g bed) p, clamped := zones.any fun z => decide (999 < z.rating) })

def execSetBed (tag bed xStart xEnd : Nat) (zones : List ZoneSpec) (s : State) : Host.Outcome State Fault Refusal :=
  .next (receive 0x02 tag (byStore (setBed bed xStart xEnd zones)) s)

/-! ### SET SLOT, SET AREA, SET BAY -/

/-- Whether a slot that holds pieces may take a record (R5). -/
def slotMayTake (g : Store) (p : Part) (slot : Nat) (cfg : SlotCfg) : Bool :=
  let stack := (slotOf p slot).stack
  stack.isEmpty ||
  (match Map.find g.slots slot with
   | some old => decide (old.x = cfg.x) && decide (old.area = cfg.area)
   | none => false) && decide (stack.length ≤ cfg.tierLimit) && decide (stackMass p stack ≤ cfg.massLimit)

/-- SET SLOT (R5). -/
def setSlot (slot x massLimit tierLimit area : Nat) (g : Store) (p : Part) : Judgement (Store × Taken) :=
  let cfg : SlotCfg := { x := x, massLimit := min 120000 massLimit, tierLimit := clampNat 1 8 tierLimit, area := area }
  need (inSetup p) .mode <|
  need (isId 48 slot && isId 4 area) .range <|
  need (onRunway g x) .range <|
  need (slotMayTake g p slot cfg) .range <|
  .ok ({ g with slots := Map.put g.slots slot cfg },
       { part := p, clamped := decide (cfg.massLimit ≠ massLimit) || decide (cfg.tierLimit ≠ tierLimit) })

def execSetSlot (tag slot x massLimit tierLimit area : Nat) (s : State) : Host.Outcome State Fault Refusal :=
  .next (receive 0x03 tag (byStore (setSlot slot x massLimit tierLimit area)) s)

/-- An area's node address as SET AREA leaves it: 0 clears it (R6). -/
def areaNode (node : Nat) : Option Nat := if node = 0 then none else some node

/-- SET AREA (R6). -/
def setArea (area node : Nat) (g : Store) (p : Part) : Judgement (Store × Taken) :=
  let h := { g with areas := if node = 0 then Map.del g.areas area else Map.put g.areas area node }
  need (inSetup p) .mode <|
  need (isId 4 area && decide (node ≤ 30)) .range <|
  need (node == 0 || !namedElsewhere g (fun o => o == .area area) node) .duplicate <|
  .ok (h, { part := syncNodes h (rebuildArea area (areaNode node) p) })

def execSetArea (tag area node : Nat) (s : State) : Host.Outcome State Fault Refusal :=
  .next (receive 0x04 tag (byStore (setArea area node)) s)

/-- SET BAY (R6). -/
def setBay (bay x : Nat) (g : Store) (p : Part) : Judgement (Store × Taken) :=
  need (inSetup p) .mode <|
  need (isId 2 bay) .range <|
  need (onRunway g x) .range <|
  .ok ({ g with bays := Map.put g.bays bay (x : Int) }, { part := p })

def execSetBay (tag bay x : Nat) (s : State) : Host.Outcome State Fault Refusal :=
  .next (receive 0x05 tag (byStore (setBay bay x)) s)

/-! ### SET CRANE -/

/-- Whether the homes of both cranes, where configured, lie more than twice a clearance apart (R7, R11). -/
def homesApart (g : Store) (clearance : Int) : Bool :=
  match g.craneA, g.craneB with
  | some a, some b => decide (2 * clearance < b.home - a.home)
  | _, _ => true

def withCrane (g : Store) (c : CraneId) (cfg : CraneCfg) : Store :=
  match c with
  | .A => { g with craneA := some cfg }
  | .B => { g with craneB := some cfg }

/-- A changed node address makes the crane UNLOCATED with no reservation (R7, R138). -/
def forgetCrane (g : Store) (c : CraneId) (p : Part) : Part := writeReservation c none (enterState g c .atReset p)

/-- SET CRANE (R7). -/
def setCrane (crane node home : Nat) (g : Store) (p : Part) : Judgement (Store × Taken) :=
  need (inSetup p) .mode <|
  need (decide (node ≤ 30)) .range <|
  must (craneOfByte crane) .range fun c =>
  let h := withCrane g c { node := node, home := home }
  need (isId 30 node) .range <|
  need (onRunway g home) .range <|
  need (homesApart h g.plant.clearance) .range <|
  need (!namedElsewhere g (fun o => o == .crane c) node) .duplicate <|
  .ok (h, { part := syncNodes h (if craneNode g c = some node then p else forgetCrane g c p) })

def execSetCrane (tag crane node home : Nat) (s : State) : Host.Outcome State Fault Refusal :=
  .next (receive 0x06 tag (byStore (setCrane crane node home)) s)

/-! ### Products -/

/-- Whether a bed or a live piece references a product entry (R9). -/
def referenced (p : Part) (index : Nat) : Bool :=
  p.bs.beds.any (fun b => b.2.product == some index) || p.sm.pieces.any (fun e => e.2.product == index)

/-- A product's fields clamped and brought into agreement (R9). -/
def productTaken (q : ProductSpec) : Product :=
  let strip := clampNat 100 2000 q.strip
  let hold := clampNat 300 750 q.hold
  { code := q.code
    strip := strip
    ship := min 2000 (max strip q.ship)
    preset := min 600 q.preset
    rampRate := clampNat 50 350 q.rampRate
    hold := hold
    coolRate := clampNat 50 350 q.coolRate
    coolEnd := min ((clampNat 100 400 q.coolEnd : Nat) : Int) ((hold : Int) - 1)
    gain := clampNat 1 50 q.gain }

/-- Whether any field of a product was clamped or adjusted (R9). -/
def productChanged (q : ProductSpec) : Bool :=
  let t := productTaken q
  decide (t.strip ≠ q.strip) || decide (t.ship ≠ q.ship) || decide (t.preset ≠ q.preset) ||
  decide (t.rampRate ≠ q.rampRate) || decide (t.hold ≠ q.hold) || decide (t.coolRate ≠ q.coolRate) ||
  decide (t.coolEnd ≠ q.coolEnd) || decide (t.gain ≠ q.gain)

/-- SET PRODUCT (R9), in the order of R12. -/
def setProduct (index : Nat) (q : ProductSpec) (g : Store) (p : Part) : Judgement (Store × Taken) :=
  need (inSetup p) .mode <|
  need (isId 16 index) .range <|
  need ((product g index).isNone || !referenced p index) .state <|
  need (isProductCode q.code) .range <|
  need (!g.products.any fun e => e.2.code == q.code && e.1 != index) .duplicate <|
  .ok ({ g with products := Map.put g.products index (productTaken q) }, { part := p, clamped := productChanged q })

def execSetProduct (tag index : Nat) (spec : ProductSpec) (s : State) : Host.Outcome State Fault Refusal :=
  .next (receive 0x07 tag (byStore (setProduct index spec)) s)

/-- CLEAR PRODUCT (R10). -/
def clearProduct (index : Nat) (g : Store) (p : Part) : Judgement (Store × Taken) :=
  need (inSetup p) .mode <|
  need (isId 16 index) .range <|
  need ((product g index).isSome && !referenced p index) .state <|
  .ok ({ g with products := Map.del g.products index }, { part := p })

def execClearProduct (tag index : Nat) (s : State) : Host.Outcome State Fault Refusal :=
  .next (receive 0x08 tag (byStore (clearProduct index)) s)

/-! ### SET PLANT and SET BOILER -/

/-- What the end of the reply to a SET PLANT brings about: a changed command line rate (R14, R173). -/
def rateChange (g : Store) (number : Nat) (taken : Int) : After :=
  if number = 23 ∧ g.plant.commandLineRate ≠ taken then .newRate taken.toNat else .nothing

/-- SET PLANT (R11). -/
def setPlant (number : Nat) (value : Int) (g : Store) (p : Part) : Judgement (Store × Taken) :=
  need (inSetup p) .mode <|
  need (isId 27 number) .range <|
  must (settingTaken number value) .range fun taken =>
  let h := { g with plant := g.plant.change number taken }
  need (number != 12 || (homesApart g taken && keepsOrder h p)) .range <|
  .ok (h, { part := if number = 12 then recomputeReservations h p else p
            clamped := decide (taken ≠ value)
            after := rateChange g number taken })

def execSetPlant (tag number : Nat) (value : Int) (s : State) : Host.Outcome State Fault Refusal :=
  .next (receive 0x09 tag (byStore (setPlant number value)) s)

/-- SET BOILER (R13), taken in every mode. -/
def setBoiler (capacity : Nat) (g : Store) (p : Part) : Judgement (Store × Taken) :=
  .ok ({ g with boiler := min 9999 capacity }, { part := p, clamped := decide (9999 < capacity) })

def execSetBoiler (tag capacity : Nat) (s : State) : Host.Outcome State Fault Refusal :=
  .next (receive 0x0A tag (byStore (setBoiler capacity)) s)

end Sys2Proof.Machine
end

