-- ==== Sys2Proof/Machine/Casting.lean ====
section
/-! DEFINITION. The bed and pour requests and the gap timer (chapter 2). -/

namespace Sys2Proof.Machine

/-- The mode check of bed, stock-transport and crane requests (R18, R105, section 8.8). -/
def outsideSetup (p : Part) : Bool := p.mc.mode != .setup

/-- Whether a bed number names a configured bed (R2, R18). -/
def isBed (g : Store) (bed : Nat) : Bool := isId 6 bed && (Map.find g.beds bed).isSome

/-- The bed checks of R18, 1 and 2. -/
def forBed (g : Store) (bed : Nat) (p : Part) (k : Judgement Taken) : Judgement Taken :=
  need (outsideSetup p) .mode (need (isBed g bed) .range k)

/-! ### PREPARE -/

/-- PREPARE (R19). -/
def prepare (bed : Nat) (code : List Nat) (g : Store) (p : Part) : Judgement Taken :=
  forBed g bed p <|
  need ((bedOf p bed).state == .empty || (bedOf p bed).state == .prepared) .state <|
  must (productByCode g code) .unknown fun e =>
  .ok { part := putBed bed { bedOf p bed with state := .prepared, product := some e.1 } p }

def execPrepare (tag bed : Nat) (code : List Nat) (s : State) : Host.Outcome State Fault Refusal :=
  .next (receive 0x10 tag (byPart (prepare bed code)) s)

/-! ### POUR ORDER -/

/-- Whether a product entry has a code (R20). -/
def hasCode (g : Store) (index : Option Nat) (code : List Nat) : Bool :=
  match index with
  | some i => match product g i with
    | some q => q.code == code
    | none => false
  | none => false

/-- A list entry's mark, length and mass lie in their ranges (R20). -/
def entryFits (e : PieceSpec) : Bool :=
  isId 65535 e.mark && decide (50 ≤ e.length) && decide (e.length ≤ 4000) && decide (100 ≤ e.mass) &&
  decide (e.mass ≤ 60000)

/-- A list entry's x lies on the bed (R20). -/
def entryOnBed (g : Store) (bed : Nat) (e : PieceSpec) : Bool :=
  match Map.find g.beds bed with
  | some cfg => decide (cfg.xStart ≤ (e.x : Int)) && decide ((e.x : Int) ≤ cfg.xEnd)
  | none => false

/-- The zone whose range contains a position, counting from a first number (R3). -/
def zoneFrom (x : Int) : Nat → List ZoneCfg → Option Nat
  | _, [] => none
  | k, z :: l => if x ≤ z.east then some k else zoneFrom x (k + 1) l

/-- The free pour record with the lowest number (R21). -/
def freePourNumber (p : Part) : Option Nat :=
  ((List.range Config.pourRecords).map (· + 1)).find? fun n => (pourOf p n).isNone

/-- SM creates one piece (R21, R93). -/
def createPiece (g : Store) (bed prod pour : Nat) (p : Part) (e : PieceSpec) : Part :=
  putPiece e.mark
    { product := prod, pour := pour, length := e.length, mass := e.mass, place := .bed bed e.x,
      zone := zoneFrom e.x 1 (zonesOf g bed), condition := .cast, acc := 0, stripAcc := none, move := none,
      released := false } p

/-- BS opens the pour (R21). -/
def openPour (g : Store) (bed prod pour planned : Nat) (pieces : List PieceSpec) (p : Part) : Part :=
  let opened := putPour pour
    { bed := bed, product := prod, planned := planned, delivered := 0, batches := 0, state := .opened, cause := none,
      seq := none, review := false, deviations := [], overflow := false, count := pieces.length, current := true,
      order := pieces.map (·.mark) } p
  let made := pieces.foldl (createPiece g bed prod pour) opened
  putBed bed { bedOf made bed with state := .pouring, pour := some pour } made

/-- POUR ORDER (R20, R21). -/
def pourOrder (bed : Nat) (code : List Nat) (planned : Nat) (pieces : List PieceSpec) (g : Store) (p : Part) :
    Judgement Taken :=
  forBed g bed p <|
  need ((bedOf p bed).state == .prepared) .state <|
  need (hasCode g (bedOf p bed).product code) .mismatch <|
  need (decide (10 ≤ planned) && decide (planned ≤ 9999) && isId 16 pieces.length) .range <|
  need (pieces.all entryFits) .range <|
  need (pieces.all (entryOnBed g bed)) .range <|
  need (distinct (pieces.map (·.mark)) && pieces.all fun e => (pieceOf p e.mark).isNone) .duplicate <|
  need (decide (p.sm.pieces.length + pieces.length ≤ Config.pieceRecords)) .full <|
  must (freePourNumber p) .full fun pour =>
  must (bedOf p bed).product .state fun prod =>
  .ok { part := openPour g bed prod pour planned pieces p, fields := [.u8 pour] }

def execPourOrder (tag bed : Nat) (code : List Nat) (planned : Nat) (pieces : List PieceSpec) (s : State) :
    Host.Outcome State Fault Refusal :=
  .next (receive 0x11 tag (byPart (pourOrder bed code planned pieces)) s)

/-! ### Closing a pour -/

/-- The volume check of R25, step 1. -/
def volumeNote (tolerance : Int) (delivered planned : Nat) : VolumeNote :=
  if (delivered : Int) * 100 < (planned : Int) * (100 - tolerance) then .short
  else if (planned : Int) * (100 + tolerance) < (delivered : Int) * 100 then .over
  else .neither

/-- The deviation a volume note records (R25, R33). -/
def volumeDeviation (note : VolumeNote) (delivered planned : Nat) : Option Deviation :=
  match note with
  | .short => some { kind := .short, zone := none, value := (delivered : Int) - planned, minutes := 0 }
  | .over => some { kind := .over, zone := none, value := (delivered : Int) - planned, minutes := 0 }
  | .neither => none

/-- The next sequence number, and the counter after it (R26). -/
def takeSequence (p : Part) : Part := { p with bs := { p.bs with seq := satAdd32 p.bs.seq 1 } }

/-- The code of a product entry, for a notice. -/
def codeOf (g : Store) (index : Nat) : List Nat :=
  match product g index with
  | some q => q.code
  | none => []

/-- R25, steps 2 to 7, after the volume check. -/
def sealPour (g : Store) (bed pour : Nat) (cause : CloseCause) (note : VolumeNote) (p : Part) : Part :=
  match pourOf p pour with
  | none => p
  | some r =>
    let seq := p.bs.seq
    let closed := putPour pour { r with state := .closed, cause := some cause, seq := some seq } (takeSequence p)
    let cured := changePour pour (fun c => c == .cast) .curing closed
    let bedded := putBed bed { bedOf cured bed with state := .curing, gap := none } cured
    raise (.pourClosed bed pour (codeOf g r.product) r.planned r.delivered r.batches cause note seq)
      (openContext g bed pour bedded)

/-- A pour closes (R25). -/
def closePour (g : Store) (bed pour : Nat) (cause : CloseCause) (p : Part) : Part :=
  match pourOf p pour with
  | none => p
  | some r =>
    let note := volumeNote g.plant.volumeTolerance r.delivered r.planned
    sealPour g bed pour cause note
      (match volumeDeviation note r.delivered r.planned with
       | some d => recordDeviation g bed pour d p
       | none => p)

/-! ### BATCH and POUR END -/

/-- A batch is added to the pour and the gap timer runs from its full length (R22). -/
def addBatch (g : Store) (bed pour volume : Nat) (r : Pour) (p : Part) : Part :=
  putBed bed { bedOf p bed with gap := some (.start (minutes g.plant.coldJointLimit)) }
    (putPour pour { r with delivered := r.delivered + volume, batches := satSucc 255 r.batches } p)

/-- BATCH (R22): the reply carries the delivered volume and whether the pour closed. -/
def batch (bed volume : Nat) (g : Store) (p : Part) : Judgement Taken :=
  forBed g bed p <|
  need ((bedOf p bed).state == .pouring) .state <|
  need (decide (1 ≤ volume) && decide ((volume : Int) ≤ g.plant.maximumBatch)) .range <|
  must (bedOf p bed).pour .state fun pour =>
  must (pourOf p pour) .state fun r =>
  let added := addBatch g bed pour volume r p
  if r.planned ≤ r.delivered + volume then
    .ok { part := closePour g bed pour .volume added, fields := [.u16 (r.delivered + volume), flagField true] }
  else .ok { part := added, fields := [.u16 (r.delivered + volume), flagField false] }

def execBatch (tag bed volume : Nat) (s : State) : Host.Outcome State Fault Refusal :=
  .next (receive 0x12 tag (byPart (batch bed volume)) s)

/-- A pour with no delivery is cancelled (R24). -/
def cancelPour (bed pour : Nat) (p : Part) : Part :=
  let gone := clearCurrent pour (removePieces (piecesOfPour p pour) p)
  putBed bed { bedOf gone bed with state := .prepared, pour := none, gap := none } gone

/-- POUR END (R24): the reply reports the close, or the cancellation. -/
def pourEnd (bed : Nat) (g : Store) (p : Part) : Judgement Taken :=
  forBed g bed p <|
  need ((bedOf p bed).state == .pouring) .state <|
  must (bedOf p bed).pour .state fun pour =>
  must (pourOf p pour) .state fun r =>
  if r.delivered = 0 then .ok { part := cancelPour bed pour p, fields := [flagField false] }
  else .ok { part := closePour g bed pour .ended p, fields := [flagField true] }

def execPourEnd (tag bed : Nat) (s : State) : Host.Outcome State Fault Refusal :=
  .next (receive 0x13 tag (byPart (pourEnd bed)) s)

/-! ### The gap timer -/

/-- The gap timer's expiry aborts a POURING bed's pour (R23). -/
def gapTimeout (bed : Nat) (p : Part) : Part :=
  match (bedOf p bed).state, (bedOf p bed).gap with
  | .pouring, some _ => abortPour bed .gap p
  | _, _ => p

/-- GAP_TIMER_EXPIRY (R23). -/
def execGapTimerExpiry (bed : Nat) (s : State) : Host.Outcome State Fault Refusal := .next (event (gapTimeout bed) s)

/-! ### ZONE OUT -/

/-- Whether a zone is included and is not the bed's last included one (R28). -/
def mayExclude (p : Part) (bed zone : Nat) : Bool :=
  match contextOf p bed with
  | some ctx => (match Map.find ctx.zones zone with | some r => !r.excluded | none => false) &&
      decide (1 < (included ctx).length)
  | none => false

/-- The curing minutes CC reports for a bed (R64). -/
def minutesOf (p : Part) (bed : Nat) : Nat :=
  match contextOf p bed with
  | some ctx => curingMinutes ctx
  | none => 0

/-- ZONE OUT (R28). -/
def zoneOut (bed zone : Nat) (g : Store) (p : Part) : Judgement Taken :=
  forBed g bed p <|
  need (zoneCfg g bed zone).isSome .range <|
  need ((bedOf p bed).state == .curing) .state <|
  need (mayExclude p bed zone) .state <|
  must (bedOf p bed).pour .state fun pour =>
  .ok { part := recordDeviation g bed pour
          { kind := .zoneExcluded, zone := some zone, value := 0, minutes := minutesOf p bed }
          (excludeZone bed zone p) }

def execZoneOut (tag bed zone : Nat) (s : State) : Host.Outcome State Fault Refusal :=
  .next (receive 0x14 tag (byPart (zoneOut bed zone)) s)

/-! ### DETENSION -/

/-- DETENSION (R29, R134): the reply carries the number of strip moves (R136). -/
def detension (bed : Nat) (g : Store) (p : Part) : Judgement Taken :=
  forBed g bed p <|
  need ((bedOf p bed).state == .ready) .state <|
  must (bedOf p bed).pour .state fun pour =>
  let marks := piecesOnBed p bed pour
  need (decide (marks.length ≤ freeEntries p)) .full <|
  .ok { part := queueStrips marks (putBed bed { bedOf p bed with state := .stripping } p), fields := [.u8 marks.length] }

def execDetension (tag bed : Nat) (s : State) : Host.Outcome State Fault Refusal :=
  .next (receive 0x15 tag (byPart (detension bed)) s)

/-! ### CLEAR BED -/

/-- Whether a move is a STRIP move for a bed (R134). -/
def stripsBed (bed : Nat) (m : Move) : Bool :=
  m.kind == .strip && (match m.source with | .bed b _ => b == bed | _ => false)

/-- Whether a mark names a piece that lies on a bed. -/
def liesOnBed (p : Part) (bed mark : Nat) : Bool :=
  match pieceOf p mark with
  | some q => match q.place with
    | .bed b _ => b == bed
    | _ => false
  | none => false

/-- CLEAR BED of a REJECTED bed (R31). -/
def clearRejected (bed pour : Nat) (p : Part) : Part :=
  putBed bed .vacant (clearCurrent pour (removePieces (piecesOfPour p pour) p))

/-- CLEAR BED of a STRIPPING bed (R31, R134): strip moves, backlog entries and pieces go, then the bed is emptied. -/
def clearStripping (bed pour : Nat) (p : Part) : Part :=
  let marks := piecesOnBed p bed pour
  let moves := (p.mp.queue.filter (stripsBed bed)).map (·.number)
  let unqueued := moves.foldl (fun p n => removeMove n p) p
  let listed := setBacklog (unqueued.mp.backlog.filter fun m => !liesOnBed unqueued bed m) unqueued
  backlogFill (emptyBed bed (removePieces marks listed))

/-- CLEAR BED (R31): the reply reports the bed EMPTY. -/
def clearBed (bed : Nat) (g : Store) (p : Part) : Judgement Taken :=
  forBed g bed p <|
  match (bedOf p bed).state, (bedOf p bed).pour with
  | .prepared, _ => .ok { part := putBed bed .vacant p, fields := [.u8 BedState.empty.code] }
  | .rejected, some pour => .ok { part := clearRejected bed pour p, fields := [.u8 BedState.empty.code] }
  | .stripping, some pour =>
    need (!p.mp.queue.any fun m => stripsBed bed m && m.crane.isSome) .busy <|
    .ok { part := clearStripping bed pour p, fields := [.u8 BedState.empty.code] }
  | _, _ => .error .state

def execClearBed (tag bed : Nat) (s : State) : Host.Outcome State Fault Refusal :=
  .next (receive 0x16 tag (byPart (clearBed bed)) s)

end Sys2Proof.Machine
end

