-- ==== Sys2Proof/Machine/Cranes.lean ====
section
/-! DEFINITION. The crane requests and the step timer (chapter 8). -/

namespace Sys2Proof.Machine

/-- The mode and crane checks of section 8.8. -/
def forCrane (g : Store) (crane : Nat) (p : Part) (k : CraneId → Judgement Taken) : Judgement Taken :=
  need (outsideSetup p) .mode <|
  must (craneOfByte crane) .range fun c =>
  need (craneCfg g c).isSome .range (k c)

/-- The reservation a reply carries. -/
def reservationFields (r : Option Reservation) : List Field :=
  match r with
  | some v => [posField v.lo, posField v.hi]
  | none => []

/-! ### RESUME CRANE -/

/-- The move a resumption goes on with: a SHIP move whose load is absent and whose piece is not SHIPPABLE is none (R152). -/
def lapsedShip (p : Part) (c : CraneId) (m : Move) : Bool :=
  (craneOf p c).load.isNone && m.kind == .ship &&
  (match m.piece with
   | some mark => (pieceOf p mark).map (·.condition) != some .shippable
   | none => false)

def resumedMove (p : Part) (c : CraneId) : Option Move :=
  match moveHeld p c with
  | some m => if lapsedShip p c m then none else some m
  | none => none

/-- The remaining points of the stopped step (table of R152). -/
def remainingPoints (g : Store) (p : Part) (c : CraneId) (m : Option Move) : List Int :=
  match m, (craneOf p c).stoppedStep with
  | some _, some .toSource => [heldSource g p c, heldDest g p c]
  | some _, some .takeUp => [heldSource g p c, heldDest g p c]
  | some _, some .lift => [heldSource g p c, heldDest g p c]
  | some _, some .toDest => [heldDest g p c]
  | some _, some .lower => [heldDest g p c]
  | some _, some .parking => [destPos g c .home]
  | _, _ => []

/-- The supervisor's record with the stop ended (R152). DESIGN CHOICE (notes/assumptions/17.md): the stopped step becomes
absent, where the rule names the stop reason and the fresh flag only. -/
def unstopped (r : Crane) : Crane := { r with reason := none, fresh := false, stoppedStep := none }

/-- MP is told that a move is resumed (R127). -/
def moveResumed (m : Move) (p : Part) : Part := putMove { m with state := .dispatched, reason := none } p

/-- A SHIP move treated as having no move is withdrawn (R128, R152). -/
def withdrawLapsed (g : Store) (c : CraneId) (p : Part) : Part :=
  match moveHeld p c with
  | some m => match m.piece with
    | some mark =>
      raise (.moveSuspended m.number mark .held none)
        (suspendUnbound g m.number c ((craneOf p c).pos.getD 0) .held p)
    | none => p
  | none => p

/-- What the crane does next when its reservation is set (R152). -/
def goOn (g : Store) (c : CraneId) (m : Option Move) (p : Part) : Part :=
  let r := craneOf p c
  match m, r.stoppedStep with
  | some k, some step => moveResumed k (beginStep g c step (putCrane c (unstopped r) p))
  | _, _ =>
    if r.slackening then beginStep g c .lower (putCrane c (unstopped r) p)
    else
      let told := withdrawLapsed g c p
      triggerScan (enterState g c { unstopped (craneOf told c) with state := .idle, move := none, dispatchPos := none } told)

/-- RESUME CRANE (R152). -/
def resumeCrane (crane : Nat) (g : Store) (p : Part) : Judgement Taken :=
  forCrane g crane p fun c =>
  let r := craneOf p c
  need (r.state == .stopped) .state <|
  need r.fresh .busy <|
  need (match craneNode g c with | some a => !nodeLost p a | none => true) .busy <|
  need (r.driveFault != some true) .busy <|
  let m := resumedMove p c
  need (p.mc.mode == .run || m.isNone) .mode <|
  must (askReservation g c (r.pos.getD 0 :: remainingPoints g p c m) p) .clearance fun q =>
  .ok { part := goOn g c m q, fields := reservationFields (reservationOf q c) }

def execResumeCrane (tag crane : Nat) (s : State) : Host.Outcome State Fault Refusal :=
  .next (receive 0x2C tag (byPart (resumeCrane crane)) s)

/-! ### CRANE OUT and CRANE IN -/

/-- CRANE OUT (R153). -/
def craneOut (crane : Nat) (g : Store) (p : Part) : Judgement Taken :=
  forCrane g crane p fun c =>
  let r := craneOf p c
  need (r.state == .idle || r.state == .stopped) .state <|
  need (!(r.state == .stopped && (r.move.isSome || r.slackening))) .busy <|
  must (askReservation g c [r.pos.getD 0] p) .clearance fun q =>
  .ok { part := putCrane c { craneOf q c with state := .outOfService, reason := none } q
        fields := reservationFields (reservationOf q c) }

def execCraneOut (tag crane : Nat) (s : State) : Host.Outcome State Fault Refusal :=
  .next (receive 0x2D tag (byPart (craneOut crane)) s)

/-- CRANE IN (R153). -/
def craneIn (crane : Nat) (g : Store) (p : Part) : Judgement Taken :=
  forCrane g crane p fun c =>
  need ((craneOf p c).state == .outOfService) .state <|
  .ok { part := triggerScan (putCrane c { craneOf p c with state := .idle } p)
        fields := reservationFields (reservationOf p c) }

def execCraneIn (tag crane : Nat) (s : State) : Host.Outcome State Fault Refusal :=
  .next (receive 0x2E tag (byPart (craneIn crane)) s)

/-! ### The step timer -/

/-- A step timer's expiry stops its crane (R146). -/
def stepTimeout (g : Store) (c : CraneId) (p : Part) : Part :=
  match (craneOf p c).timer with
  | some _ => stopIfLocated g c .timeout true p
  | none => p

/-- STEP_TIMER_EXPIRY (R146). -/
def execStepTimerExpiry (c : CraneId) (s : State) : Host.Outcome State Fault Refusal :=
  .next (event (stepTimeout s.store c) s)

end Sys2Proof.Machine
end

