-- ==== Sys2Proof/Machine/FieldLink.lean ====
section
/-! DEFINITION. The Field Link's events (chapter 9): judging a reply, what a good reply and a miss bring about, retries,
rounds and motion polls. -/

namespace Sys2Proof.Machine

/-! ### Judging a reply -/

/-- The characters of a node's reply (section 9.2). -/
def replyLength : NodeKind → Nat
  | .zone => 9
  | .yard => 4
  | .crane => 7

/-- Whether a crane reply's hook field holds 3 (R157). -/
def badContent (kind : NodeKind) (bytes : List Nat) : Bool :=
  match kind, bytes with
  | .crane, _ :: _ :: _ :: status :: _ => (hookOf status).isNone
  | _, _ => false

/-- The first failure cause of R157's table that applies to a reply. A reply ends when the line has been quiet for two
character times, so one cut short is a GAP and one that runs on is a LENGTH. -/
def replyFault (kind : NodeKind) (addr : Nat) (chars : List FieldChar) : Option AttemptFailure :=
  let bytes := chars.map (·.data)
  if chars.any fun ch => ch.framing || ch.address then some .framing
  else if bytes.head? ≠ some addr then some .address
  else if bytes.length < replyLength kind then some .gap
  else if replyLength kind < bytes.length then some .length
  else if bytes.sum % 256 ≠ 0 then some .check
  else if badContent kind bytes then some .content
  else none

/-! ### The line's end of an attempt -/

/-- An exchange whose first attempt failed waits for its retry (R159, R161). -/
def awaitRetry (ex : Exchange) (p : Part) : Part := { p with fl := { p.fl with waiting := ex :: p.fl.waiting } }

/-- The failure cause of a failed attempt is recorded as the node's last (R159); for an address no longer named nothing
is (R166). -/
def recordCause (ex : Exchange) (cause : AttemptFailure) (p : Part) : Part :=
  match ex.orphan, nodeOf p ex.addr with
  | false, some nd => putNode ex.addr { nd with lastCause := some cause } p
  | _, _ => p

/-- The line becomes free and FL begins the next exchange (R161). -/
def releaseLine (g : Store) (p : Part) : Part :=
  lineFree g { p with fl := { p.fl with line := none, replyTimer := none } }

/-! ### A good reply -/

/-- The loss or return of a node is reported to the block it serves; a yard node's to none (R168, R169). -/
def reportBack (g : Store) (owner : Owner) (p : Part) : Part :=
  match owner with
  | .zone b z => zoneNodeBack g b z p
  | .area _ => p
  | .crane c => craneNodeBack g c p

/-- R166, step 2: a LOST node comes back (R169), an UNPOLLED node becomes ALIVE with no notice. -/
def revive (g : Store) (addr : Nat) (owner : Owner) (p : Part) : Part :=
  match nodeOf p addr with
  | none => p
  | some nd => match nd.standing with
    | .lost => reportBack g owner (raise (.nodeBack addr owner) (putNode addr { nd with standing := .alive } p))
    | .unpolled => putNode addr { nd with standing := .alive } p
    | .alive => p

/-- R166, step 3: the contents go to the block that uses them. -/
def handOn (g : Store) (ex : Exchange) (bytes : List Nat) (p : Part) : Part :=
  match ex.owner with
  | .zone b z => takeZoneReply b z bytes p
  | .area a => takeYardReply a bytes p
  | .crane c => match craneContents bytes with
    | some y => takeCraneReply g c ex.id y p
    | none => p

/-- R166, step 4: the carry is reported to the command's owner, unless the command was withdrawn (R160, R165). -/
def reportCarry (ex : Exchange) (p : Part) : Part :=
  match ex.withdrawn, ex.by_ with
  | false, some (.cs c) => commandCarried c ex.cmd ex.id p
  | _, _ => p

/-- R166, step 1. -/
def storeReply (addr : Nat) (bytes : List Nat) (p : Part) : Part :=
  match nodeOf p addr with
  | some nd => putNode addr { nd with misses := 0, lastReply := some bytes, age := 0 } p
  | none => p

/-- An exchange ends with a good reply (R166); an exchange to an address no longer named hands nothing on. -/
def goodReply (g : Store) (ex : Exchange) (bytes : List Nat) (p : Part) : Part :=
  if ex.orphan then p
  else reportCarry ex (handOn g ex bytes (revive g ex.addr ex.owner (storeReply ex.addr bytes p)))

/-! ### A miss -/

/-- R167, step 2: the miss is reported to the owner of a directed command other than STOP. -/
def reportMiss (g : Store) (ex : Exchange) (p : Part) : Part :=
  if ex.withdrawn || isStop ex.cmd then p
  else match ex.by_, ex.owner with
  | some .cc, .zone b z => valveMissed b z p
  | some (.cs c), _ => commandMissed g c ex.cmd p
  | _, _ => p

/-- R168, step 2: every pending entry of the address leaves the queue. -/
def dropEntries (g : Store) (addr : Nat) (p : Part) : Part :=
  let kept := p.fl.queue.filter fun e => e.addr != addr
  if kept.length < p.fl.queue.length then entryFreed g (setDirected kept p) else setDirected kept p

/-- R168, step 4. A zone node's loss changes nothing at CC, which reads the standing when it needs it. -/
def reportLoss (g : Store) (owner : Owner) (p : Part) : Part :=
  match owner with
  | .crane c => craneNodeLost g c p
  | _ => p

/-- A node becomes LOST (R168). -/
def loseNode (g : Store) (addr : Nat) (nd : Node) (p : Part) : Part :=
  reportLoss g nd.owner
    (raise (.nodeLost addr nd.owner nd.misses nd.lastCause)
      (dropEntries g addr (putNode addr { nd with standing := .lost } p)))

/-- R167, step 3. -/
def judgeStanding (g : Store) (addr : Nat) (p : Part) : Part :=
  match nodeOf p addr with
  | none => p
  | some nd =>
    if g.plant.missLimit ≤ (nd.misses : Int) ∧ nd.standing ≠ .lost then loseNode g addr nd p else p

/-- R159: a missed STOP is begun again at once, unless the node is LOST after the miss. -/
def repeatMissedStop (ex : Exchange) (p : Part) : Part :=
  match ex.by_ with
  | some r =>
    if isStop ex.cmd && !nodeLost p ex.addr then { p with fl := { p.fl with repeatStop := some ⟨ex.addr, ex.cmd, r⟩ } }
    else p
  | none => p

/-- R167, step 1. -/
def countMiss (addr : Nat) (p : Part) : Part :=
  match nodeOf p addr with
  | some nd => putNode addr { nd with misses := satSucc 8 nd.misses } p
  | none => p

/-- An exchange ends in a miss (R167); a miss for an address no longer named counts for no node (R170). -/
def miss (g : Store) (ex : Exchange) (p : Part) : Part :=
  if ex.orphan then p
  else repeatMissedStop ex (judgeStanding g ex.addr (reportMiss g ex (countMiss ex.addr p)))

/-- A failed attempt: the first is retried, the second is a miss (R159). -/
def attemptFailed (g : Store) (ex : Exchange) (cause : AttemptFailure) (p : Part) : Part :=
  if ex.attempt = 1 then awaitRetry ex (recordCause ex cause p) else miss g ex (recordCause ex cause p)

/-! ### The events -/

/-- The attempt on the line ends; its outcome is taken whole before the line is free (notes/assumptions/9.md). -/
def attemptEnd (f : Exchange → Part → Part) (s : State) : State :=
  match s.mc.power, s.fl.line with
  | true, some ex =>
    { s with toPart := sendNext (releaseLine s.store (endOfEvent s.store (f ex { s.toPart with evt := .none }))) }
  | _, _ => s

/-- REPLY_TIMER_EXPIRY (R156): no reply character arrived in time. -/
def execReplyTimerExpiry (s : State) : Host.Outcome State Fault Refusal :=
  .next (attemptEnd (fun ex p => attemptFailed s.store ex .timeout p) s)

/-- A reply is complete and is judged (R157). -/
def replyEnded (g : Store) (chars : List FieldChar) (ex : Exchange) (p : Part) : Part :=
  match replyFault ex.owner.kind ex.addr chars with
  | some cause => attemptFailed g ex cause p
  | none => goodReply g ex (chars.map (·.data)) p

/-- REPLY_COMPLETE (R157). With no character nothing stopped the reply timer, and there is no reply to judge. -/
def execReplyComplete (chars : List FieldChar) (s : State) : Host.Outcome State Fault Refusal :=
  .next (if chars.isEmpty then s else attemptEnd (replyEnded s.store chars) s)

/-- The round minimum period timer has run out (R162). -/
def roundTimeout (g : Store) (p : Part) : Part :=
  match p.fl.roundTimer with
  | some _ => lineFree g { p with fl := { p.fl with roundTimer := none } }
  | none => p

/-- ROUND_TIMER_EXPIRY (R162). -/
def execRoundTimerExpiry (s : State) : Host.Outcome State Fault Refusal := .next (event (roundTimeout s.store) s)

/-- A motion poll falls due: one that is already due stays one (R163). -/
def pollDue (c : CraneId) (due : List CraneId) : List CraneId := if due.contains c then due else due ++ [c]

/-- A crane poll timer has run out: a poll is due and the timer restarts (R163). -/
def pollTimeout (g : Store) (c : CraneId) (p : Part) : Part :=
  match pollTimer p c with
  | some _ =>
    let restarted := setPollTimer c (some (.start g.plant.cranePollPeriod.toNat)) p
    lineFree g { restarted with fl := { restarted.fl with due := pollDue c restarted.fl.due } }
  | none => p

/-- CRANE_POLL_TIMER_EXPIRY (R163). -/
def execCranePollTimerExpiry (c : CraneId) (s : State) : Host.Outcome State Fault Refusal :=
  .next (event (pollTimeout s.store c) s)

end Sys2Proof.Machine
end

