-- ==== Sys2Proof/Machine/Moves.lean ====
section
/-! DEFINITION. The move requests (section 7.6). -/

namespace Sys2Proof.Machine

/-- The number and queue checks of section 7.6. -/
def forMove (n : Nat) (p : Part) (k : Move → Judgement Taken) : Judgement Taken :=
  need (isId 255 n) .range (must (moveOf p n) .unknown k)

/-! ### EXPEDITE -/

/-- Insert a move into chain order. -/
def insertRank (m : Move) : List Move → List Move
  | [] => [m]
  | k :: l => if m.rank ≤ k.rank then m :: k :: l else k :: insertRank m l

/-- Moves in chain order (R131). -/
def inChainOrder : List Move → List Move
  | [] => []
  | m :: l => insertRank m (inChainOrder l)

/-- Whether EXPEDITE of a move brings another: itself, or a craneless member of its chain (R131). -/
def goesAlong (m k : Move) : Bool :=
  k.number == m.number || (m.chain.isSome && k.chain == m.chain && k.crane.isNone)

/-- EXPEDITE (R131): the reply carries the number of moves placed. -/
def expedite (n : Nat) (_ : Store) (p : Part) : Judgement Taken :=
  forMove n p fun m =>
  need (m.crane.isNone && m.kind != .park) .state <|
  let placed := inChainOrder (p.mp.queue.filter (goesAlong m))
  .ok { part := triggerScan (setQueue (placed ++ p.mp.queue.filter fun k => !goesAlong m k) p)
        fields := [.u8 placed.length] }

def execExpedite (tag move : Nat) (s : State) : Host.Outcome State Fault Refusal :=
  .next (receive 0x28 tag (byPart (expedite move)) s)

/-! ### CANCEL MOVE -/

/-- The other members of a move's chain that have no crane (R132). -/
def cutMembers (m : Move) (q : List Move) : List Nat :=
  (q.filter fun k => k.number != m.number && m.chain.isSome && k.chain == m.chain && k.crane.isNone).map (·.number)

/-- A member that stays dispatched leaves its chain (R130). -/
def leaveChain (chain : Option Nat) (p : Part) : Part :=
  setQueue (p.mp.queue.map fun k => if chain.isSome && k.chain == chain then { k with chain := none } else k) p

/-- The named move is removed with the craneless rest of its chain; backlog fill runs (R132, R135). -/
def removeChain (m : Move) (p : Part) : Part :=
  let gone := (m.number :: cutMembers m p.mp.queue).foldl (fun p n => removeMove n p) p
  backlogFill (leaveChain m.chain gone)

/-- The crane of a cancelled move lets go of it (R132, R151). -/
def letGo (g : Store) (m : Move) (c : CraneId) (p : Part) : Part :=
  if m.state = .dispatched then
    let halted := haltMove g c p
    comeToRest g c ((craneOf halted c).pos.getD 0) halted
  else putCrane c { craneOf p c with move := none, dispatchPos := none, stoppedStep := none } p

/-- CANCEL MOVE (R132, R151): the reply carries the number of moves removed. -/
def cancelMove (n : Nat) (g : Store) (p : Part) : Judgement Taken :=
  forMove n p fun m =>
  let removed := 1 + (cutMembers m p.mp.queue).length
  match m.crane with
  | none => .ok { part := removeChain m p, fields := [.u8 removed] }
  | some c =>
    need (craneOf p c).load.isNone .busy <|
    .ok { part := removeChain m (letGo g m c p), fields := [.u8 removed] }

def execCancelMove (tag move : Nat) (s : State) : Host.Outcome State Fault Refusal :=
  .next (receive 0x29 tag (byPart (cancelMove move)) s)

/-! ### RETRY MOVE -/

/-- RETRY MOVE (R133). -/
def retryMove (n : Nat) (_ : Store) (p : Part) : Judgement Taken :=
  forMove n p fun m =>
  need (m.state == .suspended && m.crane.isNone) .state <|
  .ok { part := triggerScan (putMove { m with state := .queued, reason := none } p) }

def execRetryMove (tag move : Nat) (s : State) : Host.Outcome State Fault Refusal :=
  .next (receive 0x2A tag (byPart (retryMove move)) s)

end Sys2Proof.Machine
end

