-- ==== Sys2Proof/Machine/Stock.lean ====
section
/-! DEFINITION. The stock requests and the yard interval expiry (chapter 6). -/

namespace Sys2Proof.Machine

/-! ### The checks of R105 -/

/-- A piece's condition and place, which every taken stock request answers with (R105). -/
def standingFields (q : Piece) : List Field := .u8 q.condition.code :: q.place.fields

/-- The same, read after the request has acted; `before` serves a piece whose record is gone. -/
def pieceFields (p : Part) (mark : Nat) (before : Piece) : List Field := standingFields ((pieceOf p mark).getD before)

/-- The mark and piece checks of R105, 2 and 3. -/
def forPiece (mark : Nat) (p : Part) (k : Piece → Judgement Taken) : Judgement Taken :=
  need (isId 65535 mark) .range (must (pieceOf p mark) .unknown k)

/-- Whether a slot number names a configured slot. -/
def isSlot (g : Store) (slot : Nat) : Bool := isId 48 slot && (Map.find g.slots slot).isSome

/-- Whether a bay number names a configured bay. -/
def isBay (g : Store) (bay : Nat) : Bool := isId 2 bay && (Map.find g.bays bay).isSome

/-- The slot a piece lies on. -/
def slotOfPiece (q : Piece) : Option Nat :=
  match q.place with
  | .slot n _ => some n
  | _ => none

/-! ### SHIP and SCRAP -/

/-- The pieces above a mark in a stack, top first (R129). -/
def above (mark : Nat) (stack : List Nat) : List Nat := ((stack.dropWhile fun m => m != mark).drop 1).reverse

/-- Whether a piece of a stack has a move. -/
def hasMove (p : Part) (mark : Nat) : Bool :=
  match pieceOf p mark with
  | some q => q.move.isSome
  | none => false

/-- The number of the last of the next `k + 1` moves to be queued (R117, R129). -/
def lastNumber (q : List Move) : Nat → Nat → Nat
  | 0, n => seekNumber q 255 n
  | k + 1, n => lastNumber q k (nextNumber (seekNumber q 255 n))

/-- The members of a dig chain, in order (R129). -/
def chainMoves (slot bay mark : Nat) (kind : MoveKind) (digs : List Nat) (last : Nat) : List Move :=
  ((numbered 0 digs).map fun d =>
    { plainMove .rehandle (some d.2) (.slot slot) none with chain := some last, rank := d.1 }) ++
  [{ plainMove kind (some mark) (.slot slot) (some (.bay bay)) with chain := some last, rank := digs.length }]

/-- MP queues the chain at the tail, and SM locks the slot (R106, R129). -/
def digChain (slot bay mark : Nat) (kind : MoveKind) (digs : List Nat) (p : Part) : Part :=
  let last := lastNumber p.mp.queue digs.length p.mp.counter
  let queued := (chainMoves slot bay mark kind digs last).foldl (fun p m => joinQueue false m p) p
  stockChange [] (putSlot slot { slotOf queued slot with lock := some last } queued)

/-- The part of SHIP and SCRAP that they share (R106, R107): the condition asked for, the kind of the last move. -/
def fetch (cond : Condition) (kind : MoveKind) (mark bay : Nat) (g : Store) (p : Part) : Judgement Taken :=
  need (outsideSetup p) .mode <|
  need (isId 65535 mark && isBay g bay) .range <|
  must (pieceOf p mark) .unknown fun q =>
  must (slotOfPiece q) .notReady fun slot =>
  need (q.condition == cond) .notReady <|
  need q.move.isNone .busy <|
  need ((slotOf p slot).lock.isNone && (slotOf p slot).engaged.isNone) .locked <|
  let digs := above mark (slotOf p slot).stack
  need (!digs.any (hasMove p)) .busy <|
  need (decide (digs.length + 1 ≤ freeEntries p)) .full <|
  let t := digChain slot bay mark kind digs p
  .ok { part := t
        fields := pieceFields t mark q ++
          [.u8 (lastNumber p.mp.queue digs.length p.mp.counter), .u8 digs.length] }

def execShip (tag mark bay : Nat) (s : State) : Host.Outcome State Fault Refusal :=
  .next (receive 0x20 tag (byPart (fetch .shippable .ship mark bay)) s)

def execScrap (tag mark bay : Nat) (s : State) : Host.Outcome State Fault Refusal :=
  .next (receive 0x21 tag (byPart (fetch .rejected .scrap mark bay)) s)

/-! ### HOLD PIECE, RELEASE PIECE, REJECT PIECE -/

/-- HOLD PIECE (R109). -/
def holdPiece (mark : Nat) (_ : Store) (p : Part) : Judgement Taken :=
  forPiece mark p fun q =>
  need q.move.isNone .busy <|
  need (slotOfPiece q).isSome .state <|
  need (q.condition == .curing || q.condition == .shippable) .state <|
  let t := setCondition mark .held p
  .ok { part := t, fields := pieceFields t mark q }

def execHoldPiece (tag mark : Nat) (s : State) : Host.Outcome State Fault Refusal :=
  .next (receive 0x22 tag (byPart (holdPiece mark)) s)

/-- Whether a piece lies on a bed. -/
def onBed (q : Piece) : Bool :=
  match q.place with
  | .bed _ _ => true
  | _ => false

/-- RELEASE PIECE (R110). -/
def releasePiece (mark : Nat) (g : Store) (p : Part) : Judgement Taken :=
  forPiece mark p fun q =>
  need (q.condition == .held) .state <|
  let t := stockChange [mark]
    (putPiece mark { q with released := true, condition := if onBed q then .curing else judged g q } p)
  .ok { part := t, fields := pieceFields t mark q }

def execReleasePiece (tag mark : Nat) (s : State) : Host.Outcome State Fault Refusal :=
  .next (receive 0x23 tag (byPart (releasePiece mark)) s)

/-- REJECT PIECE (R111). -/
def rejectPiece (mark : Nat) (_ : Store) (p : Part) : Judgement Taken :=
  forPiece mark p fun q =>
  need q.move.isNone .busy <|
  need (slotOfPiece q).isSome .state <|
  need (q.condition == .curing || q.condition == .held || q.condition == .shippable) .state <|
  let t := setCondition mark .rejected p
  .ok { part := t, fields := pieceFields t mark q }

def execRejectPiece (tag mark : Nat) (s : State) : Host.Outcome State Fault Refusal :=
  .next (receive 0x24 tag (byPart (rejectPiece mark)) s)

/-! ### LOCATE and REMOVE PIECE -/

/-- The condition LOCATE leaves (R112). -/
def locatedCondition (c : Condition) : Condition := if c = .rejected then .rejected else .held

/-- SM records a found piece on top of a slot (R112). -/
def foundOn (mark slot : Nat) (q : Piece) (p : Part) : Part :=
  stockChange (if locatedCondition q.condition = q.condition then [] else [mark])
    (pushPiece mark { q with released := false, condition := locatedCondition q.condition } slot p)

/-- LOCATE (R112). -/
def locate (mark slot : Nat) (g : Store) (p : Part) : Judgement Taken :=
  need (isId 65535 mark && isSlot g slot) .range <|
  must (pieceOf p mark) .unknown fun q =>
  need (q.place == .unlocated) .state <|
  need (placementTest g p q.length q.mass none slot) .range <|
  let t := foundOn mark slot q p
  .ok { part := t, fields := pieceFields t mark q }

def execLocate (tag mark slot : Nat) (s : State) : Host.Outcome State Fault Refusal :=
  .next (receive 0x25 tag (byPart (locate mark slot)) s)

/-- REMOVE PIECE (R113). The reply carries the piece's last condition and place (notes/assumptions/18.md). -/
def removeRequest (mark : Nat) (_ : Store) (p : Part) : Judgement Taken :=
  forPiece mark p fun q =>
  need (q.place == .unlocated) .state <|
  let t := removePiece mark p
  .ok { part := t, fields := pieceFields t mark q }

def execRemovePiece (tag mark : Nat) (s : State) : Host.Outcome State Fault Refusal :=
  .next (receive 0x26 tag (byPart (removeRequest mark)) s)

/-! ### The yard interval expiry -/

/-- The temperature TU gives for an area at this expiry, at a freshness limit in ms (R49). -/
def areaTemp (p : Part) (limit area : Nat) : Option Int :=
  match areaOutcome p limit area with
  | .measured t => some t
  | .unmeasured _ => none

/-- The area of a slot. -/
def areaOfSlot (g : Store) (slot : Nat) : Nat :=
  match Map.find g.slots slot with
  | some cfg => cfg.area
  | none => 0

/-- R103, step 2, for one piece of a stack. -/
def creditPiece (credit : Nat) (p : Part) (mark : Nat) : Part :=
  match pieceOf p mark with
  | some q => putPiece mark { q with acc := satAdd32 q.acc credit } p
  | none => p

/-- The credit a slot's pieces earn (R103). -/
def slotCredit (g : Store) (temps : Nat → Option Int) (dt slot : Nat) : Nat :=
  match temps (areaOfSlot g slot) with
  | some t => credit g.plant.datum t dt
  | none => 0

/-- R103, step 2, for one slot. -/
def creditSlot (g : Store) (temps : Nat → Option Int) (dt : Nat) (p : Part) (slot : Nat) : Part :=
  (slotOf p slot).stack.foldl (creditPiece (slotCredit g temps dt slot)) p

/-- Whether a piece is promoted at the yard expiry (R104). -/
def promotable (g : Store) (p : Part) (q : Piece) : Bool :=
  q.condition == .curing && judged g q == .shippable && (!underReview p q || q.released)

/-- R104 for one piece. -/
def promotePiece (g : Store) (p : Part) (mark : Nat) : Part :=
  match pieceOf p mark with
  | none => p
  | some q => match q.place with
    | .slot n t =>
      if promotable g p q then raise (.pieceShippable mark n t (reported q.acc)) (setCondition mark .shippable p) else p
    | _ => p

/-- R104 for one slot. -/
def promoteSlot (g : Store) (p : Part) (slot : Nat) : Part := (slotOf p slot).stack.foldl (promotePiece g) p

/-- TU forms and stores the four areas' temperatures (R49). -/
def formAreas (limit : Nat) (p : Part) : Part :=
  [1, 2, 3, 4].foldl (fun q a => storeAreaResult a (areaOutcome p limit a) q) p

/-- The yard interval expiry (R103, R104), with the Δt of the run that has ended. -/
def serveYard (g : Store) (dt : Nat) (p : Part) : Part :=
  let formed := formAreas (dt * 1000) p
  let slots := Map.keys formed.sm.slots
  let credited := slots.foldl (creditSlot g (areaTemp p (dt * 1000)) dt) formed
  slots.foldl (promoteSlot g) credited

/-- The timer restarts at once with the setting in force (R14, R103). -/
def restartYard (g : Store) (p : Part) : Part :=
  { p with sm := { p.sm with timer := .start (seconds g.plant.yardInterval) } }

def yardExpiry (g : Store) (p : Part) : Part := serveYard g (p.sm.timer.length / 1000) (restartYard g p)

/-- YARD_INTERVAL_EXPIRY (R103). -/
def execYardIntervalExpiry (s : State) : Host.Outcome State Fault Refusal := .next (event (yardExpiry s.store) s)

/-- CURING_INTERVAL_EXPIRY (R55). -/
def execCuringIntervalExpiry (s : State) : Host.Outcome State Fault Refusal := .next (event (curingExpiry s.store) s)

end Sys2Proof.Machine
end

