-- ==== Sys2Proof/Machine/Reads.lean ====
section
/-! DEFINITION. The reads (R181): each answers from the records as they stand and changes nothing. The layouts follow R172
and the order of the rules; notes/assumptions/18.md lists what R172 leaves to be chosen. -/

namespace Sys2Proof.Machine

/-! ### READ PLANT -/

/-- A configured bed (R3). -/
def bedCfgFields (b : BedCfg) : List Field :=
  [posField b.xStart, posField b.xEnd] ++ listFields b.zones fun z => [posField z.east, .u8 z.node, .u16 z.rating]

/-- A configured slot (R5). -/
def slotCfgFields (c : SlotCfg) : List Field := [posField c.x, .u32 c.massLimit, .u8 c.tierLimit, .u8 c.area]

/-- A DEFINED product entry, with whether it is referenced (R16). -/
def productFields (p : Part) (index : Nat) (q : Product) : List Field :=
  [.bytes q.code, .u16 q.strip, .u16 q.ship, .u16 q.preset, .u16 q.rampRate, .u16 q.hold.toNat, .u16 q.coolRate,
   .u16 q.coolEnd.toNat, .u8 q.gain, flagField (referenced p index)]

/-- READ PLANT (R16, R181). -/
def readPlant (cls index : Nat) (g : Store) (p : Part) : Judgement (List Field) :=
  match cls with
  | 0 => .ok ([posField g.runway, .u16 g.boiler] ++ g.plant.fields)
  | 1 => need (isId 6 index) .range (.ok (optFields (Map.find g.beds index) bedCfgFields))
  | 2 => need (isId 48 index) .range (.ok (optFields (Map.find g.slots index) slotCfgFields))
  | 3 => need (isId 4 index) .range (.ok (optFields (Map.find g.areas index) fun a => [.u8 a]))
  | 4 => need (isId 2 index) .range (.ok (optFields (Map.find g.bays index) fun x => [posField x]))
  | 5 => must (craneOfByte index) .range fun c =>
      .ok (optFields (craneCfg g c) fun k => [.u8 k.node, posField k.home])
  | 6 => need (isId 16 index) .range (.ok (optFields (product g index) (productFields p index)))
  | _ => .error .range

def execReadPlant (tag cls index : Nat) (s : State) : Host.Outcome State Fault Refusal :=
  .next (receive 0x40 tag (byRead (readPlant cls index)) s)

/-! ### READ BED -/

/-- Whether a bed's state is one in which CC holds its context (section 2.1). -/
def hasContext (s : BedState) : Bool :=
  match s with
  | .curing => true
  | .ready => true
  | .stripping => true
  | _ => false

/-- The excluded zones of a context. -/
def excludedZones (ctx : Context) : List Nat := (ctx.zones.filter fun z => z.2.excluded).map Prod.fst

/-- Bed maturity and excluded zones (R36). DESIGN CHOICE (notes/assumptions/6.md): which zones are excluded is a list of their
numbers, a count byte before them; R36 gives no layout. -/
def maturityFields (ctx : Context) : List Field :=
  .u32 (bedMaturity ctx) :: listFields (excludedZones ctx) fun z => [.u8 z]

/-- CC's own fields of READ BED (R76); the phase, maturity and excluded zones stand among R36's already. -/
def contextFields (ctx : Context) : List Field :=
  optFields ctx.sp (fun t => [.i16 t]) ++
  [.u16 ctx.remainder, .u32 (ctx.presetElapsed / 60), .u16 (curingMinutes ctx), flagField ctx.starved,
   .u8 ctx.starvedCount, flagField ctx.repairPending]

/-- The phase READ BED reports: in CURING only (R36). -/
def reportedPhase (b : Bed) (ctx : Option Context) : Option Phase :=
  if b.state = .curing then ctx.map (·.phase) else none

/-- Whole minutes left on a timer (R36). -/
def minutesLeft (t : Timer) : Nat := t.left / 60000

/-- READ BED (R36, R76). -/
def readBed (bed : Nat) (g : Store) (p : Part) : Judgement (List Field) :=
  need (isId 6 bed) .range <|
  let b := bedOf p bed
  let ctx := if hasContext b.state then contextOf p bed else none
  .ok ([.u8 b.state.code] ++ optFields b.product (fun i => [.bytes (codeOf g i)]) ++
    optFields b.pour (fun n => [.u8 n]) ++ optFields (reportedPhase b ctx) (fun k => [.u8 k.code]) ++
    optFields b.gap (fun t => [.u8 (minutesLeft t)]) ++ optFields ctx maturityFields ++ optFields ctx contextFields)

def execReadBed (tag bed : Nat) (s : State) : Host.Outcome State Fault Refusal :=
  .next (receive 0x41 tag (byRead (readBed bed)) s)

/-! ### READ ZONE -/

/-- The standing of a node, UNPOLLED where the table has no entry. -/
def standingOf (p : Part) (addr : Nat) : Standing :=
  match nodeOf p addr with
  | some nd => nd.standing
  | none => .unpolled

/-- A stored value with its age and its cause judged now (R43, R50). -/
def readingFields (value : Option Int) (age : Nat) (lost : Bool) (limit : Nat) : List Field :=
  optFields value (fun v => [.i16 v]) ++ [.u32 age, .u8 (validity value age lost limit).code]

/-- A zone's last result (R50): measured with basis and outlier, or unmeasured with its reason. DESIGN CHOICE
(notes/assumptions/6.md): no rule gives the layout; a byte 1 or 0 tells the two apart, and neither the basis nor the outlier
has a presence byte of its own, because the byte before it tells whether it follows. -/
def resultFields (r : ZoneResult) : List Field :=
  match r with
  | .measured t basis =>
    [flagField true, .i16 t, .u8 basis.code] ++
    (match basis with
     | .pair k => [.u8 k]
     | _ => [])
  | .unmeasured reason => [flagField false, .u8 reason.code]

/-- TU's fields of a zone (R50). -/
def zoneFields (p : Part) (limit : Nat) (r : ZoneRecord) : List Field :=
  let lost := nodeLost p r.node
  [.u8 r.node, .u8 (standingOf p r.node).code] ++ readingFields r.probe1.value r.probe1.age lost limit ++
  readingFields r.probe2.value r.probe2.age lost limit ++ readingFields r.probe3.value r.probe3.age lost limit ++
  optFields r.echo (fun v => [.u8 v]) ++ optFields r.result resultFields ++ [.u32 r.resultAge]

/-- CC's fields of a zone of a bed with a context (R76). -/
def curingFields (r : ZoneCuring) : List Field :=
  [.u32 r.acc, .u32 (reported r.acc)] ++ optFields r.held (fun t => [.i16 t]) ++
  [.u8 r.heldCount, flagField r.lapsed, flagField r.unmeasuredSeen, flagField r.freezeEdge, flagField r.overEdge,
   .u8 r.demand, .u8 r.cls.code, .u32 r.request, .u32 r.grant, flagField r.excluded]

/-- The valve record of a zone (R91). -/
def valveFields (v : Valve) : List Field := [.u8 v.wanted] ++ optFields v.handed (fun n => [.u8 n]) ++ [flagField v.resend]

/-- An area's last result: a temperature, or UNMEASURED with the cause kept with it (R49, R50). DESIGN CHOICE
(notes/assumptions/6.md): a byte 1 or 0 tells the two apart. -/
def areaResultFields (r : AreaResult) : List Field :=
  match r with
  | .measured t => [flagField true, .i16 t]
  | .unmeasured cause => [flagField false, .u8 cause.code]

/-- An area's fields (R50). DESIGN CHOICE (notes/assumptions/6.md): the node's standing stands behind the presence byte of the
address, so that an unconfigured area has neither; R50 says "or absent" of the address only. -/
def areaFields (p : Part) (r : AreaRecord) : List Field :=
  optFields r.node (fun a => [.u8 a, .u8 (standingOf p a).code]) ++
  readingFields r.value r.age (areaLost p r) p.sm.timer.length ++ optFields r.result areaResultFields ++
  [.u32 r.resultAge]

/-- CC's record of a zone, where the bed has a context. -/
def curingOf (p : Part) (bed zone : Nat) : Option ZoneCuring :=
  match contextOf p bed with
  | some ctx => Map.find ctx.zones zone
  | none => none

/-- READ ZONE (R50, R76, R91): a zone, or an area where the bed field is 0. -/
def readZone (bed zone : Nat) (g : Store) (p : Part) : Judgement (List Field) :=
  if bed = 0 then need (isId 4 zone) .range (.ok (areaFields p (areaRecord p zone)))
  else
    need (isId 6 bed && (zoneCfg g bed zone).isSome) .range <|
    must (zoneRecord p bed zone) .range fun r =>
    .ok (zoneFields p p.cc.timer.length r ++ optFields (curingOf p bed zone) curingFields ++
      valveFields (valveOf p bed zone))

def execReadZone (tag bed zone : Nat) (s : State) : Host.Outcome State Fault Refusal :=
  .next (receive 0x42 tag (byRead (readZone bed zone)) s)

/-! ### READ POUR, READ PIECE, READ SLOT -/

/-- Every field of a pour record (section 2.7). -/
def pourFields (g : Store) (n : Nat) (r : Pour) : List Field :=
  [.u8 n, .u8 r.bed, .bytes (codeOf g r.product), .u16 r.planned, .u16 r.delivered, .u8 r.batches, .u8 r.state.code] ++
  optFields r.cause (fun c => [.u8 c.code]) ++ optFields r.seq (fun k => [.u32 k]) ++ [flagField r.review] ++
  listFields r.deviations Deviation.fields ++ [flagField r.overflow, .u8 r.count, flagField r.current]

/-- READ POUR (R36). -/
def readPour (pour : Nat) (g : Store) (p : Part) : Judgement (List Field) :=
  need (isId 24 pour) .range <|
  must (pourOf p pour) .unknown fun r =>
  .ok (pourFields g pour r)

def execReadPour (tag pour : Nat) (s : State) : Host.Outcome State Fault Refusal :=
  .next (receive 0x43 tag (byRead (readPour pour)) s)

/-- The reported maturity of a piece: its own, or its zone's while it lies on a bed (R115). -/
def pieceMaturity (p : Part) (q : Piece) : Nat :=
  match q.place with
  | .bed b _ => reported (zoneAccumulator p b q.zone)
  | _ => reported q.acc

/-- The ship target of a piece's product. -/
def shipTarget (g : Store) (q : Piece) : Nat :=
  match product g q.product with
  | some r => r.ship
  | none => 0

/-- READ PIECE (R105, R115): every field of section 6.1, the reported maturity, the review flag, the ship target. -/
def readPiece (mark : Nat) (g : Store) (p : Part) : Judgement (List Field) :=
  need (isId 65535 mark) .range <|
  must (pieceOf p mark) .unknown fun q =>
  .ok ([.u16 mark, .bytes (codeOf g q.product), .u8 q.pour, .u16 q.length, .u16 q.mass] ++ q.place.fields ++
    optFields q.zone (fun z => [.u8 z]) ++ [.u8 q.condition.code, .u32 q.acc] ++
    optFields q.stripAcc (fun a => [.u32 a]) ++ optFields q.move (fun n => [.u8 n]) ++
    [flagField q.released, .u32 (pieceMaturity p q), flagField (underReview p q), .u16 (shipTarget g q)])

def execReadPiece (tag mark : Nat) (s : State) : Host.Outcome State Fault Refusal :=
  .next (receive 0x44 tag (byRead (readPiece mark)) s)

/-- A stack entry of READ SLOT (R115). -/
def stackEntry (p : Part) (mark : Nat) : List Field :=
  match pieceOf p mark with
  | some q => [.u16 mark, .u16 q.length, .u16 q.mass, .u8 q.condition.code] ++ optFields q.move (fun n => [.u8 n])
  | none => [.u16 mark]

/-- READ SLOT (R115). -/
def readSlot (slot : Nat) (g : Store) (p : Part) : Judgement (List Field) :=
  need (isId 48 slot) .range <|
  let s := slotOf p slot
  .ok (optFields (Map.find g.slots slot) slotCfgFields ++ listFields s.stack (stackEntry p) ++
    [.u8 s.stack.length, .u32 (stackMass p s.stack)] ++ optFields s.engaged (fun e => [.u8 e.1, .u8 e.2.code]) ++
    optFields s.lock (fun n => [.u8 n]))

def execReadSlot (tag slot : Nat) (s : State) : Host.Outcome State Fault Refusal :=
  .next (receive 0x45 tag (byRead (readSlot slot)) s)

/-! ### READ MOVES -/

/-- A source: the move's kind tells which (R118). -/
def Source.fields : Source → List Field
  | .bed b x => [.u8 b, posField x]
  | .slot n => [.u8 n]
  | .runway x => [posField x]

/-- A destination: the move's kind tells which (R118). DESIGN CHOICE (notes/assumptions/6.md): no rule gives bytes for a
PARK's destination, the crane's home; its presence byte 1 stands alone, because the move's crane says whose home it is. -/
def Dest.fields : Dest → List Field
  | .slot n => [.u8 n]
  | .bay n => [.u8 n]
  | .home => []

/-- Every field of a move record (section 7.1). -/
def moveFields (m : Move) : List Field :=
  [.u8 m.number, .u8 m.kind.code] ++ optFields m.piece (fun k => [.u16 k]) ++ m.source.fields ++
  optFields m.dest Dest.fields ++ optFields m.chain (fun n => [.u8 n]) ++ [.u8 m.state.code] ++
  optFields m.crane (fun c => [.u8 (craneByte c)]) ++ optFields m.reason (fun r => [.u8 r.code])

/-- A reservation with its basis (R136). DESIGN CHOICE (notes/assumptions/18.md): the points of the basis are listed in the
order in which its rule names them, one that it names twice twice; no rule gives the order. -/
def Reservation.fields (r : Reservation) : List Field :=
  [posField r.lo, posField r.hi] ++ listFields r.basis fun x => [posField x]

/-- READ MOVES, by page (R136, R181). -/
def readMoves (page : Nat) (_ : Store) (p : Part) : Judgement (List Field) :=
  match page with
  | 0 => .ok (optFields p.mp.resA Reservation.fields ++ optFields p.mp.resB Reservation.fields ++
      [.u8 (freeEntries p), .u8 p.mp.counter, .u8 p.mp.queue.length, .u8 p.mp.backlog.length])
  | 1 => .ok (listFields (p.mp.queue.take 16) moveFields)
  | 2 => .ok (listFields ((p.mp.queue.drop 16).take 16) moveFields)
  | 3 => .ok (listFields (p.mp.backlog.take 48) fun m => [.u16 m])
  | 4 => .ok (listFields ((p.mp.backlog.drop 48).take 48) fun m => [.u16 m])
  | _ => .error .range

def execReadMoves (tag page : Nat) (s : State) : Host.Outcome State Fault Refusal :=
  .next (receive 0x46 tag (byRead (readMoves page)) s)

/-! ### READ CRANE -/

/-- A field command: its code and data characters. DESIGN CHOICE (notes/assumptions/6.md): no rule lays a command out in a
reply; it is carried as its code on the field line (section 9.2), a count byte and its data characters. -/
def commandFields (cmd : FieldCmd) : List Field := .u8 cmd.code :: listFields cmd.data fun b => [.u8 b]

/-- Whole seconds left on a timer: the unit of the travel and hook intervals. DESIGN CHOICE (notes/assumptions/18.md): the
part of a second that is left is dropped. -/
def secondsLeft (t : Timer) : Nat := t.left / 1000

/-- Every field of a supervisor's record (section 8.1), with the time left on the step timer (R155). -/
def craneFields (r : Crane) : List Field :=
  [.u8 r.state.code, flagField r.slackening] ++ optFields r.pos (fun x => [posField x]) ++
  optFields r.hook (fun h => [.u8 h.code]) ++ optFields r.motion (fun m => [.u8 m.code]) ++
  optFields r.driveFault (fun f => [flagField f]) ++ [flagField r.fresh] ++ optFields r.move (fun n => [.u8 n]) ++
  optFields r.dispatchPos (fun x => [posField x]) ++ optFields r.stoppedStep (fun k => [.u8 k.code]) ++
  optFields r.command (fun c => commandFields c.1 ++ [.u8 c.2.code]) ++
  optFields r.timer (fun t => [.u8 t.1.code, .u16 (secondsLeft t.2)]) ++ optFields r.reason (fun k => [.u8 k.code]) ++
  optFields r.load (fun m => [.u16 m]) ++ [.u8 r.faults]

/-- READ CRANE (R155): an unconfigured crane has no node and no reservation. DESIGN CHOICE (notes/assumptions/6.md): the node's
standing has a presence byte, 0 where there is no node; R155 says "or absent" of the reservation only. -/
def readCrane (crane : Nat) (g : Store) (p : Part) : Judgement (List Field) :=
  must (craneOfByte crane) .range fun c =>
  .ok (craneFields (craneOf p c) ++ optFields (craneNode g c) (fun a => [.u8 (standingOf p a).code]) ++
    optFields (reservationOf p c) Reservation.fields)

def execReadCrane (tag crane : Nat) (s : State) : Host.Outcome State Fault Refusal :=
  .next (receive 0x47 tag (byRead (readCrane crane)) s)

/-! ### READ NODES -/

/-- The exchange class of a directed entry's command. -/
def DirectedClass.code : DirectedClass → Nat
  | .valve => 0
  | .travel => 1
  | .hook => 2
  | .stop => 3

/-- A directed queue entry (R171). -/
def Entry.fields (e : Entry) : List Field :=
  [.u8 e.addr, .u8 (match directedClass e.cmd with | some k => k.code | none => 0)] ++ commandFields e.cmd ++
  [.u8 e.by_.code]

/-- An exchange: address, class, command, attempt number and withdrawn mark (R171). DESIGN CHOICE (notes/assumptions/6.md):
the command is its code on the field line. -/
def Exchange.fields (ex : Exchange) : List Field :=
  [.u8 ex.addr, .u8 ex.cls.code, .u8 ex.cmd.code, .u8 ex.attempt, flagField ex.withdrawn]

/-- A node table entry (section 9.3). DESIGN CHOICE (notes/assumptions/6.md): the last good reply is a count byte and every
character of the reply, address and check with them, because section 9.3 keeps it "as received". -/
def nodeFields (e : Nat × Node) : List Field :=
  [.u8 e.1, .u8 e.2.owner.kind.code] ++ e.2.owner.fields ++ [.u8 e.2.standing.code, .u8 e.2.misses] ++
  optFields e.2.lastCause (fun c => [.u8 c.code]) ++
  optFields e.2.lastReply (fun bs => listFields bs fun b => [.u8 b]) ++ [.u32 e.2.age]

/-- The poll timer and due poll of a crane (R171). -/
def pollFields (p : Part) (c : CraneId) : List Field :=
  [flagField (pollTimer p c).isSome, flagField (p.fl.due.contains c)]

/-- The table entries of ten addresses (R181). DESIGN CHOICE (notes/assumptions/18.md): in ascending address; no rule gives the
order within a page. -/
def nodePage (first : Nat) (p : Part) : List Field :=
  listFields (p.fl.nodes.filter fun e => decide (first ≤ e.1) && decide (e.1 ≤ first + 9)) nodeFields

/-- The time left on the round timer (R171). DESIGN CHOICE (notes/assumptions/18.md): an expired timer has 0 ms left. -/
def roundLeft (f : FieldLink) : Nat :=
  match f.roundTimer with
  | some t => t.left
  | none => 0

/-- READ NODES, by page (R171, R181). DESIGN CHOICE (notes/assumptions/18.md): the exchanges waiting for their retry are listed
in the order in which R161 takes them, the one that began last first; R171 gives no order. -/
def readNodes (page : Nat) (_ : Store) (p : Part) : Judgement (List Field) :=
  match page with
  | 0 => .ok (listFields p.fl.queue Entry.fields ++ optFields p.fl.line Exchange.fields ++
      listFields p.fl.waiting Exchange.fields ++ [.u8 p.fl.roundPos, .u16 (roundLeft p.fl)] ++
      pollFields p .A ++ pollFields p .B)
  | 1 => .ok (nodePage 1 p)
  | 2 => .ok (nodePage 11 p)
  | 3 => .ok (nodePage 21 p)
  | _ => .error .range

def execReadNodes (tag page : Nat) (s : State) : Host.Outcome State Fault Refusal :=
  .next (receive 0x48 tag (byRead (readNodes page)) s)

/-! ### READ STATUS -/

/-- The allocation record (R91, R182). -/
def allocFields (a : Alloc) : List Field :=
  optFields a.capacity (fun c => [.u32 c]) ++ [.u32 a.requested, .u32 a.granted, .u8 a.served, .u8 a.short] ++
  optFields a.partialZone (fun z => [.u8 z.1, .u8 z.2]) ++ optFields a.last (fun k => [.u8 k.code]) ++
  [flagField a.heatShort]

/-- READ STATUS: the list of R91, then what R182 adds to it, in ascending rule number (R181). -/
def readStatus (g : Store) (p : Part) : Judgement (List Field) :=
  .ok (.u16 g.boiler :: allocFields p.cc.alloc ++
    [.u8 p.mc.mode.code, flagField p.mc.retained, .u8 p.mc.startCause.code, .u32 p.cl.rate, .u8 p.cl.notices.length,
     flagField p.cl.overflow, .u16 p.cl.lengthDiscards, .u16 p.cl.gapDiscards, .u16 p.cl.framingDiscards,
     .u16 p.cl.checkDiscards, .u16 p.cl.overruns, .u16 p.cl.dropped])

def execReadStatus (tag : Nat) (s : State) : Host.Outcome State Fault Refusal :=
  .next (receive 0x49 tag (byRead readStatus) s)

end Sys2Proof.Machine
end

