-- ==== Sys2Proof/Machine/Frames.lean ====
section
/-! DEFINITION. The Command Link's receiver and the end of an outgoing frame (chapter 10). -/

namespace Sys2Proof.Machine

/-! ### A good frame -/

/-- The owner's decision on a request (section 10.5); none for an event. -/
def service : Instr → Option (Store → Part → Decision)
  | .setRunway _ length => some (byStore (setRunway length))
  | .setBed _ bed xStart xEnd zones => some (byStore (setBed bed xStart xEnd zones))
  | .setSlot _ slot x massLimit tierLimit area => some (byStore (setSlot slot x massLimit tierLimit area))
  | .setArea _ area node => some (byStore (setArea area node))
  | .setBay _ bay x => some (byStore (setBay bay x))
  | .setCrane _ crane node home => some (byStore (setCrane crane node home))
  | .setProduct _ index spec => some (byStore (setProduct index spec))
  | .clearProduct _ index => some (byStore (clearProduct index))
  | .setPlant _ number value => some (byStore (setPlant number value))
  | .setBoiler _ capacity => some (byStore (setBoiler capacity))
  | .setMode _ mode => some (byStore (setMode mode))
  | .restart _ => some (byPart restart)
  | .prepare _ bed code => some (byPart (prepare bed code))
  | .pourOrder _ bed code planned pieces => some (byPart (pourOrder bed code planned pieces))
  | .batch _ bed volume => some (byPart (batch bed volume))
  | .pourEnd _ bed => some (byPart (pourEnd bed))
  | .zoneOut _ bed zone => some (byPart (zoneOut bed zone))
  | .detension _ bed => some (byPart (detension bed))
  | .clearBed _ bed => some (byPart (clearBed bed))
  | .ship _ mark bay => some (byPart (fetch .shippable .ship mark bay))
  | .scrap _ mark bay => some (byPart (fetch .rejected .scrap mark bay))
  | .holdPiece _ mark => some (byPart (holdPiece mark))
  | .releasePiece _ mark => some (byPart (releasePiece mark))
  | .rejectPiece _ mark => some (byPart (rejectPiece mark))
  | .locate _ mark slot => some (byPart (locate mark slot))
  | .removePiece _ mark => some (byPart (removeRequest mark))
  | .expedite _ move => some (byPart (expedite move))
  | .cancelMove _ move => some (byPart (cancelMove move))
  | .retryMove _ move => some (byPart (retryMove move))
  | .resumeCrane _ crane => some (byPart (resumeCrane crane))
  | .craneOut _ crane => some (byPart (craneOut crane))
  | .craneIn _ crane => some (byPart (craneIn crane))
  | .readPlant _ cls index => some (byRead (readPlant cls index))
  | .readBed _ bed => some (byRead (readBed bed))
  | .readZone _ bed zone => some (byRead (readZone bed zone))
  | .readPour _ pour => some (byRead (readPour pour))
  | .readPiece _ mark => some (byRead (readPiece mark))
  | .readSlot _ slot => some (byRead (readSlot slot))
  | .readMoves _ page => some (byRead (readMoves page))
  | .readCrane _ crane => some (byRead (readCrane crane))
  | .readNodes _ page => some (byRead (readNodes page))
  | .readStatus _ => some (byRead readStatus)
  | .powerUp => none
  | .resetPin => none
  | .frameReceived _ => none
  | .interCharacterGap _ => none
  | .unknownKind _ _ _ => none
  | .frameSent => none
  | .gapTimerExpiry _ => none
  | .curingIntervalExpiry => none
  | .yardIntervalExpiry => none
  | .stepTimerExpiry _ => none
  | .replyTimerExpiry => none
  | .replyComplete _ => none
  | .roundTimerExpiry => none
  | .cranePollTimerExpiry _ => none
  | .mainPowerFails => none
  | .backupSupplyBelowThreshold => none

/-- CL's own answer to a frame of unknown kind or wrong length (R176). -/
def declined (st : Status) (g : Store) (p : Part) : Decision := refusal g p st

/-- The decision that meets a reading of a good frame (R176). -/
def answerTo (r : Reading) : Store → Part → Decision :=
  match r with
  | .unknownKind => declined .unknown
  | .badLength => declined .format
  | .request i => (service i).getD (declined .unknown)

/-- A good frame is offered to the receive buffer (R174, R175, R176). -/
def goodFrame (kind tag : Nat) (payload : List Nat) (s : State) : State :=
  receive kind tag (answerTo (decodeRequest kind tag payload)) s

/-- UNKNOWN_KIND (R176): a good frame of this kind; a kind the catalogue lists is served as the catalogue says. -/
def execUnknownKind (tag kind : Nat) (payload : List Nat) (s : State) : Host.Outcome State Fault Refusal :=
  .next (goodFrame kind tag payload s)

/-! ### The receiver -/

/-- Why a frame is discarded (R174). -/
inductive Discard where
  | length
  | gap
  | framing
  | check
  deriving DecidableEq, Repr

/-- CL counts a discarded frame and goes back to hunting (R174). -/
def discard (why : Discard) (k : CommandLink) : CommandLink :=
  match why with
  | .length => { k with rx := .hunting, lengthDiscards := satSucc 65535 k.lengthDiscards }
  | .gap => { k with rx := .hunting, gapDiscards := satSucc 65535 k.gapDiscards }
  | .framing => { k with rx := .hunting, framingDiscards := satSucc 65535 k.framingDiscards }
  | .check => { k with rx := .hunting, checkDiscards := satSucc 65535 k.checkDiscards }

def setReceiver (r : Receiver) (s : State) : State := { s with cl := { s.cl with rx := r } }

def discardFrame (why : Discard) (s : State) : State := { s with cl := discard why s.cl }

/-- What the bytes collected after SYNC are so far (R174). -/
inductive Collected where
  | more
  | bad (why : Discard)
  | good (kind tag : Nat) (payload : List Nat)
  deriving DecidableEq, Repr

/-- R174: LEN above 240, a frame not yet whole, a whole frame with a wrong CRC, or a good one. -/
def collected (got : List Nat) : Collected :=
  match got with
  | [] => .more
  | len :: rest =>
    if 240 < len then .bad .length
    else if rest.length < len + 4 then .more
    else
      match rest with
      | kind :: tag :: body =>
        if crc16 (len :: kind :: tag :: body.take len) = bigEndian (body.drop len) then .good kind tag (body.take len)
        else .bad .check
      | _ => .more

/-- One character reaches the receiver (R174). While hunting, framing errors are ignored. DESIGN CHOICE
(notes/assumptions/10.md): a character with a framing error that is also a LEN above 240, or that completes a frame with a
wrong CRC, counts as FRAMING, because the character was not received whole; R174 gives no precedence. -/
def takeChar (s : State) (ch : RxChar) : State :=
  match s.cl.rx with
  | .hunting => if ch.data = 0xA5 then setReceiver (.collecting []) s else s
  | .collecting got =>
    if ch.framing then discardFrame .framing s
    else
      match collected (got ++ [ch.data]) with
      | .more => setReceiver (.collecting (got ++ [ch.data])) s
      | .bad why => discardFrame why s
      | .good kind tag payload => goodFrame kind tag payload (setReceiver .hunting s)

/-- FRAME_RECEIVED (R174): the characters arrive one after another. -/
def execFrameReceived (chars : List RxChar) (s : State) : Host.Outcome State Fault Refusal :=
  .next (if s.mc.power then chars.foldl takeChar s else s)

/-- More than the inter-character limit has passed: a frame being collected is discarded (R174). -/
def gapPassed (s : State) : State :=
  match s.cl.rx with
  | .hunting => s
  | .collecting _ => discardFrame .gap s

/-- INTER_CHARACTER_GAP (R174): hunting resumes at the character that ended the gap. -/
def execInterCharacterGap (char : RxChar) (s : State) : Host.Outcome State Fault Refusal :=
  .next (if s.mc.power then takeChar (gapPassed s) char else s)

/-! ### The end of an outgoing frame -/

/-- The outgoing line is free, and the oldest place empties if a reply has ended (R175, R179). -/
def lineEnds (reply : Bool) (k : CommandLink) : CommandLink :=
  { k with sending := none, places := if reply then k.places.drop 1 else k.places }

/-- The command line rate changes, and a frame partly received is dropped uncounted (R173). -/
def changeRate (rate : Nat) (k : CommandLink) : CommandLink := { k with rate := rate, rx := .hunting }

/-- What the end of a frame brings about (R173, R179, R180). -/
def frameEnded (f : Frame) (s : State) : State :=
  match f with
  | .notice _ _ _ => { s with cl := nextFrame (lineEnds false s.cl) }
  | .reply r _ _ =>
    match r.after with
    | .nothing => { s with cl := nextFrame (lineEnds true s.cl) }
    | .newRate rate => { s with cl := nextFrame (changeRate rate (lineEnds true s.cl)) }
    | .restart => start .restart true s

/-- FRAME_SENT (R179). With no frame on the line nothing ends. -/
def execFrameSent (s : State) : Host.Outcome State Fault Refusal :=
  .next (match s.mc.power, s.cl.sending with
    | true, some f => frameEnded f s
    | _, _ => s)

end Sys2Proof.Machine
end

