-- ==== Sys2Proof/Machine/Dispatch.lean ====
section
/-! DEFINITION. One arm per command: its meaning. -/

namespace Sys2Proof.Machine

/-- The effect of a command on everything but the queue. -/
def exec (i : Instr) (s : State) : Host.Outcome State Fault Refusal :=
  match i with
  | .powerUp => Sys2Proof.Machine.execPowerUp s
  | .resetPin => Sys2Proof.Machine.execResetPin s
  | .frameReceived chars => Sys2Proof.Machine.execFrameReceived chars s
  | .interCharacterGap char => Sys2Proof.Machine.execInterCharacterGap char s
  | .unknownKind tag kind payload => Sys2Proof.Machine.execUnknownKind tag kind payload s
  | .frameSent => Sys2Proof.Machine.execFrameSent s
  | .setRunway tag length => Sys2Proof.Machine.execSetRunway tag length s
  | .setBed tag bed xStart xEnd zones => Sys2Proof.Machine.execSetBed tag bed xStart xEnd zones s
  | .setSlot tag slot x massLimit tierLimit area => Sys2Proof.Machine.execSetSlot tag slot x massLimit tierLimit area s
  | .setArea tag area node => Sys2Proof.Machine.execSetArea tag area node s
  | .setBay tag bay x => Sys2Proof.Machine.execSetBay tag bay x s
  | .setCrane tag crane node home => Sys2Proof.Machine.execSetCrane tag crane node home s
  | .setProduct tag index spec => Sys2Proof.Machine.execSetProduct tag index spec s
  | .clearProduct tag index => Sys2Proof.Machine.execClearProduct tag index s
  | .setPlant tag number value => Sys2Proof.Machine.execSetPlant tag number value s
  | .setBoiler tag capacity => Sys2Proof.Machine.execSetBoiler tag capacity s
  | .setMode tag mode => Sys2Proof.Machine.execSetMode tag mode s
  | .restart tag => Sys2Proof.Machine.execRestart tag s
  | .prepare tag bed code => Sys2Proof.Machine.execPrepare tag bed code s
  | .pourOrder tag bed code planned pieces => Sys2Proof.Machine.execPourOrder tag bed code planned pieces s
  | .batch tag bed volume => Sys2Proof.Machine.execBatch tag bed volume s
  | .pourEnd tag bed => Sys2Proof.Machine.execPourEnd tag bed s
  | .gapTimerExpiry bed => Sys2Proof.Machine.execGapTimerExpiry bed s
  | .zoneOut tag bed zone => Sys2Proof.Machine.execZoneOut tag bed zone s
  | .detension tag bed => Sys2Proof.Machine.execDetension tag bed s
  | .clearBed tag bed => Sys2Proof.Machine.execClearBed tag bed s
  | .ship tag mark bay => Sys2Proof.Machine.execShip tag mark bay s
  | .scrap tag mark bay => Sys2Proof.Machine.execScrap tag mark bay s
  | .holdPiece tag mark => Sys2Proof.Machine.execHoldPiece tag mark s
  | .releasePiece tag mark => Sys2Proof.Machine.execReleasePiece tag mark s
  | .rejectPiece tag mark => Sys2Proof.Machine.execRejectPiece tag mark s
  | .locate tag mark slot => Sys2Proof.Machine.execLocate tag mark slot s
  | .removePiece tag mark => Sys2Proof.Machine.execRemovePiece tag mark s
  | .expedite tag move => Sys2Proof.Machine.execExpedite tag move s
  | .cancelMove tag move => Sys2Proof.Machine.execCancelMove tag move s
  | .retryMove tag move => Sys2Proof.Machine.execRetryMove tag move s
  | .resumeCrane tag crane => Sys2Proof.Machine.execResumeCrane tag crane s
  | .craneOut tag crane => Sys2Proof.Machine.execCraneOut tag crane s
  | .craneIn tag crane => Sys2Proof.Machine.execCraneIn tag crane s
  | .readPlant tag cls index => Sys2Proof.Machine.execReadPlant tag cls index s
  | .readBed tag bed => Sys2Proof.Machine.execReadBed tag bed s
  | .readZone tag bed zone => Sys2Proof.Machine.execReadZone tag bed zone s
  | .readPour tag pour => Sys2Proof.Machine.execReadPour tag pour s
  | .readPiece tag mark => Sys2Proof.Machine.execReadPiece tag mark s
  | .readSlot tag slot => Sys2Proof.Machine.execReadSlot tag slot s
  | .readMoves tag page => Sys2Proof.Machine.execReadMoves tag page s
  | .readCrane tag crane => Sys2Proof.Machine.execReadCrane tag crane s
  | .readNodes tag page => Sys2Proof.Machine.execReadNodes tag page s
  | .readStatus tag => Sys2Proof.Machine.execReadStatus tag s
  | .curingIntervalExpiry => Sys2Proof.Machine.execCuringIntervalExpiry s
  | .yardIntervalExpiry => Sys2Proof.Machine.execYardIntervalExpiry s
  | .stepTimerExpiry crane => Sys2Proof.Machine.execStepTimerExpiry crane s
  | .replyTimerExpiry => Sys2Proof.Machine.execReplyTimerExpiry s
  | .replyComplete chars => Sys2Proof.Machine.execReplyComplete chars s
  | .roundTimerExpiry => Sys2Proof.Machine.execRoundTimerExpiry s
  | .cranePollTimerExpiry crane => Sys2Proof.Machine.execCranePollTimerExpiry crane s
  | .mainPowerFails => Sys2Proof.Machine.execMainPowerFails s
  | .backupSupplyBelowThreshold => Sys2Proof.Machine.execBackupSupplyBelowThreshold s

end Sys2Proof.Machine
end

