-- ==== Sys2Proof/Safety.lean ====
section
/-! DEFINITION. What counts as a safe state and a whole answer, in the terms the statements use. -/

namespace Sys2Proof.Machine

/-! ### The settings stay in their ranges -/

/-- The values of the plant settings lie in their ranges (section 1.3). -/
abbrev Settings.inRange (g : Settings) : Prop :=
  (10 ≤ g.agreementBand ∧ g.agreementBand ≤ 100) ∧ (-100 ≤ g.datum ∧ g.datum ≤ 0) ∧
  (30 ≤ g.curingInterval ∧ g.curingInterval ≤ 600) ∧ (60 ≤ g.yardInterval ∧ g.yardInterval ≤ 3600) ∧
  (0 ≤ g.holdLastGood ∧ g.holdLastGood ≤ 10) ∧ (1 ≤ g.starveLimit ∧ g.starveLimit ≤ 60) ∧
  (10 ≤ g.overtempMargin ∧ g.overtempMargin ≤ 150) ∧ (0 ≤ g.minimumFresh ∧ g.minimumFresh ≤ 150) ∧
  (5 ≤ g.coldJointLimit ∧ g.coldJointLimit ≤ 120) ∧ (0 ≤ g.volumeTolerance ∧ g.volumeTolerance ≤ 10) ∧
  (10 ≤ g.maximumBatch ∧ g.maximumBatch ≤ 150) ∧ (50 ≤ g.clearance ∧ g.clearance ≤ 500) ∧
  (1 ≤ g.arrivalTolerance ∧ g.arrivalTolerance ≤ 20) ∧ (30 ≤ g.travelTimeout ∧ g.travelTimeout ≤ 900) ∧
  (10 ≤ g.hookTimeout ∧ g.hookTimeout ≤ 300) ∧ (2 ≤ g.loadTolerance ∧ g.loadTolerance ≤ 25) ∧
  (50 ≤ g.cranePollPeriod ∧ g.cranePollPeriod ≤ 500) ∧ (2 ≤ g.replyTimeout ∧ g.replyTimeout ≤ 50) ∧
  (1 ≤ g.missLimit ∧ g.missLimit ≤ 8) ∧ (1 ≤ g.faultFilter ∧ g.faultFilter ≤ 8) ∧
  (100 ≤ g.roundMinimum ∧ g.roundMinimum ≤ 5000) ∧
  (g.fieldLineRate = 38400 ∨ g.fieldLineRate = 57600 ∨ g.fieldLineRate = 115200) ∧
  (19200 ≤ g.commandLineRate ∧ g.commandLineRate ≤ 230400) ∧ (5 ≤ g.interCharacter ∧ g.interCharacter ≤ 100) ∧
  (0 ≤ g.deviationMode ∧ g.deviationMode ≤ 1) ∧ (0 ≤ g.startUpMode ∧ g.startUpMode ≤ 2) ∧
  (0 ≤ g.retain ∧ g.retain ≤ 1)

/-- A DEFINED product entry's fields lie in their ranges and agree (section 1.2, R9). -/
abbrev Product.inRange (q : Product) : Prop :=
  (100 ≤ q.strip ∧ q.strip ≤ 2000) ∧ (q.strip ≤ q.ship ∧ q.ship ≤ 2000) ∧ q.preset ≤ 600 ∧
  (50 ≤ q.rampRate ∧ q.rampRate ≤ 350) ∧ (300 ≤ q.hold ∧ q.hold ≤ 750) ∧ (50 ≤ q.coolRate ∧ q.coolRate ≤ 350) ∧
  (100 ≤ q.coolEnd ∧ q.coolEnd ≤ 400 ∧ q.coolEnd < q.hold) ∧ (1 ≤ q.gain ∧ q.gain ≤ 50)

/-- The store's values lie in the ranges of chapter 1, and its records by number are in their one canonical form. -/
abbrev Store.inRange (g : Store) : Prop :=
  (100 ≤ g.runway ∧ g.runway ≤ 4000) ∧ g.plant.inRange ∧ g.boiler ≤ 9999 ∧
  (∀ e ∈ g.products, e.2.inRange) ∧
  (∀ e ∈ g.slots, e.2.massLimit ≤ 120000 ∧ 1 ≤ e.2.tierLimit ∧ e.2.tierLimit ≤ 8) ∧
  (∀ e ∈ g.beds, e.2.zones.length ≤ 4 ∧ ∀ z ∈ e.2.zones, z.rating ≤ 999) ∧
  Map.rising g.beds = true ∧ Map.rising g.slots = true ∧ Map.rising g.areas = true ∧ Map.rising g.bays = true ∧
  Map.rising g.products = true

/-! ### The cranes keep apart -/

/-- Where both cranes hold reservations, A's ends strictly west of the start of B's (R119). -/
abbrev cranesApart (p : Part) : Prop := ordered p.mp.resA p.mp.resB = true

/-! ### The curing contexts -/

/-- One context a bed, with one zone record a zone, zones 1 to 4 at most (section 4.1). -/
abbrev curingSound (p : Part) : Prop :=
  Map.rising p.cc.contexts = true ∧
  ∀ e ∈ p.cc.contexts, Map.rising e.2.zones = true ∧ ∀ z ∈ e.2.zones, 1 ≤ z.1 ∧ z.1 ≤ 4

/-! ### The move queue -/

/-- At most 32 moves, numbered in 1..255 with no number twice, and a counter in 1..255 (R117). -/
abbrev movesSound (p : Part) : Prop :=
  p.mp.queue.length ≤ 32 ∧ (p.mp.queue.map (·.number)).Nodup ∧ (∀ m ∈ p.mp.queue, 1 ≤ m.number ∧ m.number ≤ 255) ∧
  1 ≤ p.mp.counter ∧ p.mp.counter ≤ 255

/-! ### A curing interval's expiry -/

/-- Whether an unmeasured zone keeps its held value at an expiry: present, and held fewer times than hold-last-good (R56). -/
def keepsHeld (g : Store) (r : ZoneCuring) : Bool := r.held.isSome && decide ((r.heldCount : Int) < g.plant.holdLastGood)

/-- The temperature TU formed, where it formed one. -/
def measuredIn : ZoneResult → Option Int
  | .measured t _ => some t
  | .unmeasured _ => none

/-- The temperature a zone is resolved to: the measured one, else the held one it keeps, else none (R56). -/
def resolvedTo (g : Store) (out : ZoneResult) (r : ZoneCuring) : Option Int :=
  match measuredIn out with
  | some t => some t
  | none => if keepsHeld g r then r.held else none

/-- How an expiry leaves a zone's held value and flags (R56, R58, R62, R63); `phase` is the one before stage 4. That the lapse
flags of an excluded zone are set and cleared like any zone's is a DESIGN CHOICE (notes/assumptions/13.md). -/
def zoneResolved (g : Store) (q : Product) (phase : Phase) (out : ZoneResult) (r r' : ZoneCuring) : Prop :=
  (∀ t, measuredIn out = some t →
    r'.held = some t ∧ r'.heldCount = 0 ∧ r'.lapsed = false ∧ r'.unmeasuredSeen = false) ∧
  (measuredIn out = none → r'.held = r.held ∧ r'.heldCount = r.heldCount + (if keepsHeld g r then 1 else 0) ∧
    r'.lapsed = (r.lapsed || !keepsHeld g r) ∧
    r'.unmeasuredSeen = (r.unmeasuredSeen || (!keepsHeld g r && !r.excluded))) ∧
  (resolvedTo g out r = none ∨ r.excluded = true → r'.freezeEdge = r.freezeEdge ∧ r'.overEdge = r.overEdge) ∧
  ∀ t, resolvedTo g out r = some t → r.excluded = false →
    (r'.freezeEdge = true ↔ t < 0 ∧ (phase = .preset ∨ phase = .ramp)) ∧
    (r'.overEdge = true ↔ q.hold + g.plant.overtempMargin < t ∧ (phase = .ramp ∨ phase = .hold ∨ phase = .cool))

/-- The deviations an included zone reports at stage 3, in order: UNMEASURED at the start of a run of lapsed expiries, FREEZE
and OVERTEMP at the start of their conditions (R58, R62, R63). -/
def reportsDue (g : Store) (q : Product) (phase : Phase) (mins zone : Nat) (out : ZoneResult) (r : ZoneCuring) :
    List Deviation :=
  if r.excluded then []
  else match resolvedTo g out r with
  | none => if r.unmeasuredSeen then [] else [{ kind := .unmeasured, zone := some zone, value := r.heldCount, minutes := mins }]
  | some t =>
    (if t < 0 ∧ (phase = .preset ∨ phase = .ramp) ∧ r.freezeEdge = false then
      [{ kind := .freeze, zone := some zone, value := t, minutes := mins }] else []) ++
    (if q.hold + g.plant.overtempMargin < t ∧ (phase = .ramp ∨ phase = .hold ∨ phase = .cool) ∧ r.overEdge = false then
      [{ kind := .overtemp, zone := some zone, value := t, minutes := mins }] else [])

/-- The demand of an error in tenths: error times gain, in whole percent, from 0 to 100 (R71). -/
def percentOf (gain : Nat) (e : Int) : Nat := min 100 (max 0 (e * gain / 10)).toNat

/-- A zone's class, demand and request, by the phase and setpoint its context holds after stage 4 (R58, R71, R72). The demand 0
of a zone both lapsed and excluded is a DESIGN CHOICE, and the kept demand of a lapsed zone in PRESET is DEDUCED
(notes/assumptions/13.md). -/
def heatAsked (g : Store) (q : Product) (after : Context) (rating : Nat) (lost : Bool) (temp : Option Int)
    (r r' : ZoneCuring) : Prop :=
  let below := temp.any fun t => decide (t < g.plant.minimumFresh)
  r'.cls = (if r.excluded then .none else match after.phase with
    | .preset => if below ∨ (temp = none ∧ r.cls = .frost) then .frost else .none
    | .ramp => .ramp
    | .hold => .hold
    | .cool => .cool
    | .finished => .none) ∧
  (r.excluded = true ∨ after.phase = .finished → r'.demand = 0) ∧
  (r.excluded = false → after.phase ≠ .finished →
    (temp = none → r'.demand = r.demand) ∧
    ∀ t, temp = some t →
      (after.phase = .preset → r'.demand = if below then percentOf q.gain (g.plant.minimumFresh - t) else 0) ∧
      (∀ sp, after.phase ≠ .preset → after.sp = some sp → r'.demand = percentOf q.gain (sp - t))) ∧
  r'.request = if r'.cls = .none ∨ r.excluded ∨ lost then 0 else r'.demand * rating

/-! ### Requests and their answers -/

/-- A good frame arriving now is handed to its owner: main power is present, a buffer place is free, and no RESTART has
been taken (R175, R180, R185). -/
abbrev ready (s : State) : Prop := s.mc.power = true ∧ s.cl.places.length < 2 ∧ s.cl.restarting = false

/-- The replies not yet wholly sent, oldest first: the one on the line, then the queue (R175, R176). -/
def unsent (k : CommandLink) : List Reply :=
  (match k.sending with
   | some (.reply r _ _) => [r]
   | _ => []) ++ k.replies

/-- Each place is held by a request whose reply is not yet wholly sent, in order, and the queues are within their
capacities (R175, R178). -/
abbrev linkSound (k : CommandLink) : Prop :=
  k.places = (unsent k).map (fun r => (r.kind, r.tag)) ∧ k.places.length ≤ 2 ∧ k.notices.length ≤ 24

/-- The notices not yet wholly sent: the one on the line, then the queue (R178, R179). -/
def unheard (k : CommandLink) : List Notice :=
  (match k.sending with
   | some (.notice n _ _) => [n]
   | _ => []) ++ k.notices

/-- What a raised notice leaves as it stands of the Command Link: all but the notice queue and its two counts. -/
def linkCore (k : CommandLink) : CommandLink := { k with notices := [], overflow := false, dropped := 0 }

/-- What a crane's node last reported of it (R140). -/
def craneHeard (r : Crane) : Option Int × Option Hook × Option Motion × Option Bool :=
  (r.pos, r.hook, r.motion, r.driveFault)

/-- What the Field Link's traffic leaves as it stands of a crane: all but the step's command, its timer, and a refused
command that it keeps. -/
def craneCore (r : Crane) : Crane := { r with command := none, timer := none, kept := none }

/-- Between `s` and `t` these notices were raised, in this order, before any other: those that the 24 places had room for
joined the queue, and the others are among the dropped (R178). -/
def toldFirst (s t : State) (ns : List Notice) : Prop :=
  let room := 24 - s.cl.notices.length
  (unheard s.cl ++ ns.take room) <+: unheard t.cl ∧
  min 65535 (s.cl.dropped + (ns.length - room)) ≤ t.cl.dropped ∧
  (room < ns.length → s.cl.sending.isSome → t.cl.overflow = true)

/-- The bed, pour and entry that a DEVIATION notice tells of. -/
def deviationTold : Notice → Option (Nat × Nat × Deviation)
  | .deviation bed pour entry _ => some (bed, pour, entry)
  | _ => none

/-- Between `s` and `t` these notices were raised, in this order, and no other: those that the 24 places have room for join
the queue, the others are dropped and counted, and a drop sets the overflow flag (R178). The flag stays until a notice that
carries it is begun, here on a line that was free (R179). -/
def told (s t : State) (ns : List Notice) : Prop :=
  let room := 24 - s.cl.notices.length
  let seen := s.cl.overflow || decide (room < ns.length)
  unheard t.cl = unheard s.cl ++ ns.take room ∧
  t.cl.dropped = (if ns.length ≤ room then s.cl.dropped else min 65535 (s.cl.dropped + (ns.length - room))) ∧
  match s.cl.sending, t.cl.sending with
  | none, some (.notice _ flags _) => t.cl.overflow = false ∧ flags = flagsByte false (!t.cl.notices.isEmpty) seen
  | _, _ => t.cl.overflow = seen

/-- The outgoing line over an event that ends no frame: a frame on it stays; a free line takes the oldest reply, which
carries RX_OVERRUN and so clears it, else the oldest notice, which clears the overflow flag, else nothing (R175, R178,
R179). That it does so at the end of the event is DEDUCED (notes/assumptions/8.md). -/
def lineServed (s t : State) : Prop :=
  match s.cl.sending, unsent t.cl, unheard t.cl with
  | some f, _, _ => t.cl.sending = some f ∧ t.cl.rxOverrun = s.cl.rxOverrun
  | none, r :: _, _ =>
    t.cl.sending = some (.reply r (flagsByte s.cl.rxOverrun (!t.cl.notices.isEmpty) t.cl.overflow) s.cl.rate) ∧
    t.cl.rxOverrun = false
  | none, [], n :: rest =>
    t.cl.rxOverrun = s.cl.rxOverrun ∧ t.cl.overflow = false ∧
    (t.cl.sending = some (.notice n (flagsByte false (!rest.isEmpty) false) s.cl.rate) ∨
      t.cl.sending = some (.notice n (flagsByte false (!rest.isEmpty) true) s.cl.rate))
  | none, [], [] => t.cl.sending = none ∧ t.cl.rxOverrun = s.cl.rxOverrun

/-- The receiver, the line rate and the counts of CL are as they were. -/
def sameReceiver (s t : State) : Prop :=
  t.cl.rx = s.cl.rx ∧ t.cl.rate = s.cl.rate ∧ t.cl.lengthDiscards = s.cl.lengthDiscards ∧
  t.cl.gapDiscards = s.cl.gapDiscards ∧ t.cl.framingDiscards = s.cl.framingDiscards ∧
  t.cl.checkDiscards = s.cl.checkDiscards ∧ t.cl.overruns = s.cl.overruns ∧
  (t.cl.rxOverrun = true → s.cl.rxOverrun = true)

/-- Between `s` and `t` one request took a place and was answered with a status and fields, and CL did nothing else but
send (R175 to R177, R179). -/
def answered (s t : State) (kind tag : Nat) (status : Status) (fields : List Field) (after : After) : Prop :=
  unsent t.cl = unsent s.cl ++ [{ kind := kind, tag := tag, status := status, fields := fields, after := after }] ∧
  t.cl.places = s.cl.places ++ [(kind, tag)] ∧ sameReceiver s t ∧ t.cl.restarting = s.cl.restarting

/-- No request was answered: CL's receiver, places and replies are as they were (an event of another block). -/
def noReply (s t : State) : Prop :=
  unsent t.cl = unsent s.cl ∧ t.cl.places = s.cl.places ∧ sameReceiver s t ∧ t.cl.restarting = s.cl.restarting

/-- `t` has the store `g` and, of every block but CL, the records of `u`; the waiting commands are as they were. -/
def becomes (s t : State) (g : Store) (u : Part) : Prop :=
  t.store = g ∧ t.mc = u.mc ∧ t.bs = u.bs ∧ t.cc = u.cc ∧ t.tu = u.tu ∧ t.sm = u.sm ∧ t.mp = u.mp ∧
  t.csA = u.csA ∧ t.csB = u.csB ∧ t.fl = u.fl ∧ t.pending = s.pending

/-- A request was refused with a status: nothing of any block changed, and no notice was raised (R12, R177). -/
def refusedWith (s t : State) (kind tag : Nat) (status : Status) : Prop :=
  becomes s t s.store s.toPart ∧ answered s t kind tag status [] .nothing ∧ told s t []

/-- Neither a scan nor a withdrawal of a SHIP move can follow a change: the mode is not RUN, and no move of the part is
DISPATCHED (R121, R128). -/
abbrev still (u : Part) : Prop := u.mc.mode ≠ .run ∧ ∀ m ∈ u.mp.queue, m.state ≠ .dispatched

/-- Every slot's stack and dig lock are as they were; a scan may engage slots. -/
def sameStacks (s t : State) : Prop :=
  ∀ n, (slotOf t.toPart n).stack = (slotOf s.toPart n).stack ∧ (slotOf t.toPart n).lock = (slotOf s.toPart n).lock

/-- As `becomes`, for an event whose end may bring about a scan or withdrawals: what those cannot touch is as in `u`
always, and everything is where neither can follow. -/
def settles (s t : State) (u : Part) : Prop :=
  t.store = s.store ∧ t.mc = u.mc ∧ t.bs = u.bs ∧ t.cc = u.cc ∧ t.tu = u.tu ∧ t.sm.pieces = u.sm.pieces ∧
  t.sm.timer = u.sm.timer ∧ t.pending = s.pending ∧
  (∀ n, (slotOf t.toPart n).stack = (slotOf u n).stack ∧ (slotOf t.toPart n).lock = (slotOf u n).lock) ∧
  (still u → becomes s t s.store u)

/-- The end of an event that triggers the dispatch scan and withdraws no move: outside RUN the records stay as they are, in
RUN one scan of them is made (R121). -/
def afterScan (s : State) (u : Part) : Part := if s.mc.mode = .run then scan s.store u else u

/-- `t` has the records of `u` after the scan that ends the event; CL's records, and what the event has changed, which no
scan reads, are not said. -/
def scanned (s t : State) (u : Part) : Prop :=
  ∃ cl evt, becomes s t s.store (afterScan s { u with cl := cl, evt := evt })

/-- No SHIP move of the records is to be withdrawn: the piece of a DISPATCHED one whose crane's hook is empty is SHIPPABLE
(R128). -/
def spared (u : Part) : Prop :=
  ∀ k q n m c, pieceOf u k = some q → q.move = some n → moveOf u n = some m → m.kind = .ship → m.state = .dispatched →
    m.crane = some c → (craneOf u c).load = none → q.condition = .shippable

/-- How an event ends that changed no record but those of `t` that `u` has: where it withdraws no SHIP move, the records are
`u` if it changed no piece, and else one scan of them in RUN, and the notices raised are `ns` (R114, R121). -/
def endsAs (s t : State) (u : Part) (ns : List Notice) : Prop :=
  spared u → (u.sm.pieces = s.sm.pieces → becomes s t s.store u) ∧ (u.sm.pieces ≠ s.sm.pieces → scanned s t u) ∧
    told s t ns

/-- The records of `s` with the beds, pours, contexts and pieces of `t`: what an event of BS or CC changes before its end. -/
def changedOnly (s t : State) : Part :=
  { s.toPart with bs := t.bs, cc := t.cc, sm := { s.sm with pieces := t.sm.pieces } }

/-- The same for the end of an attempt on the field line, after which FL goes on with its line: nothing is said of FL, nor of
what its traffic writes in a crane's record. -/
def scannedCore (s t : State) (u : Part) : Prop :=
  ∃ fl cl evt, let v := afterScan s { u with fl := fl, cl := cl, evt := evt }
    t.bs = v.bs ∧ t.cc = v.cc ∧ t.sm = v.sm ∧ t.mp = v.mp ∧ craneCore t.csA = craneCore v.csA ∧
    craneCore t.csB = craneCore v.csB

/-- The move queue with a backlog fill behind it: STRIP moves of pieces of the backlog, none where that is empty (R135). -/
def filledFrom (s : State) (queue after : List Move) : Prop :=
  ∃ fill, after = queue ++ fill ∧ (s.mp.backlog = [] → fill = []) ∧
    ∀ k ∈ fill, k.kind = .strip ∧ k.state = .queued ∧ k.crane = none ∧ ∃ mark ∈ s.mp.backlog, k.piece = some mark

/-- The engagements and dig locks of `u` are those of `s`, but for those that name a move of `gone`. -/
def freedOf (s : State) (u : Part) (gone : Nat → Bool) : Prop :=
  ∀ k, (slotOf u k).engaged = ((slotOf s.toPart k).engaged.filter fun e => !gone e.1) ∧
    (slotOf u k).lock = (slotOf s.toPart k).lock.filter fun n => !gone n

/-- New moves take these numbers, in order, from a counter and beside the live numbers, and leave the counter after the last:
each takes the first free number from the counter on, and 255 is followed by 1 (R117). -/
def takeNumbers : List Nat → Nat → List Nat → Nat → Prop
  | _, counter, [], after => after = counter
  | live, counter, n :: rest, after =>
    (∃ d, d < 255 ∧ n = (counter - 1 + d) % 255 + 1 ∧ n ∉ live ∧ ∀ j, j < d → (counter - 1 + j) % 255 + 1 ∈ live) ∧
      takeNumbers (n :: live) (n % 255 + 1) rest after

/-- `u` has the moves `new` queued behind those of `s`, numbered in order, and each piece they name has the number of a move
that names it (R117). -/
def queuedNew (s : State) (u : Part) (new : List Move) : Prop :=
  u.mp.queue = s.mp.queue ++ new ∧
  (movesSound s.toPart → takeNumbers (s.mp.queue.map (·.number)) s.mp.counter (new.map (·.number)) u.mp.counter) ∧
  (∀ k, (∀ m ∈ new, m.piece ≠ some k) → pieceOf u k = pieceOf s.toPart k) ∧
  ∀ k q, (∃ m ∈ new, m.piece = some k) → pieceOf s.toPart k = some q →
    ∃ m ∈ new, m.piece = some k ∧ pieceOf u k = some { q with move := some m.number }

/-- The command runs to a next state of which `φ` holds. -/
def runsTo (i : Instr) (s : State) (φ : State → Prop) : Prop := ∃ t, exec i s = .next t ∧ φ t

/-! ### Starts -/

/-- The Field Link as a start leaves it (R158, R162, R185, R189): every named address, and no other, UNPOLLED with nothing
kept; no command queued but the SET VALVE 0 of an entry to SETUP (R88); a first round begun where an address is named. -/
def linkStarted (s t : State) : Prop :=
  (∀ a nd, nodeOf t.toPart a = some nd → nd = .fresh nd.owner ∧ (a, nd.owner) ∈ namedItems s.store) ∧
  (∀ e ∈ namedItems s.store, (nodeOf t.toPart e.1).isSome) ∧
  (∀ e ∈ t.fl.queue, e.cmd = .setValve 0 ∧ e.by_ = .cc ∧ startMode s.store = .setup) ∧
  t.fl.waiting = [] ∧ t.fl.repeatStop = none ∧ t.fl.due = [] ∧ t.fl.pollA = none ∧ t.fl.pollB = none ∧
  (t.fl.roundOn = true ↔ namedItems s.store ≠ []) ∧
  ((∃ e ∈ namedItems s.store, 0 < e.1) → ∃ ex, t.fl.line = some ex ∧ ex.attempt = 1 ∧
    (startMode s.store ≠ .setup → ex.cls = .round ∧ ex.cmd = .poll))

/-- CC's valve records as a start leaves them: one a configured zone, its wanted opening 0, and no opening handed but the 0
of an entry to SETUP (R77, R88). -/
def valvesStarted (s t : State) : Prop :=
  (∀ z ∈ allZones s.store, (Map.find t.cc.valves (zoneKey z.1 z.2.1)).isSome) ∧
  ∀ k v, Map.find t.cc.valves k = some v → v.wanted = 0 ∧ (startMode s.store ≠ .setup → v = .fresh) ∧
    (v.handed = none ∨ v.handed = some 0) ∧ ∃ z ∈ allZones s.store, k = zoneKey z.1 z.2.1

/-- MP's records as a start leaves them (R116, R135, R187): with the job records cleared nothing; with them kept the STRIP
moves of the pieces still on STRIPPING beds, numbered from 1, and in the backlog those that found the queue full. -/
def movesStarted (t : State) (kept : Bool) : Prop :=
  (kept = false → t.mp.queue = [] ∧ t.mp.backlog = []) ∧ t.mp.counter = t.mp.queue.length + 1 ∧
  t.mp.queue.map (·.number) = (List.range t.mp.queue.length).map (· + 1) ∧
  (∀ m ∈ t.mp.queue, m.kind = .strip ∧ m.state = .queued ∧ m.crane = none ∧ m.dest = none ∧ m.chain = none) ∧
  (t.mp.backlog ≠ [] → t.mp.queue.length = 32) ∧
  (Map.rising t.bs.beds = true →
    t.mp.queue.map (·.piece) ++ t.mp.backlog.map some = (unstripped t.toPart).map some)

/-- What a start leaves whatever was retained (R185, R188, R189): the mode and its records, no reading of TU, the valve
records and the node table new, both cranes UNLOCATED with no reservation, CL empty at the store's rate with STARTED on its
line, which counts the POURING beds that the repair rejects, and no gap timer running. -/
def startedAs (s t : State) (cause : StartCause) (kept : Bool) : Prop :=
  t.store = s.store ∧ t.pending = s.pending ∧
  t.mc = { power := true, backupHeld := true, mode := startMode s.store, startCause := cause, retained := kept } ∧
  t.tu = { zones := freshZoneRecords s.store, areas := freshAreaRecords s.store } ∧
  linkStarted s t ∧ valvesStarted s t ∧ movesStarted t kept ∧
  t.csA = .atReset ∧ t.csB = .atReset ∧ t.mp.resA = none ∧ t.mp.resB = none ∧
  t.cc.alloc = .fresh ∧ t.cc.timer = .start (seconds s.store.plant.curingInterval) ∧
  t.sm.timer = .start (seconds s.store.plant.yardInterval) ∧ (∀ b, (bedOf t.toPart b).gap = none) ∧
  (∀ n, (slotOf t.toPart n).engaged = none ∧ (slotOf t.toPart n).lock = none) ∧
  t.cl.rx = .hunting ∧ t.cl.places = [] ∧ t.cl.replies = [] ∧ t.cl.restarting = false ∧
  t.cl.rate = s.store.plant.commandLineRate.toNat ∧
  let aborted := if kept then (s.bs.beds.filter fun b => b.2.state == .pouring).length else 0
  ∃ flags, t.cl.sending =
    some (.notice (.started cause kept (startMode s.store) aborted) flags s.store.plant.commandLineRate.toNat)

/-- Six beds at most, each kept once, and no pour named by two of them (section 2.1). -/
abbrev oneBedAPour (s : State) : Prop :=
  Map.rising s.bs.beds = true ∧ s.bs.beds.length ≤ 6 ∧
  ∀ a ∈ s.bs.beds, ∀ b ∈ s.bs.beds, a.2.pour.isSome → a.2.pour = b.2.pour → a.1 = b.1

/-- A RESTART's reply is on the line, and its end carries the restart out (R180). -/
def endsRestart (s : State) : Prop :=
  s.mc.power = true ∧ ∃ r flags rate, s.cl.sending = some (.reply r flags rate) ∧ r.after = .restart

/-! ### Directed commands -/

/-- A command for a node waits in the directed queue, or its exchange, begun since `s`, is on the line. -/
def offered (s t : State) (addr : Nat) (cmd : FieldCmd) : Prop :=
  (∃ e ∈ t.fl.queue, e.addr = addr ∧ e.cmd = cmd) ∨
  ∃ ex, t.fl.line = some ex ∧ ex.addr = addr ∧ ex.cmd = cmd ∧ ex.attempt = 1 ∧ s.fl.serial ≤ ex.id

/-- The directed queue has room for `n` entries more than it holds, STOPs apart (R164). -/
abbrev hasRoom (s : State) (n : Nat) : Prop := (s.fl.queue.filter fun e => e.cmd != .stop).length + n ≤ 16

/-- A STOP for a node was offered and taken. -/
abbrev stopOffered (s t : State) (addr : Nat) : Prop := offered s t addr .stop

/-- STOP was offered for a crane's node, which FL always takes where the node is not LOST (R145, R164). -/
def stopSent (s t : State) (c : CraneId) : Prop :=
  ∀ a nd, craneNode s.store c = some a → nodeOf s.toPart a = some nd → nd.standing ≠ .lost → stopOffered s t a

/-- How CC leaves the valve record `v` of a zone as `w` when it serves the valves with the wanted opening `w.wanted` (R85, R88):
SET VALVE is offered where the node is not LOST and the handed opening differs or is to be sent again, and taken where there
is room for one of each valve; on an idle line the first begins at once, and the supervisors may take four places then. -/
def valveServed (s t : State) (bed zone : Nat) (v w : Valve) : Prop :=
  let due := v.handed ≠ some w.wanted ∨ v.resend = true
  let sent := w.handed = some w.wanted ∧ w.resend = false
  (zoneLost s.store s.toPart bed zone = true ∨ ¬ due → w.handed = v.handed ∧ w.resend = v.resend) ∧
  ∀ z nd, zoneCfg s.store bed zone = some z → nodeOf s.toPart z.node = some nd → nd.standing ≠ .lost → due →
    (sent ∨ (w.handed = v.handed ∧ w.resend = true)) ∧
    (((namedItems s.store).map Prod.fst).Nodup → hasRoom s (s.cc.valves.length + if s.fl.line.isSome then 0 else 4) →
      sent ∧ offered s t z.node (.setValve w.wanted))

/-! ### A failed attempt -/

/-- The causes of R157's table in its order, each with whether it applies to the reply `chars` of a node of the kind at the
address. -/
def causesOf (kind : NodeKind) (addr : Nat) (chars : List FieldChar) : List (AttemptFailure × Bool) :=
  let bytes := chars.map (·.data)
  let length := match kind with
    | .zone => 9
    | .yard => 4
    | .crane => 7
  [(.framing, chars.any fun ch => ch.framing || ch.address), (.address, bytes.head? != some addr),
   (.gap, decide (bytes.length < length)), (.length, decide (length < bytes.length)),
   (.check, bytes.sum % 256 != 0), (.content, kind == .crane && (bytes[3]?.getD 0) / 2 % 4 == 3)]

/-- The command ends the attempt `ex` on the line in a failure with this cause: the reply timer's expiry, or a reply to which
a cause of R157 applies, the first that does. -/
def failsWith (i : Instr) (ex : Exchange) (cause : AttemptFailure) : Prop :=
  (i = .replyTimerExpiry ∧ cause = .timeout) ∨
  ∃ chars, i = .replyComplete chars ∧ chars ≠ [] ∧
    ((causesOf ex.owner.kind ex.addr chars).find? (·.2)).map Prod.fst = some cause

/-! ### A crane's reply -/

/-- The field line carries an attempt to the crane `c`, whose node has the entry `nd`, and whose reply `chars` is good, with
contents `y`. -/
def craneReplies (s : State) (c : CraneId) (ex : Exchange) (nd : Node) (chars : List FieldChar) (y : CraneReply) : Prop :=
  s.mc.power = true ∧ s.fl.line = some ex ∧ ex.orphan = false ∧ ex.owner = .crane c ∧
  nodeOf s.toPart ex.addr = some nd ∧ chars ≠ [] ∧ replyFault .crane ex.addr chars = none ∧
  craneContents (chars.map (·.data)) = some y

/-- A position within a crane's reservation, where it holds one (R149). -/
def keptWithin (s : State) (c : CraneId) (pos : Int) : Prop :=
  ∀ res, reservationOf s.toPart c = some res → res.lo ≤ pos ∧ pos ≤ res.hi

/-- A crane's record when a reply's values are stored and its fault is counted (R140, steps 1 and 4; R147). -/
def heard (y : CraneReply) (r : Crane) : Crane :=
  { r with pos := some y.pos, motion := some y.motion, hook := some y.hook, driveFault := some y.fault,
           fresh := r.fresh || r.state == .stopped, faults := if y.fault then min 8 (r.faults + 1) else 0 }

/-- The item that named an address in `s` names it in `t` no longer (R8). -/
def unnamedSince (s t : State) (addr : Nat) : Bool :=
  (nodeOf s.toPart addr).any fun nd => (nodeOf t.toPart addr).map (·.owner) != some nd.owner

/-- FL follows a request that changes the named addresses (R8, R166, R170): the directed commands queued for an address no
longer named are removed, and the exchange on the line with one goes on with its outcome to be dropped. The other commands
stay queued in their order, but for the one that an idle line begins; this is said where no supervisor holds a refused
command, which a freed entry would take (R164). -/
def linkFollows (s t : State) : Prop :=
  let kept := s.fl.queue.filter fun e => !unnamedSince s t e.addr
  let mark (ex : Exchange) : Exchange := { ex with orphan := ex.orphan || unnamedSince s t ex.addr }
  (∀ e ∈ t.fl.queue, unnamedSince s t e.addr = true → ∃ c, e.by_ = .cs c ∧ craneNode t.store c = some e.addr) ∧
  (s.fl.line.isSome → t.fl.line = s.fl.line.map mark ∧ t.fl.waiting = s.fl.waiting.map mark) ∧
  ((∀ c, (craneOf s.toPart c).kept = none ∧ ∀ cmd, (craneOf s.toPart c).command ≠ some (cmd, .waiting)) →
    t.fl.queue.Sublist kept ∧ (s.fl.line.isSome → t.fl.queue = kept))

/-- What stage 7 of a curing interval's expiry leaves in RUN (R79 to R84): the allocation of the records `p` that stages 1
to 6 leave. Those have the requests, phases and beds of `t`, the starved bits and counts, the allocation record and the line
of `s`, and the notices raised so far; after the allocation the contexts only lose their fresh flags. The notices raised
after it are of withdrawn SHIP moves, so none where none is withdrawn (R128). -/
def allocatedIn (s t : State) : Prop :=
  ∃ p : Part, let v := allocate s.store p
    p.cc.alloc = s.cc.alloc ∧ p.bs.beds = t.bs.beds ∧ v.bs = t.bs ∧ t.cc.alloc = v.cc.alloc ∧
    Map.keys p.cc.contexts = Map.keys s.cc.contexts ∧
    (∀ bed, contextOf t.toPart bed = (contextOf v bed).map fun k => { k with fresh := false }) ∧
    (∀ bed ctx after, contextOf s.toPart bed = some ctx → contextOf t.toPart bed = some after →
      ∃ k, contextOf p bed = some k ∧
        { k with zones := after.zones } =
          { after with starved := ctx.starved, starvedCount := ctx.starvedCount, fresh := ctx.fresh } ∧
        Map.keys k.zones = Map.keys after.zones ∧
        ∀ zone r, Map.find after.zones zone = some r →
          ∃ x, Map.find k.zones zone = some x ∧ { x with grant := r.grant } = r) ∧
    p.cl.sending = s.cl.sending ∧ unheard s.cl <+: unheard p.cl ∧ unheard v.cl <+: unheard t.cl ∧
    (spared (changedOnly s t) → unheard t.cl = unheard v.cl ∧ t.cl.dropped = v.cl.dropped)

/-- A reply that reaches step 5 of R140 and is judged: the node is not LOST, the crane stands within its reservation and reports
no drive fault, and its step command was carried by an earlier exchange. -/
def replyJudged (s : State) (c : CraneId) (ex : Exchange) (nd : Node) (chars : List FieldChar) (y : CraneReply) : Prop :=
  craneReplies s c ex nd chars y ∧ nd.standing ≠ .lost ∧ craneNode s.store c = some ex.addr ∧ keptWithin s c y.pos ∧
  y.fault = false ∧ 1 ≤ s.store.plant.faultFilter ∧ ∃ cmd id, (craneOf s.toPart c).command = some (cmd, .carried id) ∧ id < ex.id

/-- What a crane's good reply leaves in every case: its node ALIVE with the reply kept (R166), and no record of MC, TU or
the store changed. -/
def replyTaken (s t : State) (ex : Exchange) (nd : Node) (chars : List FieldChar) : Prop :=
  t.store = s.store ∧ t.mc = s.mc ∧ t.tu = s.tu ∧ t.pending = s.pending ∧ noReply s t ∧
  nodeOf t.toPart ex.addr =
    some { nd with standing := .alive, misses := 0, lastReply := some (chars.map (·.data)), age := 0 }

/-- Position `x` is reached: the crane is at rest within the arrival tolerance of it (table of section 8.2). -/
abbrev reached (g : Store) (y : CraneReply) (x : Int) : Prop :=
  y.motion = .stopped ∧ x - g.plant.arrivalTolerance ≤ y.pos ∧ y.pos ≤ x + g.plant.arrivalTolerance

/-- A step's command stands QUEUED with the step timer started, or WAITING with no timer (R139). -/
def stepBegun (r : Crane) (cmd : FieldCmd) (kind : TimeoutKind) (limit : Int) : Prop :=
  (r.command = some (cmd, .queued) ∧ r.timer = some (kind, .start (limit.toNat * 1000))) ∨
  (r.command = some (cmd, .waiting) ∧ r.timer = none)

/-- The reservation of a crane at rest at `pos`: its stretch about `pos`, cut to what it held before (R120). -/
def rested (s : State) (c : CraneId) (pos : Int) : Option Reservation :=
  (reservationOf s.toPart c).map fun old =>
    { lo := max old.lo (stretch s.store [pos]).lo, hi := min old.hi (stretch s.store [pos]).hi, basis := [pos] }

/-! ### Which identifiers a read answers for -/

/-- What each read answers from the records as they stand (R181). -/
def readAnswer (s : State) : Instr → Option (Judgement (List Field))
  | .readPlant _ cls index => some (readPlant cls index s.store s.toPart)
  | .readBed _ bed => some (readBed bed s.store s.toPart)
  | .readZone _ bed zone => some (readZone bed zone s.store s.toPart)
  | .readPour _ pour => some (readPour pour s.store s.toPart)
  | .readPiece _ mark => some (readPiece mark s.store s.toPart)
  | .readSlot _ slot => some (readSlot slot s.store s.toPart)
  | .readMoves _ page => some (readMoves page s.store s.toPart)
  | .readCrane _ crane => some (readCrane crane s.store s.toPart)
  | .readNodes _ page => some (readNodes page s.store s.toPart)
  | .readStatus _ => some (readStatus s.store s.toPart)
  | _ => none

/-- The identifiers named are ones the read answers for (R2, R36, R50, R115, R155, R181). -/
def readable (s : State) : Instr → Prop
  | .readPlant _ cls index =>
    cls = 0 ∨ (cls = 1 ∧ 1 ≤ index ∧ index ≤ 6) ∨ (cls = 2 ∧ 1 ≤ index ∧ index ≤ 48) ∨
    (cls = 3 ∧ 1 ≤ index ∧ index ≤ 4) ∨ (cls = 4 ∧ 1 ≤ index ∧ index ≤ 2) ∨
    (cls = 5 ∧ (index = 0x41 ∨ index = 0x42)) ∨ (cls = 6 ∧ 1 ≤ index ∧ index ≤ 16)
  | .readBed _ bed => 1 ≤ bed ∧ bed ≤ 6
  | .readZone _ bed zone =>
    (bed = 0 ∧ 1 ≤ zone ∧ zone ≤ 4) ∨
    (1 ≤ bed ∧ bed ≤ 6 ∧ (zoneCfg s.store bed zone).isSome ∧ (zoneRecord s.toPart bed zone).isSome)
  | .readPour _ pour => 1 ≤ pour ∧ pour ≤ 24 ∧ (pourOf s.toPart pour).isSome
  | .readPiece _ mark => 1 ≤ mark ∧ mark ≤ 65535 ∧ (pieceOf s.toPart mark).isSome
  | .readSlot _ slot => 1 ≤ slot ∧ slot ≤ 48
  | .readMoves _ page => page ≤ 4
  | .readCrane _ crane => crane = 0x41 ∨ crane = 0x42
  | .readNodes _ page => page ≤ 3
  | .readStatus _ => True
  | _ => False

/-! ### What a read's answer holds

The rules on reads say which records an answer reports, section 10.1 (R172) how a value is spelt, section 10.6 (R181) how
long lists are cut. What they leave open is the model's choice and stands in notes/assumptions/6.md and 18.md. -/

/-- A number in the smallest of 1, 2 or 4 bytes that holds its stated range, signed where that includes negatives. -/
def ranged (lo hi v : Int) : Field :=
  if lo < 0 then if -128 ≤ lo ∧ hi ≤ 127 then .i8 v else if -32768 ≤ lo ∧ hi ≤ 32767 then .i16 v else .i32 v
  else if hi ≤ 255 then .u8 v.toNat else if hi ≤ 65535 then .u16 v.toNat else .u32 v.toNat

/-- An enumerated value: one byte, counting from 0 in the order its owning chapter lists the values. -/
def oneOf {α : Type} [DecidableEq α] (values : List α) (v : α) : Field := .u8 (values.idxOf v)

/-- Set or clear: a byte, 1 or 0 (notes/assumptions/6.md). -/
def setOrClear (b : Bool) : Field := oneOf [false, true] b

/-- A presence byte, and what follows it. -/
def ifPresent {α : Type} (x : Option α) (spelt : α → List Field) : List Field :=
  x.elim [.u8 0] fun v => .u8 1 :: spelt v

/-- A count byte, and the entries. -/
def counted {α : Type} (xs : List α) (spelt : α → List Field) : List Field :=
  .u8 xs.length :: (xs.map spelt).flatten

/-- A position in dm, along the runway or as a crane reports it (R1, section 8.1). -/
def dm (x : Int) : Field := ranged 0 65535 x

/-- A crane is named by one byte (R172). -/
def letterOf : CraneId → Field
  | .A => .u8 0x41
  | .B => .u8 0x42

/-- The code of a product table entry. -/
def productCode (g : Store) (i : Nat) : Field := .bytes (((product g i).map (·.code)).getD [])

/-- The settings by number with their ranges (section 1.3); of setting 22 the least and greatest listed rate, of 25 to 27
the first and last code. -/
def settingRanges : List (Nat × Int × Int) :=
  [(1, 10, 100), (2, -100, 0), (3, 30, 600), (4, 60, 3600), (5, 0, 10), (6, 1, 60), (7, 10, 150), (8, 0, 150),
   (9, 5, 120), (10, 0, 10), (11, 10, 150), (12, 50, 500), (13, 1, 20), (14, 30, 900), (15, 10, 300), (16, 2, 25),
   (17, 50, 500), (18, 2, 50), (19, 1, 8), (20, 1, 8), (21, 100, 5000), (22, 38400, 115200), (23, 19200, 230400),
   (24, 5, 100), (25, 0, 1), (26, 0, 2), (27, 0, 1)]

/-- READ PLANT (R16, R181). -/
def plantAnswer (g : Store) (p : Part) (cls index : Nat) : List Field :=
  if cls = 0 then
    [ranged 100 4000 g.runway, ranged 0 9999 g.boiler] ++
      settingRanges.map fun e => ranged e.2.1 e.2.2 ((g.plant.value e.1).getD 0)
  else if cls = 1 then ifPresent (Map.find g.beds index) fun b =>
    [dm b.xStart, dm b.xEnd] ++ counted b.zones fun z => [dm z.east, ranged 1 30 z.node, ranged 0 999 z.rating]
  else if cls = 2 then ifPresent (Map.find g.slots index) fun k =>
    [dm k.x, ranged 0 120000 k.massLimit, ranged 1 8 k.tierLimit, ranged 1 4 k.area]
  else if cls = 3 then ifPresent (Map.find g.areas index) fun node => [ranged 1 30 node]
  else if cls = 4 then ifPresent (Map.find g.bays index) fun x => [dm x]
  else if cls = 5 then ifPresent (if index = 0x41 then g.craneA else g.craneB) fun k => [ranged 1 30 k.node, dm k.home]
  else ifPresent (product g index) fun q =>
    [.bytes q.code, ranged 100 2000 q.strip, ranged 100 2000 q.ship, ranged 0 600 q.preset, ranged 50 350 q.rampRate,
     ranged 300 750 q.hold, ranged 50 350 q.coolRate, ranged 100 400 q.coolEnd, ranged 1 50 q.gain,
     setOrClear (decide ((∃ e ∈ p.bs.beds, e.2.product = some index) ∨ ∃ e ∈ p.sm.pieces, e.2.product = index))]

/-- Maturity in whole °C·h of an accumulator of tenth-°C·s (R60, R100). -/
def degreeHours (acc : Nat) : Field := ranged 0 119304 ((acc / 36000 : Nat) : Int)

/-- The least maturity of the zones a context includes (R60). -/
def bedDegreeHours (ctx : Context) : Field :=
  ranged 0 119304 ((((ctx.zones.filter fun z => !z.2.excluded).map fun z => z.2.acc / 36000).min?.getD 0 : Nat) : Int)

/-- READ BED (R36, R76). -/
def bedAnswer (g : Store) (p : Part) (bed : Nat) : List Field :=
  let b := bedOf p bed
  let ctx := if b.state ∈ [.curing, .ready, .stripping] then contextOf p bed else none
  [oneOf [.empty, .prepared, .pouring, .curing, .ready, .stripping, .rejected] b.state] ++
  ifPresent b.product (fun i => [productCode g i]) ++ ifPresent b.pour (fun n => [ranged 1 24 n]) ++
  ifPresent (if b.state = .curing then ctx else none)
    (fun c => [oneOf [.preset, .ramp, .hold, .cool, .finished] c.phase]) ++
  ifPresent b.gap (fun t => [ranged 0 120 ((t.left / 60000 : Nat) : Int)]) ++
  ifPresent ctx (fun c => bedDegreeHours c ::
    counted ((c.zones.filter fun z => z.2.excluded).map Prod.fst) fun k => [ranged 1 4 k]) ++
  ifPresent ctx fun c => ifPresent c.sp (fun t => [ranged (-400) 1250 t]) ++
    [ranged 0 3599 c.remainder, ranged 0 71582788 ((c.presetElapsed / 60 : Nat) : Int),
     ranged 0 65535 ((min 65535 (c.curingTime / 60) : Nat) : Int), setOrClear c.starved, ranged 0 60 c.starvedCount,
     setOrClear c.repairPending]

/-- The standing of a node, UNPOLLED where the address names none (section 9.3). -/
def standingNow (p : Part) (node : Nat) : Standing := ((nodeOf p node).map (·.standing)).getD .unpolled

/-- A standing's byte. -/
def standingField (p : Part) (node : Nat) : Field := oneOf [.unpolled, .alive, .lost] (standingNow p node)

/-- A stored value, its age, and the first condition of R43 that it fails now, or else VALID. -/
def readingAnswer (value : Option Int) (age limit : Nat) (lost : Bool) : List Field :=
  ifPresent value (fun v => [ranged (-32768) 32767 v]) ++
  [ranged 0 3600000 age,
   .u8 ([value.isNone, lost, value == some (-32768), value.any fun v => decide (v < -400 ∨ 1250 < v),
         decide (limit ≤ age)].idxOf true)]

/-- A zone's last result (R45, R46, R50). -/
def zoneResultAnswer : ZoneResult → List Field
  | .measured t .median => [.u8 1, ranged (-400) 1250 t, .u8 0]
  | .measured t (.pair outlier) => [.u8 1, ranged (-400) 1250 t, .u8 1, ranged 1 3 outlier]
  | .measured t .two => [.u8 1, ranged (-400) 1250 t, .u8 2]
  | .unmeasured reason => [.u8 0, oneOf [.tooFew, .disagree] reason]

/-- An area's last result (R49, R50). -/
def areaResultAnswer : AreaResult → List Field
  | .measured t => [.u8 1, ranged (-400) 1250 t]
  | .unmeasured cause => [.u8 0, oneOf [.noneReceived, .lost, .opened, .range, .stale, .valid] cause]

/-- READ ZONE of an area (R50). -/
def areaAnswer (p : Part) (area : Nat) : List Field :=
  let r := areaRecord p area
  ifPresent r.node (fun a => [ranged 1 30 a, standingField p a]) ++
  readingAnswer r.value r.age p.sm.timer.length (r.node.any fun a => standingNow p a == .lost) ++
  ifPresent r.result areaResultAnswer ++ [ranged 0 3600000 r.resultAge]

/-- READ ZONE of a zone whose records are `r`, `c` where its bed has a context, and `v` (R50, R76, R91). -/
def zoneAnswer (p : Part) (r : ZoneRecord) (c : Option ZoneCuring) (v : Valve) : List Field :=
  [ranged 1 30 r.node, standingField p r.node] ++
  ([r.probe1, r.probe2, r.probe3].map fun x =>
    readingAnswer x.value x.age p.cc.timer.length (standingNow p r.node == .lost)).flatten ++
  ifPresent r.echo (fun o => [ranged 0 100 o]) ++ ifPresent r.result zoneResultAnswer ++
  [ranged 0 3600000 r.resultAge] ++
  ifPresent c (fun z => [ranged 0 4294967295 z.acc, degreeHours z.acc] ++
    ifPresent z.held (fun t => [ranged (-400) 1250 t]) ++
    [ranged 0 10 z.heldCount, setOrClear z.lapsed, setOrClear z.unmeasuredSeen, setOrClear z.freezeEdge,
     setOrClear z.overEdge, ranged 0 100 z.demand, oneOf [.none, .frost, .hold, .ramp, .cool] z.cls,
     ranged 0 99900 z.request, ranged 0 99900 z.grant, setOrClear z.excluded]) ++
  [ranged 0 100 v.wanted] ++ ifPresent v.handed (fun n => [ranged 0 100 n]) ++ [setOrClear v.resend]

/-- A deviation entry (R33); of the kinds only OVER and STARVED are NOTE (section 2.8). -/
def deviationAnswer (d : Deviation) : List Field :=
  [oneOf [.short, .over, .freeze, .overtemp, .unmeasured, .starved, .zoneExcluded, .powerGap] d.kind,
   setOrClear (decide (d.kind = .over ∨ d.kind = .starved))] ++
  ifPresent d.zone (fun z => [ranged 1 4 z]) ++ [ranged (-32768) 32767 d.value, ranged 0 65535 d.minutes]

/-- READ POUR (R36, section 2.7). -/
def pourAnswer (g : Store) (n : Nat) (r : Pour) : List Field :=
  [ranged 1 24 n, ranged 1 6 r.bed, productCode g r.product, ranged 10 9999 r.planned, ranged 0 10148 r.delivered,
   ranged 0 255 r.batches, oneOf [.opened, .closed, .aborted] r.state] ++
  ifPresent r.cause (fun c => [oneOf [.volume, .ended, .gap, .power] c]) ++
  ifPresent r.seq (fun k => [ranged 1 4294967295 k]) ++ [setOrClear r.review] ++
  counted r.deviations deviationAnswer ++ [setOrClear r.overflow, ranged 0 16 r.count, setOrClear r.current]

/-- A piece's place: the kind of place, in the order of section 6.1, and its particulars. -/
def placeAnswer : Place → List Field
  | .bed b x => [.u8 0, ranged 1 6 b, dm x]
  | .slot n t => [.u8 1, ranged 1 48 n, ranged 1 8 t]
  | .hook c => [.u8 2, letterOf c]
  | .unlocated => [.u8 3]

/-- A condition's byte. -/
def conditionField (c : Condition) : Field := oneOf [.cast, .curing, .held, .shippable, .rejected] c

/-- READ PIECE (R115, section 6.1): on a bed the maturity is that of the piece's zone. -/
def pieceAnswer (g : Store) (p : Part) (mark : Nat) (q : Piece) : List Field :=
  let inZone (b : Nat) := (contextOf p b).bind fun c => q.zone.bind fun z => Map.find c.zones z
  [ranged 1 65535 mark, productCode g q.product, ranged 1 24 q.pour, ranged 50 4000 q.length, ranged 100 60000 q.mass] ++
  placeAnswer q.place ++ ifPresent q.zone (fun z => [ranged 1 4 z]) ++
  [conditionField q.condition, ranged 0 4294967295 q.acc] ++ ifPresent q.stripAcc (fun a => [ranged 0 4294967295 a]) ++
  ifPresent q.move (fun n => [ranged 1 255 n]) ++
  [setOrClear q.released,
   degreeHours (match q.place with | .bed b _ => ((inZone b).map (·.acc)).getD 0 | _ => q.acc),
   setOrClear (((pourOf p q.pour).map (·.review)).getD false),
   ranged 100 2000 ((((product g q.product).map (·.ship)).getD 0 : Nat) : Int)]

/-- READ SLOT (R115, section 6.2). -/
def slotAnswer (g : Store) (p : Part) (slot : Nat) : List Field :=
  let k := slotOf p slot
  let stacked := k.stack.filterMap fun mark => (pieceOf p mark).map fun q => (mark, q)
  plantAnswer g p 2 slot ++
  counted stacked (fun e => [ranged 1 65535 e.1, ranged 50 4000 e.2.length, ranged 100 60000 e.2.mass,
    conditionField e.2.condition] ++ ifPresent e.2.move fun n => [ranged 1 255 n]) ++
  [ranged 0 8 stacked.length, ranged 0 120000 (((stacked.map fun e => e.2.mass).sum : Nat) : Int)] ++
  ifPresent k.engaged (fun e => [ranged 1 255 e.1, oneOf [.source, .destination] e.2]) ++
  ifPresent k.lock fun n => [ranged 1 255 n]

/-- A reservation and its basis (R119, R136). -/
def reservationAnswer (r : Option Reservation) : List Field :=
  ifPresent r fun k => [dm k.lo, dm k.hi] ++ counted k.basis fun x => [dm x]

/-- A move record (section 7.1); its kind tells what its ends are (R118). -/
def moveAnswer (m : Move) : List Field :=
  [ranged 1 255 m.number, oneOf [.strip, .rehandle, .ship, .scrap, .park] m.kind] ++
  ifPresent m.piece (fun k => [ranged 1 65535 k]) ++
  (match m.source with
   | .bed b x => [ranged 1 6 b, dm x]
   | .slot n => [ranged 1 48 n]
   | .runway x => [dm x]) ++
  ifPresent m.dest (fun d => match d with
    | .slot n => [ranged 1 48 n]
    | .bay n => [ranged 1 2 n]
    | .home => []) ++
  ifPresent m.chain (fun n => [ranged 1 255 n]) ++ [oneOf [.queued, .dispatched, .suspended] m.state] ++
  ifPresent m.crane (fun c => [letterOf c]) ++
  ifPresent m.reason fun k =>
    [oneOf [.loadHigh, .loadLow, .held, .timeout, .driveFault, .nodeLost, .overrun, .overrunOther, .mode] k]

/-- READ MOVES, by page (R136, R181). -/
def movesAnswer (p : Part) (page : Nat) : List Field :=
  if page = 0 then
    reservationAnswer p.mp.resA ++ reservationAnswer p.mp.resB ++
      [ranged 0 32 ((32 - p.mp.queue.length : Nat) : Int), ranged 1 255 p.mp.counter, ranged 0 32 p.mp.queue.length,
       ranged 0 96 p.mp.backlog.length]
  else if page ≤ 2 then counted ((p.mp.queue.drop (16 * (page - 1))).take 16) moveAnswer
  else counted ((p.mp.backlog.drop (48 * (page - 3))).take 48) fun mark => [ranged 1 65535 mark]

/-- A field command: its code, and its data characters counted (section 9.2). -/
def commandAnswer : FieldCmd → List Field
  | .poll => [.u8 0x10, .u8 0]
  | .setValve opening => [.u8 0x21, .u8 1, .u8 (opening % 256)]
  | .goto x => [.u8 0x32, .u8 2, .u8 (x.toNat / 256 % 256), .u8 (x.toNat % 256)]
  | .takeUp => [.u8 0x43, .u8 0]
  | .lift => [.u8 0x44, .u8 0]
  | .lower => [.u8 0x45, .u8 0]
  | .stop => [.u8 0x5A, .u8 0]

/-- READ CRANE of a crane (R155, section 8.1). -/
def craneAnswer (g : Store) (p : Part) (c : CraneId) : List Field :=
  let r := craneOf p c
  [oneOf [.unlocated, .idle, .toSource, .takeUp, .lift, .toDest, .lower, .parking, .stopped, .outOfService] r.state,
   setOrClear r.slackening] ++
  ifPresent r.pos (fun x => [dm x]) ++ ifPresent r.hook (fun h => [oneOf [.up, .strained, .released] h]) ++
  ifPresent r.motion (fun m => [oneOf [.stopped, .moving] m]) ++ ifPresent r.driveFault (fun f => [setOrClear f]) ++
  [setOrClear r.fresh] ++ ifPresent r.move (fun n => [ranged 1 255 n]) ++ ifPresent r.dispatchPos (fun x => [dm x]) ++
  ifPresent r.stoppedStep (fun k => [oneOf [.toSource, .takeUp, .lift, .toDest, .lower, .parking] k]) ++
  ifPresent r.command (fun k => commandAnswer k.1 ++
    [.u8 (match k.2 with | .waiting => 0 | .queued => 1 | .carried _ => 2)]) ++
  ifPresent r.timer (fun t => [oneOf [.travel, .hook] t.1, ranged 0 900 ((t.2.left / 1000 : Nat) : Int)]) ++
  ifPresent r.reason (fun k =>
    [oneOf [.timeout, .driveFault, .nodeLost, .overrun, .overrunOther, .mode, .clearance] k]) ++
  ifPresent r.load (fun m => [ranged 1 65535 m]) ++ [ranged 0 8 r.faults] ++
  ifPresent (craneNode g c) (fun a => [standingField p a]) ++ reservationAnswer (reservationOf p c)

/-- The node kind, and the item that names the node (section 9.3). -/
def ownerAnswer : Owner → List Field
  | .zone b z => [.u8 0, ranged 1 6 b, ranged 1 4 z]
  | .area a => [.u8 1, ranged 1 4 a]
  | .crane c => [.u8 2, letterOf c]

/-- A directed entry's class (section 9.2). -/
def classField (cmd : FieldCmd) : Field :=
  .u8 (match cmd with | .goto _ => 1 | .takeUp => 2 | .lift => 2 | .lower => 2 | .stop => 3 | _ => 0)

/-- READ NODES, by page (R171, R181). -/
def nodesAnswer (p : Part) (page : Nat) : List Field :=
  let exchange (ex : Exchange) : List Field :=
    [ranged 1 30 ex.addr, oneOf [.stop, .directed, .motion, .round] ex.cls] ++ (commandAnswer ex.cmd).take 1 ++
    [ranged 1 2 ex.attempt, setOrClear ex.withdrawn]
  if page = 0 then
    counted p.fl.queue (fun e => [ranged 1 30 e.addr, classField e.cmd] ++ commandAnswer e.cmd ++
      [oneOf [.cc, .cs .A, .cs .B] e.by_]) ++
    ifPresent p.fl.line exchange ++ counted p.fl.waiting exchange ++
    [ranged 0 30 p.fl.roundPos, ranged 0 5000 (((p.fl.roundTimer.map (·.left)).getD 0 : Nat) : Int),
     setOrClear p.fl.pollA.isSome, setOrClear (decide (.A ∈ p.fl.due)), setOrClear p.fl.pollB.isSome,
     setOrClear (decide (.B ∈ p.fl.due))]
  else
    counted (p.fl.nodes.filter fun e => decide (10 * (page - 1) < e.1 ∧ e.1 ≤ 10 * page)) fun e =>
      [ranged 1 30 e.1] ++ ownerAnswer e.2.owner ++
      [oneOf [.unpolled, .alive, .lost] e.2.standing, ranged 0 8 e.2.misses] ++
      ifPresent e.2.lastCause (fun c => [oneOf [.timeout, .framing, .address, .gap, .length, .check, .content] c]) ++
      ifPresent e.2.lastReply (fun chars => counted chars fun b => [.u8 b]) ++ [ranged 0 3600000 e.2.age]

/-- READ STATUS (R91, R182). -/
def statusAnswer (g : Store) (p : Part) : List Field :=
  let a := p.cc.alloc
  let k := p.cl
  [ranged 0 9999 g.boiler] ++ ifPresent a.capacity (fun c => [ranged 0 999900 c]) ++
  [ranged 0 2397600 a.requested, ranged 0 2397600 a.granted, ranged 0 24 a.served, ranged 0 24 a.short] ++
  ifPresent a.partialZone (fun z => [ranged 1 6 z.1, ranged 1 4 z.2]) ++
  ifPresent a.last (fun e => [oneOf [.allocated, .withheld, .null] e]) ++
  [setOrClear a.heatShort, oneOf [.setup, .watch, .run] p.mc.mode, setOrClear p.mc.retained,
   oneOf [.powerUp, .resetPin, .restart] p.mc.startCause, ranged 19200 230400 k.rate, ranged 0 24 k.notices.length,
   setOrClear k.overflow, ranged 0 65535 k.lengthDiscards, ranged 0 65535 k.gapDiscards,
   ranged 0 65535 k.framingDiscards, ranged 0 65535 k.checkDiscards, ranged 0 65535 k.overruns,
   ranged 0 65535 k.dropped]

/-- The items that records name are there: every referenced product DEFINED (R9), every stacked mark live (section 6.2), and
no POLL among the directed commands (section 9.5). -/
abbrev referencesHold (s : State) : Prop :=
  (∀ e ∈ s.bs.beds, ∀ i, e.2.product = some i → (product s.store i).isSome) ∧
  (∀ e ∈ s.bs.pours, (product s.store e.2.product).isSome) ∧
  (∀ e ∈ s.sm.pieces, (product s.store e.2.product).isSome) ∧
  (∀ e ∈ s.sm.slots, ∀ mark ∈ e.2.stack, (pieceOf s.toPart mark).isSome) ∧ ∀ e ∈ s.fl.queue, e.cmd ≠ .poll

/-- The fields the read answers with from the records as they stand, where it answers. -/
def answerOf (s : State) : Instr → List Field
  | .readPlant _ cls index => plantAnswer s.store s.toPart cls index
  | .readBed _ bed => bedAnswer s.store s.toPart bed
  | .readZone _ bed zone =>
    if bed = 0 then areaAnswer s.toPart zone
    else (zoneRecord s.toPart bed zone).elim [] fun r =>
      zoneAnswer s.toPart r ((contextOf s.toPart bed).bind fun c => Map.find c.zones zone) (valveOf s.toPart bed zone)
  | .readPour _ pour => (pourOf s.toPart pour).elim [] (pourAnswer s.store pour)
  | .readPiece _ mark => (pieceOf s.toPart mark).elim [] (pieceAnswer s.store s.toPart mark)
  | .readSlot _ slot => slotAnswer s.store s.toPart slot
  | .readMoves _ page => movesAnswer s.toPart page
  | .readCrane _ crane => craneAnswer s.store s.toPart (if crane = 0x41 then .A else .B)
  | .readNodes _ page => nodesAnswer s.toPart page
  | .readStatus _ => statusAnswer s.store s.toPart
  | _ => []

/-- The bed a bed or pour request names (section 2.2). -/
def bedNamed : Instr → Option Nat
  | .prepare _ bed _ => some bed
  | .pourOrder _ bed _ _ _ => some bed
  | .batch _ bed _ => some bed
  | .pourEnd _ bed => some bed
  | .zoneOut _ bed _ => some bed
  | .detension _ bed => some bed
  | .clearBed _ bed => some bed
  | _ => none

/-- A bed request's first two checks pass: the mode is WATCH or RUN, and the bed is configured (R18). -/
abbrev bedOpen (s : State) (bed : Nat) : Prop :=
  s.mc.mode ≠ .setup ∧ 1 ≤ bed ∧ bed ≤ 6 ∧ (Map.find s.store.beds bed).isSome

/-- The characters of a frame as a plant computer sends them. -/
def asChars (bytes : List Nat) : List RxChar := bytes.map fun b => { data := b, framing := false }

end Sys2Proof.Machine
end

