-- ==== Sys2Proof/WellFormed.lean ====
section
/-! DEFINITION. Which commands a sender can spell: every field fits the bytes R172 gives it, every list fits a frame
of at most 240 payload bytes, and a reply that ended holds a character. The rules refuse or clamp what a request
carries INSIDE these widths; what lies outside them can reach no owner. -/

namespace Sys2Proof

/-- A number carried in one byte. -/
def isByte (n : Nat) : Bool := decide (n < 256)

/-- A number carried in two bytes. -/
def isWord (n : Nat) : Bool := decide (n < 65536)

/-- A number carried in four bytes. -/
def isLong (n : Nat) : Bool := decide (n < 4294967296)

/-- A product code is eight bytes (R172). -/
def isCode (code : List Nat) : Bool := decide (code.length = 8) && code.all isByte

/-- A value carried in four signed bytes (section 10.5, SET PLANT). -/
def isSignedLong (v : Int) : Bool := decide (-2147483648 ≤ v) && decide (v ≤ 2147483647)

def ZoneSpec.wf (z : ZoneSpec) : Bool := isWord z.east && isByte z.node && isWord z.rating

def PieceSpec.wf (e : PieceSpec) : Bool := isWord e.mark && isWord e.length && isWord e.mass && isWord e.x

def ProductSpec.wf (q : ProductSpec) : Bool :=
  isCode q.code && isWord q.strip && isWord q.ship && isWord q.preset && isWord q.rampRate && isWord q.hold &&
  isWord q.coolRate && isWord q.coolEnd && isByte q.gain

/-- A command whose fields fit their widths. -/
def Instr.wf : Instr → Bool
  | .powerUp => true
  | .resetPin => true
  | .frameReceived chars => chars.all fun ch => isByte ch.data
  | .interCharacterGap char => isByte char.data
  | .unknownKind tag kind payload => isByte tag && isByte kind && decide (payload.length ≤ 240) && payload.all isByte
  | .frameSent => true
  | .setRunway tag length => isByte tag && isWord length
  | .setBed tag bed xStart xEnd zones =>
    isByte tag && isByte bed && isWord xStart && isWord xEnd && decide (6 + 5 * zones.length ≤ 240) &&
    zones.all ZoneSpec.wf
  | .setSlot tag slot x massLimit tierLimit area =>
    isByte tag && isByte slot && isWord x && isLong massLimit && isByte tierLimit && isByte area
  | .setArea tag area node => isByte tag && isByte area && isByte node
  | .setBay tag bay x => isByte tag && isByte bay && isWord x
  | .setCrane tag crane node home => isByte tag && isByte crane && isByte node && isWord home
  | .setProduct tag index spec => isByte tag && isByte index && spec.wf
  | .clearProduct tag index => isByte tag && isByte index
  | .setPlant tag number value => isByte tag && isByte number && isSignedLong value
  | .setBoiler tag capacity => isByte tag && isWord capacity
  | .setMode tag mode => isByte tag && isByte mode
  | .restart tag => isByte tag
  | .prepare tag bed code => isByte tag && isByte bed && isCode code
  | .pourOrder tag bed code planned pieces =>
    isByte tag && isByte bed && isCode code && isWord planned && decide (12 + 8 * pieces.length ≤ 240) &&
    pieces.all PieceSpec.wf
  | .batch tag bed volume => isByte tag && isByte bed && isWord volume
  | .pourEnd tag bed => isByte tag && isByte bed
  | .gapTimerExpiry bed => decide (1 ≤ bed) && decide (bed ≤ 6)
  | .zoneOut tag bed zone => isByte tag && isByte bed && isByte zone
  | .detension tag bed => isByte tag && isByte bed
  | .clearBed tag bed => isByte tag && isByte bed
  | .ship tag mark bay => isByte tag && isWord mark && isByte bay
  | .scrap tag mark bay => isByte tag && isWord mark && isByte bay
  | .holdPiece tag mark => isByte tag && isWord mark
  | .releasePiece tag mark => isByte tag && isWord mark
  | .rejectPiece tag mark => isByte tag && isWord mark
  | .locate tag mark slot => isByte tag && isWord mark && isByte slot
  | .removePiece tag mark => isByte tag && isWord mark
  | .expedite tag move => isByte tag && isByte move
  | .cancelMove tag move => isByte tag && isByte move
  | .retryMove tag move => isByte tag && isByte move
  | .resumeCrane tag crane => isByte tag && isByte crane
  | .craneOut tag crane => isByte tag && isByte crane
  | .craneIn tag crane => isByte tag && isByte crane
  | .readPlant tag cls index => isByte tag && isByte cls && isByte index
  | .readBed tag bed => isByte tag && isByte bed
  | .readZone tag bed zone => isByte tag && isByte bed && isByte zone
  | .readPour tag pour => isByte tag && isByte pour
  | .readPiece tag mark => isByte tag && isWord mark
  | .readSlot tag slot => isByte tag && isByte slot
  | .readMoves tag page => isByte tag && isByte page
  | .readCrane tag crane => isByte tag && isByte crane
  | .readNodes tag page => isByte tag && isByte page
  | .readStatus tag => isByte tag
  | .curingIntervalExpiry => true
  | .yardIntervalExpiry => true
  | .stepTimerExpiry _ => true
  | .replyTimerExpiry => true
  | .replyComplete chars => !chars.isEmpty && chars.all fun ch => isByte ch.data
  | .roundTimerExpiry => true
  | .cranePollTimerExpiry _ => true
  | .mainPowerFails => true
  | .backupSupplyBelowThreshold => true

end Sys2Proof
end

