-- ==== Sys2Proof/Certificates/Slice0/Obligations.lean ====
section
/-! DEFINITION. The statements for the provers. A statement about a command says for every state what the command does,
what it answers, and what it leaves as it was; `becomes`, `settles`, `answered` and `told` of Safety.lean say the frame. -/

open Sys2Proof Sys2Proof.Machine

/-! ### Steps, resets and supplies -/

/-- A step takes the command at the front of the queue and runs it with the queue's rest. The queue of waiting commands is
the model's own (a DESIGN CHOICE, notes/assumptions/4.md). -/
def Obligations.StepRunsFront : Prop :=
  ∀ (c : Instr) (s : State) (rest : List Instr), s.pending = c :: rest → step s = exec c { s with pending := rest }

/-- The model's choice (notes/assumptions/1.md): a step on an empty queue is 1 ms while main power is present. The time left
on each running timer falls; the age of each probe value, area value, last result and last reply that is there rises to its
greatest value (R38, R166); nothing else changes. Without main power nothing changes at all. That the age of a last reply
which a node has not given does not rise is its choice too (notes/assumptions/26.md). -/
def Obligations.IdleStepPassesTime : Prop :=
  ∀ s : State, s.pending = [] →
    let falls (x : Timer) : Timer := { x with left := x.left - 1 }
    let older (there : Bool) (age : Nat) : Nat := if there then min 3600000 (age + 1) else age
    let probe (x : Probe) : Probe := { x with age := older x.value.isSome x.age }
    let crane (r : Crane) : Crane := { r with timer := r.timer.map fun x => (x.1, falls x.2) }
    (s.mc.power = false → step s = .next s) ∧
    (s.mc.power = true → ∃ t, step s = .next t ∧
      t = { s with
        bs := { s.bs with beds := t.bs.beds }
        cc := { s.cc with timer := falls s.cc.timer }
        tu := t.tu
        sm := { s.sm with timer := falls s.sm.timer }
        csA := crane s.csA
        csB := crane s.csB
        fl := { s.fl with nodes := t.fl.nodes, replyTimer := s.fl.replyTimer.map falls,
                          roundTimer := s.fl.roundTimer.map falls, pollA := s.fl.pollA.map falls,
                          pollB := s.fl.pollB.map falls } } ∧
      Map.keys t.bs.beds = Map.keys s.bs.beds ∧ Map.keys t.tu.zones = Map.keys s.tu.zones ∧
      Map.keys t.tu.areas = Map.keys s.tu.areas ∧ Map.keys t.fl.nodes = Map.keys s.fl.nodes ∧
      (∀ n, Map.find t.bs.beds n = (Map.find s.bs.beds n).map fun b => { b with gap := b.gap.map falls }) ∧
      (∀ k, Map.find t.tu.zones k = (Map.find s.tu.zones k).map fun r =>
        { r with probe1 := probe r.probe1, probe2 := probe r.probe2, probe3 := probe r.probe3,
                 resultAge := older r.result.isSome r.resultAge }) ∧
      (∀ a, Map.find t.tu.areas a = (Map.find s.tu.areas a).map fun r =>
        { r with age := older r.value.isSome r.age, resultAge := older r.result.isSome r.resultAge }) ∧
      (∀ a, Map.find t.fl.nodes a = (Map.find s.fl.nodes a).map fun nd =>
        { nd with age := older nd.lastReply.isSome nd.age }))

/-- Reset is a fresh part's store with every default of section 1.3, and a state in which every invariant of this file
holds. That no command is waiting is the model's choice: the queue is its own (a DESIGN CHOICE, notes/assumptions/4.md). -/
def Obligations.ResetValues : Prop :=
  State.reset.store.runway = 2400 ∧ State.reset.store.beds = [] ∧ State.reset.store.slots = [] ∧
  State.reset.store.areas = [] ∧ State.reset.store.bays = [] ∧ State.reset.store.craneA = none ∧
  State.reset.store.craneB = none ∧ State.reset.store.products = [] ∧ State.reset.store.boiler = 1200 ∧
  State.reset.store.lastMode = .setup ∧
  (List.range 28).map State.reset.store.plant.value =
    [none, some 30, some (-100), some 60, some 600, some 3, some 10, some 50, some 50, some 30, some 3, some 120,
     some 150, some 2, some 300, some 90, some 10, some 100, some 10, some 3, some 2, some 500, some 57600,
     some 115200, some 20, some 1, some 0, some 1] ∧
  State.reset.pending = [] ∧ State.reset.store.inRange ∧ cranesApart State.reset.toPart ∧
  movesSound State.reset.toPart ∧ curingSound State.reset.toPart ∧ linkSound State.reset.cl

/-- The first power-up of a part with a fresh store, whose retention indication is clear (R184), leaves exactly State.reset.
What State.reset holds by the model's choice is so left too: `backupHeld` set, and a start even where main power is already
present, are DESIGN CHOICES of notes/assumptions/3.md; the exchange number 0, `opened` set and no change noted, of
notes/assumptions/4.md; the count of ties, 0 as the premise has it, of notes/assumptions/5.md; the round's position 0 while
no address is named, of notes/assumptions/26.md. That STARTED is on the outgoing line already is DEDUCED
(notes/assumptions/8.md). -/
def Obligations.FreshPowerUpIsReset : Prop :=
  ∀ s : State, s.store = Store.fresh → s.mc.backupHeld = false → s.fl.ties = 0 →
    exec .powerUp s = .next { State.reset with pending := s.pending }

/-- Power-up, the reset pin and the end of a RESTART's reply act alike: what `startedAs` of Safety.lean says of the mode,
the node table and the first round, CC's valve and allocation records, MP's queue and backlog, both cranes, CL, and STARTED.
That STARTED and the first round's poll are on their lines at once is DEDUCED (notes/assumptions/8.md,
notes/assumptions/9.md). That a power-up is such a start also where main power is present already is a DESIGN CHOICE of
notes/assumptions/3.md, and so is that every start leaves `backupHeld` set; that a node without a last reply has age 0 is
one of notes/assumptions/26.md. -/
def Obligations.StartsAlike : Prop :=
  ∀ s : State,
    runsTo .powerUp s (fun t => startedAs s t .powerUp (retentionValid s.store s.mc.backupHeld)) ∧
    (s.mc.power = true → runsTo .resetPin s (fun t => startedAs s t .resetPin (decide (s.store.plant.retain = 1)))) ∧
    (endsRestart s → runsTo .frameSent s (fun t => startedAs s t .restart (decide (s.store.plant.retain = 1))))

/-- A start with retention not valid, by power-up, the reset pin or the end of RESTART's reply, clears every job record
(R186). That a power-up is such a start also where main power is present already is a DESIGN CHOICE of
notes/assumptions/3.md, as is the bit `backupHeld`, by which retention is judged. -/
def Obligations.StartClearsJobs : Prop :=
  ∀ (s : State) (c : Instr),
    (c = .powerUp ∧ ¬ (s.mc.backupHeld = true ∧ s.store.plant.retain = 1)) ∨
      (c = .resetPin ∧ s.mc.power = true ∧ s.store.plant.retain ≠ 1) ∨
      (c = .frameSent ∧ endsRestart s ∧ s.store.plant.retain ≠ 1) →
    runsTo c s fun t =>
      (∀ b, (bedOf t.toPart b).state = .empty ∧ (bedOf t.toPart b).product = none ∧ (bedOf t.toPart b).pour = none) ∧
      t.bs.pours = [] ∧ t.sm.pieces = [] ∧ (∀ n, (slotOf t.toPart n).stack = []) ∧ t.cc.contexts = [] ∧
      t.bs.seq = 1 ∧ t.store = s.store

/-- A start with retention valid, by power-up, the reset pin or the end of RESTART's reply, keeps the job records and
repairs them (R187). Each piece keeps its maturity and place, but a piece on a hook becomes UNLOCATED; its move field is
cleared, and then holds the number of its new STRIP move where the repair queues one (R135); each stack and the sequence
counter stay; each bed stays, but a POURING one becomes REJECTED. A context keeps its phase, setpoint, remainder and times,
and each zone its accumulator and exclusion; the rest is as opened, with repair pending in RAMP and COOL (R74). The pour of
a POURING bed is ABORTED with cause POWER and its pieces REJECTED; that of a CURING bed has POWER_GAP recorded (R34), and
its unreleased CURING and SHIPPABLE pieces become HELD where its review flag was clear (R102). The notices behind STARTED
say so, in the order of the beds; that STARTED itself is on the line already, and so not among the queued notices, is
DEDUCED (notes/assumptions/8.md). That a power-up is such a start also where main power is present already is a DESIGN
CHOICE of notes/assumptions/3.md, as is the bit `backupHeld`, by which retention is judged. -/
def Obligations.StartKeepsJobs : Prop :=
  ∀ (s : State) (c : Instr), s.store.plant.retain = 1 →
    (c = .powerUp ∧ s.mc.backupHeld = true) ∨ (c = .resetPin ∧ s.mc.power = true) ∨ (c = .frameSent ∧ endsRestart s) →
    let zone (z : ZoneCuring) : ZoneCuring := { ZoneCuring.opened with acc := z.acc, excluded := z.excluded }
    let context (k : Context) : Context :=
      { k with starved := false, starvedCount := 0, fresh := false,
               repairPending := decide (k.phase = .ramp ∨ k.phase = .cool),
               zones := k.zones.map fun e => (e.1, zone e.2) }
    let gap (bed : Nat) : Deviation :=
      { kind := .powerGap, zone := none, value := 0, minutes := ((contextOf s.toPart bed).map curingMinutes).getD 0 }
    let listed (bed : Nat) (o : Pour) := listDeviation (decide (s.store.plant.deviationMode = 1)) (gap bed) o.deviations
    runsTo c s fun t =>
      t.bs.seq = s.bs.seq ∧ (∀ n, (slotOf t.toPart n).stack = (slotOf s.toPart n).stack) ∧
      (∀ mark q, pieceOf s.toPart mark = some q →
        ∃ r, pieceOf t.toPart mark = some r ∧ r.product = q.product ∧ r.pour = q.pour ∧ r.length = q.length ∧
          r.mass = q.mass ∧ r.acc = q.acc ∧ r.stripAcc = q.stripAcc ∧ r.zone = q.zone ∧ r.released = q.released ∧
          r.place = (match q.place with | .hook _ => .unlocated | other => other)) ∧
      (∀ mark, pieceOf s.toPart mark = none → pieceOf t.toPart mark = none) ∧
      (∀ mark r, pieceOf t.toPart mark = some r →
        ((∀ m ∈ t.mp.queue, m.piece ≠ some mark) → r.move = none) ∧
        ((∃ m ∈ t.mp.queue, m.piece = some mark) → ∃ m ∈ t.mp.queue, m.piece = some mark ∧ r.move = some m.number)) ∧
      (∀ b r, Map.find s.bs.beds b = some r →
        (r.state ≠ .pouring → Map.find t.bs.beds b = some { r with gap := none }) ∧
        (∀ n o, r.state = .pouring → r.pour = some n → pourOf s.toPart n = some o →
          Map.find t.bs.beds b = some { r with state := .rejected, gap := none })) ∧
      (∀ b, contextOf t.toPart b = (contextOf s.toPart b).map context) ∧
      (oneBedAPour s →
        (∀ n, pourOf s.toPart n = none → pourOf t.toPart n = none) ∧
        (∀ n o, pourOf s.toPart n = some o →
          (∀ b ∈ s.bs.beds, b.2.pour = some n → b.2.state = .pouring →
            pourOf t.toPart n = some { o with state := .aborted, cause := some .power }) ∧
          (∀ b ∈ s.bs.beds, b.2.pour = some n → b.2.state = .curing →
            pourOf t.toPart n = some { o with review := true, deviations := (listed b.1 o).2,
                                              overflow := o.overflow || (listed b.1 o).1 != .appended }) ∧
          ((∀ b ∈ s.bs.beds, b.2.pour = some n → b.2.state ≠ .pouring ∧ b.2.state ≠ .curing) →
            pourOf t.toPart n = some o)) ∧
        (∀ mark q r, pieceOf s.toPart mark = some q → pieceOf t.toPart mark = some r →
          (∀ b ∈ s.bs.beds, b.2.pour = some q.pour → ∀ o, pourOf s.toPart q.pour = some o →
            (b.2.state = .pouring → mark ∈ o.order → r.condition = .rejected) ∧
            (b.2.state = .curing → r.condition =
              if o.review = false ∧ q.released = false ∧ (q.condition = .curing ∨ q.condition = .shippable) then .held
              else q.condition)) ∧
          ((∀ b ∈ s.bs.beds, b.2.pour = some q.pour → b.2.state ≠ .pouring ∧ b.2.state ≠ .curing) →
            r.condition = q.condition)) ∧
        t.cl.notices = s.bs.beds.flatMap fun b =>
          match b.2.state, b.2.pour.bind fun n => (pourOf s.toPart n).map fun o => (n, o) with
          | .pouring, some (n, o) => [.pourAborted b.1 n o.delivered o.batches .power]
          | .curing, some (n, o) => [.deviation b.1 n (gap b.1) (listed b.1 o).1]
          | _, _ => [])

/-- The loss of main power keeps the job records and the store (R15, R184) and loses every other record: no reading in TU;
the named nodes UNPOLLED and the field line idle with nothing queued; the valve records with no opening handed; no
allocation; no move, backlog or reservation; no engagement or dig lock; the cranes as at reset; CL empty; the two interval
timers at their lengths. That they take these reset values at once, with the mode, the start cause and the retained bit kept
in place, is a DESIGN CHOICE of notes/assumptions/3.md; so are, of the model's own fields, the exchange number, the bit that
lets FL begin (notes/assumptions/4.md), the count of ties, which stays (notes/assumptions/5.md), and the round position 0
(notes/assumptions/26.md). The loss of the backup supply after it loses the job records and keeps the store; that they are
cleared at that moment is a DESIGN CHOICE of notes/assumptions/3.md. That the loss of the backup supply does nothing while
main power is present, and that without main power no command but its return and that loss does anything, are DEDUCED in the
same entry. -/
def Obligations.SupplyLost : Prop :=
  ∀ s : State,
    (s.mc.power = true → runsTo .mainPowerFails s fun t =>
      t.mc = { s.mc with power := false } ∧ t.store = s.store ∧ t.pending = s.pending ∧ t.evt = .none ∧
      t.bs = { s.bs with beds := Map.mapRecords (fun _ b => { b with gap := none }) s.bs.beds } ∧
      t.cc.contexts = s.cc.contexts ∧ t.cc.alloc = .fresh ∧
      t.cc.timer = .start (s.store.plant.curingInterval.toNat * 1000) ∧
      (∀ z ∈ allZones s.store, Map.find t.cc.valves (zoneKey z.1 z.2.1) = some .fresh) ∧
      (∀ k v, Map.find t.cc.valves k = some v → v = .fresh ∧ ∃ z ∈ allZones s.store, k = zoneKey z.1 z.2.1) ∧
      t.tu = { zones := freshZoneRecords s.store, areas := freshAreaRecords s.store } ∧
      t.sm.pieces = s.sm.pieces ∧ t.sm.timer = .start (s.store.plant.yardInterval.toNat * 1000) ∧
      (∀ n, slotOf t.toPart n = { slotOf s.toPart n with engaged := none, lock := none }) ∧
      t.mp = { queue := [], counter := 1, backlog := [], resA := none, resB := none } ∧
      t.csA = .atReset ∧ t.csB = .atReset ∧
      t.fl = { FieldLink.fresh with nodes := t.fl.nodes, ties := s.fl.ties } ∧
      (∀ a nd, nodeOf t.toPart a = some nd → nd = .fresh nd.owner ∧ (a, nd.owner) ∈ namedItems s.store) ∧
      (∀ e ∈ namedItems s.store, (nodeOf t.toPart e.1).isSome) ∧
      t.cl = .fresh s.store.plant.commandLineRate.toNat) ∧
    (s.mc.power = false → runsTo .backupSupplyBelowThreshold s fun t =>
      t.mc = { s.mc with backupHeld := false } ∧ t.store = s.store ∧ t.pending = s.pending ∧
      t.bs = { beds := allVacant, pours := [], seq := 1 } ∧ t.cc = { s.cc with contexts := [] } ∧
      t.sm = { s.sm with pieces := [], slots := [] } ∧ t.tu = s.tu ∧ t.mp = s.mp ∧ t.csA = s.csA ∧ t.csB = s.csB ∧
      t.fl = s.fl ∧ t.cl = s.cl ∧ t.evt = s.evt) ∧
    (s.mc.power = true → exec .backupSupplyBelowThreshold s = .next s) ∧
    (s.mc.power = false → ∀ c, c ≠ .powerUp → c ≠ .backupSupplyBelowThreshold → exec c s = .next s)

/-! ### Modes -/

/-- SET MODE takes a mode already in force and a change to WATCH or RUN. A change to SETUP is taken where every bed is
EMPTY, PREPARED or REJECTED, the move queue empty, no piece on a hook and each crane IDLE, UNLOCATED or OUT_OF_SERVICE, and
refused with STATE elsewhere; an unknown code is RANGE (R183). On entry to SETUP every wanted opening becomes 0, and SET
VALVE 0 is offered to every zone whose node is not LOST and whose handed opening is absent or above 0, or whose resend flag
is set (R88); the move queue, the stock and the cranes stay. -/
def Obligations.SetModeResult : Prop :=
  ∀ (s : State) (tag mode : Nat), ready s →
    let quiet := (∀ e ∈ s.bs.beds, e.2.state = .empty ∨ e.2.state = .prepared ∨ e.2.state = .rejected) ∧
      s.mp.queue = [] ∧ (∀ e ∈ s.sm.pieces, ∀ c, e.2.place ≠ .hook c) ∧
      ∀ c, (craneOf s.toPart c).state = .idle ∨ (craneOf s.toPart c).state = .unlocated ∨
        (craneOf s.toPart c).state = .outOfService
    (2 < mode → runsTo (.setMode tag mode) s fun t => refusedWith s t 0x0E tag .range) ∧
    (∀ m, modeOfCode mode = some m →
      (m ≠ s.mc.mode → m = .setup → ¬ quiet →
        runsTo (.setMode tag mode) s fun t => refusedWith s t 0x0E tag .state) ∧
      (m = s.mc.mode ∨ m ≠ .setup ∨ quiet →
        runsTo (.setMode tag mode) s fun t =>
          t.store = { s.store with lastMode := m } ∧ t.mc = { s.mc with mode := m } ∧ t.bs = s.bs ∧ t.tu = s.tu ∧
          t.cc.contexts = s.cc.contexts ∧ t.cc.alloc = s.cc.alloc ∧ t.sm.pieces = s.sm.pieces ∧
          t.pending = s.pending ∧ answered s t 0x0E tag .ok [] .nothing ∧
          (m = s.mc.mode ∨ (s.mc.mode = .setup ∧ m = .watch) →
            becomes s t { s.store with lastMode := m } { s.toPart with mc := { s.mc with mode := m } } ∧ told s t []) ∧
          (m ≠ s.mc.mode → m = .setup → t.sm = s.sm ∧ t.mp = s.mp ∧ told s t [] ∧ t.cc.timer = s.cc.timer ∧
            craneCore t.csA = craneCore s.csA ∧ craneCore t.csB = craneCore s.csB ∧
            (∀ k v, Map.find t.cc.valves k = some v → v.wanted = 0) ∧
            ∀ bed zone v, zone ≤ 4 → Map.find s.cc.valves (zoneKey bed zone) = some v →
              ∃ w, Map.find t.cc.valves (zoneKey bed zone) = some w ∧ w.wanted = 0 ∧ valveServed s t bed zone v w)))

/-- A change from RUN to WATCH stops each crane that works a move, with reason MODE and its load as it was, a STOP offered
for its node (R145, R154), and leaves the other cranes as they were. -/
def Obligations.LeavingRunStopsCranes : Prop :=
  ∀ (s : State) (tag : Nat), ready s → s.mc.mode = .run →
    runsTo (.setMode tag 1) s fun t =>
      t.mc.mode = .watch ∧
      ∀ c : CraneId,
        if (stepOf (craneOf s.toPart c).state).isSome ∧ (craneOf s.toPart c).move.isSome then
          stopSent s t c ∧ (craneOf t.toPart c).state = .stopped ∧ (craneOf t.toPart c).reason = some .mode ∧
          (craneOf t.toPart c).move = (craneOf s.toPart c).move ∧
          (craneOf t.toPart c).load = (craneOf s.toPart c).load ∧ (craneOf t.toPart c).pos = (craneOf s.toPart c).pos ∧
          (craneOf t.toPart c).stoppedStep = stepOf (craneOf s.toPart c).state
        else craneCore (craneOf t.toPart c) = craneCore (craneOf s.toPart c)

/-- RESTART is answered OK in every mode and changes no block; CL then hands on no request (R180); that it drops each with
no reply and no place is DEDUCED (notes/assumptions/10.md). That a request in the other place whose reply is already queued
keeps its place and that reply, where R180 drops a request held there without a reply, is the model's choice
(notes/assumptions/27.md). -/
def Obligations.RestartIsLast : Prop :=
  ∀ (s : State) (tag : Nat),
    (ready s → runsTo (.restart tag) s fun t =>
      becomes s t s.store s.toPart ∧ t.cl.restarting = true ∧ sameReceiver s t ∧ told s t [] ∧
      t.cl.places = s.cl.places ++ [(0x0F, tag)] ∧
      unsent t.cl = unsent s.cl ++ [{ kind := 0x0F, tag := tag, status := .ok, fields := [], after := .restart }]) ∧
    (∀ c h, requestHead c = some h → s.mc.power = true → s.cl.restarting = true → s.cl.places.length < 2 →
      exec c s = .next s)

/-- Settings requests but SET BOILER are refused with MODE outside SETUP; bed, transport and crane requests are refused
with MODE in SETUP; outside SETUP a bed request that names no configured bed is refused with RANGE. -/
def Obligations.ModeRefusals : Prop :=
  ∀ (s : State) (c : Instr) (kind tag : Nat), ready s → requestHead c = some (kind, tag) →
    ((kind ≤ 0x09 ∧ s.mc.mode ≠ .setup) ∨
        ((0x10 ≤ kind ∧ kind ≤ 0x21 ∨ 0x2C ≤ kind ∧ kind ≤ 0x2E) ∧ s.mc.mode = .setup) →
      runsTo c s fun t => refusedWith s t kind tag .mode) ∧
    (∀ bed, bedNamed c = some bed → s.mc.mode ≠ .setup → ¬ bedOpen s bed →
      runsTo c s fun t => refusedWith s t kind tag .range)

/-! ### Settings -/

/-- SET RUNWAY clamps the length, keeps every configured position, basis point and the order of the reservations, and
recomputes both reservations from their bases; otherwise RANGE. -/
def Obligations.SetRunwayResult : Prop :=
  ∀ (s : State) (tag length : Nat), ready s → s.mc.mode = .setup →
    let taken := clampInt 100 4000 length
    let h : Store := { s.store with runway := taken }
    let fitting := (∀ x ∈ configuredPositions s.store, x ≤ taken) ∧ (∀ x ∈ basisPoints s.toPart, x ≤ taken) ∧
      ordered (s.mp.resA.map fun r => stretch h r.basis) (s.mp.resB.map fun r => stretch h r.basis) = true
    (fitting → runsTo (.setRunway tag length) s fun t =>
      becomes s t h { s.toPart with mp := { s.mp with resA := s.mp.resA.map (fun r => stretch h r.basis),
                                                      resB := s.mp.resB.map (fun r => stretch h r.basis) } } ∧
      answered s t 0x01 tag (if taken = length then .ok else .clamped) [] .nothing ∧ told s t []) ∧
    (¬ fitting → runsTo (.setRunway tag length) s fun t => refusedWith s t 0x01 tag .range)

/-- SET BED of an EMPTY bed replaces its geometry as a whole; TU's record and CC's valve record of a zone that keeps its
number and address stay, a new or readdressed zone's are fresh, a removed zone's go, and FL's node table follows; directed
commands queued for an address no longer named are removed (R8, R170). A count, an address or a geometry that R3 and R4 do
not allow is RANGE, a bed in use STATE, an address in use by another item DUPLICATE. The model's choices: count 0 is taken
also for an unconfigured bed, and the addresses of the bed's own zones are in use by no other item
(notes/assumptions/21.md); an address that passes between zones enters the node table afresh (notes/assumptions/20.md), and
a new entry has age 0 (notes/assumptions/26.md). -/
def Obligations.SetBedResult : Prop :=
  ∀ (s : State) (tag bed xStart xEnd : Nat) (zones : List ZoneSpec), ready s → s.mc.mode = .setup →
    let inside := (1 ≤ bed ∧ bed ≤ 6) ∧ zones.length ≤ 4 ∧ ∀ z ∈ zones, z.node ≤ 30
    let geometry := xStart < xEnd ∧ (xEnd : Int) ≤ s.store.runway ∧ (∀ z ∈ zones, xStart ≤ z.east ∧ 1 ≤ z.node) ∧
      (zones.map (·.east)).Pairwise (· < ·) ∧ zones.getLast?.map (·.east) = some xEnd
    let unused := (zones.map (·.node)).Nodup ∧
      ∀ z ∈ zones, ∀ e ∈ namedItems s.store, e.1 = z.node → ∃ k, e.2 = .zone bed k
    (¬ inside → runsTo (.setBed tag bed xStart xEnd zones) s fun t => refusedWith s t 0x02 tag .range) ∧
    (inside → (bedOf s.toPart bed).state ≠ .empty →
      runsTo (.setBed tag bed xStart xEnd zones) s fun t => refusedWith s t 0x02 tag .state) ∧
    (inside → (bedOf s.toPart bed).state = .empty → zones ≠ [] → ¬ geometry →
      runsTo (.setBed tag bed xStart xEnd zones) s fun t => refusedWith s t 0x02 tag .range) ∧
    (inside → (bedOf s.toPart bed).state = .empty → zones ≠ [] → geometry → ¬ unused →
      runsTo (.setBed tag bed xStart xEnd zones) s fun t => refusedWith s t 0x02 tag .duplicate) ∧
    (inside → (bedOf s.toPart bed).state = .empty → zones = [] ∨ (geometry ∧ unused) →
      runsTo (.setBed tag bed xStart xEnd zones) s fun t =>
        (t.store = if zones = [] then { s.store with beds := Map.del s.store.beds bed }
          else { s.store with
                 beds := Map.put s.store.beds bed { xStart := xStart, xEnd := xEnd, zones := zones.map zoneTaken } }) ∧
        answered s t 0x02 tag (if zones.any fun z => decide (999 < z.rating) then .clamped else .ok) [] .nothing ∧
        told s t [] ∧ t.mc = s.mc ∧ t.bs = s.bs ∧ t.sm = s.sm ∧ t.mp = s.mp ∧ t.tu.areas = s.tu.areas ∧
        t.cc.contexts = s.cc.contexts ∧ t.cc.alloc = s.cc.alloc ∧ t.cc.timer = s.cc.timer ∧
        craneCore t.csA = craneCore s.csA ∧ craneCore t.csB = craneCore s.csB ∧ t.pending = s.pending ∧
        t.fl.nodes = namedTable t.store s.toPart ∧ linkFollows s t ∧
        ∀ b k, 1 ≤ k → k ≤ 4 →
          (b ≠ bed → zoneRecord t.toPart b k = zoneRecord s.toPart b k ∧
            Map.find t.cc.valves (zoneKey b k) = Map.find s.cc.valves (zoneKey b k)) ∧
          (zones.length < k → zoneRecord t.toPart bed k = none ∧ Map.find t.cc.valves (zoneKey bed k) = none) ∧
          (∀ z, zones[k - 1]? = some z →
            zoneRecord t.toPart bed k = some (if hadNode (zonesOf s.store bed) k z.node then
              (zoneRecord s.toPart bed k).getD (.fresh z.node) else .fresh z.node) ∧
            Map.find t.cc.valves (zoneKey bed k) = some (if hadNode (zonesOf s.store bed) k z.node then
              (Map.find s.cc.valves (zoneKey bed k)).getD .fresh else .fresh)))

/-- SET SLOT takes a record for an empty slot whole, and for a slot holding pieces only one that keeps x and area and still
carries the stack; SET BAY takes a position on the runway. Otherwise RANGE. -/
def Obligations.SetSlotAndBayResult : Prop :=
  ∀ (s : State) (tag : Nat), ready s → s.mc.mode = .setup →
    (∀ slot x massLimit tierLimit area : Nat,
      let cfg : SlotCfg :=
        { x := x, massLimit := min 120000 massLimit, tierLimit := max 1 (min 8 tierLimit), area := area }
      let stack := (slotOf s.toPart slot).stack
      let fitting := (1 ≤ slot ∧ slot ≤ 48) ∧ (1 ≤ area ∧ area ≤ 4) ∧ (x : Int) ≤ s.store.runway ∧
        (stack = [] ∨ ((∃ old, Map.find s.store.slots slot = some old ∧ old.x = cfg.x ∧ old.area = cfg.area) ∧
          stack.length ≤ cfg.tierLimit ∧ stackMass s.toPart stack ≤ cfg.massLimit))
      (fitting → runsTo (.setSlot tag slot x massLimit tierLimit area) s fun t =>
        becomes s t { s.store with slots := Map.put s.store.slots slot cfg } s.toPart ∧ told s t [] ∧
        answered s t 0x03 tag (if cfg.massLimit = massLimit ∧ cfg.tierLimit = tierLimit then .ok else .clamped) []
          .nothing) ∧
      (¬ fitting → runsTo (.setSlot tag slot x massLimit tierLimit area) s fun t => refusedWith s t 0x03 tag .range)) ∧
    (∀ bay x : Nat,
      ((1 ≤ bay ∧ bay ≤ 2) ∧ (x : Int) ≤ s.store.runway → runsTo (.setBay tag bay x) s fun t =>
        becomes s t { s.store with bays := Map.put s.store.bays bay x } s.toPart ∧ told s t [] ∧
        answered s t 0x05 tag .ok [] .nothing) ∧
      (¬ ((1 ≤ bay ∧ bay ≤ 2) ∧ (x : Int) ≤ s.store.runway) →
        runsTo (.setBay tag bay x) s fun t => refusedWith s t 0x05 tag .range))

/-- SET AREA names or clears an area's yard node; a changed address, and a request that clears the area, discard its reading
and its last result; an address in use by another item is DUPLICATE, one outside 0..30 RANGE. Directed commands queued for
an address no longer named are removed (R8, R170). That an address which passes from another item enters the node table
afresh is DEDUCED (notes/assumptions/20.md), and the age 0 of a new entry is the model's choice
(notes/assumptions/26.md). -/
def Obligations.SetAreaResult : Prop :=
  ∀ (s : State) (tag area node : Nat), ready s → s.mc.mode = .setup →
    let used := node ≠ 0 ∧ ∃ e ∈ namedItems s.store, e.1 = node ∧ e.2 ≠ .area area
    let inside := 1 ≤ area ∧ area ≤ 4 ∧ node ≤ 30
    (¬ inside → runsTo (.setArea tag area node) s fun t => refusedWith s t 0x04 tag .range) ∧
    (inside → used → runsTo (.setArea tag area node) s fun t => refusedWith s t 0x04 tag .duplicate) ∧
    (inside → ¬ used → runsTo (.setArea tag area node) s fun t =>
      (t.store = if node = 0 then { s.store with areas := Map.del s.store.areas area }
        else { s.store with areas := Map.put s.store.areas area node }) ∧
      answered s t 0x04 tag .ok [] .nothing ∧ told s t [] ∧
      t.mc = s.mc ∧ t.bs = s.bs ∧ t.cc = s.cc ∧ t.sm = s.sm ∧ t.mp = s.mp ∧ t.tu.zones = s.tu.zones ∧
      craneCore t.csA = craneCore s.csA ∧ craneCore t.csB = craneCore s.csB ∧ t.pending = s.pending ∧
      t.fl.nodes = namedTable t.store s.toPart ∧ linkFollows s t ∧
      (∀ a, a ≠ area → areaRecord t.toPart a = areaRecord s.toPart a) ∧
      areaRecord t.toPart area =
        if node ≠ 0 ∧ (areaRecord s.toPart area).node = some node then areaRecord s.toPart area
        else .fresh (areaNode node))

/-- SET CRANE configures a crane; a changed address makes it UNLOCATED with no reservation, an unchanged one leaves its
record. A byte that names no crane, homes too close or off the runway, and addresses outside 1..30, are RANGE; a used
address is DUPLICATE. Directed commands queued for an address no longer named are removed (R8, R170). That an address which
passes from another item enters the node table afresh is DEDUCED (notes/assumptions/20.md), and the age 0 of a new entry is
the model's choice (notes/assumptions/26.md). -/
def Obligations.SetCraneResult : Prop :=
  ∀ (s : State) (tag crane node home : Nat), ready s → s.mc.mode = .setup →
    (crane ≠ 0x41 → crane ≠ 0x42 → runsTo (.setCrane tag crane node home) s fun t => refusedWith s t 0x06 tag .range) ∧
    ∀ c : CraneId, (crane = 0x41 ∧ c = .A) ∨ (crane = 0x42 ∧ c = .B) →
    let h := withCrane s.store c { node := node, home := home }
    let used := ∃ e ∈ namedItems s.store, e.1 = node ∧ e.2 ≠ .crane c
    let inside := 1 ≤ node ∧ node ≤ 30 ∧ (home : Int) ≤ s.store.runway ∧ homesApart h s.store.plant.clearance = true
    (¬ inside → runsTo (.setCrane tag crane node home) s fun t => refusedWith s t 0x06 tag .range) ∧
    (inside → used → runsTo (.setCrane tag crane node home) s fun t => refusedWith s t 0x06 tag .duplicate) ∧
    (inside → ¬ used → runsTo (.setCrane tag crane node home) s fun t =>
      t.store = h ∧ answered s t 0x06 tag .ok [] .nothing ∧ told s t [] ∧
      t.mc = s.mc ∧ t.bs = s.bs ∧ t.cc = s.cc ∧ t.tu = s.tu ∧ t.sm = s.sm ∧ t.pending = s.pending ∧
      t.mp.queue = s.mp.queue ∧ t.mp.counter = s.mp.counter ∧ t.mp.backlog = s.mp.backlog ∧
      t.fl.nodes = namedTable h s.toPart ∧ linkFollows s t ∧
      reservationOf t.toPart (otherCrane c) = reservationOf s.toPart (otherCrane c) ∧
      craneCore (craneOf t.toPart (otherCrane c)) = craneCore (craneOf s.toPart (otherCrane c)) ∧
      (craneNode s.store c = some node → reservationOf t.toPart c = reservationOf s.toPart c ∧
        craneCore (craneOf t.toPart c) = craneCore (craneOf s.toPart c)) ∧
      (craneNode s.store c ≠ some node → reservationOf t.toPart c = none ∧ craneOf t.toPart c = .atReset))

/-- SET PRODUCT defines an entry that nothing references, its fields clamped and brought into agreement; CLEAR PRODUCT makes
such an entry UNUSED. A referenced entry, and clearing an UNUSED one, is STATE; an index outside 1..16 is RANGE. -/
def Obligations.ProductResult : Prop :=
  ∀ (s : State) (tag index : Nat) (q : ProductSpec), ready s → s.mc.mode = .setup →
    (¬ (1 ≤ index ∧ index ≤ 16) →
      (runsTo (.setProduct tag index q) s fun t => refusedWith s t 0x07 tag .range) ∧
      (runsTo (.clearProduct tag index) s fun t => refusedWith s t 0x08 tag .range)) ∧
    (1 ≤ index → index ≤ 16 →
    ((product s.store index).isSome → referenced s.toPart index = true →
      (runsTo (.setProduct tag index q) s fun t => refusedWith s t 0x07 tag .state) ∧
      (runsTo (.clearProduct tag index) s fun t => refusedWith s t 0x08 tag .state)) ∧
    ((product s.store index) = none → runsTo (.clearProduct tag index) s fun t => refusedWith s t 0x08 tag .state) ∧
    ((product s.store index).isSome → referenced s.toPart index = false → runsTo (.clearProduct tag index) s fun t =>
      becomes s t { s.store with products := Map.del s.store.products index } s.toPart ∧ told s t [] ∧
      answered s t 0x08 tag .ok [] .nothing) ∧
    ((product s.store index) = none ∨ referenced s.toPart index = false →
      (isProductCode q.code = false → runsTo (.setProduct tag index q) s fun t => refusedWith s t 0x07 tag .range) ∧
      (isProductCode q.code = true → (∃ e ∈ s.store.products, e.2.code = q.code ∧ e.1 ≠ index) →
        runsTo (.setProduct tag index q) s fun t => refusedWith s t 0x07 tag .duplicate) ∧
      (isProductCode q.code = true → (∀ e ∈ s.store.products, e.2.code = q.code → e.1 = index) →
        ∀ d : Product, d.code = q.code → d.strip = max 100 (min 2000 q.strip) →
          d.ship = min 2000 (max d.strip q.ship) → d.preset = min 600 q.preset →
          d.rampRate = max 50 (min 350 q.rampRate) → d.hold = (max 300 (min 750 q.hold) : Nat) →
          d.coolRate = max 50 (min 350 q.coolRate) →
          d.coolEnd = min ((max 100 (min 400 q.coolEnd) : Nat) : Int) (d.hold - 1) →
          d.gain = max 1 (min 50 q.gain) →
          runsTo (.setProduct tag index q) s fun t =>
            becomes s t { s.store with products := Map.put s.store.products index d } s.toPart ∧ told s t [] ∧
            answered s t 0x07 tag (if d.strip = q.strip ∧ d.ship = q.ship ∧ d.preset = q.preset ∧
              d.rampRate = q.rampRate ∧ d.hold = q.hold ∧ d.coolRate = q.coolRate ∧ d.coolEnd = q.coolEnd ∧
              d.gain = q.gain then .ok else .clamped) [] .nothing)))

/-- SET PLANT changes one setting: clamped, or the nearest listed rate, or a listed code; a clearance is checked against
homes and reservations and recomputes the reservations. Otherwise RANGE. So 47,000 becomes 38,400 and 200,000 becomes
115,200. The first clauses give what a value becomes by the ranges and codes of section 1.3, `settingRanges` of Safety.lean.
That an unchanged command line rate takes no effect at the reply's end is DEDUCED (notes/assumptions/10.md). -/
def Obligations.SetPlantResult : Prop :=
  (∀ e ∈ settingRanges, ∀ v : Int,
    (e.1 ≤ 21 ∨ e.1 = 23 ∨ e.1 = 24 → settingTaken e.1 v =
      some (if v < e.2.1 then e.2.1 else if e.2.2 < v then e.2.2 else v)) ∧
    (25 ≤ e.1 → settingTaken e.1 v = if e.2.1 ≤ v ∧ v ≤ e.2.2 then some v else none)) ∧
  (∀ v : Int, settingTaken 22 v = some (nearestRate v)) ∧
  settingTaken 22 47000 = some 38400 ∧ settingTaken 22 200000 = some 115200 ∧
  (∀ v : Int, (nearestRate v = 38400 ∨ nearestRate v = 57600 ∨ nearestRate v = 115200) ∧
    ∀ r : Int, r = 38400 ∨ r = 57600 ∨ r = 115200 →
      distance v (nearestRate v) < distance v r ∨ (distance v (nearestRate v) = distance v r ∧ nearestRate v ≤ r)) ∧
  ∀ (s : State) (tag number : Nat) (value : Int), ready s → s.mc.mode = .setup →
    (¬ (1 ≤ number ∧ number ≤ 27) ∨ settingTaken number value = none →
      runsTo (.setPlant tag number value) s fun t => refusedWith s t 0x09 tag .range) ∧
    (1 ≤ number → number ≤ 27 → ∀ taken, settingTaken number value = some taken →
      let h : Store := { s.store with plant := s.store.plant.change number taken }
      let fitting := number = 12 → homesApart s.store taken = true ∧
        ordered (s.mp.resA.map fun r => stretch h r.basis) (s.mp.resB.map fun r => stretch h r.basis) = true
      (¬ fitting → runsTo (.setPlant tag number value) s fun t => refusedWith s t 0x09 tag .range) ∧
      (fitting → runsTo (.setPlant tag number value) s fun t =>
        becomes s t h (if number = 12 then
          { s.toPart with mp := { s.mp with resA := s.mp.resA.map (fun r => stretch h r.basis),
                                            resB := s.mp.resB.map (fun r => stretch h r.basis) } } else s.toPart) ∧
        told s t [] ∧ h.plant.value number = some taken ∧
        (∀ k, k ≠ number → h.plant.value k = s.store.plant.value k) ∧
        answered s t 0x09 tag (if taken = value then .ok else .clamped) []
          (if number = 23 ∧ s.store.plant.commandLineRate ≠ taken then .newRate taken.toNat else .nothing)))

/-- SET BOILER is taken in every mode, clamped to 9999, and changes nothing else. -/
def Obligations.SetBoilerResult : Prop :=
  ∀ (s : State) (tag capacity : Nat), ready s →
    runsTo (.setBoiler tag capacity) s fun t =>
      becomes s t { s.store with boiler := min 9999 capacity } s.toPart ∧ told s t [] ∧
      answered s t 0x0A tag (if capacity ≤ 9999 then .ok else .clamped) [] .nothing

/-! ### Beds and pours -/

/-- PREPARE of an EMPTY or PREPARED bed: the bed is PREPARED for the product with the code, and nothing else changes. Any
other state is STATE, an unknown code UNKNOWN. -/
def Obligations.PrepareResult : Prop :=
  ∀ (s : State) (tag bed : Nat) (code : List Nat), ready s → bedOpen s bed →
    let taking := (bedOf s.toPart bed).state = .empty ∨ (bedOf s.toPart bed).state = .prepared
    (¬ taking → runsTo (.prepare tag bed code) s fun t => refusedWith s t 0x10 tag .state) ∧
    (taking → productByCode s.store code = none →
      runsTo (.prepare tag bed code) s fun t => refusedWith s t 0x10 tag .unknown) ∧
    (taking → ∀ i q, productByCode s.store code = some (i, q) → runsTo (.prepare tag bed code) s fun t =>
      becomes s t s.store { s.toPart with bs := { s.bs with
        beds := Map.put s.bs.beds bed { bedOf s.toPart bed with state := .prepared, product := some i } } } ∧
      answered s t 0x10 tag .ok [] .nothing ∧ told s t [])

/-- POUR ORDER on a PREPARED bed opens the free pour record with the lowest number, creates one CAST piece an entry in the
zone that contains its x, and makes the bed POURING. An order that fails a check of R20 is refused by the first it fails:
STATE, MISMATCH, RANGE, DUPLICATE, FULL. -/
def Obligations.PourOrderResult : Prop :=
  ∀ (s : State) (tag bed planned : Nat) (code : List Nat) (pieces : List PieceSpec) (cfg : BedCfg),
    ready s → bedOpen s bed → Map.find s.store.beds bed = some cfg →
    let ranges := (10 ≤ planned ∧ planned ≤ 9999) ∧ (1 ≤ pieces.length ∧ pieces.length ≤ 16) ∧ ∀ e ∈ pieces,
      (1 ≤ e.mark ∧ e.mark ≤ 65535) ∧ (50 ≤ e.length ∧ e.length ≤ 4000) ∧ (100 ≤ e.mass ∧ e.mass ≤ 60000) ∧
      cfg.xStart ≤ e.x ∧ (e.x : Int) ≤ cfg.xEnd
    let marks := (pieces.map (·.mark)).Nodup ∧ ∀ e ∈ pieces, pieceOf s.toPart e.mark = none
    let lowest (n : Nat) := (1 ≤ n ∧ n ≤ 24) ∧ pourOf s.toPart n = none ∧
      ∀ k, 1 ≤ k → k < n → (pourOf s.toPart k).isSome
    ((bedOf s.toPart bed).state ≠ .prepared →
      runsTo (.pourOrder tag bed code planned pieces) s fun t => refusedWith s t 0x11 tag .state) ∧
    ((bedOf s.toPart bed).state = .prepared →
      (∀ i q, (bedOf s.toPart bed).product = some i → product s.store i = some q → q.code ≠ code) →
      runsTo (.pourOrder tag bed code planned pieces) s fun t => refusedWith s t 0x11 tag .mismatch) ∧
    ∀ i q, (bedOf s.toPart bed).state = .prepared → (bedOf s.toPart bed).product = some i →
      product s.store i = some q → q.code = code →
      (¬ ranges → runsTo (.pourOrder tag bed code planned pieces) s fun t => refusedWith s t 0x11 tag .range) ∧
      (ranges → ¬ marks →
        runsTo (.pourOrder tag bed code planned pieces) s fun t => refusedWith s t 0x11 tag .duplicate) ∧
      (ranges → marks → 480 < s.sm.pieces.length + pieces.length ∨
          (∀ k, 1 ≤ k → k ≤ 24 → (pourOf s.toPart k).isSome) →
        runsTo (.pourOrder tag bed code planned pieces) s fun t => refusedWith s t 0x11 tag .full) ∧
      (ranges → marks → s.sm.pieces.length + pieces.length ≤ 480 → ∀ n, lowest n →
        runsTo (.pourOrder tag bed code planned pieces) s fun t =>
          becomes s t s.store { s.toPart with
            bs := { s.bs with
              beds := Map.put s.bs.beds bed { bedOf s.toPart bed with state := .pouring, pour := some n }
              pours := Map.put s.bs.pours n
                { bed := bed, product := i, planned := planned, delivered := 0, batches := 0, state := .opened,
                  cause := none, seq := none, review := false, deviations := [], overflow := false,
                  count := pieces.length, current := true, order := pieces.map (·.mark) } }
            sm := { s.sm with pieces := pieces.foldl (fun m e => Map.put m e.mark
              { product := i, pour := n, length := e.length, mass := e.mass, place := .bed bed e.x,
                zone := zoneFrom e.x 1 cfg.zones, condition := .cast, acc := 0, stripAcc := none, move := none,
                released := false }) s.sm.pieces } } ∧
          answered s t 0x11 tag .ok [.u8 n] .nothing ∧ told s t [])

/-- BATCH below the plan adds its volume and one batch, and starts the gap timer at the cold-joint limit. It is refused
outside POURING with STATE, and outside 1..maximum batch with RANGE. The reply's last byte, 0 for a pour still open, is the
model's choice (notes/assumptions/6.md). -/
def Obligations.BatchResult : Prop :=
  ∀ (s : State) (tag bed volume n : Nat) (r : Pour), ready s → bedOpen s bed →
    ((bedOf s.toPart bed).state ≠ .pouring →
      runsTo (.batch tag bed volume) s fun t => refusedWith s t 0x12 tag .state) ∧
    ((bedOf s.toPart bed).state = .pouring → ¬ (1 ≤ volume ∧ (volume : Int) ≤ s.store.plant.maximumBatch) →
      runsTo (.batch tag bed volume) s fun t => refusedWith s t 0x12 tag .range) ∧
    ((bedOf s.toPart bed).state = .pouring → 1 ≤ volume → (volume : Int) ≤ s.store.plant.maximumBatch →
      (bedOf s.toPart bed).pour = some n → pourOf s.toPart n = some r → r.delivered + volume < r.planned →
      runsTo (.batch tag bed volume) s fun t =>
        becomes s t s.store { s.toPart with bs := { s.bs with
          beds := Map.put s.bs.beds bed
            { bedOf s.toPart bed with gap := some (.start (s.store.plant.coldJointLimit.toNat * 60000)) }
          pours := Map.put s.bs.pours n
            { r with delivered := r.delivered + volume, batches := min 255 (r.batches + 1) } } } ∧
        answered s t 0x12 tag .ok [.u16 (r.delivered + volume), .u8 0] .nothing ∧ told s t [])

/-- A BATCH that reaches the plan, and a POUR END after a delivery, close the pour: CLOSED with its cause and the counter's
sequence number, SHORT or OVER recorded where the delivery lies outside the tolerance (R25), its CAST pieces CURING, the bed
CURING with its gap timer stopped, a curing context opened in PRESET, POUR CLOSED raised. A pour closed by VOLUME is never
SHORT, and one closed by END below its plan never OVER. Nothing else changes but by the scan that follows in RUN, or the
withdrawal of a SHIP move of these pieces. The reply's byte 1 for a closed pour is the model's choice
(notes/assumptions/6.md). -/
def Obligations.PourCloses : Prop :=
  ∀ (s : State) (c : Instr) (tag bed kind delivered batches n : Nat) (cause : CloseCause) (fields : List Field)
    (r : Pour), ready s → bedOpen s bed → (bedOf s.toPart bed).state = .pouring →
    (bedOf s.toPart bed).pour = some n → pourOf s.toPart n = some r →
    (c = .pourEnd tag bed ∧ r.delivered ≠ 0 ∧ delivered = r.delivered ∧ batches = r.batches ∧ cause = .ended ∧
        fields = [.u8 1] ∧ kind = 0x13) ∨
      (∃ volume, c = .batch tag bed volume ∧ 1 ≤ volume ∧ (volume : Int) ≤ s.store.plant.maximumBatch ∧
        r.planned ≤ r.delivered + volume ∧ delivered = r.delivered + volume ∧ batches = min 255 (r.batches + 1) ∧
        cause = .volume ∧ fields = [.u16 delivered, .u8 1] ∧ kind = 0x12) →
    let tolerance := s.store.plant.volumeTolerance
    let note : VolumeNote :=
      if (delivered : Int) * 100 < r.planned * (100 - tolerance) then .short
      else if (delivered : Int) * 100 > r.planned * (100 + tolerance) then .over else .neither
    let found : Option Deviation := if note = .neither then none else
      some { kind := if note = .short then .short else .over, zone := none, value := delivered - r.planned, minutes := 0 }
    let listed := found.map fun d => (d, listDeviation (decide (s.store.plant.deviationMode = 1)) d r.deviations)
    let opened : Context :=
      { pour := n, seq := s.bs.seq, product := r.product, phase := .preset, sp := none, remainder := 0,
        presetElapsed := 0, curingTime := 0, starved := false, starvedCount := 0, fresh := true, repairPending := false,
        zones := (numbered 1 (zonesOf s.store bed)).map fun z => (z.1, ZoneCuring.opened) }
    (0 ≤ tolerance → (cause = .volume → note ≠ .short) ∧ (cause = .ended → r.delivered < r.planned → note ≠ .over)) ∧
    runsTo c s fun t =>
      t.store = s.store ∧ t.mc = s.mc ∧ t.tu = s.tu ∧ t.sm.timer = s.sm.timer ∧ sameStacks s t ∧
      t.pending = s.pending ∧ answered s t kind tag .ok fields .nothing ∧
      t.bs.seq = min 4294967295 (s.bs.seq + 1) ∧
      t.bs.beds = Map.put s.bs.beds bed { bedOf s.toPart bed with state := .curing, gap := none } ∧
      (∀ k, k ≠ n → pourOf t.toPart k = pourOf s.toPart k) ∧
      pourOf t.toPart n = some { r with
        delivered := delivered, batches := batches, state := .closed, cause := some cause, seq := some s.bs.seq
        review := r.review || note == .short
        deviations := (match listed with | some d => d.2.2 | none => r.deviations)
        overflow := r.overflow || (match listed with | some d => d.2.1 != .appended | none => false) } ∧
      t.cc = { s.cc with contexts := Map.put s.cc.contexts bed opened } ∧
      (∀ mark q, pieceOf s.toPart mark = some q →
        (q.pour ≠ n → pieceOf t.toPart mark = some q) ∧
        (q.pour = n → mark ∈ r.order → q.condition = .cast →
          pieceOf t.toPart mark = some { q with condition := .curing })) ∧
      let raised := (listed.map fun d => Notice.deviation bed n d.1 d.2.1).toList ++
        [.pourClosed bed n (codeOf s.store r.product) r.planned delivered batches cause note s.bs.seq]
      toldFirst s t raised ∧
      endsAs s t (changedOnly s t) raised

/-- POUR END with nothing delivered cancels the pour: its pieces are removed, its record is freed with them, and the bed is
PREPARED again with its product kept; nothing else changes but by the scan that follows in RUN. The reply's byte 0 for a
cancelled pour is the model's choice (notes/assumptions/6.md). -/
def Obligations.PourEndCancels : Prop :=
  ∀ (s : State) (tag bed n : Nat) (r : Pour), ready s → bedOpen s bed →
    ((bedOf s.toPart bed).state ≠ .pouring → runsTo (.pourEnd tag bed) s fun t => refusedWith s t 0x13 tag .state) ∧
    ((bedOf s.toPart bed).state = .pouring → (bedOf s.toPart bed).pour = some n → pourOf s.toPart n = some r →
      r.delivered = 0 → runsTo (.pourEnd tag bed) s fun t =>
        let gone := (piecesOfPour s.toPart n).dedup
        t.store = s.store ∧ t.mc = s.mc ∧ t.cc = s.cc ∧ t.tu = s.tu ∧ t.sm.timer = s.sm.timer ∧
        t.pending = s.pending ∧ answered s t 0x13 tag .ok [.u8 0] .nothing ∧ t.bs.seq = s.bs.seq ∧
        t.bs.beds = Map.put s.bs.beds bed { bedOf s.toPart bed with state := .prepared, pour := none, gap := none } ∧
        (∀ mark, pieceOf t.toPart mark = if mark ∈ gone then none else pieceOf s.toPart mark) ∧
        (∀ k, k ≠ n → pourOf t.toPart k = pourOf s.toPart k) ∧
        (pourOf t.toPart n = if r.count ≤ gone.length then none
          else some { r with count := r.count - gone.length, current := false }) ∧
        told s t [] ∧ ∃ u, (gone = [] → becomes s t s.store u) ∧ (gone ≠ [] → scanned s t u) ∧ u.mc = s.mc ∧ u.mp = s.mp ∧ u.csA = s.csA ∧
          u.csB = s.csB ∧ u.fl = s.fl ∧ ∀ k, (slotOf u k).engaged = (slotOf s.toPart k).engaged ∧
            (slotOf u k).lock = (slotOf s.toPart k).lock ∧
            ((∀ mark ∈ gone, ∀ q j, pieceOf s.toPart mark = some q → q.place ≠ .slot k j) →
              (slotOf u k).stack = (slotOf s.toPart k).stack))

/-- The gap timer's expiry on a POURING bed aborts the pour with cause GAP: the bed REJECTED, its pieces REJECTED, POUR
ABORTED raised; nothing else changes but by the scan that follows in RUN (R121), or the withdrawal of a SHIP move of these
pieces (R128). On a bed that is not POURING it changes nothing (R23); that it changes nothing with the timer stopped is
DEDUCED (notes/assumptions/16.md). -/
def Obligations.GapExpiryAborts : Prop :=
  ∀ (s : State) (bed : Nat), s.mc.power = true →
    ((bedOf s.toPart bed).state ≠ .pouring ∨ (bedOf s.toPart bed).gap = none →
      runsTo (.gapTimerExpiry bed) s fun t => becomes s t s.store s.toPart ∧ noReply s t ∧ told s t []) ∧
    (∀ n r timer, (bedOf s.toPart bed).state = .pouring → (bedOf s.toPart bed).gap = some timer →
      (bedOf s.toPart bed).pour = some n → pourOf s.toPart n = some r →
      runsTo (.gapTimerExpiry bed) s fun t =>
        t.store = s.store ∧ t.mc = s.mc ∧ t.cc = s.cc ∧ t.tu = s.tu ∧ t.sm.timer = s.sm.timer ∧ sameStacks s t ∧
        t.pending = s.pending ∧ noReply s t ∧
        t.bs = { s.bs with
          beds := Map.put s.bs.beds bed { bedOf s.toPart bed with state := .rejected, gap := none }
          pours := Map.put s.bs.pours n { r with state := .aborted, cause := some .gap } } ∧
        (∀ mark q, pieceOf s.toPart mark = some q → pieceOf t.toPart mark =
          some (if q.pour = n ∧ mark ∈ r.order then { q with condition := .rejected } else q)) ∧
        toldFirst s t [.pourAborted bed n r.delivered r.batches .gap] ∧
        endsAs s t (changedOnly s t) [.pourAborted bed n r.delivered r.batches .gap])

/-- ZONE OUT of a CURING bed excludes the zone and records ZONE_EXCLUDED with the bed's curing minutes; the zone already
excluded, the last included one of the bed, and any other bed state are STATE, a zone not configured RANGE (R28); nothing
else changes but by the scan that follows in RUN, or the withdrawal of a SHIP move of a piece that becomes HELD (R102, R121,
R128). That a zone of which CC holds no record is STATE too is DEDUCED (notes/assumptions/16.md). -/
def Obligations.ZoneOutExcludes : Prop :=
  ∀ (s : State) (tag bed zone : Nat), ready s → bedOpen s bed →
    let left (ctx : Context) : Nat := (ctx.zones.filter fun e => !e.2.excluded).length
    (zoneCfg s.store bed zone = none → runsTo (.zoneOut tag bed zone) s fun t => refusedWith s t 0x14 tag .range) ∧
    ((zoneCfg s.store bed zone).isSome → (bedOf s.toPart bed).state ≠ .curing →
      runsTo (.zoneOut tag bed zone) s fun t => refusedWith s t 0x14 tag .state) ∧
    (∀ ctx, (zoneCfg s.store bed zone).isSome → contextOf s.toPart bed = some ctx →
      (∀ z, Map.find ctx.zones zone = some z → z.excluded = true ∨ left ctx ≤ 1) →
      runsTo (.zoneOut tag bed zone) s fun t => refusedWith s t 0x14 tag .state) ∧
    ((zoneCfg s.store bed zone).isSome → contextOf s.toPart bed = none →
      runsTo (.zoneOut tag bed zone) s fun t => refusedWith s t 0x14 tag .state) ∧
    (∀ n r ctx z, (zoneCfg s.store bed zone).isSome → (bedOf s.toPart bed).state = .curing →
      (bedOf s.toPart bed).pour = some n → pourOf s.toPart n = some r → contextOf s.toPart bed = some ctx →
      Map.find ctx.zones zone = some z → z.excluded = false → 1 < left ctx →
      let d : Deviation := { kind := .zoneExcluded, zone := some zone, value := 0, minutes := curingMinutes ctx }
      let listed := listDeviation (decide (s.store.plant.deviationMode = 1)) d r.deviations
      let without : Context := { ctx with zones := Map.put ctx.zones zone { z with excluded := true } }
      let noted : Pour :=
        { r with review := true, deviations := listed.2, overflow := r.overflow || listed.1 != .appended }
      runsTo (.zoneOut tag bed zone) s fun t =>
        t.store = s.store ∧ t.mc = s.mc ∧ t.tu = s.tu ∧ t.sm.timer = s.sm.timer ∧ sameStacks s t ∧
        t.pending = s.pending ∧ answered s t 0x14 tag .ok [] .nothing ∧
        t.cc = { s.cc with contexts := Map.put s.cc.contexts bed without } ∧
        t.bs = { s.bs with pours := Map.put s.bs.pours n noted } ∧
        (∀ mark q, pieceOf s.toPart mark = some q → pieceOf t.toPart mark = some (if r.review = false ∧ q.pour = n ∧
          q.released = false ∧ (q.condition = .curing ∨ q.condition = .shippable) then { q with condition := .held }
          else q)) ∧
        toldFirst s t [.deviation bed n d listed.1] ∧
        endsAs s t (changedOnly s t) [.deviation bed n d listed.1])

/-- DETENSION of a READY bed whose pieces the move queue can take makes it STRIPPING and queues one STRIP move a piece at
the tail, in list order, from the piece's bed position, each with the next free number, which its piece then has as its move
(R29, R117, R134); in RUN the scan then runs. Without the room it is FULL, in any other state STATE. -/
def Obligations.DetensionQueuesStrips : Prop :=
  ∀ (s : State) (tag bed n : Nat), ready s → bedOpen s bed →
    ((bedOf s.toPart bed).state ≠ .ready → runsTo (.detension tag bed) s fun t => refusedWith s t 0x15 tag .state) ∧
    ((bedOf s.toPart bed).state = .ready → (bedOf s.toPart bed).pour = some n →
      let marks := piecesOnBed s.toPart bed n
      (32 < s.mp.queue.length + marks.length → marks ≠ [] →
        runsTo (.detension tag bed) s fun t => refusedWith s t 0x15 tag .full) ∧
      (s.mp.queue.length + marks.length ≤ 32 → runsTo (.detension tag bed) s fun t =>
        t.store = s.store ∧ t.mc = s.mc ∧ t.cc = s.cc ∧ t.tu = s.tu ∧ t.sm.timer = s.sm.timer ∧
        t.mp.backlog = s.mp.backlog ∧ t.pending = s.pending ∧ told s t [] ∧
        answered s t 0x15 tag .ok [.u8 marks.length] .nothing ∧
        t.bs = { s.bs with beds := Map.put s.bs.beds bed { bedOf s.toPart bed with state := .stripping } } ∧
        (∀ mark, (pieceOf t.toPart mark).map (fun q => { q with move := none }) =
          (pieceOf s.toPart mark).map fun q => { q with move := none }) ∧
        (marks = [] → t.sm = s.sm ∧ t.mp = s.mp ∧ t.csA = s.csA ∧ t.csB = s.csB ∧ t.fl = s.fl) ∧
        (marks ≠ [] → ∃ u, scanned s t u ∧ u.mc = s.mc ∧ u.sm.slots = s.sm.slots ∧ u.csA = s.csA ∧ u.csB = s.csB ∧
          u.fl = s.fl ∧ u.mp.resA = s.mp.resA ∧ u.mp.resB = s.mp.resB ∧
          ∃ new, queuedNew s u new ∧ new.map (·.piece) = marks.map some ∧
            ∀ m ∈ new, m.kind = .strip ∧ m.state = .queued ∧ m.crane = none ∧ m.dest = none ∧ m.chain = none ∧
              m.reason = none ∧ ∀ mark q, m.piece = some mark → pieceOf s.toPart mark = some q →
                ∃ x, q.place = .bed bed x ∧ m.source = .bed bed x)))

/-- CLEAR BED empties a PREPARED bed; of a REJECTED bed it removes every piece of the aborted pour; of a STRIPPING bed with
no STRIP move on a crane it removes the bed's moves, the pieces on it and its context. The pour is then current no more, its
count has fallen by the pieces removed, and its record is freed where that is 0 (R31, R32); no notice is raised, and in RUN
the scan follows the removal of a move or a piece (R114, R121). The stack of a slot on which none of those pieces lies
stays. A move on a crane is BUSY. The reply's byte 0, the state EMPTY, is the model's choice (notes/assumptions/6.md); that
the cleared bed's product becomes absent is DEDUCED (notes/assumptions/17.md). -/
def Obligations.ClearBedResult : Prop :=
  ∀ (s : State) (tag bed : Nat), ready s → bedOpen s bed →
    let b := bedOf s.toPart bed
    let left (t : State) (n gone : Nat) : Prop := (∀ k, k ≠ n → pourOf t.toPart k = pourOf s.toPart k) ∧
      pourOf t.toPart n = (pourOf s.toPart n).bind fun r =>
        if r.count ≤ gone then none else some { r with count := r.count - gone, current := false }
    (b.state = .empty ∨ b.state = .pouring ∨ b.state = .curing ∨ b.state = .ready →
      runsTo (.clearBed tag bed) s fun t => refusedWith s t 0x16 tag .state) ∧
    (b.state = .prepared → runsTo (.clearBed tag bed) s fun t =>
      becomes s t s.store { s.toPart with bs := { s.bs with beds := Map.put s.bs.beds bed .vacant } } ∧
      answered s t 0x16 tag .ok [.u8 0] .nothing ∧ told s t []) ∧
    (∀ n, b.state = .rejected → b.pour = some n → runsTo (.clearBed tag bed) s fun t =>
      t.store = s.store ∧ t.mc = s.mc ∧ t.cc = s.cc ∧ t.tu = s.tu ∧ t.sm.timer = s.sm.timer ∧
      t.pending = s.pending ∧ answered s t 0x16 tag .ok [.u8 0] .nothing ∧ t.bs.seq = s.bs.seq ∧
      t.bs.beds = Map.put s.bs.beds bed .vacant ∧
      (∀ mark, pieceOf t.toPart mark = if mark ∈ piecesOfPour s.toPart n then none else pieceOf s.toPart mark) ∧
      left t n (piecesOfPour s.toPart n).dedup.length ∧ told s t [] ∧
      ∃ u, (piecesOfPour s.toPart n = [] → becomes s t s.store u) ∧
        (piecesOfPour s.toPart n ≠ [] → scanned s t u) ∧ u.mc = s.mc ∧ u.mp = s.mp ∧ u.csA = s.csA ∧ u.csB = s.csB ∧
        u.fl = s.fl ∧ ∀ k, (slotOf u k).engaged = (slotOf s.toPart k).engaged ∧
          (slotOf u k).lock = (slotOf s.toPart k).lock ∧
          ((∀ mark ∈ piecesOfPour s.toPart n, ∀ q j, pieceOf s.toPart mark = some q → q.place ≠ .slot k j) →
            (slotOf u k).stack = (slotOf s.toPart k).stack)) ∧
    (∀ n, b.state = .stripping → b.pour = some n →
      ((∃ m ∈ s.mp.queue, stripsBed bed m = true ∧ m.crane.isSome) →
        runsTo (.clearBed tag bed) s fun t => refusedWith s t 0x16 tag .busy) ∧
      ((∀ m ∈ s.mp.queue, stripsBed bed m = true → m.crane = none) → runsTo (.clearBed tag bed) s fun t =>
        t.store = s.store ∧ t.mc = s.mc ∧ t.tu = s.tu ∧ t.sm.timer = s.sm.timer ∧ t.pending = s.pending ∧
        answered s t 0x16 tag .ok [.u8 0] .nothing ∧ t.bs.seq = s.bs.seq ∧
        t.bs.beds = Map.put s.bs.beds bed .vacant ∧
        t.cc = { s.cc with contexts := Map.del s.cc.contexts bed } ∧
        (∀ m ∈ t.mp.queue, stripsBed bed m = false) ∧
        left t n (piecesOnBed s.toPart bed n).dedup.length ∧ told s t [] ∧
        (∀ k, (slotOf t.toPart k).stack = (slotOf s.toPart k).stack) ∧
        (movesSound s.toPart → ∃ u, (becomes s t s.store u ∨ scanned s t u) ∧
          ((∃ m ∈ s.mp.queue, stripsBed bed m = true) ∨ piecesOnBed s.toPart bed n ≠ [] → scanned s t u) ∧ u.mc = s.mc ∧ u.csA = s.csA ∧
          u.csB = s.csB ∧ u.fl = s.fl ∧ u.mp.resA = s.mp.resA ∧ u.mp.resB = s.mp.resB ∧
          filledFrom s (s.mp.queue.filter fun m => !stripsBed bed m) u.mp.queue ∧
          freedOf s u fun k => s.mp.queue.any fun m => stripsBed bed m && m.number == k) ∧
        (∀ mark, mark ∈ piecesOnBed s.toPart bed n → pieceOf t.toPart mark = none) ∧
        (∀ mark, mark ∉ piecesOnBed s.toPart bed n →
          (pieceOf t.toPart mark).map (fun q => { q with move := none }) =
            (pieceOf s.toPart mark).map fun q => { q with move := none })))

/-! ### Curing, heat and temperatures -/

/-- The curing interval's expiry restarts the timer and serves every context (R54, R55). TU forms and stores each zone's
result and keeps its readings and valve echo (R44, R56); each zone resolved to a temperature is credited T − datum for each
second of the run that ended, a context's first expiry credits none, and the curing time runs (R59, R64); held values,
lapses and edges follow, and the deviations they begin are reported, each setting the pour's review flag, with which the
pour's unreleased CURING and SHIPPABLE pieces become HELD (R34, R58, R62, R63, R102). Phase and setpoint advance, by
temperatures and maturity so credited; a CURING bed raises PHASE for each change, and at the end of COOL it becomes READY,
BED READY raised with the bed maturity (R65 to R70, R75); class, demand and request follow from them (R71, R72). In RUN the
grants, the allocation record, the starved beds and the notices STARVED, HEAT SHORT and HEAT OK are those of the allocation
of these requests, which AllocationInOrder gives (R79 to R83), each wanted opening is floor(grant / rating) (R84), and in
RUN and SETUP SET VALVE is offered where the node is not LOST and the handed opening differs or is to be sent again (R85);
in WATCH grants, starved beds and valves stay (R87); in SETUP every grant is 0 and a bed that asks for heat is starved
(R88); that the zones served and the zones short then keep their counts is the model's choice (notes/assumptions/24.md). So
are, where the rules differ, two DESIGN CHOICES of notes/assumptions/13.md: a zone both lapsed and excluded has demand 0
(R58 against R71), and an excluded zone's lapse flags are set and cleared like any zone's (R56 against R53). That a lapsed
zone of a PRESET bed keeps its demand is DEDUCED there. -/
def Obligations.CuringExpiryCredits : Prop :=
  ∀ s : State, s.mc.power = true → curingSound s.toPart →
    let dt := s.cc.timer.length / 1000
    let out (bed zone : Nat) : ZoneResult := zoneOutcome s.store s.toPart (dt * 1000) bed zone
    let zoneIn (p : Part) (bed zone : Nat) : Option ZoneCuring :=
      (contextOf p bed).bind fun k => Map.find k.zones zone
    let credited (ctx : Context) : Nat := if ctx.fresh then 0 else dt
    let minutesAt (ctx : Context) : Nat := min 65535 (min 4294967295 (ctx.curingTime + credited ctx) / 60)
    let underReview (s : State) (n : Nat) : Bool := (pourOf s.toPart n).any (·.review)
    runsTo .curingIntervalExpiry s fun t =>
      t.store = s.store ∧ t.mc = s.mc ∧ t.tu.areas = s.tu.areas ∧ t.sm.timer = s.sm.timer ∧ t.pending = s.pending ∧
      (∀ n, (slotOf t.toPart n).stack = (slotOf s.toPart n).stack) ∧ t.bs.seq = s.bs.seq ∧ noReply s t ∧
      t.cc.timer = .start (s.store.plant.curingInterval.toNat * 1000) ∧
      (∀ bed zone, zone ≤ 4 → zoneRecord t.toPart bed zone = (zoneRecord s.toPart bed zone).map fun r =>
        if (zoneIn s.toPart bed zone).isSome then { r with result := some (out bed zone), resultAge := 0 } else r) ∧
      (∀ bed, contextOf s.toPart bed = none → contextOf t.toPart bed = none ∧ bedOf t.toPart bed = bedOf s.toPart bed) ∧
      (∀ mark, pieceOf t.toPart mark = (pieceOf s.toPart mark).map fun q =>
        if underReview s q.pour = false ∧ underReview t q.pour = true ∧ q.released = false ∧
          (q.condition = .curing ∨ q.condition = .shippable) then { q with condition := .held } else q) ∧
      ((∀ e ∈ s.cc.contexts, (product s.store e.2.product).isSome) →
        ∀ n, underReview t n = true → underReview s n = true ∨ ∃ bed ctx q zone r, contextOf s.toPart bed = some ctx ∧
        ctx.pour = n ∧ product s.store ctx.product = some q ∧ Map.find ctx.zones zone = some r ∧
        reportsDue s.store q ctx.phase (minutesAt ctx) zone (out bed zone) r ≠ []) ∧
      (∀ bed ctx, contextOf s.toPart bed = some ctx →
        let credited := credited ctx
        let minutes := minutesAt ctx
        let curing := (bedOf s.toPart bed).state = .curing
        ∃ after, contextOf t.toPart bed = some after ∧ after.pour = ctx.pour ∧ after.seq = ctx.seq ∧
          after.product = ctx.product ∧ after.fresh = false ∧
          after.curingTime = min 4294967295 (ctx.curingTime + credited) ∧
          (∀ q, product s.store ctx.product = some q →
            let zones := included after
            let temps := zones.filterMap fun e =>
              (Map.find ctx.zones e.1).bind fun r => resolvedTo s.store (out bed e.1) r
            let measured := zones.filterMap fun e => measuredIn (out bed e.1)
            let stage4 := advance q s.store.plant.minimumFresh temps measured credited
              { ctx with curingTime := after.curingTime, zones := after.zones }
            let stepped := stage4.1
            after.phase = stepped.phase ∧ after.sp = stepped.sp ∧ after.remainder = stepped.remainder ∧
            after.presetElapsed = stepped.presetElapsed ∧ after.repairPending = stepped.repairPending ∧
            (curing → s.cl.dropped < 65535 → t.cl.dropped = s.cl.dropped →
              (stage4.2.map fun report => match report with
                | .phase ph => Notice.phase bed ctx.pour ph
                | .coolEnded m => .bedReady bed ctx.pour m).Sublist (unheard t.cl)) ∧
            (curing → ctx.phase = .cool → after.phase = .finished → s.cl.dropped < 65535 →
              t.cl.dropped = s.cl.dropped → .bedReady bed ctx.pour (bedMaturity after) ∈ unheard t.cl)) ∧
          bedOf t.toPart bed = { bedOf s.toPart bed with
            state := if curing ∧ ctx.phase = .cool ∧ after.phase = .finished then .ready
              else (bedOf s.toPart bed).state } ∧
          (∀ zone, zoneIn s.toPart bed zone = none → Map.find after.zones zone = none) ∧
          (∀ zone r, Map.find ctx.zones zone = some r →
            ∃ r', Map.find after.zones zone = some r' ∧ r'.excluded = r.excluded ∧
              r'.acc = (match resolvedTo s.store (out bed zone) r with
                | some temp => min 4294967295 (r.acc + (max (temp - s.store.plant.datum) 0).toNat * credited)
                | none => r.acc) ∧
              (∀ q, product s.store ctx.product = some q →
                zoneResolved s.store q ctx.phase (out bed zone) r r' ∧
                heatAsked s.store q after (ratingOf s.store bed zone) (zoneLost s.store s.toPart bed zone)
                  (resolvedTo s.store (out bed zone) r) r r' ∧
                ∀ d ∈ reportsDue s.store q ctx.phase minutes zone (out bed zone) r,
                  ∀ o, (bedOf s.toPart bed).pour = some ctx.pour → pourOf s.toPart ctx.pour = some o →
                    o.state = .closed → (∃ o', pourOf t.toPart ctx.pour = some o' ∧ o'.review = true) ∧
                    (s.cl.dropped < 65535 → t.cl.dropped = s.cl.dropped →
                      ∃ k, .deviation bed ctx.pour d k ∈ unheard t.cl)) ∧
              (s.mc.mode = .setup → r'.grant = 0) ∧
              (s.mc.mode = .watch → r'.grant = if ctx.phase = .cool ∧ after.phase = .finished then 0 else r.grant) ∧
              (s.mc.mode = .run → r'.grant ≤ r'.request)) ∧
          (s.mc.mode = .run →
            (after.starved = true ↔ ∃ zone k, Map.find after.zones zone = some k ∧ k.grant < k.request) ∧
            let n := ctx.starvedCount + 1
            after.starvedCount = if after.starved ∧ (n : Int) < s.store.plant.starveLimit then n else 0) ∧
          (s.mc.mode = .watch → after.starved = ctx.starved ∧ after.starvedCount = ctx.starvedCount) ∧
          (s.mc.mode = .setup → after.starvedCount = ctx.starvedCount ∧
            (after.starved = true ↔ ∃ zone k, Map.find after.zones zone = some k ∧ 0 < k.request))) ∧
      (s.mc.mode = .watch → t.cc.alloc = { s.cc.alloc with last := some .withheld } ∧ t.cc.valves = s.cc.valves) ∧
      (s.mc.mode = .setup → t.cc.alloc = { s.cc.alloc with last := some .null }) ∧
      (s.mc.mode = .run → t.cc.alloc.last = some .allocated ∧ t.cc.alloc.capacity = some (100 * s.store.boiler) ∧
        t.cc.alloc.granted ≤ 100 * s.store.boiler ∧ t.cc.alloc.granted ≤ t.cc.alloc.requested ∧ allocatedIn s t) ∧
      (s.mc.mode ≠ .watch → ∀ bed zone v, zone ≤ 4 → Map.find s.cc.valves (zoneKey bed zone) = some v →
        ∃ w, Map.find t.cc.valves (zoneKey bed zone) = some w ∧
          w.wanted = (if s.mc.mode = .setup then v.wanted
            else ((zoneIn t.toPart bed zone).map fun k => k.grant / ratingOf s.store bed zone).getD 0) ∧
          valveServed s t bed zone v w)

/-- The allocation of a capacity. The zones handed over are those with a request above 0 (R73), served by class, FROST,
HOLD, RAMP, COOL, then pour age, bed and zone (R79): while the capacity covers each request in turn the whole request is
granted, the first that exceeds what remains gets what remains, and every later zone 0 (R80). Each zone's record gets its
grant, 0 where it was not handed over, and its wanted opening is floor(grant / rating), below its demand where the grant is
below the request (R84). The allocation's record follows; STARVED is reported of each bed, in bed order, whose run of
starved allocations reaches the starve limit (R81, R82); then HEAT SHORT or HEAT OK where the heat short flag has changed
(R83). -/
def Obligations.AllocationInOrder : Prop :=
  (∀ (cap : Nat) (l : List Handed), (l.map (·.request)).sum ≤ cap →
    grantAll cap l = l.map (fun h => (h, h.request)) ∧ partialOf (grantAll cap l) = none) ∧
  (∀ (cap : Nat) (a b : List Handed) (h : Handed), (a.map (·.request)).sum ≤ cap →
    cap < (a.map (·.request)).sum + h.request →
    grantAll cap (a ++ h :: b) = a.map (fun k => (k, k.request)) ++ (h, cap - (a.map (·.request)).sum) ::
      b.map (fun k => (k, 0)) ∧
    partialOf (grantAll cap (a ++ h :: b)) =
      if (a.map (·.request)).sum = cap then none else some (h.bed, h.zone)) ∧
  (∀ l : List Handed,
    let rank (h : Handed) : Nat := [HeatClass.frost, .hold, .ramp, .cool].idxOf h.cls
    (serviceOrder l).Perm l ∧ (serviceOrder l).Pairwise fun a b =>
      rank a < rank b ∨ (rank a = rank b ∧ (a.seq < b.seq ∨ (a.seq = b.seq ∧
        (a.bed < b.bed ∨ (a.bed = b.bed ∧ a.zone ≤ b.zone)))))) ∧
  (∀ (g : Store) (p : Part) (bed zone : Nat) (ctx : Context) (r : ZoneCuring), contextOf p bed = some ctx →
    Map.find ctx.zones zone = some r → wantedOpening g p bed zone = r.grant / ratingOf g bed zone ∧
      (r.request = r.demand * ratingOf g bed zone → r.grant < r.request → wantedOpening g p bed zone < r.demand)) ∧
  ∀ (g : Store) (p : Part),
    let gs := grantAll (100 * g.boiler) (serviceOrder (handedOver g p))
    let short := gs.filter fun e => decide (e.2 < e.1.request)
    let rec_ := (allocate g p).cc.alloc
    rec_.capacity = some (100 * g.boiler) ∧ rec_.requested = (gs.map fun e => e.1.request).sum ∧
    rec_.granted = (gs.map fun e => e.2).sum ∧ rec_.served = (handedOver g p).length ∧
    rec_.short = short.length ∧ rec_.partialZone = partialOf gs ∧ rec_.last = some .allocated ∧
    (rec_.heatShort = true ↔ short ≠ []) ∧
    (curingSound p →
      (∀ h, h ∈ handedOver g p ↔ ∃ ctx r, contextOf p h.bed = some ctx ∧ Map.find ctx.zones h.zone = some r ∧
        0 < r.request ∧ h.cls = r.cls ∧ h.seq = ctx.seq ∧ h.request = r.request ∧ h.rating = ratingOf g h.bed h.zone) ∧
      ∀ bed ctx zone r, contextOf p bed = some ctx → Map.find ctx.zones zone = some r →
        ∃ after grant, contextOf (allocate g p) bed = some after ∧
          Map.find after.zones zone = some { r with grant := grant } ∧ (r.request = 0 → grant = 0) ∧
          (0 < r.request → ∃ h, (h, grant) ∈ gs ∧ h.bed = bed ∧ h.zone = zone)) ∧
    (p.cl.notices.length + p.cc.contexts.length + 1 ≤ 24 →
      ∃ starved, (allocate g p).cl.notices = p.cl.notices ++ starved ++
          (match short.head?, p.cc.alloc.heatShort with
           | some e, false => [.heatShort g.boiler rec_.requested rec_.granted rec_.short e.1.bed e.1.zone e.1.cls]
           | none, true => [.heatOk g.boiler rec_.requested]
           | _, _ => []) ∧
        (Map.rising p.cc.contexts = true → starved.map deviationTold = (p.cc.contexts.filter fun e =>
          short.any (fun k => k.1.bed == e.1) && decide (g.plant.starveLimit ≤ (e.2.starvedCount : Int) + 1) &&
          (bedOf p e.1).pour == some e.2.pour && (pourOf p e.2.pour).map (·.state) == some .closed).map fun e =>
            some (e.1, e.2.pour, { kind := .starved, zone := none, value := (e.2.starvedCount : Int) + 1,
                                   minutes := min 65535 (e.2.curingTime / 60) })))

/-- A stored value's validity is the first of R43's conditions that fails, and the valid values are those of the probes in
order that fail none. Three valid values: sorted, equal values by probe number, the outcome by which of the two pairs agree
(R45); two: their mean where they differ by at most the band, else DISAGREE; one or none: TOO_FEW (R46). A forming takes the
values valid now and is TU's last result (R43, R44), and READ ZONE reports the outlier of a PAIR (R50). The bytes in which
it does, and their order, are the model's choice (notes/assumptions/6.md, notes/assumptions/18.md). -/
def Obligations.TwoOfThree : Prop :=
  (∀ (value : Option Int) (age : Nat) (lost : Bool) (limit : Nat),
    let fails : List Bool := [value.isNone, lost, value == some (-32768),
      value.any fun v => decide (v < -400 ∨ 1250 < v), decide (limit ≤ age)]
    [Validity.noneReceived, .lost, .opened, .range, .stale, .valid][fails.idxOf true]? =
      some (validity value age lost limit)) ∧
  (∀ (lost : Bool) (limit : Nat) (r : ZoneRecord), validReadings lost limit r =
    [(1, r.probe1), (2, r.probe2), (3, r.probe3)].filterMap fun e => e.2.value.bind fun v =>
      if lost = false ∧ -400 ≤ v ∧ v ≤ 1250 ∧ e.2.age < limit then some (e.1, v) else none) ∧
  (∀ (g : Store) (p : Part) (limit bed zone : Nat) (r : ZoneRecord), zoneRecord p bed zone = some r →
    zoneOutcome g p limit bed zone = agree g.plant.agreementBand (validReadings (nodeLost p r.node) limit r) ∧
    ∀ result, zoneRecord (storeZoneResult bed zone result p) bed zone =
      some { r with result := some result, resultAge := 0 }) ∧
  (∀ (g : Store) (p : Part) (bed zone k : Nat) (r : ZoneRecord) (t : Int), 1 ≤ bed → bed ≤ 6 →
    (zoneCfg g bed zone).isSome → zoneRecord p bed zone = some r → r.result = some (.measured t (.pair k)) →
    ∃ before after, readZone bed zone g p = .ok (before ++ [.u8 1, .i16 t, .u8 1, .u8 k] ++ after)) ∧
  (∀ b : Int, agree b [] = .unmeasured .tooFew ∧
    ∀ (i j : Nat) (x y : Int), agree b [(i, x)] = .unmeasured .tooFew ∧
      agree b [(i, x), (j, y)] =
        if x - y ≤ b ∧ y - x ≤ b then .measured (meanDown x y) .two else .unmeasured .disagree) ∧
  ∀ b x y z : Int, ∃ lo mid hi : Nat × Int,
    [lo, mid, hi].Perm [(1, x), (2, y), (3, z)] ∧ lo.2 ≤ mid.2 ∧ mid.2 ≤ hi.2 ∧
    (lo.2 = mid.2 → lo.1 < mid.1) ∧ (mid.2 = hi.2 → mid.1 < hi.1) ∧
    agree b [(1, x), (2, y), (3, z)] =
      if mid.2 - lo.2 ≤ b ∧ hi.2 - mid.2 ≤ b then .measured mid.2 .median
      else if mid.2 - lo.2 ≤ b then .measured (meanDown lo.2 mid.2) (.pair hi.1)
      else if hi.2 - mid.2 ≤ b then .measured (meanDown mid.2 hi.2) (.pair lo.1)
      else .unmeasured .disagree

/-- The mean is half the sum rounded toward negative infinity, and every formed temperature lies in −400..1250. -/
def Obligations.MeanInRange : Prop :=
  (∀ a b : Int, 2 * meanDown a b ≤ a + b ∧ a + b < 2 * meanDown a b + 2) ∧
  (∀ a b : Int, a + b = 831 → meanDown a b = 415) ∧ (∀ a b : Int, a + b = -301 → meanDown a b = -151) ∧
  (∀ a b : Int, -400 ≤ a → a ≤ 1250 → -400 ≤ b → b ≤ 1250 →
    (-800 ≤ a + b ∧ a + b ≤ 2500) ∧ -400 ≤ meanDown a b ∧ meanDown a b ≤ 1250) ∧
  (∀ (lost : Bool) (limit : Nat) (r : ZoneRecord) (band t : Int) (basis : Basis),
    agree band (validReadings lost limit r) = .measured t basis →
      (-400 ≤ t ∧ t ≤ 1250) ∧ (basis = .median → ∃ e ∈ validReadings lost limit r, e.2 = t))

/-- Stage 4 never takes a context back to an earlier phase, keeps a setpoint at or below the hold temperature, and reports
the end of COOL exactly when the phase becomes FINISHED. By phase: PRESET counts its time and at its end enters RAMP at the
least temperature, F where there is none, lowered to H, and HOLD at once where that is H (R66, R67); RAMP and COOL move the
setpoint by the whole of (remainder + rate × Δt) / 3600 and keep the rest, a starved RAMP not at all, RAMP to HOLD at H,
COOL to FINISHED at the cool-end temperature (R68, R70); RAMP and HOLD are released to COOL at the strip target (R69). A
pending repair first sets the setpoint from the least measured temperature, and without one holds the step back (R75). -/
def Obligations.PhasesGoForward : Prop :=
  ∀ (q : Product) (fresh : Int) (temps measured : List Int) (dt : Nat) (ctx : Context), q.inRange →
    let after := advance q fresh temps measured dt ctx
    ctx.phase.code ≤ after.1.phase.code ∧
    (∀ x y, ctx.sp = some x → x ≤ q.hold → after.1.sp = some y → y ≤ q.hold) ∧
    (∀ y, ctx.phase = .preset ∨ ctx.phase = .ramp → after.1.sp = some y → y ≤ q.hold ∨ ctx.sp = some y) ∧
    ((∃ m, .coolEnded m ∈ after.2) ↔ ctx.phase = .cool ∧ after.1.phase = .finished) ∧
    (ctx.starved = true → ctx.phase = .ramp → ctx.repairPending = false →
      after.1.sp = ctx.sp ∧ (after.1.phase = .ramp ∨ after.1.phase = .cool)) ∧
    after.1.pour = ctx.pour ∧ after.1.seq = ctx.seq ∧ after.1.product = ctx.product ∧
    after.1.curingTime = ctx.curingTime ∧
    let released := q.strip ≤ bedMaturity ctx
    let cooling : List PhaseReport := if released then [.phase .cool] else []
    let repairs := ctx.repairPending = true ∧ measured ≠ []
    let waits := ctx.repairPending = true ∧ measured = []
    let least := measured.min?.getD 0
    let becomes (phase : Phase) (sp : Option Int) (remainder : Nat) (reports : List PhaseReport) : Prop :=
      after.1.phase = phase ∧ after.1.sp = sp ∧ after.1.remainder = remainder ∧ after.2 = reports
    (ctx.phase = .preset →
      let elapsed := min 4294967295 (ctx.presetElapsed + dt)
      let sp := min (temps.min?.getD fresh) q.hold
      after.1.presetElapsed = elapsed ∧
      (elapsed < q.preset * 60 → becomes .preset ctx.sp ctx.remainder []) ∧
      (q.preset * 60 ≤ elapsed → becomes (if released then .cool else if sp = q.hold then .hold else .ramp) (some sp) 0
        (.phase .ramp :: (if sp = q.hold then [.phase .hold] else []) ++ cooling))) ∧
    (∀ x, ctx.phase = .ramp → ctx.sp = some x →
      let sp := if repairs then min least q.hold else x
      let sum := (if repairs then 0 else ctx.remainder) + q.rampRate * dt
      let met := repairs ∧ sp = q.hold
      let steps := ¬ waits ∧ ctx.starved = false ∧ ¬ met
      let top := met ∨ (steps ∧ q.hold ≤ sp + (sum / 3600 : Nat))
      after.1.repairPending = decide waits ∧
      becomes (if released then .cool else if top then .hold else .ramp)
        (some (if top then q.hold else if steps then sp + (sum / 3600 : Nat) else sp))
        (if released then 0 else if steps then sum % 3600 else if repairs then 0 else ctx.remainder)
        ((if top then [.phase .hold] else []) ++ cooling)) ∧
    (ctx.phase = .hold → becomes (if released then .cool else .hold) ctx.sp (if released then 0 else ctx.remainder) cooling) ∧
    (∀ x, ctx.phase = .cool → ctx.sp = some x →
      let sum := ctx.remainder + q.coolRate * dt
      let sp := (if repairs then min x least else x) - (sum / 3600 : Nat)
      after.1.repairPending = decide waits ∧
      if waits then becomes .cool ctx.sp ctx.remainder []
      else if sp ≤ q.coolEnd then becomes .finished (some sp) (sum % 3600) [.coolEnded (bedMaturity ctx)] ∧
        ∀ e ∈ after.1.zones, e.2.demand = 0 ∧ e.2.cls = .none ∧ e.2.request = 0 ∧ e.2.grant = 0
      else becomes .cool (some sp) (sum % 3600) []) ∧
    (ctx.phase = .finished → becomes .finished ctx.sp ctx.remainder [])

/-! ### Stock -/

/-- SHIP and SCRAP of a piece on a slot that neither lock nor move bars: MP queues one REHANDLE a piece above, top first,
then the SHIP or SCRAP to the bay, numbered in that order, all of one chain named by the last, and the slot is locked for
it; each piece has its move's number (R117, R129), and in RUN the scan then runs. A move's `rank`, its place in its chain,
is the model's own field (notes/assumptions/19.md). A piece on no slot or in another condition is NOT_READY, a mark or bay
out of range or not configured RANGE, a mark of no piece UNKNOWN, one with a move BUSY, a barred slot LOCKED, a piece above
with a move BUSY, a queue without the room FULL. The order of the reply's fields is the model's choice
(notes/assumptions/18.md), the bytes of the place too (notes/assumptions/6.md). -/
def Obligations.ShipAndScrapQueueChain : Prop :=
  ∀ (s : State) (c : Instr) (tag kind mark bay slot tier : Nat) (q : Piece) (mk : MoveKind) (cond : Condition),
    (c = .ship tag mark bay ∧ kind = 0x20 ∧ mk = .ship ∧ cond = .shippable) ∨
      (c = .scrap tag mark bay ∧ kind = 0x21 ∧ mk = .scrap ∧ cond = .rejected) →
    ready s → s.mc.mode ≠ .setup →
    let named := (1 ≤ mark ∧ mark ≤ 65535) ∧ (1 ≤ bay ∧ bay ≤ 2) ∧ (Map.find s.store.bays bay).isSome
    (¬ named → runsTo c s fun t => refusedWith s t kind tag .range) ∧
    (named → pieceOf s.toPart mark = none → runsTo c s fun t => refusedWith s t kind tag .unknown) ∧
    (named → pieceOf s.toPart mark = some q →
    ((∀ n k, q.place ≠ .slot n k) → runsTo c s fun t => refusedWith s t kind tag .notReady) ∧
    (q.place = .slot slot tier →
      let digs := above mark (slotOf s.toPart slot).stack
      (q.condition ≠ cond → runsTo c s fun t => refusedWith s t kind tag .notReady) ∧
      (q.condition = cond → q.move.isSome → runsTo c s fun t => refusedWith s t kind tag .busy) ∧
      (q.condition = cond → q.move = none →
        ((slotOf s.toPart slot).lock.isSome ∨ (slotOf s.toPart slot).engaged.isSome) →
        runsTo c s fun t => refusedWith s t kind tag .locked) ∧
      (q.condition = cond → q.move = none → (slotOf s.toPart slot).lock = none →
        (slotOf s.toPart slot).engaged = none →
        ((∃ k ∈ digs, ∃ r, pieceOf s.toPart k = some r ∧ r.move.isSome) →
          runsTo c s fun t => refusedWith s t kind tag .busy) ∧
        ((∀ k ∈ digs, ∀ r, pieceOf s.toPart k = some r → r.move = none) → 32 < s.mp.queue.length + digs.length + 1 →
          runsTo c s fun t => refusedWith s t kind tag .full)) ∧
      (q.condition = cond → q.move = none → (slotOf s.toPart slot).lock = none →
        (slotOf s.toPart slot).engaged = none → (∀ k ∈ digs, ∀ r, pieceOf s.toPart k = some r → r.move = none) →
        movesSound s.toPart → s.mp.queue.length + digs.length + 1 ≤ 32 →
        runsTo c s fun t =>
          t.store = s.store ∧ t.mc = s.mc ∧ t.bs = s.bs ∧ t.cc = s.cc ∧ t.tu = s.tu ∧ t.sm.timer = s.sm.timer ∧
          t.pending = s.pending ∧ told s t [] ∧
          (∀ k, (pieceOf t.toPart k).map (fun r => { r with move := none }) =
            (pieceOf s.toPart k).map fun r => { r with move := none }) ∧
          (∀ n, (slotOf t.toPart n).stack = (slotOf s.toPart n).stack) ∧
          ∃ last, (slotOf t.toPart slot).lock = some last ∧
            answered s t kind tag .ok (standingFields q ++ [.u8 last, .u8 digs.length]) .nothing ∧
            ∃ u, scanned s t u ∧ u.mc = s.mc ∧ u.csA = s.csA ∧ u.csB = s.csB ∧ u.fl = s.fl ∧ u.mp.resA = s.mp.resA ∧
              u.mp.resB = s.mp.resB ∧ u.mp.backlog = s.mp.backlog ∧
              (∀ n, slotOf u n = if n = slot then { slotOf s.toPart slot with lock := some last } else slotOf s.toPart n) ∧
              ∃ new, queuedNew s u new ∧ new.map (·.piece) = digs.map some ++ [some mark] ∧
                new.map (·.rank) = List.range (digs.length + 1) ∧
                (new.getLast?.map fun m => (m.number, m.kind, m.dest)) = some (last, mk, some (.bay bay)) ∧
                (∀ m ∈ new.dropLast, m.kind = .rehandle ∧ m.dest = none) ∧
                ∀ m ∈ new, m.chain = some last ∧ m.state = .queued ∧ m.crane = none ∧ m.reason = none ∧
                  m.source = .slot slot)))

/-- HOLD PIECE, RELEASE PIECE and REJECT PIECE change the condition of a piece as their rules give it, and in RUN the scan
then runs (R109 to R111, R121); nothing else changes, but that a RELEASE PIECE which leaves the piece not SHIPPABLE
withdraws its DISPATCHED SHIP move from a crane whose hook is empty: SUSPENDED with reason HELD, MOVE SUSPENDED raised, the
crane IDLE and at rest, a STOP offered for its node and, from TAKE_UP, then LOWER (R128, R151). That the LOWER is offered
outside any step, and kept where the directed queue refuses it, is DEDUCED (notes/assumptions/11.md), as it is that the
crane's dispatch position becomes absent (notes/assumptions/17.md) and that it rests without a reservation where it has none
(notes/assumptions/15.md). A piece with a move is BUSY for the first and third, a condition or a place a rule does not take
is STATE, a mark outside 1..65535 RANGE, and one of no live piece UNKNOWN. The bytes of the place in the reply are the
model's choice (notes/assumptions/6.md). -/
def Obligations.PieceRequests : Prop :=
  ∀ (s : State) (tag mark : Nat), ready s →
    (∀ c kind, (c = .holdPiece tag mark ∧ kind = 0x22) ∨ (c = .releasePiece tag mark ∧ kind = 0x23) ∨
        (c = .rejectPiece tag mark ∧ kind = 0x24) →
      (¬ (1 ≤ mark ∧ mark ≤ 65535) → runsTo c s fun t => refusedWith s t kind tag .range) ∧
      (1 ≤ mark → mark ≤ 65535 → pieceOf s.toPart mark = none →
        runsTo c s fun t => refusedWith s t kind tag .unknown)) ∧
    ∀ q : Piece, 1 ≤ mark → mark ≤ 65535 → pieceOf s.toPart mark = some q →
    let stocked := ∃ n k, q.place = .slot n k
    let with_ (r : Piece) : Part := { s.toPart with sm := { s.sm with pieces := Map.put s.sm.pieces mark r } }
    (q.move.isSome →
      (runsTo (.holdPiece tag mark) s fun t => refusedWith s t 0x22 tag .busy) ∧
      (runsTo (.rejectPiece tag mark) s fun t => refusedWith s t 0x24 tag .busy)) ∧
    (q.move = none → ¬ (stocked ∧ (q.condition = .curing ∨ q.condition = .shippable)) →
      runsTo (.holdPiece tag mark) s fun t => refusedWith s t 0x22 tag .state) ∧
    (q.move = none → stocked → q.condition = .curing ∨ q.condition = .shippable →
      runsTo (.holdPiece tag mark) s fun t => settles s t (with_ { q with condition := .held }) ∧
        answered s t 0x22 tag .ok (standingFields { q with condition := .held }) .nothing ∧
        scanned s t (with_ { q with condition := .held }) ∧ told s t []) ∧
    (q.move = none → ¬ (stocked ∧ (q.condition = .curing ∨ q.condition = .held ∨ q.condition = .shippable)) →
      runsTo (.rejectPiece tag mark) s fun t => refusedWith s t 0x24 tag .state) ∧
    (q.move = none → stocked → q.condition = .curing ∨ q.condition = .held ∨ q.condition = .shippable →
      runsTo (.rejectPiece tag mark) s fun t => settles s t (with_ { q with condition := .rejected }) ∧
        answered s t 0x24 tag .ok (standingFields { q with condition := .rejected }) .nothing ∧
        scanned s t (with_ { q with condition := .rejected }) ∧ told s t []) ∧
    (q.condition ≠ .held → runsTo (.releasePiece tag mark) s fun t => refusedWith s t 0x23 tag .state) ∧
    (q.condition = .held →
      let r : Piece := { q with released := true, condition := if onBed q then .curing else judged s.store q }
      let withdrawn (n : Nat) (m : Move) (c : CraneId) (k : Nat) : Prop := q.move = some n ∧ moveOf s.toPart n = some m ∧
        m.kind = .ship ∧ m.state = .dispatched ∧ m.crane = some c ∧ m.piece = some k ∧
        (craneOf s.toPart c).load = none ∧ r.condition ≠ .shippable
      runsTo (.releasePiece tag mark) s fun t => settles s t (with_ r) ∧
        answered s t 0x23 tag .ok (standingFields r) .nothing ∧
        ((∀ n m c k, ¬ withdrawn n m c k) → scanned s t (with_ r) ∧ told s t []) ∧
        ∀ n m c k, withdrawn n m c k → told s t [.moveSuspended n k .held none] ∧ stopSent s t c ∧
          ((craneOf s.toPart c).state = .takeUp → ∀ a nd, craneNode s.store c = some a → nodeOf s.toPart a = some nd →
            nd.standing ≠ .lost → (∃ e ∈ t.fl.queue, e.addr = a ∧ e.cmd = .lower) ∨
              (craneOf t.toPart c).kept = some .lower) ∧
          ∃ u, scanned s t u ∧ u.mc = s.mc ∧ u.bs = s.bs ∧ u.sm.pieces = Map.put s.sm.pieces mark r ∧
            moveOf u n = some { m with state := .suspended, reason := some .held, crane := none } ∧
            (∀ j, (slotOf u j).stack = (slotOf s.toPart j).stack ∧ (slotOf u j).lock = (slotOf s.toPart j).lock ∧
              (slotOf u j).engaged = (slotOf s.toPart j).engaged.filter fun e => e.1 != n) ∧
            craneCore (craneOf u c) = craneCore { craneOf s.toPart c with
              state := .idle, move := none, dispatchPos := none, stoppedStep := none } ∧
            reservationOf u c = rested s c ((craneOf s.toPart c).pos.getD 0) ∧
            craneCore (craneOf u (otherCrane c)) = craneCore (craneOf s.toPart (otherCrane c)) ∧
            reservationOf u (otherCrane c) = reservationOf s.toPart (otherCrane c))

/-- LOCATE puts an UNLOCATED piece that passes the placement test on top of a slot, HELD unless REJECTED, its released flag
clear; REMOVE PIECE removes an UNLOCATED piece and lowers its pour's count, freeing the pour at 0 when it is not current. In
RUN the scan then runs (R121). A piece in another place is STATE, a mark or a slot out of range or not configured RANGE, a
mark of no piece UNKNOWN. What LOCATE leaves is said whole of records in which no SHIP move is to be withdrawn (R128). The
first clause gives the seven conditions of the placement test (R96). The model's choices: REMOVE PIECE answers with the
condition and place the piece had (notes/assumptions/18.md), and the bytes of the place (notes/assumptions/6.md). -/
def Obligations.LocateAndRemove : Prop :=
  (∀ (g : Store) (p : Part) (len mass : Nat) (source : Option Nat) (n : Nat),
    (∀ mark ∈ (slotOf p n).stack, (pieceOf p mark).isSome) →
    (placementTest g p len mass source n = true ↔
      ∃ cfg, Map.find g.slots n = some cfg ∧ (slotOf p n).engaged = none ∧ (slotOf p n).lock = none ∧ source ≠ some n ∧
        (slotOf p n).stack.length < cfg.tierLimit ∧
        (((slotOf p n).stack.filterMap (pieceOf p)).map (·.mass)).sum + mass ≤ cfg.massLimit ∧
        ∀ top q, (slotOf p n).stack.getLast? = some top → pieceOf p top = some q → len ≤ q.length)) ∧
  ∀ (s : State) (tag mark : Nat), ready s →
    (∀ slot, ¬ ((1 ≤ mark ∧ mark ≤ 65535) ∧ (1 ≤ slot ∧ slot ≤ 48) ∧ (Map.find s.store.slots slot).isSome) →
      runsTo (.locate tag mark slot) s fun t => refusedWith s t 0x25 tag .range) ∧
    (¬ (1 ≤ mark ∧ mark ≤ 65535) → runsTo (.removePiece tag mark) s fun t => refusedWith s t 0x26 tag .range) ∧
    (1 ≤ mark → mark ≤ 65535 → pieceOf s.toPart mark = none →
      (∀ slot, 1 ≤ slot → slot ≤ 48 → (Map.find s.store.slots slot).isSome →
        runsTo (.locate tag mark slot) s fun t => refusedWith s t 0x25 tag .unknown) ∧
      (runsTo (.removePiece tag mark) s fun t => refusedWith s t 0x26 tag .unknown)) ∧
    ∀ q : Piece, 1 ≤ mark → mark ≤ 65535 → pieceOf s.toPart mark = some q →
    (∀ slot, 1 ≤ slot → slot ≤ 48 → (Map.find s.store.slots slot).isSome →
      (q.place ≠ .unlocated → runsTo (.locate tag mark slot) s fun t => refusedWith s t 0x25 tag .state) ∧
      (q.place = .unlocated → placementTest s.store s.toPart q.length q.mass none slot = false →
        runsTo (.locate tag mark slot) s fun t => refusedWith s t 0x25 tag .range) ∧
      (q.place = .unlocated → placementTest s.store s.toPart q.length q.mass none slot = true →
        let was := slotOf s.toPart slot
        let r : Piece := { q with place := .slot slot (was.stack.length + 1), released := false
                                  condition := if q.condition = .rejected then .rejected else .held }
        runsTo (.locate tag mark slot) s fun t =>
          let u : Part := { s.toPart with sm := { s.sm with
            pieces := Map.put s.sm.pieces mark r
            slots := Map.put s.sm.slots slot { was with stack := was.stack ++ [mark] } } }
          settles s t u ∧ (spared u → scanned s t u ∧ told s t []) ∧
          answered s t 0x25 tag .ok (standingFields r) .nothing)) ∧
    (q.place ≠ .unlocated → runsTo (.removePiece tag mark) s fun t => refusedWith s t 0x26 tag .state) ∧
    (q.place = .unlocated → ∀ r, pourOf s.toPart q.pour = some r → runsTo (.removePiece tag mark) s fun t =>
      let left := if r.count - 1 = 0 ∧ r.current = false then Map.del s.bs.pours q.pour
        else Map.put s.bs.pours q.pour { r with count := r.count - 1 }
      let u : Part := { s.toPart with sm := { s.sm with pieces := Map.del s.sm.pieces mark }
                                      bs := { s.bs with pours := left } }
      settles s t u ∧ scanned s t u ∧ told s t [] ∧ answered s t 0x26 tag .ok (standingFields q) .nothing)

/-- The yard interval's expiry restarts the timer and credits each piece for its place in a stack with its area's
temperature above the datum over the run that ended, none where the area is unmeasured; a stacked CURING piece that has
reached its product's ship target, and is not held back by the review of its pour, becomes SHIPPABLE with PIECE SHIPPABLE
raised, and no other piece's condition changes; in RUN the scan follows where a piece became SHIPPABLE, and only there
(R121). The first clause gives the outcome for an area: its value where that fails none of R43's conditions, else UNMEASURED
with the first that fails (R49). -/
def Obligations.YardExpiryCredits : Prop :=
  (∀ (p : Part) (limit area : Nat),
    let r := areaRecord p area
    let lost := r.node.any fun a => (nodeOf p a).any fun nd => nd.standing == .lost
    let fails : List Bool := [r.value.isNone, lost, r.value == some (-32768),
      r.value.any fun v => decide (v < -400 ∨ 1250 < v), decide (limit ≤ r.age)]
    (∀ v, areaOutcome p limit area = .measured v ↔
      r.value = some v ∧ lost = false ∧ -400 ≤ v ∧ v ≤ 1250 ∧ r.age < limit) ∧
    ∀ cause, areaOutcome p limit area = .unmeasured cause ↔ cause ≠ .valid ∧
      [Validity.noneReceived, .lost, .opened, .range, .stale, .valid][fails.idxOf true]? = some cause) ∧
  ∀ s : State, s.mc.power = true →
    let dt := s.sm.timer.length / 1000
    let credits (mark : Nat) : List Nat := (Map.keys s.sm.slots).flatMap fun n =>
      ((slotOf s.toPart n).stack.filter fun k => k == mark).map fun _ =>
        match areaOutcome s.toPart (dt * 1000) (((Map.find s.store.slots n).map (·.area)).getD 0) with
        | .measured temp => (max (temp - s.store.plant.datum) 0).toNat * dt
        | .unmeasured _ => 0
    runsTo .yardIntervalExpiry s fun t =>
      t.store = s.store ∧ t.mc = s.mc ∧ t.bs = s.bs ∧ t.cc = s.cc ∧ t.tu.zones = s.tu.zones ∧
      t.pending = s.pending ∧ noReply s t ∧ t.sm.timer = .start (s.store.plant.yardInterval.toNat * 1000) ∧
      (∀ n, (slotOf t.toPart n).stack = (slotOf s.toPart n).stack) ∧
      (∀ mark, pieceOf s.toPart mark = none → pieceOf t.toPart mark = none) ∧
      (∀ mark q, pieceOf s.toPart mark = some q → ∃ r, pieceOf t.toPart mark = some r ∧
        r.acc = (credits mark).foldl (fun a k => min 4294967295 (a + k)) q.acc ∧ r.place = q.place ∧
        r.pour = q.pour ∧ r.product = q.product ∧ r.length = q.length ∧ r.mass = q.mass ∧ r.move = q.move ∧
        r.released = q.released ∧
        let due := q.condition = .curing ∧ (∃ n, mark ∈ (slotOf s.toPart n).stack) ∧
          (∃ e, product s.store q.product = some e ∧ e.ship ≤ reported r.acc) ∧
          (q.released = true ∨ ∀ o, pourOf s.toPart q.pour = some o → o.review = false)
        (¬ (due ∧ ∃ n k, q.place = .slot n k) → r.condition = q.condition) ∧
        (∀ n k, due → q.place = .slot n k → r.condition = .shippable ∧
          (s.cl.notices.length + s.sm.pieces.length ≤ 24 →
            .pieceShippable mark n k (reported r.acc) ∈ unheard t.cl))) ∧
      (let u : Part := { s.toPart with
          tu := t.tu, sm := { s.sm with pieces := t.sm.pieces, timer := t.sm.timer } }
       let promoted := ∃ mark q r, pieceOf s.toPart mark = some q ∧ pieceOf t.toPart mark = some r ∧
         q.condition ≠ .shippable ∧ r.condition = .shippable
       (promoted → scanned s t u) ∧ (¬ promoted → becomes s t s.store u)) ∧
      (∀ a, 1 ≤ a → a ≤ 4 →
        (areaRecord t.toPart a).result = some (areaOutcome s.toPart (dt * 1000) a) ∧
        (areaRecord t.toPart a).value = (areaRecord s.toPart a).value)

/-- The destination chooser, and the dispatch scan that asks it. The chooser answers a slot within the span that passes the
placement test and before which no other such slot is chosen (same product on top, then empty, then other; then nearer; then
the lower number), and none only where none passes (R97). A move is a candidate, and a crane legal for it, on the conditions
of R122 and R123. The scan leaves moves that are no candidates or have no legal free crane, and dispatches the next to the
nearer of its legal cranes, A on a tie: move DISPATCHED and bound, slots engaged, the reservation about position, source and
destination, the crane in TO_SOURCE (R124). Where nothing can be dispatched it parks the crane, nearer to its home first,
whose absence makes the other legal for the first candidate (R125), and otherwise does nothing: so with no candidate, with a
full queue, and with a crane not configured or not IDLE (R125). SET MODE RUN runs a scan of the records as they stand (R121,
R183). That the order of a chain is read off the rank of its members, the model's own field, 0 for a PARK, is a DESIGN
CHOICE (notes/assumptions/19.md). -/
def Obligations.DestinationChosen : Prop :=
  (∀ (g : Store) (p : Part) (q : Piece) (source : Option Nat) (x lo hi : Int),
    let passes (e : Nat × SlotCfg) := e ∈ g.slots ∧ lo ≤ e.2.x ∧ e.2.x ≤ hi ∧
      placementTest g p q.length q.mass source e.1 = true
    let rank (e : Nat × SlotCfg) : Nat × Nat × Nat := (slotRank p q.product e.1, distance e.2.x x, e.1)
    (chooseSlot g p q source x lo hi = none ↔ ∀ e, ¬ passes e) ∧
    ∀ n, chooseSlot g p q source x lo hi = some n →
      ∃ e, passes e ∧ e.1 = n ∧ ∀ d, passes d → chosenBefore (rank d) (rank e) = false) ∧
  (∀ (p : Part) (m : Move), candidate p m = true ↔
    m.state = .queued ∧ m.kind ≠ .park ∧
    (∀ k, m.chain = some k → ∀ n ∈ p.mp.queue, n.chain = some k → m.rank ≤ n.rank) ∧
    ∃ mark, m.piece = some mark ∧
      ((∃ b x, m.source = .bed b x ∧ (bedOf p b).state = .stripping ∧
          ∃ q y, pieceOf p mark = some q ∧ q.place = .bed b y) ∨
        ∃ n, m.source = .slot n ∧ (slotOf p n).stack.getLast? = some mark ∧ (slotOf p n).engaged = none) ∧
      (m.kind = .ship → ∃ q, pieceOf p mark = some q ∧ q.condition = .shippable) ∧
      (m.kind = .scrap → ∃ q, pieceOf p mark = some q ∧ q.condition = .rejected)) ∧
  (∀ (g : Store) (p : Part) (c : CraneId) (m : Move) (other : Option Reservation) (d : Dest),
    legal g p c m other = some d ↔ ∃ lo hi pos, (craneOf p c).pos = some pos ∧
      ((other = none ∧ craneCfg g (otherCrane c) = none ∧ lo = 0 ∧ hi = g.runway) ∨
        ∃ r, other = some r ∧ ((c = .A ∧ lo = 0 ∧ hi = r.lo - g.plant.clearance - 1) ∨
          (c = .B ∧ lo = r.hi + g.plant.clearance + 1 ∧ hi = g.runway))) ∧
      (lo ≤ pos ∧ pos ≤ hi) ∧ (lo ≤ sourcePos g m.source ∧ sourcePos g m.source ≤ hi) ∧
      ((m.dest = some d ∧ lo ≤ destPos g c d ∧ destPos g c d ≤ hi) ∨
        (m.dest = none ∧ ∃ mark q n, m.piece = some mark ∧ pieceOf p mark = some q ∧
          chooseSlot g p q m.source.slotNumber (sourcePos g m.source) lo hi = some n ∧ d = .slot n))) ∧
  (∀ (g : Store) (p : Part) (before after : List Move) (m : Move), p.mp.queue = before ++ m :: after →
    (p.mp.queue.map (·.number)).Nodup → candidate p m = true →
    let away (c : CraneId) (x : Int) : Nat := distance ((craneOf p c).pos.getD 0) x
    let first (c : CraneId) (a b : Nat) : Prop := a < b ∨ (a = b ∧ c = .A)
    let may (c : CraneId) (k : Move) : Option Dest :=
      if (craneOf p c).state = .idle ∧ (craneOf p c).move = none then legal g p c k (reservationOf p (otherCrane c))
      else none
    let stays (k : Move) : Prop := candidate p k = false ∨ ∀ c, may c k = none
    let src := sourcePos g m.source
    (∀ c d, (∀ k ∈ before, stays k) → may c m = some d →
      may (otherCrane c) m = none ∨ first c (away c src) (away (otherCrane c) src) →
      let t := scan g p
      moveOf t m.number = some { m with dest := some d, crane := some c, state := .dispatched } ∧
      (craneOf t c).state = .toSource ∧ (craneOf t c).move = some m.number ∧
      (craneOf t c).dispatchPos = (craneOf p c).pos ∧ (craneOf t c).pos = (craneOf p c).pos ∧
      reservationOf t c = some (stretch g [(craneOf p c).pos.getD 0, src, destPos g c d]) ∧
      ((∀ k, d = .slot k → (slotOf p k).engaged = none ∧ m.source ≠ .slot k) →
        (∀ n, m.source = .slot n → (slotOf t n).engaged = some (m.number, .source)) ∧
        ∀ k, d = .slot k → (slotOf t k).engaged = some (m.number, .destination))) ∧
    ((∀ k ∈ p.mp.queue, stays k) → (∀ k ∈ before, candidate p k = false) →
      (∀ c, (craneOf p c).state = .idle ∧ (craneOf p c).move = none ∧ (craneCfg g c).isSome) →
      p.mp.queue.length < 32 →
      let home (o : CraneId) : Int := destPos g o .home
      let helps (o : CraneId) : Prop := g.plant.arrivalTolerance < away o (home o) ∧
        (legal g p (otherCrane o) m (some (stretch g [home o]))).isSome ∧
        fits o (stretch g [(craneOf p o).pos.getD 0, home o]) p = true
      ((∀ o, ¬ helps o) → scan g p = p) ∧
      ∀ o, helps o → (helps (otherCrane o) → first o (away o (home o)) (away (otherCrane o) (home (otherCrane o)))) →
        let t := scan g p
        let n := newNumber p
        let pos := (craneOf p o).pos.getD 0
        t.mp.queue = { number := n, kind := .park, piece := none, source := .runway pos, dest := some .home,
                       chain := none, rank := 0, state := .dispatched, crane := some o, reason := none } ::
          p.mp.queue ∧
        (craneOf t o).state = .parking ∧ (craneOf t o).move = some n ∧
        reservationOf t o = some (stretch g [pos, home o]) ∧
        craneCore (craneOf t (otherCrane o)) = craneCore (craneOf p (otherCrane o)) ∧
        reservationOf t (otherCrane o) = reservationOf p (otherCrane o) ∧ t.sm = p.sm ∧ t.bs = p.bs)) ∧
  (∀ (g : Store) (p : Part),
    (∀ m ∈ p.mp.queue, candidate p m = false ∨ ∀ c, (craneOf p c).state = .idle → (craneOf p c).move = none →
      legal g p c m (reservationOf p (otherCrane c)) = none) →
    (∀ m ∈ p.mp.queue, candidate p m = false) ∨ 32 ≤ p.mp.queue.length ∨
      (∃ c, (craneOf p c).state ≠ .idle ∨ craneCfg g c = none) →
    scan g p = p) ∧
  ∀ (s : State) (tag : Nat), ready s → s.mc.mode ≠ .run → runsTo (.setMode tag 2) s fun t =>
    ∃ cl evt u, u = scan { s.store with lastMode := .run }
        { s.toPart with mc := { s.mc with mode := .run }, cl := cl, evt := evt } ∧
      t.mc = u.mc ∧ t.bs = u.bs ∧ t.cc = u.cc ∧ t.tu = u.tu ∧ t.sm = u.sm ∧ t.mp = u.mp ∧ t.csA = u.csA ∧
      t.csB = u.csB ∧ t.fl = u.fl

/-! ### Moves -/

/-- EXPEDITE brings a craneless move, with every craneless member of its chain in chain order, ahead of all others, which
keep their order (R131), and in RUN the scan then runs. A move on a crane and a PARK are STATE, a number not in the queue
UNKNOWN, one outside 1..255 RANGE. Chain order is that of the ranks, the model's own field (a DESIGN CHOICE,
notes/assumptions/19.md). -/
def Obligations.ExpediteHead : Prop :=
  ∀ (s : State) (tag n : Nat), ready s →
    (¬ (1 ≤ n ∧ n ≤ 255) → runsTo (.expedite tag n) s fun t => refusedWith s t 0x28 tag .range) ∧
    (1 ≤ n → n ≤ 255 → moveOf s.toPart n = none →
      runsTo (.expedite tag n) s fun t => refusedWith s t 0x28 tag .unknown) ∧
    (1 ≤ n → n ≤ 255 → ∀ m, moveOf s.toPart n = some m →
      (m.crane.isSome ∨ m.kind = .park → runsTo (.expedite tag n) s fun t => refusedWith s t 0x28 tag .state) ∧
      (m.crane = none → m.kind ≠ .park →
        ∃ first, first.Perm (s.mp.queue.filter (goesAlong m)) ∧ first.Pairwise (fun a b => a.rank ≤ b.rank) ∧
          runsTo (.expedite tag n) s fun t =>
            let u : Part := { s.toPart with mp := { s.mp with
              queue := first ++ s.mp.queue.filter fun k => !goesAlong m k } }
            settles s t u ∧ scanned s t u ∧ answered s t 0x28 tag .ok [.u8 first.length] .nothing ∧ told s t []))

/-- CANCEL MOVE of a move with no crane, or with an empty hook, removes it with the craneless rest of its chain, with their
engagements and dig lock, and a backlog fill and, in RUN, the scan follow (R117, R132, R135). A crane that was carrying it
out is offered STOP, and from TAKE_UP then LOWER, and becomes IDLE with no move and comes to rest (R120, R151); one STOPPED
with it stays STOPPED with its reservation. A loaded hook is BUSY, a number outside 1..255 RANGE, one of no queued move
UNKNOWN. That the dispatch position becomes absent with the move, and that a move which leaves its chain keeps its number
and place, are DEDUCED (notes/assumptions/17.md); so is that a crane which comes to rest with no reservation holds none
afterwards (notes/assumptions/15.md); and so is that the LOWER is offered outside any step, and kept by the supervisor where
the directed queue refuses it (notes/assumptions/11.md). -/
def Obligations.CancelMoveResult : Prop :=
  ∀ (s : State) (tag n : Nat), ready s →
    (¬ (1 ≤ n ∧ n ≤ 255) → runsTo (.cancelMove tag n) s fun t => refusedWith s t 0x29 tag .range) ∧
    (1 ≤ n → n ≤ 255 → (∀ k ∈ s.mp.queue, k.number ≠ n) →
      runsTo (.cancelMove tag n) s fun t => refusedWith s t 0x29 tag .unknown) ∧
    ∀ m : Move, 1 ≤ n → n ≤ 255 → moveOf s.toPart n = some m →
    let cut := cutMembers m s.mp.queue
    let gone (k : Nat) : Bool := k == n || cut.contains k
    (∀ c, m.crane = some c → (craneOf s.toPart c).load.isSome →
      runsTo (.cancelMove tag n) s fun t => refusedWith s t 0x29 tag .busy) ∧
    ((∀ c, m.crane = some c → (craneOf s.toPart c).load = none) → runsTo (.cancelMove tag n) s fun t =>
      t.store = s.store ∧ t.mc = s.mc ∧ t.bs = s.bs ∧ t.cc = s.cc ∧ t.tu = s.tu ∧ t.sm.timer = s.sm.timer ∧
      t.pending = s.pending ∧ told s t [] ∧ answered s t 0x29 tag .ok [.u8 (1 + cut.length)] .nothing ∧
      (∀ k, (pieceOf t.toPart k).map (fun r => { r with move := none }) =
        (pieceOf s.toPart k).map fun r => { r with move := none }) ∧
      (∀ k, (slotOf t.toPart k).stack = (slotOf s.toPart k).stack) ∧
      (∀ c, m.crane = some c → m.state = .dispatched → stopSent s t c ∧
        ((craneOf s.toPart c).state = .takeUp → ∀ a nd, craneNode s.store c = some a → nodeOf s.toPart a = some nd →
          nd.standing ≠ .lost → (∃ e ∈ t.fl.queue, e.addr = a ∧ e.cmd = .lower) ∨
            (craneOf t.toPart c).kept = some .lower)) ∧
      ∃ u, scanned s t u ∧ u.mc = s.mc ∧ freedOf s u gone ∧
        filledFrom s ((s.mp.queue.filter fun k => !gone k.number).map fun k =>
          if m.chain.isSome && k.chain == m.chain then { k with chain := none } else k) u.mp.queue ∧
        (movesSound s.toPart → s.mp.backlog = [] → ∀ k, pieceOf u k = (pieceOf s.toPart k).map fun q =>
          if s.mp.queue.any fun j => gone j.number && j.piece == some k then { q with move := none } else q) ∧
        (∀ c, m.crane ≠ some c → craneCore (craneOf u c) = craneCore (craneOf s.toPart c) ∧
          reservationOf u c = reservationOf s.toPart c) ∧
        (m.crane = none → u.csA = s.csA ∧ u.csB = s.csB ∧ u.fl = s.fl) ∧
        ∀ c, m.crane = some c →
          let r := craneOf s.toPart c
          let without : Crane := { r with move := none, dispatchPos := none, stoppedStep := none }
          (m.state = .dispatched → craneCore (craneOf u c) = craneCore { without with state := .idle } ∧
            reservationOf u c = rested s c (r.pos.getD 0)) ∧
          (m.state ≠ .dispatched → craneCore (craneOf u c) = craneCore without ∧
            reservationOf u c = reservationOf s.toPart c))

/-- RETRY MOVE takes a move SUSPENDED unbound back to QUEUED in its place, with no reason, and in RUN the scan then runs
(R133); any other move is STATE, a number outside 1..255 RANGE, and one of no queued move UNKNOWN. -/
def Obligations.RetryMoveResult : Prop :=
  ∀ (s : State) (tag n : Nat), ready s →
    (¬ (1 ≤ n ∧ n ≤ 255) → runsTo (.retryMove tag n) s fun t => refusedWith s t 0x2A tag .range) ∧
    (1 ≤ n → n ≤ 255 → (∀ k ∈ s.mp.queue, k.number ≠ n) →
      runsTo (.retryMove tag n) s fun t => refusedWith s t 0x2A tag .unknown) ∧
    ∀ m : Move, 1 ≤ n → n ≤ 255 → moveOf s.toPart n = some m →
    (m.state ≠ .suspended ∨ m.crane.isSome → runsTo (.retryMove tag n) s fun t => refusedWith s t 0x2A tag .state) ∧
    (m.state = .suspended → m.crane = none → runsTo (.retryMove tag n) s fun t =>
      let u : Part := { s.toPart with mp := { s.mp with queue := s.mp.queue.map fun k =>
        if k.number = n then { m with state := .queued, reason := none } else k } }
      settles s t u ∧ scanned s t u ∧ answered s t 0x2A tag .ok [] .nothing ∧ told s t [])

/-! ### Cranes -/

/-- RESUME CRANE of a STOPPED crane that may move sets its reservation and ends the stop: it goes on with the step it was
stopped in, its move DISPATCHED again, or slackens its hook, or becomes IDLE with that reservation, a SHIP move whose piece
is not SHIPPABLE SUSPENDED with reason HELD; in RUN the scan then runs for a crane that became IDLE. A move is resumed in
RUN only; a reservation that does not fit is CLEARANCE, and a byte that names no configured crane RANGE. That the reply
carries the reservation as MP has set it is the model's choice (notes/assumptions/18.md); that the dispatch position and
stopped step become absent with the move is DEDUCED (notes/assumptions/17.md). -/
def Obligations.ResumeCraneResult : Prop :=
  ∀ (s : State) (tag crane : Nat), ready s → s.mc.mode ≠ .setup →
    (¬ (crane = 0x41 ∧ s.store.craneA.isSome) → ¬ (crane = 0x42 ∧ s.store.craneB.isSome) →
      runsTo (.resumeCrane tag crane) s fun t => refusedWith s t 0x2C tag .range) ∧
    ∀ c : CraneId, craneOfByte crane = some c → (craneCfg s.store c).isSome →
    let r := craneOf s.toPart c
    let lost := ∃ a, craneNode s.store c = some a ∧ nodeLost s.toPart a = true
    let m := resumedMove s.toPart c
    let res := stretch s.store (r.pos.getD 0 :: remainingPoints s.store s.toPart c m)
    (r.state ≠ .stopped → runsTo (.resumeCrane tag crane) s fun t => refusedWith s t 0x2C tag .state) ∧
    (r.state = .stopped → r.fresh = false ∨ lost ∨ r.driveFault = some true →
      runsTo (.resumeCrane tag crane) s fun t => refusedWith s t 0x2C tag .busy) ∧
    (r.state = .stopped → r.fresh = true → ¬ lost → r.driveFault ≠ some true →
      (s.mc.mode ≠ .run → m.isSome → runsTo (.resumeCrane tag crane) s fun t => refusedWith s t 0x2C tag .mode) ∧
      (s.mc.mode = .run ∨ m = none →
        (fits c res s.toPart = false →
          runsTo (.resumeCrane tag crane) s fun t => refusedWith s t 0x2C tag .clearance) ∧
        (fits c res s.toPart = true → runsTo (.resumeCrane tag crane) s fun t =>
          t.store = s.store ∧ t.mc = s.mc ∧ t.bs = s.bs ∧ t.cc = s.cc ∧ t.tu = s.tu ∧
          t.sm.pieces = s.sm.pieces ∧ t.sm.timer = s.sm.timer ∧ t.pending = s.pending ∧
          (craneOf t.toPart c).state ≠ .stopped ∧ (craneOf t.toPart c).reason = none ∧
          (craneOf t.toPart c).load = r.load ∧ (craneOf t.toPart c).pos = r.pos ∧
          answered s t 0x2C tag .ok [posField res.lo, posField res.hi] .nothing ∧
          (∀ k step, m = some k → r.stoppedStep = some step →
            (craneOf t.toPart c).state = stateOf step ∧ (craneOf t.toPart c).move = r.move ∧
            reservationOf t.toPart c = some res ∧ told s t [] ∧
            moveOf t.toPart k.number = some { k with state := .dispatched, reason := none }) ∧
          (m = none → r.slackening = true → (craneOf t.toPart c).state = .lower ∧
            reservationOf t.toPart c = some res ∧ told s t []) ∧
          (m = none → r.slackening = false → ∃ u, scanned s t u ∧ u.mc = s.mc ∧
            craneCore (craneOf u c) = craneCore { r with state := .idle, reason := none, fresh := false, move := none,
                                                         stoppedStep := none, dispatchPos := none } ∧
            craneOf u (otherCrane c) = craneOf s.toPart (otherCrane c) ∧ u.fl = s.fl ∧
            reservationOf u c = some res ∧
            reservationOf u (otherCrane c) = reservationOf s.toPart (otherCrane c) ∧
            ((moveHeld s.toPart c).isNone → u.mp.queue = s.mp.queue ∧ u.sm = s.sm ∧ told s t []) ∧
            ∀ k mark, moveHeld s.toPart c = some k → k.piece = some mark →
              told s t [.moveSuspended k.number mark .held none] ∧
              (∀ n, (slotOf u n).stack = (slotOf s.toPart n).stack ∧ (slotOf u n).lock = (slotOf s.toPart n).lock ∧
                (slotOf u n).engaged = (slotOf s.toPart n).engaged.filter fun e => e.1 != k.number) ∧
              moveOf u k.number = some { k with state := .suspended, reason := some .held, crane := none }))))

/-- CRANE OUT takes an IDLE crane, or a STOPPED one with no move that is not slackening, out of service with the reservation
about its position; CRANE IN makes it IDLE again, and its reply's reservation as it stands is the model's choice
(notes/assumptions/18.md). In RUN the dispatch scan then runs after a CRANE OUT whose reservation shrinks, and only then,
and after every CRANE IN (R121). A byte that names no configured crane is RANGE. -/
def Obligations.CraneOutAndIn : Prop :=
  ∀ (s : State) (tag crane : Nat), ready s → s.mc.mode ≠ .setup →
    (¬ (crane = 0x41 ∧ s.store.craneA.isSome) → ¬ (crane = 0x42 ∧ s.store.craneB.isSome) →
      (runsTo (.craneOut tag crane) s fun t => refusedWith s t 0x2D tag .range) ∧
      (runsTo (.craneIn tag crane) s fun t => refusedWith s t 0x2E tag .range)) ∧
    ∀ c : CraneId, craneOfByte crane = some c → (craneCfg s.store c).isSome →
    let r := craneOf s.toPart c
    let res := stretch s.store [r.pos.getD 0]
    let same (t : State) := t.store = s.store ∧ t.mc = s.mc ∧ t.bs = s.bs ∧ t.cc = s.cc ∧ t.tu = s.tu ∧
      t.sm.pieces = s.sm.pieces ∧ t.sm.timer = s.sm.timer ∧ t.pending = s.pending
    (r.state ≠ .idle → r.state ≠ .stopped → runsTo (.craneOut tag crane) s fun t => refusedWith s t 0x2D tag .state) ∧
    (r.state = .stopped → r.move.isSome ∨ r.slackening = true →
      runsTo (.craneOut tag crane) s fun t => refusedWith s t 0x2D tag .busy) ∧
    (r.state = .idle ∨ (r.state = .stopped ∧ r.move = none ∧ r.slackening = false) →
      (fits c res s.toPart = false → runsTo (.craneOut tag crane) s fun t => refusedWith s t 0x2D tag .clearance) ∧
      (fits c res s.toPart = true → runsTo (.craneOut tag crane) s fun t =>
        same t ∧ answered s t 0x2D tag .ok [posField res.lo, posField res.hi] .nothing ∧ told s t [] ∧
        craneCore (craneOf t.toPart c) = craneCore { r with state := .outOfService, reason := none } ∧
        reservationOf t.toPart c = some res ∧
        ∃ u, (let shrinks := ∃ old, reservationOf s.toPart c = some old ∧ old.lo ≤ res.lo ∧ res.hi ≤ old.hi ∧
                (old.lo, old.hi) ≠ (res.lo, res.hi)
              (shrinks → scanned s t u) ∧ (¬ shrinks → becomes s t s.store u)) ∧ u.mc = s.mc ∧
          craneOf u c = { r with state := .outOfService, reason := none } ∧
          craneOf u (otherCrane c) = craneOf s.toPart (otherCrane c) ∧ reservationOf u c = some res ∧
          reservationOf u (otherCrane c) = reservationOf s.toPart (otherCrane c) ∧ u.fl = s.fl ∧
          u.mp.queue = s.mp.queue ∧ u.sm = s.sm)) ∧
    (r.state ≠ .outOfService → runsTo (.craneIn tag crane) s fun t => refusedWith s t 0x2E tag .state) ∧
    (r.state = .outOfService → runsTo (.craneIn tag crane) s fun t =>
      same t ∧ answered s t 0x2E tag .ok (reservationFields (reservationOf s.toPart c)) .nothing ∧ told s t [] ∧
      ∃ u, scanned s t u ∧ u.mc = s.mc ∧ craneOf u c = { r with state := .idle } ∧
        craneOf u (otherCrane c) = craneOf s.toPart (otherCrane c) ∧ u.fl = s.fl ∧ u.mp = s.mp ∧ u.sm = s.sm)

/-- A step timer's expiry stops its crane with reason TIMEOUT, a STOP offered for its node (R145, R146), its load and
position as they were, its move SUSPENDED with the crane, and CRANE STOPPED raised. That it changes nothing of a crane with
no timer running is DEDUCED (notes/assumptions/16.md). -/
def Obligations.StepTimerStops : Prop :=
  ∀ (s : State) (c : CraneId), s.mc.power = true →
    let r := craneOf s.toPart c
    (r.timer = none ∨ r.state = .unlocated ∨ r.state = .stopped → runsTo (.stepTimerExpiry c) s fun t =>
      becomes s t s.store s.toPart ∧ noReply s t ∧ told s t []) ∧
    (r.timer.isSome → r.state ≠ .unlocated → r.state ≠ .stopped → movesSound s.toPart →
      runsTo (.stepTimerExpiry c) s fun t =>
        t.store = s.store ∧ t.mc = s.mc ∧ t.bs = s.bs ∧ t.cc = s.cc ∧ t.tu = s.tu ∧ t.sm.pieces = s.sm.pieces ∧
        t.sm.timer = s.sm.timer ∧ t.pending = s.pending ∧ noReply s t ∧
        stopSent s t c ∧ (craneOf t.toPart c).state = .stopped ∧ (craneOf t.toPart c).reason = some .timeout ∧
        (craneOf t.toPart c).timer = none ∧ (craneOf t.toPart c).command = none ∧
        (craneOf t.toPart c).fresh = false ∧ (craneOf t.toPart c).load = r.load ∧
        (craneOf t.toPart c).pos = r.pos ∧ (craneOf t.toPart c).move = r.move ∧
        (s.cl.notices.length < 24 → .craneStopped c .timeout r.pos r.move r.load ∈ unheard t.cl) ∧
        (∀ n m, r.move = some n → moveOf s.toPart n = some m →
          ∃ k ∈ t.mp.queue, k.number = n ∧ k.state = .suspended ∧ k.reason = some .timeout ∧ k.crane = m.crane) ∧
        ∃ u, (let suspends := ∃ n, r.move = some n ∧ (moveOf s.toPart n).isSome
              (suspends → scanned s t u) ∧ (¬ suspends → becomes s t s.store u)) ∧ u.mc = s.mc ∧
          craneCore (craneOf u (otherCrane c)) = craneCore (craneOf s.toPart (otherCrane c)))

/-- What a crane's good reply does before its step is judged (R140). From a LOST node it first brings the node back: NODE
BACK, and a STOP offered in every state of the crane (R148, R169). The first reply locates the crane: IDLE with the
reservation about its position, or STOPPED with reason CLEARANCE where that does not fit (R150); once located, a position
beyond the runway, to which the reservation is clamped, is OVERRUN at once, and a fault count at the filter DRIVE_FAULT. A
reply outside the reservation stops the crane with reason OVERRUN, and the other crane, if it is located and not STOPPED,
with reason OVERRUN_OTHER; STOP is offered for both; later replies of a crane STOPPED with OVERRUN act no more, and with no
command queued none is sent (R149). The fault count rises by one or becomes 0, and at the fault filter the crane is STOPPED
with reason DRIVE_FAULT (R147). A reply that stops nothing and completes nothing leaves its values in the record, and
nothing more. -/
def Obligations.OverrunStops : Prop :=
  ∀ (s : State) (c : CraneId) (ex : Exchange) (nd : Node) (chars : List FieldChar) (y : CraneReply),
    craneReplies s c ex nd chars y →
    let r := craneOf s.toPart c
    let now := heard y r
    let lost := nd.standing = .lost
    let back : List Notice := if lost then [.nodeBack ex.addr ex.owner] else []
    let own := craneNode s.store c = some ex.addr
    let taken (φ : State → Prop) : Prop := runsTo (.replyComplete chars) s fun t =>
      replyTaken s t ex nd chars ∧ toldFirst s t back ∧ (lost → own → stopOffered s t ex.addr) ∧ φ t
    let others (p : Part) : Prop := craneCore (craneOf p (otherCrane c)) = craneCore (craneOf s.toPart (otherCrane c)) ∧
      p.bs = s.bs ∧ p.cc = s.cc
    let stops (t : State) (reason : StopReason) : Prop :=
      (own → stopOffered s t ex.addr) ∧ (craneOf t.toPart c).state = .stopped ∧
      (craneOf t.toPart c).reason = some reason ∧ (craneOf t.toPart c).pos = some y.pos ∧
      (craneOf t.toPart c).load = r.load ∧ (craneOf t.toPart c).move = r.move
    (r.state = .unlocated → reservationOf s.toPart c = none → r.move = none →
      let res := stretch s.store [y.pos]
      (fits c res s.toPart = true → y.pos ≤ s.store.runway → 0 ≤ s.store.plant.clearance →
        (now.faults : Int) < s.store.plant.faultFilter → taken fun t => told s t back ∧
          (craneOf t.toPart c).state ≠ .unlocated ∧ (craneOf t.toPart c).pos = some y.pos ∧
          (reservationOf t.toPart c).isSome ∧
          ∃ u, scannedCore s t u ∧ others u ∧ craneCore (craneOf u c) = craneCore { now with state := .idle } ∧
            reservationOf u c = some res ∧ u.mp.queue = s.mp.queue ∧ u.sm = s.sm) ∧
      (fits c res s.toPart = true → s.store.runway < y.pos → taken fun t =>
        t.bs = s.bs ∧ t.cc = s.cc ∧ t.sm = s.sm ∧ stops t .overrun ∧ stopSent s t (otherCrane c) ∧
        reservationOf t.toPart c = some res ∧
        toldFirst s t (back ++ [.craneStopped c .overrun (some y.pos) none r.load]) ∧
        (canStop (craneOf s.toPart (otherCrane c)).state = true →
          (craneOf t.toPart (otherCrane c)).state = .stopped ∧
          (craneOf t.toPart (otherCrane c)).reason = some .overrunOther)) ∧
      (fits c res s.toPart = true → y.pos ≤ s.store.runway → 0 ≤ s.store.plant.clearance →
        s.store.plant.faultFilter ≤ (now.faults : Int) → taken fun t =>
          stops t .driveFault ∧ reservationOf t.toPart c = some res ∧
          told s t (back ++ [.craneStopped c .driveFault (some y.pos) none r.load]) ∧
          ∃ u, scannedCore s t u ∧ others u ∧ u.mp.queue = s.mp.queue ∧ u.sm = s.sm ∧ reservationOf u c = some res ∧
            craneCore (craneOf u c) = craneCore (craneOf t.toPart c) ∧
            reservationOf u (otherCrane c) = reservationOf s.toPart (otherCrane c)) ∧
      (fits c res s.toPart = false → taken fun t => others t.toPart ∧ t.sm = s.sm ∧ t.mp = s.mp ∧
        stops t .clearance ∧ told s t (back ++ [.craneStopped c .clearance (some y.pos) none r.load]))) ∧
    (∀ res, r.state ≠ .unlocated → reservationOf s.toPart c = some res → y.pos < res.lo ∨ res.hi < y.pos →
      (¬ (r.state = .stopped ∧ r.reason = some .overrun) → taken fun t =>
        t.bs = s.bs ∧ t.cc = s.cc ∧ t.sm.pieces = s.sm.pieces ∧ stops t .overrun ∧ stopSent s t (otherCrane c) ∧
        toldFirst s t (back ++ [.craneStopped c .overrun (some y.pos) r.move r.load]) ∧
        (canStop (craneOf s.toPart (otherCrane c)).state = true →
          (craneOf t.toPart (otherCrane c)).state = .stopped ∧
          (craneOf t.toPart (otherCrane c)).reason = some .overrunOther)) ∧
      (r.state = .stopped ∧ r.reason = some .overrun → taken fun t => others t.toPart ∧ t.sm = s.sm ∧ t.mp = s.mp ∧
        told s t back ∧ craneCore (craneOf t.toPart c) = craneCore now ∧
        (¬ lost → s.fl.queue = [] → t.fl.queue = [] ∧ (s.fl.repeatStop = none → s.fl.waiting = [] →
          ∀ x, t.fl.line = some x → x.cmd = .poll)))) ∧
    (r.state ≠ .unlocated → keptWithin s c y.pos →
      (r.state = .stopped ∨ (now.faults : Int) < s.store.plant.faultFilter →
        (∀ step, stepOf r.state = some step → stepComplete s.store s.toPart c y step = false ∨
          ∀ cmd id, r.command = some (cmd, .carried id) → ex.id ≤ id) → taken fun t =>
          others t.toPart ∧ t.sm = s.sm ∧ t.mp = s.mp ∧ told s t back ∧
          craneCore (craneOf t.toPart c) = craneCore now) ∧
      (r.state ≠ .stopped → s.store.plant.faultFilter ≤ (now.faults : Int) → taken fun t =>
        t.bs = s.bs ∧ t.cc = s.cc ∧ t.sm.pieces = s.sm.pieces ∧ stops t .driveFault ∧
        toldFirst s t (back ++ [.craneStopped c .driveFault (some y.pos) r.move r.load])))

/-- The load check, and the steps of a move. The load is accepted within the tolerance, HIGH above it, LOW below it; 9,800
kg at 10 % accepts 8,820..10,780 (R141). A judged reply that shows a step's completion begins the next step: TAKE_UP after
TO_SOURCE, TO_DEST after LIFT, LOWER after TO_DEST, its command QUEUED or WAITING (R139, R140). At the end of TAKE_UP an
accepted load is lifted off its bed or slot and LIFT begins (R99, R142); a refused one is let down, its move SUSPENDED
unbound, MOVE SUSPENDED raised (R143). At the end of LOWER the piece is placed on its slot or in its bay, PIECE PLACED and
MOVE DONE raised, and the move done (R100, R101, R126, R144); so it is, with no notice, at the end of PARKING: out of the
queue, its engagements and dig lock free, the backlog filled, the crane IDLE and at rest, and in RUN the scan then runs; a
crane that slackened becomes IDLE. What a reservation that shrinks keeps, and when the dispatch position, the stopped step
and the load become absent, is DEDUCED (notes/assumptions/15.md, notes/assumptions/17.md). -/
def Obligations.LoadCheck : Prop :=
  (∀ (t : Int) (m s : Nat), 0 ≤ t → t ≤ 100 →
    (judgeLoad t m s = .accepted ↔ (m : Int) * (100 - t) ≤ s * 100 ∧ (s : Int) * 100 ≤ m * (100 + t)) ∧
    (judgeLoad t m s = .high ↔ (m : Int) * (100 + t) < s * 100) ∧
    (judgeLoad t m s = .low ↔ (s : Int) * 100 < m * (100 - t))) ∧
  (∀ s, judgeLoad 10 9800 s = .accepted ↔ 8820 ≤ s ∧ s ≤ 10780) ∧
  ∀ (s : State) (c : CraneId) (ex : Exchange) (nd : Node) (chars : List FieldChar) (y : CraneReply),
    replyJudged s c ex nd chars y →
    let r := craneOf s.toPart c
    let now := heard y r
    let after (φ : State → Prop) : Prop := runsTo (.replyComplete chars) s fun t => replyTaken s t ex nd chars ∧ φ t
    let is (p : Part) (k : Crane) : Prop := craneCore (craneOf p c) = craneCore k
    let begun (t : State) (cmd : FieldCmd) (kind : TimeoutKind) (limit : Int) : Prop :=
      ex.by_ = none → stepBegun (craneOf t.toPart c) cmd kind limit
    let others (p : Part) : Prop := craneCore (craneOf p (otherCrane c)) = craneCore (craneOf s.toPart (otherCrane c)) ∧
      reservationOf p (otherCrane c) = reservationOf s.toPart (otherCrane c)
    let idle : Crane := { now with state := .idle, slackening := false, move := none, dispatchPos := none,
                                   stoppedStep := none, load := none }
    let lifting (mark : Nat) : Crane := { now with state := .lift, load := some mark }
    let slack : Crane := { now with state := .lower, slackening := true, move := none, dispatchPos := none }
    let done (t : State) (n : Nat) : Prop := (craneOf t.toPart c).load = none ∧ (craneOf t.toPart c).slackening = false ∧
      ∃ u, scannedCore s t u ∧ is u idle ∧ others u ∧ reservationOf u c = rested s c y.pos ∧
        freedOf s u (fun k => k == n) ∧ filledFrom s (s.mp.queue.filter fun k => k.number != n) u.mp.queue
    (∀ step next cmd kind limit, r.state = stateOf step →
      (step = .toSource ∧ reached s.store y (heldSource s.store s.toPart c) ∧ next = .takeUp ∧ cmd = .takeUp ∧
          kind = .hook ∧ limit = s.store.plant.hookTimeout) ∨
        (step = .lift ∧ y.hook = .up ∧ y.done = true ∧ next = .toDest ∧ cmd = .goto (heldDest s.store s.toPart c) ∧
          kind = .travel ∧ limit = s.store.plant.travelTimeout) ∨
        (step = .toDest ∧ reached s.store y (heldDest s.store s.toPart c) ∧ next = .lower ∧ cmd = .lower ∧
          kind = .hook ∧ limit = s.store.plant.hookTimeout) →
      after fun t => t.bs = s.bs ∧ t.cc = s.cc ∧ t.sm = s.sm ∧ t.mp = s.mp ∧ told s t [] ∧ others t.toPart ∧
        is t.toPart { now with state := stateOf next } ∧ begun t cmd kind limit) ∧
    (∀ n m mark q, r.move = some n → moveOf s.toPart n = some m → m.piece = some mark → pieceOf s.toPart mark = some q →
      (r.state = .takeUp → y.hook = .strained → y.done = true →
        let verdict := judgeLoad s.store.plant.loadTolerance q.mass y.strain
        (verdict = .accepted → after fun t =>
          is t.toPart (lifting mark) ∧ begun t .lift .hook s.store.plant.hookTimeout ∧
          (∀ k, k ≠ mark → pieceOf t.toPart k = pieceOf s.toPart k) ∧
          (∀ b x, q.place = .bed b x →
            let acc := zoneAccumulator s.toPart b q.zone
            let last := (bedOf s.toPart b).state = .stripping ∧ ∀ k ∈ piecesOnBed s.toPart b q.pour, k = mark
            pieceOf t.toPart mark = some { q with acc := acc, stripAcc := some acc, zone := none, place := .hook c } ∧
            others t.toPart ∧ t.mp = s.mp ∧ t.sm.slots = s.sm.slots ∧
            (last → bedOf t.toPart b = .vacant ∧ contextOf t.toPart b = none ∧ told s t [.bedEmpty b q.pour]) ∧
            (¬ last → t.bs = s.bs ∧ t.cc = s.cc ∧ told s t [])) ∧
          (∀ k tier, q.place = .slot k tier → pieceOf t.toPart mark = some { q with place := .hook c } ∧
            (slotOf t.toPart k).stack = (slotOf s.toPart k).stack.erase mark ∧ t.bs = s.bs ∧ t.cc = s.cc ∧
            told s t [] ∧ ∃ u, scannedCore s t u ∧ is u (lifting mark) ∧ others u ∧ u.mp = s.mp ∧ freedOf s u fun _ => false)) ∧
        (∀ reason, (verdict = .high ∧ reason = .loadHigh) ∨ (verdict = .low ∧ reason = .loadLow) → after fun t =>
          is t.toPart slack ∧ begun t .lower .hook s.store.plant.hookTimeout ∧ t.bs = s.bs ∧ t.cc = s.cc ∧ t.sm.pieces = s.sm.pieces ∧
          reservationOf t.toPart c = rested s c y.pos ∧
          told s t [.moveSuspended n mark reason (some (y.strain, q.mass))] ∧
          ∃ u, scannedCore s t u ∧ is u slack ∧ others u ∧ reservationOf u c = rested s c y.pos ∧
            (∀ k, (slotOf u k).stack = (slotOf s.toPart k).stack ∧ (slotOf u k).lock = (slotOf s.toPart k).lock ∧
              (slotOf u k).engaged = (slotOf s.toPart k).engaged.filter fun e => e.1 != n) ∧
            u.mp.backlog = s.mp.backlog ∧ u.mp.queue = s.mp.queue.map fun k => if k.number = n then { m with
              state := .suspended, reason := some reason, crane := none
              dest := if m.kind = .strip ∨ m.kind = .rehandle then none else m.dest } else k)) ∧
      (r.state = .lower → y.hook = .released → y.done = true →
        (∀ k, m.dest = some (.slot k) →
          let spot : Place := .slot k ((slotOf s.toPart k).stack.length + 1)
          let held := q.released = false ∧ ∃ o, pourOf s.toPart q.pour = some o ∧ o.review = true
          ∀ cond, (m.kind = .strip → held → cond = .held) → (m.kind = .strip → ¬ held → cond = judged s.store q) →
            (m.kind ≠ .strip → cond = q.condition) → after fun t => done t n ∧ t.bs = s.bs ∧ t.cc = s.cc ∧
            pieceOf t.toPart mark = some { q with place := spot, condition := cond, move := none } ∧
            (slotOf t.toPart k).stack = (slotOf s.toPart k).stack ++ [mark] ∧
            told s t [.piecePlaced mark (.place spot) cond (reported q.acc) n, .moveDone n m.kind mark (.place spot)]) ∧
        (∀ b, m.dest = some (.bay b) → after fun t => done t n ∧ t.bs.beds = s.bs.beds ∧ t.bs.seq = s.bs.seq ∧
          t.cc = s.cc ∧ pieceOf t.toPart mark = none ∧
          (∀ o, pourOf s.toPart q.pour = some o → pourOf t.toPart q.pour =
            if o.count - 1 = 0 ∧ o.current = false then none else some { o with count := o.count - 1 }) ∧
          told s t [.piecePlaced mark (.bay b) q.condition (reported q.acc) n, .moveDone n m.kind mark (.bay b)]))) ∧
    (∀ n m, r.state = .parking → reached s.store y (destPos s.store c .home) → r.move = some n →
      moveOf s.toPart n = some m → m.piece = none →
      after fun t => done t n ∧ t.bs = s.bs ∧ t.cc = s.cc ∧ told s t []) ∧
    (r.state = .lower → y.hook = .released → y.done = true → r.move = none → after fun t =>
      (craneOf t.toPart c).load = none ∧ (craneOf t.toPart c).slackening = false ∧ t.bs = s.bs ∧ t.cc = s.cc ∧
      t.sm.pieces = s.sm.pieces ∧ told s t [] ∧
      ∃ u, scannedCore s t u ∧ is u idle ∧ others u ∧ u.mp = s.mp ∧ u.sm = s.sm)

/-! ### The Field Link -/

/-- The reply timer's expiry fails the attempt with TIMEOUT, and a bad reply with the first cause of R157 that applies, and
hands nothing on; the cause is recorded as the node's last. A first attempt is retried at once if no STOP goes before it,
with the same request, or POLL where its command was withdrawn (R159, R160, R161); a second is a miss, which counts, and at
the miss limit makes the node LOST and stops its crane with NODE_LOST. That the reply timer runs from the moment the retry
begins is the model's choice (notes/assumptions/2.md). A miss on a SET VALVE sets the zone's resend flag, one on a crane's
command has the supervisor offer it again at once, a step's timer running on, and a missed STOP is begun again at once (R86,
R139, R159, R167); that the LOWER of a cancel is offered again too is DEDUCED (notes/assumptions/11.md). A node that becomes
LOST has no command left in the queue (R168). -/
def Obligations.FailedAttempts : Prop :=
  ∀ (s : State) (ex : Exchange) (nd : Node), s.mc.power = true → s.fl.line = some ex → ex.orphan = false →
    nodeOf s.toPart ex.addr = some nd → ∀ (i : Instr) (cause : AttemptFailure), failsWith i ex cause →
    (ex.attempt = 1 → s.fl.opened = true → s.fl.repeatStop = none → (∀ e ∈ s.fl.queue, isStop e.cmd = false) →
      runsTo i s fun t =>
        t.store = s.store ∧ t.mc = s.mc ∧ t.bs = s.bs ∧ t.cc = s.cc ∧ t.tu = s.tu ∧ t.sm = s.sm ∧ t.mp = s.mp ∧
        t.csA = s.csA ∧ t.csB = s.csB ∧ t.pending = s.pending ∧ noReply s t ∧ told s t [] ∧
        t.fl.line = some (if ex.withdrawn then { ex with attempt := 2, cmd := .poll, by_ := none }
          else { ex with attempt := 2 }) ∧ t.fl.waiting = s.fl.waiting ∧ t.fl.queue = s.fl.queue ∧
        t.fl.replyTimer = some (.start s.store.plant.replyTimeout.toNat) ∧
        t.fl.nodes = Map.put s.fl.nodes ex.addr { nd with lastCause := some cause }) ∧
    (ex.attempt ≠ 1 → runsTo i s fun t =>
      let misses := min 8 (nd.misses + 1)
      let losing := s.store.plant.missLimit ≤ (misses : Int) ∧ nd.standing ≠ .lost
      let carried (who : Requester) : Prop := ex.by_ = some who ∧ ex.withdrawn = false ∧ ex.cmd ≠ .stop
      t.store = s.store ∧ t.mc = s.mc ∧ t.bs = s.bs ∧ t.tu = s.tu ∧ t.sm.pieces = s.sm.pieces ∧
      t.cc.contexts = s.cc.contexts ∧ t.cc.alloc = s.cc.alloc ∧ t.cc.timer = s.cc.timer ∧ t.pending = s.pending ∧
      noReply s t ∧ craneHeard t.csA = craneHeard s.csA ∧ craneHeard t.csB = craneHeard s.csB ∧
      (¬ losing → craneCore t.csA = craneCore s.csA ∧ craneCore t.csB = craneCore s.csB ∧ t.sm = s.sm ∧ t.mp = s.mp ∧
        told s t []) ∧
      (∀ b z, carried .cc → ex.owner = .zone b z → t.cc.valves =
        Map.put s.cc.valves (zoneKey b z) { valveOf s.toPart b z with resend := true }) ∧
      (¬ carried .cc → t.cc.valves = s.cc.valves) ∧
      (losing → ∀ e ∈ t.fl.queue, e.addr ≠ ex.addr) ∧
      (¬ losing → nd.standing ≠ .lost →
        (ex.cmd = .stop → ex.by_.isSome → s.fl.opened = true → ∃ x, t.fl.line = some x ∧ x.addr = ex.addr ∧
          x.cmd = .stop ∧ x.by_ = ex.by_ ∧ x.attempt = 1) ∧
        (∀ c, carried (.cs c) → craneNode s.store c = some ex.addr →
          craneNode s.store (otherCrane c) ≠ some ex.addr → (craneOf s.toPart c).kept = none →
          let r := craneOf s.toPart c
          let again := craneOf t.toPart c
          (r.command = some (ex.cmd, .queued) →
            (again.command = some (ex.cmd, .queued) ∨ again.command = some (ex.cmd, .waiting)) ∧
            (∀ timer, r.timer = some timer → again.timer = some timer)) ∧
          (hasRoom s 1 → (∀ cmd, r.command ≠ some (cmd, .waiting)) → offered s t ex.addr ex.cmd))) ∧
      nodeOf t.toPart ex.addr = some { nd with
        misses := misses, lastCause := some cause, standing := if losing then .lost else nd.standing } ∧
      (losing → s.cl.notices.length < 24 → .nodeLost ex.addr nd.owner misses (some cause) ∈ unheard t.cl) ∧
      (∀ c, losing → nd.owner = .crane c → canStop (craneOf s.toPart c).state = true →
        (craneOf t.toPart c).state = .stopped ∧ (craneOf t.toPart c).reason = some .nodeLost))

/-- A good reply from a zone node makes it ALIVE with no misses, and TU takes its three values and its valve echo exactly as
received, at age 0; from a yard node, its one value, at age 0; every other record of TU stays (R39, R166). From a LOST zone
node NODE BACK is raised and SET VALVE offered with the handed opening, or 0 where there is none; taken, it is handed and
the resend flag cleared; refused, the flag is set (R86, R164, R169). That a handed opening that was absent becomes 0 is
DEDUCED (notes/assumptions/14.md). That nothing happens without an attempt on the line, or without a character, is DEDUCED
(notes/assumptions/16.md). -/
def Obligations.ZoneReplyStored : Prop :=
  ∀ (s : State) (chars : List FieldChar),
    (chars = [] ∨ s.fl.line = none → exec (.replyComplete chars) s = .next s) ∧
    (∀ (ex : Exchange) (nd : Node) (a : Nat) (v : Int),
      s.mc.power = true → s.fl.line = some ex → ex.orphan = false → ex.owner = .area a →
      nodeOf s.toPart ex.addr = some nd → chars ≠ [] → replyFault .yard ex.addr chars = none →
      yardContents (chars.map (·.data)) = some v →
      runsTo (.replyComplete chars) s fun t =>
        t.store = s.store ∧ t.mc = s.mc ∧ t.bs = s.bs ∧ t.cc = s.cc ∧ t.sm = s.sm ∧ t.mp = s.mp ∧
        t.tu.zones = s.tu.zones ∧ t.pending = s.pending ∧ noReply s t ∧
        craneCore t.csA = craneCore s.csA ∧ craneCore t.csB = craneCore s.csB ∧
        (∀ k, k ≠ a → areaRecord t.toPart k = areaRecord s.toPart k) ∧
        areaRecord t.toPart a = { areaRecord s.toPart a with value := some v, age := 0 } ∧
        nodeOf t.toPart ex.addr = some { nd with
          standing := .alive, misses := 0, lastReply := some (chars.map (·.data)), age := 0 } ∧
        told s t (if nd.standing = .lost then [.nodeBack ex.addr ex.owner] else [])) ∧
    ∀ (ex : Exchange) (nd : Node) (b z echo : Nat) (v1 v2 v3 : Int) (r : ZoneRecord),
      s.mc.power = true → s.fl.line = some ex → ex.orphan = false → ex.owner = .zone b z →
      nodeOf s.toPart ex.addr = some nd → chars ≠ [] → replyFault .zone ex.addr chars = none →
      zoneContents (chars.map (·.data)) = some (v1, v2, v3, echo) → zoneRecord s.toPart b z = some r →
      runsTo (.replyComplete chars) s fun t =>
        t.store = s.store ∧ t.mc = s.mc ∧ t.bs = s.bs ∧ t.sm = s.sm ∧ t.mp = s.mp ∧ t.tu.areas = s.tu.areas ∧
        t.cc.contexts = s.cc.contexts ∧ t.cc.alloc = s.cc.alloc ∧ t.cc.timer = s.cc.timer ∧ t.pending = s.pending ∧
        noReply s t ∧ (nd.standing ≠ .lost → t.cc.valves = s.cc.valves) ∧
        (∀ cfg, nd.standing = .lost → zoneCfg s.store b z = some cfg → cfg.node = ex.addr →
          let v := valveOf s.toPart b z
          let opening := v.handed.getD 0
          let now (w : Valve) : Prop := t.cc.valves = Map.put s.cc.valves (zoneKey b z) w
          let pending := ∃ e ∈ s.fl.queue, e.addr = ex.addr ∧ directedClass e.cmd = some .valve
          (pending ∨ hasRoom s 1 →
            now { v with handed := some opening, resend := false } ∧ offered s t ex.addr (.setValve opening)) ∧
          (¬ pending → ¬ hasRoom s 1 → now { v with resend := true })) ∧
        craneCore t.csA = craneCore s.csA ∧ craneCore t.csB = craneCore s.csB ∧
        t.tu.zones = Map.put s.tu.zones (zoneKey b z)
          { r with probe1 := ⟨some v1, 0⟩, probe2 := ⟨some v2, 0⟩, probe3 := ⟨some v3, 0⟩, echo := some echo } ∧
        nodeOf t.toPart ex.addr = some { nd with
          standing := .alive, misses := 0, lastReply := some (chars.map (·.data)), age := 0 } ∧
        told s t (if nd.standing = .lost then [.nodeBack ex.addr ex.owner] else [])

/-- The directed queue and the timers of FL. A LOST node's offer is discarded; a pending command of the same node and class
is replaced in place; a STOP, or a command that finds fewer than 16 others than STOPs, joins at the tail; any other is
refused (R164). A withdrawal takes the crane's pending TRAVEL and HOOK commands out, its STOP not, and marks such a command
on the line or waiting for its retry as withdrawn; here no supervisor holds a refused command, which the freed entry would
take (R165; that it may hold one outside any step is DEDUCED, notes/assumptions/11.md). With the previous round ended and
the line idle, the round timer's expiry begins a round: POLL to the lowest named address, the timer started again. A crane
poll timer's expiry makes a motion poll due and starts the timer again; on an idle line the poll begins at once. That the
reply timer runs from the moment a poll begins is the model's choice (notes/assumptions/2.md). That a round and a poll begin
at once on an idle line is DEDUCED (notes/assumptions/9.md), and so is that a timer not running changes nothing
(notes/assumptions/16.md). -/
def Obligations.RoundAndPollTimers : Prop :=
  (∀ (e : Entry) (p : Part) (nd : Node), nodeOf p e.addr = some nd →
    let same (d : Entry) : Prop := d.addr = e.addr ∧ directedClass d.cmd = directedClass e.cmd
    let queued (q : List Entry) : Part := { p with fl := { p.fl with queue := q } }
    (nd.standing = .lost → enqueue e p = (.discarded, p)) ∧
    (nd.standing ≠ .lost →
      (∀ before old after, p.fl.queue = before ++ old :: after → same old → (∀ d ∈ before ++ after, ¬ same d) →
        enqueue e p = (.accepted, queued (before ++ e :: after))) ∧
      ((∀ d ∈ p.fl.queue, ¬ same d) →
        let others := (p.fl.queue.filter fun d => d.cmd != .stop).length
        (e.cmd = .stop ∨ others < 16 → enqueue e p = (.accepted, queued (p.fl.queue ++ [e]))) ∧
        (e.cmd ≠ .stop → 16 ≤ others → enqueue e p = (.refused, p))))) ∧
  (∀ (g : Store) (p : Part) (c : CraneId) (a : Nat), craneNode g c = some a →
    (∀ d, (craneOf p d).kept = none ∧ ∀ cmd, (craneOf p d).command ≠ some (cmd, .waiting)) →
    let motion (cmd : FieldCmd) : Bool := match cmd with
      | .goto _ | .takeUp | .lift | .lower => true
      | .poll | .setValve _ | .stop => false
    let mark (ex : Exchange) : Exchange := { ex with withdrawn := ex.withdrawn || (ex.addr == a && motion ex.cmd) }
    withdraw g c p = { p with fl := { p.fl with
      queue := p.fl.queue.filter fun e => !(e.addr == a && motion e.cmd)
      line := p.fl.line.map mark, waiting := p.fl.waiting.map mark } }) ∧
  ∀ s : State, s.mc.power = true →
    let idle := s.fl.line = none ∧ s.fl.opened = true ∧ s.fl.repeatStop = none ∧ s.fl.queue = [] ∧
      s.fl.waiting = [] ∧ s.fl.due = []
    let others (t : State) := t.store = s.store ∧ t.mc = s.mc ∧ t.bs = s.bs ∧ t.cc = s.cc ∧ t.tu = s.tu ∧
      t.sm = s.sm ∧ t.mp = s.mp ∧ t.csA = s.csA ∧ t.csB = s.csB ∧ t.pending = s.pending ∧
      t.fl.nodes = s.fl.nodes ∧ t.fl.queue = s.fl.queue ∧ noReply s t ∧ told s t []
    (s.fl.roundTimer = none → runsTo .roundTimerExpiry s fun t =>
      becomes s t s.store s.toPart ∧ noReply s t ∧ told s t []) ∧
    (s.fl.roundTimer.isSome → s.fl.line.isSome → s.fl.roundOn = true → roundPollOut s.fl = true →
      runsTo .roundTimerExpiry s fun t =>
        becomes s t s.store { s.toPart with fl := { s.fl with roundTimer := none } } ∧ noReply s t ∧ told s t []) ∧
    (s.fl.roundTimer.isSome → idle → s.fl.roundOn = false →
      ∀ a nd, (Map.keys s.fl.nodes).find? (fun k => decide (0 < k)) = some a → nodeOf s.toPart a = some nd →
      runsTo .roundTimerExpiry s fun t => others t ∧ t.fl.roundOn = true ∧ t.fl.roundPos = a ∧
        t.fl.roundTimer = some (.start s.store.plant.roundMinimum.toNat) ∧
        t.fl.replyTimer = some (.start s.store.plant.replyTimeout.toNat) ∧
        ∃ ex, t.fl.line = some ex ∧ ex.addr = a ∧ ex.owner = nd.owner ∧ ex.cls = .round ∧ ex.cmd = .poll ∧
          ex.attempt = 1 ∧ ex.rate = s.store.plant.fieldLineRate.toNat) ∧
    ∀ c : CraneId,
      (pollTimer s.toPart c = none → runsTo (.cranePollTimerExpiry c) s fun t =>
        becomes s t s.store s.toPart ∧ noReply s t ∧ told s t []) ∧
      ((pollTimer s.toPart c).isSome → s.fl.line.isSome → runsTo (.cranePollTimerExpiry c) s fun t =>
        others t ∧ t.fl.line = s.fl.line ∧ c ∈ t.fl.due ∧ (∀ d ∈ s.fl.due, d ∈ t.fl.due) ∧
        pollTimer t.toPart c = some (.start s.store.plant.cranePollPeriod.toNat)) ∧
      ((pollTimer s.toPart c).isSome → idle →
        ∀ a nd, craneNode s.store c = some a → nodeOf s.toPart a = some nd → nd.owner = .crane c →
        runsTo (.cranePollTimerExpiry c) s fun t => others t ∧ t.fl.due = [] ∧
          pollTimer t.toPart c = some (.start s.store.plant.cranePollPeriod.toNat) ∧
          ∃ ex, t.fl.line = some ex ∧ ex.addr = a ∧ ex.cls = .motion ∧ ex.cmd = .poll ∧ ex.attempt = 1)

/-! ### The Command Link -/

/-- A read answers from the records as they stand and changes no state of any block (R181). It is refused exactly where it
names something the rules do not let it answer for: READ POUR of a free record and READ PIECE of a mark of no live piece
with UNKNOWN, every other with RANGE (R2, R36, R50, R115, R155). Its fields are those `answerOf` of Safety.lean spells: what
R16, R36, R50, R76, R91, R115, R136, R155, R171 and R182 list, in the forms of R172. The model's choices in them are the
forms and the order that R172 leaves open (notes/assumptions/6.md, notes/assumptions/18.md), that READ NODES gives an age of
0 for a node that never answered and a round position of 0 before any round (notes/assumptions/26.md), and that READ BED
leaves an excluded zone out of the bed maturity at once (notes/assumptions/23.md). -/
def Obligations.ReadsAnswer : Prop :=
  ∀ (s : State) (c : Instr) (kind tag : Nat), ready s → requestHead c = some (kind, tag) → 0x40 ≤ kind →
    let free := (∃ n, c = .readPour tag n ∧ 1 ≤ n ∧ n ≤ 24) ∨ ∃ mark, c = .readPiece tag mark ∧ 1 ≤ mark ∧ mark ≤ 65535
    (readable s c → ∃ fields, readAnswer s c = some (.ok fields) ∧ (referencesHold s → fields = answerOf s c) ∧
      runsTo c s fun t => becomes s t s.store s.toPart ∧ answered s t kind tag .ok fields .nothing ∧ told s t []) ∧
    (¬ readable s c → (free → runsTo c s fun t => refusedWith s t kind tag .unknown) ∧
      (¬ free → runsTo c s fun t => refusedWith s t kind tag .range))

/-- The bytes of a request's frame, arriving whole at a hunting receiver, do exactly what the request does: the request
command stands for the end of its frame (DEDUCED, notes/assumptions/7.md), after a RESTART too (notes/assumptions/10.md). -/
def Obligations.FrameIsRequest : Prop :=
  ∀ (s : State) (c : Instr) (kind tag : Nat), c.wf = true → requestHead c = some (kind, tag) → s.cl.rx = .hunting →
    ∃ t, exec (.frameReceived (asChars (frameBytes kind tag (requestPayload c)))) s = .next t ∧ exec c s = .next t

/-- What the receiver discards and CL declines: a gap, a framing error, a LEN above 240 and a wrong CRC are counted and lose
the frame being collected (R174); a good frame that finds both places occupied is counted as an overrun; an unknown kind and
a wrong length are answered UNKNOWN and FORMAT. How the hunting receiver takes the character that ends a gap is DEDUCED, and
that a character with a framing error counts as FRAMING also where it is a LEN above 240 or completes a wrong CRC is the
model's choice (notes/assumptions/10.md). That after a RESTART a frame which finds both places occupied is still counted as
an overrun is DEDUCED in the same entry. -/
def Obligations.ReceiverDiscards : Prop :=
  ∀ s : State, s.mc.power = true →
    (∀ got ch, s.cl.rx = .collecting got → exec (.interCharacterGap ch) s = .next { s with cl := { s.cl with
      gapDiscards := min 65535 (s.cl.gapDiscards + 1)
      rx := if ch.data = 0xA5 then .collecting [] else .hunting } }) ∧
    (∀ ch, s.cl.rx = .hunting → exec (.interCharacterGap ch) s = .next { s with cl := { s.cl with
      rx := if ch.data = 0xA5 then .collecting [] else .hunting } }) ∧
    (∀ got b, s.cl.rx = .collecting got → exec (.frameReceived [{ data := b, framing := true }]) s =
      .next { s with cl := { s.cl with rx := .hunting, framingDiscards := min 65535 (s.cl.framingDiscards + 1) } }) ∧
    (∀ len, s.cl.rx = .collecting [] → 240 < len → exec (.frameReceived (asChars [len])) s =
      .next { s with cl := { s.cl with rx := .hunting, lengthDiscards := min 65535 (s.cl.lengthDiscards + 1) } }) ∧
    (∀ kind tag hi lo payload, s.cl.rx = .hunting → payload.length ≤ 240 →
      crc16 (payload.length :: kind :: tag :: payload) ≠ hi * 256 + lo →
      exec (.frameReceived (asChars (0xA5 :: payload.length :: kind :: tag :: payload ++ [hi, lo]))) s =
        .next { s with cl := { s.cl with checkDiscards := min 65535 (s.cl.checkDiscards + 1) } }) ∧
    (2 ≤ s.cl.places.length → ∀ c, (∃ h, requestHead c = some h) ∨ (∃ tag kind payload, c = .unknownKind tag kind payload) →
      exec c s = .next { s with cl := { s.cl with rxOverrun := true, overruns := min 65535 (s.cl.overruns + 1) } }) ∧
    (ready s → ∀ tag kind payload,
      (decodeRequest kind tag payload = .unknownKind →
        runsTo (.unknownKind tag kind payload) s fun t => refusedWith s t kind tag .unknown) ∧
      (decodeRequest kind tag payload = .badLength →
        runsTo (.unknownKind tag kind payload) s fun t => refusedWith s t kind tag .format) ∧
      (kind ∉ [0x01, 0x02, 0x03, 0x04, 0x05, 0x06, 0x07, 0x08, 0x09, 0x0A, 0x0E, 0x0F, 0x10, 0x11, 0x12, 0x13, 0x14,
          0x15, 0x16, 0x20, 0x21, 0x22, 0x23, 0x24, 0x25, 0x26, 0x28, 0x29, 0x2A, 0x2C, 0x2D, 0x2E, 0x40, 0x41, 0x42,
          0x43, 0x44, 0x45, 0x46, 0x47, 0x48, 0x49] → decodeRequest kind tag payload = .unknownKind))

/-- The end of a frame frees the line, and after a reply its place; CL then begins the oldest reply, else the oldest notice,
else nothing (R179). A reply carries RX_OVERRUN and a notice the overflow flag; each is cleared as that frame begins (R175,
R178), as it is where another event finds the line free (`lineServed` of Safety.lean); that CL begins there at the end of
that event is DEDUCED (notes/assumptions/8.md). The first clause is R178's of a raised notice: with 24 queued it is dropped,
the overflow flag set and the count raised, as `told` says of every command. A SET PLANT of the line rate takes effect at
the end of its reply (R173). That nothing happens with no frame on the line is DEDUCED (notes/assumptions/16.md). -/
def Obligations.FrameSentFrees : Prop :=
  (∀ (n : Notice) (p : Part),
    (p.cl.notices.length < 24 → raise n p = { p with cl := { p.cl with notices := p.cl.notices ++ [n] } }) ∧
    (24 ≤ p.cl.notices.length →
      raise n p = { p with cl := { p.cl with overflow := true, dropped := min 65535 (p.cl.dropped + 1) } })) ∧
  (∀ (s : State) (c : Instr), s.mc.power = true →
    ((requestHead c).isSome ∧ ready s) ∨ ((c = .replyTimerExpiry ∨ ∃ chars, c = .replyComplete chars) ∧ s.fl.line.isSome) ∨
      c = .curingIntervalExpiry ∨ c = .yardIntervalExpiry ∨ c = .roundTimerExpiry ∨ (∃ bed, c = .gapTimerExpiry bed) ∨
      (∃ crane, c = .stepTimerExpiry crane ∨ c = .cranePollTimerExpiry crane) →
    runsTo c s fun t => lineServed s t) ∧
  ∀ s : State, s.mc.power = true →
    let begins (t : State) (rate : Nat) : Prop :=
      (∀ q rest, s.cl.replies = q :: rest → t.cl.replies = rest ∧ t.cl.notices = s.cl.notices ∧
        t.cl.sending =
          some (.reply q (flagsByte s.cl.rxOverrun (!s.cl.notices.isEmpty) s.cl.overflow) rate) ∧
        t.cl.rxOverrun = false ∧ t.cl.overflow = s.cl.overflow) ∧
      (∀ n rest, s.cl.replies = [] → s.cl.notices = n :: rest → t.cl.replies = [] ∧ t.cl.notices = rest ∧
        t.cl.sending = some (.notice n (flagsByte false (!rest.isEmpty) s.cl.overflow) rate) ∧
        t.cl.overflow = false ∧ t.cl.rxOverrun = s.cl.rxOverrun) ∧
      (s.cl.replies = [] → s.cl.notices = [] → t.cl.sending = none ∧ t.cl.replies = [] ∧ t.cl.notices = [] ∧
        t.cl.rxOverrun = s.cl.rxOverrun ∧ t.cl.overflow = s.cl.overflow)
    (s.cl.sending = none → exec .frameSent s = .next s) ∧
    (∀ n flags rate, s.cl.sending = some (.notice n flags rate) → runsTo .frameSent s fun t =>
      becomes s t s.store s.toPart ∧ t.cl.places = s.cl.places ∧ unsent t.cl = s.cl.replies ∧
      unheard t.cl = s.cl.notices ∧ sameReceiver s t ∧ begins t s.cl.rate) ∧
    (∀ r flags rate, s.cl.sending = some (.reply r flags rate) → r.after = .nothing → runsTo .frameSent s fun t =>
      becomes s t s.store s.toPart ∧ t.cl.places = s.cl.places.drop 1 ∧ unsent t.cl = s.cl.replies ∧
      unheard t.cl = s.cl.notices ∧ sameReceiver s t ∧ begins t s.cl.rate) ∧
    (∀ r flags rate next, s.cl.sending = some (.reply r flags rate) → r.after = .newRate next →
      runsTo .frameSent s fun t =>
        becomes s t s.store s.toPart ∧ t.cl.places = s.cl.places.drop 1 ∧ unsent t.cl = s.cl.replies ∧
        unheard t.cl = s.cl.notices ∧ t.cl.rx = .hunting ∧ t.cl.rate = next ∧
        t.cl.gapDiscards = s.cl.gapDiscards ∧ t.cl.framingDiscards = s.cl.framingDiscards ∧ begins t next)

/-- Reading back what a request's bytes spell gives the request, for every request whose fields fit their widths; reading the
ten bits of a character of the command line, and the eleven of one of the field line, gives the character: a start bit 0, the
data byte with its least significant bit first, on the field line the address flag, and a stop bit, 1 where there is no
framing error (R156, R172). A frame is sent so, character by character; of a request on the field line the first character
alone has the address flag, and its data bytes sum to 0 modulo 256 (R156). -/
def Obligations.RequestRoundTrip : Prop :=
  (∀ (c : Instr) (kind tag : Nat), c.wf = true → requestHead c = some (kind, tag) →
    decodeRequest kind tag (requestPayload c) = .request c) ∧
  (∀ ch : RxChar, ch.data < 256 → lineCharOfBits (lineBits ch) = ch ∧ (lineBits ch).length = 10 ∧
    (lineBits ch)[0]? = some false ∧ (∀ k, k < 8 → (lineBits ch)[1 + k]? = some (ch.data.testBit k)) ∧
    (lineBits ch)[9]? = some (!ch.framing)) ∧
  (∀ (f : Frame) (k : Nat), f.bits[k]? = (f.bytes[k]?).map fun b => lineBits { data := b, framing := false }) ∧
  (∀ ch : FieldChar, ch.data < 256 → charOfBits (charBits ch) = ch ∧ (charBits ch).length = 11 ∧
    (charBits ch)[0]? = some false ∧ (∀ k, k < 8 → (charBits ch)[1 + k]? = some (ch.data.testBit k)) ∧
    (charBits ch)[9]? = some ch.address ∧ (charBits ch)[10]? = some (!ch.framing)) ∧
  ∀ ex : Exchange, (exchangeChars ex).map (·.address) = true :: List.replicate ((exchangeChars ex).length - 1) false ∧
    ((exchangeChars ex).map (·.data)).sum % 256 = 0 ∧ (exchangeChars ex).all (!·.framing) = true ∧
    (exchangeChars ex).length = 3 + ex.cmd.data.length ∧
    (∀ k ch, (exchangeChars ex)[k]? = some ch → ((exchangeBits ex).drop (11 * k)).take 11 = charBits ch)

/-! ### What every step keeps -/

/-- Every step keeps one place for each reply not yet wholly sent, at most two places, at most 24 notices queued. -/
def Obligations.LinkSoundKept : Prop :=
  ∀ s t : State, linkSound s.cl → step s = .next t → linkSound t.cl

/-- Every step keeps every setting in its range and the store's records in their canonical form. -/
def Obligations.StoreKept : Prop :=
  ∀ s t : State, s.store.inRange → step s = .next t → t.store.inRange

/-- Every step keeps crane A's reservation strictly west of crane B's. -/
def Obligations.CranesApartKept : Prop :=
  ∀ s t : State, s.store.inRange → cranesApart s.toPart → step s = .next t → cranesApart t.toPart

/-- Every step keeps the move queue within 32 moves, numbered in 1..255 with no number twice. -/
def Obligations.MovesSoundKept : Prop :=
  ∀ s t : State, movesSound s.toPart → step s = .next t → movesSound t.toPart

/-- Every step keeps one curing context a bed, with one record a zone. -/
def Obligations.CuringSoundKept : Prop :=
  ∀ s t : State, s.store.inRange → curingSound s.toPart → step s = .next t → curingSound t.toPart
end

