-- ==== Sys2Proof/Laws/State.lean ====
section
/-! SUPPORT. Each update of the part against each block's record that it leaves as it stands: true by unfolding, so that
no proof unfolds an update. -/

namespace Sys2Proof.Machine

variable {p : Part}

@[simp] theorem craneCore_state (r : Crane) : (craneCore r).state = r.state := rfl
@[simp] theorem craneCore_move (r : Crane) : (craneCore r).move = r.move := rfl
@[simp] theorem craneCore_load (r : Crane) : (craneCore r).load = r.load := rfl
@[simp] theorem craneCore_pos (r : Crane) : (craneCore r).pos = r.pos := rfl
@[simp] theorem craneCore_reason (r : Crane) : (craneCore r).reason = r.reason := rfl

@[simp] theorem linkCore_rx (k : CommandLink) : (linkCore k).rx = k.rx := rfl
@[simp] theorem linkCore_places (k : CommandLink) : (linkCore k).places = k.places := rfl
@[simp] theorem linkCore_replies (k : CommandLink) : (linkCore k).replies = k.replies := rfl
@[simp] theorem linkCore_sending (k : CommandLink) : (linkCore k).sending = k.sending := rfl
@[simp] theorem linkCore_rate (k : CommandLink) : (linkCore k).rate = k.rate := rfl
@[simp] theorem linkCore_restarting (k : CommandLink) : (linkCore k).restarting = k.restarting := rfl
@[simp] theorem linkCore_overruns (k : CommandLink) : (linkCore k).overruns = k.overruns := rfl
@[simp] theorem linkCore_rxOverrun (k : CommandLink) : (linkCore k).rxOverrun = k.rxOverrun := rfl
@[simp] theorem linkCore_lengthDiscards (k : CommandLink) : (linkCore k).lengthDiscards = k.lengthDiscards := rfl
@[simp] theorem linkCore_gapDiscards (k : CommandLink) : (linkCore k).gapDiscards = k.gapDiscards := rfl
@[simp] theorem linkCore_framingDiscards (k : CommandLink) : (linkCore k).framingDiscards = k.framingDiscards := rfl
@[simp] theorem linkCore_checkDiscards (k : CommandLink) : (linkCore k).checkDiscards = k.checkDiscards := rfl


/-! `putBed` -/

@[simp] theorem putBed_mc (bed : Nat) (r : Bed) : (putBed bed r p).mc = p.mc := rfl
@[simp] theorem putBed_cc (bed : Nat) (r : Bed) : (putBed bed r p).cc = p.cc := rfl
@[simp] theorem putBed_tu (bed : Nat) (r : Bed) : (putBed bed r p).tu = p.tu := rfl
@[simp] theorem putBed_sm (bed : Nat) (r : Bed) : (putBed bed r p).sm = p.sm := rfl
@[simp] theorem putBed_mp (bed : Nat) (r : Bed) : (putBed bed r p).mp = p.mp := rfl
@[simp] theorem putBed_csA (bed : Nat) (r : Bed) : (putBed bed r p).csA = p.csA := rfl
@[simp] theorem putBed_csB (bed : Nat) (r : Bed) : (putBed bed r p).csB = p.csB := rfl
@[simp] theorem putBed_fl (bed : Nat) (r : Bed) : (putBed bed r p).fl = p.fl := rfl
@[simp] theorem putBed_cl (bed : Nat) (r : Bed) : (putBed bed r p).cl = p.cl := rfl
@[simp] theorem putBed_evt (bed : Nat) (r : Bed) : (putBed bed r p).evt = p.evt := rfl

/-! `putPour` -/

@[simp] theorem putPour_mc (pour : Nat) (r : Pour) : (putPour pour r p).mc = p.mc := rfl
@[simp] theorem putPour_cc (pour : Nat) (r : Pour) : (putPour pour r p).cc = p.cc := rfl
@[simp] theorem putPour_tu (pour : Nat) (r : Pour) : (putPour pour r p).tu = p.tu := rfl
@[simp] theorem putPour_sm (pour : Nat) (r : Pour) : (putPour pour r p).sm = p.sm := rfl
@[simp] theorem putPour_mp (pour : Nat) (r : Pour) : (putPour pour r p).mp = p.mp := rfl
@[simp] theorem putPour_csA (pour : Nat) (r : Pour) : (putPour pour r p).csA = p.csA := rfl
@[simp] theorem putPour_csB (pour : Nat) (r : Pour) : (putPour pour r p).csB = p.csB := rfl
@[simp] theorem putPour_fl (pour : Nat) (r : Pour) : (putPour pour r p).fl = p.fl := rfl
@[simp] theorem putPour_cl (pour : Nat) (r : Pour) : (putPour pour r p).cl = p.cl := rfl
@[simp] theorem putPour_evt (pour : Nat) (r : Pour) : (putPour pour r p).evt = p.evt := rfl

/-! `freePour` -/

@[simp] theorem freePour_mc (pour : Nat) : (freePour pour p).mc = p.mc := rfl
@[simp] theorem freePour_cc (pour : Nat) : (freePour pour p).cc = p.cc := rfl
@[simp] theorem freePour_tu (pour : Nat) : (freePour pour p).tu = p.tu := rfl
@[simp] theorem freePour_sm (pour : Nat) : (freePour pour p).sm = p.sm := rfl
@[simp] theorem freePour_mp (pour : Nat) : (freePour pour p).mp = p.mp := rfl
@[simp] theorem freePour_csA (pour : Nat) : (freePour pour p).csA = p.csA := rfl
@[simp] theorem freePour_csB (pour : Nat) : (freePour pour p).csB = p.csB := rfl
@[simp] theorem freePour_fl (pour : Nat) : (freePour pour p).fl = p.fl := rfl
@[simp] theorem freePour_cl (pour : Nat) : (freePour pour p).cl = p.cl := rfl
@[simp] theorem freePour_evt (pour : Nat) : (freePour pour p).evt = p.evt := rfl

/-! `putContext` -/

@[simp] theorem putContext_mc (bed : Nat) (r : Context) : (putContext bed r p).mc = p.mc := rfl
@[simp] theorem putContext_bs (bed : Nat) (r : Context) : (putContext bed r p).bs = p.bs := rfl
@[simp] theorem putContext_tu (bed : Nat) (r : Context) : (putContext bed r p).tu = p.tu := rfl
@[simp] theorem putContext_sm (bed : Nat) (r : Context) : (putContext bed r p).sm = p.sm := rfl
@[simp] theorem putContext_mp (bed : Nat) (r : Context) : (putContext bed r p).mp = p.mp := rfl
@[simp] theorem putContext_csA (bed : Nat) (r : Context) : (putContext bed r p).csA = p.csA := rfl
@[simp] theorem putContext_csB (bed : Nat) (r : Context) : (putContext bed r p).csB = p.csB := rfl
@[simp] theorem putContext_fl (bed : Nat) (r : Context) : (putContext bed r p).fl = p.fl := rfl
@[simp] theorem putContext_cl (bed : Nat) (r : Context) : (putContext bed r p).cl = p.cl := rfl
@[simp] theorem putContext_evt (bed : Nat) (r : Context) : (putContext bed r p).evt = p.evt := rfl

/-! `closeContext` -/

@[simp] theorem closeContext_mc (bed : Nat) : (closeContext bed p).mc = p.mc := rfl
@[simp] theorem closeContext_bs (bed : Nat) : (closeContext bed p).bs = p.bs := rfl
@[simp] theorem closeContext_tu (bed : Nat) : (closeContext bed p).tu = p.tu := rfl
@[simp] theorem closeContext_sm (bed : Nat) : (closeContext bed p).sm = p.sm := rfl
@[simp] theorem closeContext_mp (bed : Nat) : (closeContext bed p).mp = p.mp := rfl
@[simp] theorem closeContext_csA (bed : Nat) : (closeContext bed p).csA = p.csA := rfl
@[simp] theorem closeContext_csB (bed : Nat) : (closeContext bed p).csB = p.csB := rfl
@[simp] theorem closeContext_fl (bed : Nat) : (closeContext bed p).fl = p.fl := rfl
@[simp] theorem closeContext_cl (bed : Nat) : (closeContext bed p).cl = p.cl := rfl
@[simp] theorem closeContext_evt (bed : Nat) : (closeContext bed p).evt = p.evt := rfl

/-! `putValve` -/

@[simp] theorem putValve_mc (bed zone : Nat) (v : Valve) : (putValve bed zone v p).mc = p.mc := rfl
@[simp] theorem putValve_bs (bed zone : Nat) (v : Valve) : (putValve bed zone v p).bs = p.bs := rfl
@[simp] theorem putValve_tu (bed zone : Nat) (v : Valve) : (putValve bed zone v p).tu = p.tu := rfl
@[simp] theorem putValve_sm (bed zone : Nat) (v : Valve) : (putValve bed zone v p).sm = p.sm := rfl
@[simp] theorem putValve_mp (bed zone : Nat) (v : Valve) : (putValve bed zone v p).mp = p.mp := rfl
@[simp] theorem putValve_csA (bed zone : Nat) (v : Valve) : (putValve bed zone v p).csA = p.csA := rfl
@[simp] theorem putValve_csB (bed zone : Nat) (v : Valve) : (putValve bed zone v p).csB = p.csB := rfl
@[simp] theorem putValve_fl (bed zone : Nat) (v : Valve) : (putValve bed zone v p).fl = p.fl := rfl
@[simp] theorem putValve_cl (bed zone : Nat) (v : Valve) : (putValve bed zone v p).cl = p.cl := rfl
@[simp] theorem putValve_evt (bed zone : Nat) (v : Valve) : (putValve bed zone v p).evt = p.evt := rfl

/-! `putZoneRecord` -/

@[simp] theorem putZoneRecord_mc (bed zone : Nat) (r : ZoneRecord) : (putZoneRecord bed zone r p).mc = p.mc := rfl
@[simp] theorem putZoneRecord_bs (bed zone : Nat) (r : ZoneRecord) : (putZoneRecord bed zone r p).bs = p.bs := rfl
@[simp] theorem putZoneRecord_cc (bed zone : Nat) (r : ZoneRecord) : (putZoneRecord bed zone r p).cc = p.cc := rfl
@[simp] theorem putZoneRecord_sm (bed zone : Nat) (r : ZoneRecord) : (putZoneRecord bed zone r p).sm = p.sm := rfl
@[simp] theorem putZoneRecord_mp (bed zone : Nat) (r : ZoneRecord) : (putZoneRecord bed zone r p).mp = p.mp := rfl
@[simp] theorem putZoneRecord_csA (bed zone : Nat) (r : ZoneRecord) : (putZoneRecord bed zone r p).csA = p.csA := rfl
@[simp] theorem putZoneRecord_csB (bed zone : Nat) (r : ZoneRecord) : (putZoneRecord bed zone r p).csB = p.csB := rfl
@[simp] theorem putZoneRecord_fl (bed zone : Nat) (r : ZoneRecord) : (putZoneRecord bed zone r p).fl = p.fl := rfl
@[simp] theorem putZoneRecord_cl (bed zone : Nat) (r : ZoneRecord) : (putZoneRecord bed zone r p).cl = p.cl := rfl
@[simp] theorem putZoneRecord_evt (bed zone : Nat) (r : ZoneRecord) : (putZoneRecord bed zone r p).evt = p.evt := rfl

/-! `putAreaRecord` -/

@[simp] theorem putAreaRecord_mc (area : Nat) (r : AreaRecord) : (putAreaRecord area r p).mc = p.mc := rfl
@[simp] theorem putAreaRecord_bs (area : Nat) (r : AreaRecord) : (putAreaRecord area r p).bs = p.bs := rfl
@[simp] theorem putAreaRecord_cc (area : Nat) (r : AreaRecord) : (putAreaRecord area r p).cc = p.cc := rfl
@[simp] theorem putAreaRecord_sm (area : Nat) (r : AreaRecord) : (putAreaRecord area r p).sm = p.sm := rfl
@[simp] theorem putAreaRecord_mp (area : Nat) (r : AreaRecord) : (putAreaRecord area r p).mp = p.mp := rfl
@[simp] theorem putAreaRecord_csA (area : Nat) (r : AreaRecord) : (putAreaRecord area r p).csA = p.csA := rfl
@[simp] theorem putAreaRecord_csB (area : Nat) (r : AreaRecord) : (putAreaRecord area r p).csB = p.csB := rfl
@[simp] theorem putAreaRecord_fl (area : Nat) (r : AreaRecord) : (putAreaRecord area r p).fl = p.fl := rfl
@[simp] theorem putAreaRecord_cl (area : Nat) (r : AreaRecord) : (putAreaRecord area r p).cl = p.cl := rfl
@[simp] theorem putAreaRecord_evt (area : Nat) (r : AreaRecord) : (putAreaRecord area r p).evt = p.evt := rfl

/-! `putPiece` -/

@[simp] theorem putPiece_mc (mark : Nat) (r : Piece) : (putPiece mark r p).mc = p.mc := rfl
@[simp] theorem putPiece_bs (mark : Nat) (r : Piece) : (putPiece mark r p).bs = p.bs := rfl
@[simp] theorem putPiece_cc (mark : Nat) (r : Piece) : (putPiece mark r p).cc = p.cc := rfl
@[simp] theorem putPiece_tu (mark : Nat) (r : Piece) : (putPiece mark r p).tu = p.tu := rfl
@[simp] theorem putPiece_mp (mark : Nat) (r : Piece) : (putPiece mark r p).mp = p.mp := rfl
@[simp] theorem putPiece_csA (mark : Nat) (r : Piece) : (putPiece mark r p).csA = p.csA := rfl
@[simp] theorem putPiece_csB (mark : Nat) (r : Piece) : (putPiece mark r p).csB = p.csB := rfl
@[simp] theorem putPiece_fl (mark : Nat) (r : Piece) : (putPiece mark r p).fl = p.fl := rfl
@[simp] theorem putPiece_cl (mark : Nat) (r : Piece) : (putPiece mark r p).cl = p.cl := rfl
@[simp] theorem putPiece_evt (mark : Nat) (r : Piece) : (putPiece mark r p).evt = p.evt := rfl
@[simp] theorem putPiece_slots (mark : Nat) (r : Piece) : (putPiece mark r p).sm.slots = p.sm.slots := rfl
@[simp] theorem putPiece_yard (mark : Nat) (r : Piece) : (putPiece mark r p).sm.timer = p.sm.timer := rfl

/-! `dropPiece` -/

@[simp] theorem dropPiece_mc (mark : Nat) : (dropPiece mark p).mc = p.mc := rfl
@[simp] theorem dropPiece_bs (mark : Nat) : (dropPiece mark p).bs = p.bs := rfl
@[simp] theorem dropPiece_cc (mark : Nat) : (dropPiece mark p).cc = p.cc := rfl
@[simp] theorem dropPiece_tu (mark : Nat) : (dropPiece mark p).tu = p.tu := rfl
@[simp] theorem dropPiece_mp (mark : Nat) : (dropPiece mark p).mp = p.mp := rfl
@[simp] theorem dropPiece_csA (mark : Nat) : (dropPiece mark p).csA = p.csA := rfl
@[simp] theorem dropPiece_csB (mark : Nat) : (dropPiece mark p).csB = p.csB := rfl
@[simp] theorem dropPiece_fl (mark : Nat) : (dropPiece mark p).fl = p.fl := rfl
@[simp] theorem dropPiece_cl (mark : Nat) : (dropPiece mark p).cl = p.cl := rfl
@[simp] theorem dropPiece_evt (mark : Nat) : (dropPiece mark p).evt = p.evt := rfl
@[simp] theorem dropPiece_slots (mark : Nat) : (dropPiece mark p).sm.slots = p.sm.slots := rfl
@[simp] theorem dropPiece_yard (mark : Nat) : (dropPiece mark p).sm.timer = p.sm.timer := rfl

/-! `putSlot` -/

@[simp] theorem putSlot_mc (slot : Nat) (r : Slot) : (putSlot slot r p).mc = p.mc := rfl
@[simp] theorem putSlot_bs (slot : Nat) (r : Slot) : (putSlot slot r p).bs = p.bs := rfl
@[simp] theorem putSlot_cc (slot : Nat) (r : Slot) : (putSlot slot r p).cc = p.cc := rfl
@[simp] theorem putSlot_tu (slot : Nat) (r : Slot) : (putSlot slot r p).tu = p.tu := rfl
@[simp] theorem putSlot_mp (slot : Nat) (r : Slot) : (putSlot slot r p).mp = p.mp := rfl
@[simp] theorem putSlot_csA (slot : Nat) (r : Slot) : (putSlot slot r p).csA = p.csA := rfl
@[simp] theorem putSlot_csB (slot : Nat) (r : Slot) : (putSlot slot r p).csB = p.csB := rfl
@[simp] theorem putSlot_fl (slot : Nat) (r : Slot) : (putSlot slot r p).fl = p.fl := rfl
@[simp] theorem putSlot_cl (slot : Nat) (r : Slot) : (putSlot slot r p).cl = p.cl := rfl
@[simp] theorem putSlot_evt (slot : Nat) (r : Slot) : (putSlot slot r p).evt = p.evt := rfl
@[simp] theorem putSlot_pieces (slot : Nat) (r : Slot) : (putSlot slot r p).sm.pieces = p.sm.pieces := rfl
@[simp] theorem putSlot_yard (slot : Nat) (r : Slot) : (putSlot slot r p).sm.timer = p.sm.timer := rfl

/-! `mapSlots` -/

@[simp] theorem mapSlots_mc (f : Slot → Slot) : (mapSlots f p).mc = p.mc := rfl
@[simp] theorem mapSlots_bs (f : Slot → Slot) : (mapSlots f p).bs = p.bs := rfl
@[simp] theorem mapSlots_cc (f : Slot → Slot) : (mapSlots f p).cc = p.cc := rfl
@[simp] theorem mapSlots_tu (f : Slot → Slot) : (mapSlots f p).tu = p.tu := rfl
@[simp] theorem mapSlots_mp (f : Slot → Slot) : (mapSlots f p).mp = p.mp := rfl
@[simp] theorem mapSlots_csA (f : Slot → Slot) : (mapSlots f p).csA = p.csA := rfl
@[simp] theorem mapSlots_csB (f : Slot → Slot) : (mapSlots f p).csB = p.csB := rfl
@[simp] theorem mapSlots_fl (f : Slot → Slot) : (mapSlots f p).fl = p.fl := rfl
@[simp] theorem mapSlots_cl (f : Slot → Slot) : (mapSlots f p).cl = p.cl := rfl
@[simp] theorem mapSlots_evt (f : Slot → Slot) : (mapSlots f p).evt = p.evt := rfl
@[simp] theorem mapSlots_pieces (f : Slot → Slot) : (mapSlots f p).sm.pieces = p.sm.pieces := rfl
@[simp] theorem mapSlots_yard (f : Slot → Slot) : (mapSlots f p).sm.timer = p.sm.timer := rfl

/-! `putMove` -/

@[simp] theorem putMove_mc (m : Move) : (putMove m p).mc = p.mc := rfl
@[simp] theorem putMove_bs (m : Move) : (putMove m p).bs = p.bs := rfl
@[simp] theorem putMove_cc (m : Move) : (putMove m p).cc = p.cc := rfl
@[simp] theorem putMove_tu (m : Move) : (putMove m p).tu = p.tu := rfl
@[simp] theorem putMove_sm (m : Move) : (putMove m p).sm = p.sm := rfl
@[simp] theorem putMove_csA (m : Move) : (putMove m p).csA = p.csA := rfl
@[simp] theorem putMove_csB (m : Move) : (putMove m p).csB = p.csB := rfl
@[simp] theorem putMove_fl (m : Move) : (putMove m p).fl = p.fl := rfl
@[simp] theorem putMove_cl (m : Move) : (putMove m p).cl = p.cl := rfl
@[simp] theorem putMove_evt (m : Move) : (putMove m p).evt = p.evt := rfl
@[simp] theorem putMove_resA (m : Move) : (putMove m p).mp.resA = p.mp.resA := rfl
@[simp] theorem putMove_resB (m : Move) : (putMove m p).mp.resB = p.mp.resB := rfl
@[simp] theorem putMove_counter (m : Move) : (putMove m p).mp.counter = p.mp.counter := rfl
@[simp] theorem putMove_backlog (m : Move) : (putMove m p).mp.backlog = p.mp.backlog := rfl

/-! `setQueue` -/

@[simp] theorem setQueue_mc (q : List Move) : (setQueue q p).mc = p.mc := rfl
@[simp] theorem setQueue_bs (q : List Move) : (setQueue q p).bs = p.bs := rfl
@[simp] theorem setQueue_cc (q : List Move) : (setQueue q p).cc = p.cc := rfl
@[simp] theorem setQueue_tu (q : List Move) : (setQueue q p).tu = p.tu := rfl
@[simp] theorem setQueue_sm (q : List Move) : (setQueue q p).sm = p.sm := rfl
@[simp] theorem setQueue_csA (q : List Move) : (setQueue q p).csA = p.csA := rfl
@[simp] theorem setQueue_csB (q : List Move) : (setQueue q p).csB = p.csB := rfl
@[simp] theorem setQueue_fl (q : List Move) : (setQueue q p).fl = p.fl := rfl
@[simp] theorem setQueue_cl (q : List Move) : (setQueue q p).cl = p.cl := rfl
@[simp] theorem setQueue_evt (q : List Move) : (setQueue q p).evt = p.evt := rfl
@[simp] theorem setQueue_resA (q : List Move) : (setQueue q p).mp.resA = p.mp.resA := rfl
@[simp] theorem setQueue_resB (q : List Move) : (setQueue q p).mp.resB = p.mp.resB := rfl
@[simp] theorem setQueue_counter (q : List Move) : (setQueue q p).mp.counter = p.mp.counter := rfl
@[simp] theorem setQueue_backlog (q : List Move) : (setQueue q p).mp.backlog = p.mp.backlog := rfl

/-! `putCrane` -/

@[simp] theorem putCrane_mc (c : CraneId) (r : Crane) : (putCrane c r p).mc = p.mc := by cases c <;> rfl
@[simp] theorem putCrane_bs (c : CraneId) (r : Crane) : (putCrane c r p).bs = p.bs := by cases c <;> rfl
@[simp] theorem putCrane_cc (c : CraneId) (r : Crane) : (putCrane c r p).cc = p.cc := by cases c <;> rfl
@[simp] theorem putCrane_tu (c : CraneId) (r : Crane) : (putCrane c r p).tu = p.tu := by cases c <;> rfl
@[simp] theorem putCrane_sm (c : CraneId) (r : Crane) : (putCrane c r p).sm = p.sm := by cases c <;> rfl
@[simp] theorem putCrane_mp (c : CraneId) (r : Crane) : (putCrane c r p).mp = p.mp := by cases c <;> rfl
@[simp] theorem putCrane_fl (c : CraneId) (r : Crane) : (putCrane c r p).fl = p.fl := by cases c <;> rfl
@[simp] theorem putCrane_cl (c : CraneId) (r : Crane) : (putCrane c r p).cl = p.cl := by cases c <;> rfl
@[simp] theorem putCrane_evt (c : CraneId) (r : Crane) : (putCrane c r p).evt = p.evt := by cases c <;> rfl

/-! `writeReservation` -/

@[simp] theorem writeReservation_mc (c : CraneId) (r : Option Reservation) : (writeReservation c r p).mc = p.mc :=
    by cases c <;> rfl
@[simp] theorem writeReservation_bs (c : CraneId) (r : Option Reservation) : (writeReservation c r p).bs = p.bs :=
    by cases c <;> rfl
@[simp] theorem writeReservation_cc (c : CraneId) (r : Option Reservation) : (writeReservation c r p).cc = p.cc :=
    by cases c <;> rfl
@[simp] theorem writeReservation_tu (c : CraneId) (r : Option Reservation) : (writeReservation c r p).tu = p.tu :=
    by cases c <;> rfl
@[simp] theorem writeReservation_sm (c : CraneId) (r : Option Reservation) : (writeReservation c r p).sm = p.sm :=
    by cases c <;> rfl
@[simp] theorem writeReservation_csA (c : CraneId) (r : Option Reservation) : (writeReservation c r p).csA = p.csA :=
    by cases c <;> rfl
@[simp] theorem writeReservation_csB (c : CraneId) (r : Option Reservation) : (writeReservation c r p).csB = p.csB :=
    by cases c <;> rfl
@[simp] theorem writeReservation_fl (c : CraneId) (r : Option Reservation) : (writeReservation c r p).fl = p.fl :=
    by cases c <;> rfl
@[simp] theorem writeReservation_cl (c : CraneId) (r : Option Reservation) : (writeReservation c r p).cl = p.cl :=
    by cases c <;> rfl
@[simp] theorem writeReservation_evt (c : CraneId) (r : Option Reservation) : (writeReservation c r p).evt = p.evt :=
    by cases c <;> rfl
@[simp] theorem writeReservation_queue (c : CraneId) (r : Option Reservation) : (writeReservation c r p).mp.queue = p.mp.queue :=
    by cases c <;> rfl
@[simp] theorem writeReservation_counter (c : CraneId) (r : Option Reservation) : (writeReservation c r p).mp.counter = p.mp.counter :=
    by cases c <;> rfl
@[simp] theorem writeReservation_backlog (c : CraneId) (r : Option Reservation) : (writeReservation c r p).mp.backlog = p.mp.backlog :=
    by cases c <;> rfl

/-! `putNode` -/

@[simp] theorem putNode_mc (addr : Nat) (r : Node) : (putNode addr r p).mc = p.mc := rfl
@[simp] theorem putNode_bs (addr : Nat) (r : Node) : (putNode addr r p).bs = p.bs := rfl
@[simp] theorem putNode_cc (addr : Nat) (r : Node) : (putNode addr r p).cc = p.cc := rfl
@[simp] theorem putNode_tu (addr : Nat) (r : Node) : (putNode addr r p).tu = p.tu := rfl
@[simp] theorem putNode_sm (addr : Nat) (r : Node) : (putNode addr r p).sm = p.sm := rfl
@[simp] theorem putNode_mp (addr : Nat) (r : Node) : (putNode addr r p).mp = p.mp := rfl
@[simp] theorem putNode_csA (addr : Nat) (r : Node) : (putNode addr r p).csA = p.csA := rfl
@[simp] theorem putNode_csB (addr : Nat) (r : Node) : (putNode addr r p).csB = p.csB := rfl
@[simp] theorem putNode_cl (addr : Nat) (r : Node) : (putNode addr r p).cl = p.cl := rfl
@[simp] theorem putNode_evt (addr : Nat) (r : Node) : (putNode addr r p).evt = p.evt := rfl

/-! `raise` -/

@[simp] theorem raise_mc (n : Notice) : (raise n p).mc = p.mc := by unfold raise; split <;> rfl
@[simp] theorem raise_bs (n : Notice) : (raise n p).bs = p.bs := by unfold raise; split <;> rfl
@[simp] theorem raise_cc (n : Notice) : (raise n p).cc = p.cc := by unfold raise; split <;> rfl
@[simp] theorem raise_tu (n : Notice) : (raise n p).tu = p.tu := by unfold raise; split <;> rfl
@[simp] theorem raise_sm (n : Notice) : (raise n p).sm = p.sm := by unfold raise; split <;> rfl
@[simp] theorem raise_mp (n : Notice) : (raise n p).mp = p.mp := by unfold raise; split <;> rfl
@[simp] theorem raise_csA (n : Notice) : (raise n p).csA = p.csA := by unfold raise; split <;> rfl
@[simp] theorem raise_csB (n : Notice) : (raise n p).csB = p.csB := by unfold raise; split <;> rfl
@[simp] theorem raise_fl (n : Notice) : (raise n p).fl = p.fl := by unfold raise; split <;> rfl
@[simp] theorem raise_evt (n : Notice) : (raise n p).evt = p.evt := by unfold raise; split <;> rfl
@[simp] theorem raise_link (n : Notice) : linkCore (raise n p).cl = linkCore p.cl := by unfold raise; split <;> rfl

/-! `triggerScan` -/

@[simp] theorem triggerScan_mc : (triggerScan p).mc = p.mc := rfl
@[simp] theorem triggerScan_bs : (triggerScan p).bs = p.bs := rfl
@[simp] theorem triggerScan_cc : (triggerScan p).cc = p.cc := rfl
@[simp] theorem triggerScan_tu : (triggerScan p).tu = p.tu := rfl
@[simp] theorem triggerScan_sm : (triggerScan p).sm = p.sm := rfl
@[simp] theorem triggerScan_mp : (triggerScan p).mp = p.mp := rfl
@[simp] theorem triggerScan_csA : (triggerScan p).csA = p.csA := rfl
@[simp] theorem triggerScan_csB : (triggerScan p).csB = p.csB := rfl
@[simp] theorem triggerScan_fl : (triggerScan p).fl = p.fl := rfl
@[simp] theorem triggerScan_cl : (triggerScan p).cl = p.cl := rfl

/-! `stockChange` -/

@[simp] theorem stockChange_mc (marks : List Nat) : (stockChange marks p).mc = p.mc := rfl
@[simp] theorem stockChange_bs (marks : List Nat) : (stockChange marks p).bs = p.bs := rfl
@[simp] theorem stockChange_cc (marks : List Nat) : (stockChange marks p).cc = p.cc := rfl
@[simp] theorem stockChange_tu (marks : List Nat) : (stockChange marks p).tu = p.tu := rfl
@[simp] theorem stockChange_sm (marks : List Nat) : (stockChange marks p).sm = p.sm := rfl
@[simp] theorem stockChange_mp (marks : List Nat) : (stockChange marks p).mp = p.mp := rfl
@[simp] theorem stockChange_csA (marks : List Nat) : (stockChange marks p).csA = p.csA := rfl
@[simp] theorem stockChange_csB (marks : List Nat) : (stockChange marks p).csB = p.csB := rfl
@[simp] theorem stockChange_fl (marks : List Nat) : (stockChange marks p).fl = p.fl := rfl
@[simp] theorem stockChange_cl (marks : List Nat) : (stockChange marks p).cl = p.cl := rfl

/-! `setDirected` -/

@[simp] theorem setDirected_mc (q : List Entry) : (setDirected q p).mc = p.mc := rfl
@[simp] theorem setDirected_bs (q : List Entry) : (setDirected q p).bs = p.bs := rfl
@[simp] theorem setDirected_cc (q : List Entry) : (setDirected q p).cc = p.cc := rfl
@[simp] theorem setDirected_tu (q : List Entry) : (setDirected q p).tu = p.tu := rfl
@[simp] theorem setDirected_sm (q : List Entry) : (setDirected q p).sm = p.sm := rfl
@[simp] theorem setDirected_mp (q : List Entry) : (setDirected q p).mp = p.mp := rfl
@[simp] theorem setDirected_csA (q : List Entry) : (setDirected q p).csA = p.csA := rfl
@[simp] theorem setDirected_csB (q : List Entry) : (setDirected q p).csB = p.csB := rfl
@[simp] theorem setDirected_cl (q : List Entry) : (setDirected q p).cl = p.cl := rfl
@[simp] theorem setDirected_evt (q : List Entry) : (setDirected q p).evt = p.evt := rfl

/-! `setPollTimer` -/

@[simp] theorem setPollTimer_mc (c : CraneId) (t : Option Timer) : (setPollTimer c t p).mc = p.mc :=
    by cases c <;> rfl
@[simp] theorem setPollTimer_bs (c : CraneId) (t : Option Timer) : (setPollTimer c t p).bs = p.bs :=
    by cases c <;> rfl
@[simp] theorem setPollTimer_cc (c : CraneId) (t : Option Timer) : (setPollTimer c t p).cc = p.cc :=
    by cases c <;> rfl
@[simp] theorem setPollTimer_tu (c : CraneId) (t : Option Timer) : (setPollTimer c t p).tu = p.tu :=
    by cases c <;> rfl
@[simp] theorem setPollTimer_sm (c : CraneId) (t : Option Timer) : (setPollTimer c t p).sm = p.sm :=
    by cases c <;> rfl
@[simp] theorem setPollTimer_mp (c : CraneId) (t : Option Timer) : (setPollTimer c t p).mp = p.mp :=
    by cases c <;> rfl
@[simp] theorem setPollTimer_csA (c : CraneId) (t : Option Timer) : (setPollTimer c t p).csA = p.csA :=
    by cases c <;> rfl
@[simp] theorem setPollTimer_csB (c : CraneId) (t : Option Timer) : (setPollTimer c t p).csB = p.csB :=
    by cases c <;> rfl
@[simp] theorem setPollTimer_cl (c : CraneId) (t : Option Timer) : (setPollTimer c t p).cl = p.cl :=
    by cases c <;> rfl
@[simp] theorem setPollTimer_evt (c : CraneId) (t : Option Timer) : (setPollTimer c t p).evt = p.evt :=
    by cases c <;> rfl

/-! `setBacklog` -/

@[simp] theorem setBacklog_mc (l : List Nat) : (setBacklog l p).mc = p.mc := rfl
@[simp] theorem setBacklog_bs (l : List Nat) : (setBacklog l p).bs = p.bs := rfl
@[simp] theorem setBacklog_cc (l : List Nat) : (setBacklog l p).cc = p.cc := rfl
@[simp] theorem setBacklog_tu (l : List Nat) : (setBacklog l p).tu = p.tu := rfl
@[simp] theorem setBacklog_sm (l : List Nat) : (setBacklog l p).sm = p.sm := rfl
@[simp] theorem setBacklog_csA (l : List Nat) : (setBacklog l p).csA = p.csA := rfl
@[simp] theorem setBacklog_csB (l : List Nat) : (setBacklog l p).csB = p.csB := rfl
@[simp] theorem setBacklog_fl (l : List Nat) : (setBacklog l p).fl = p.fl := rfl
@[simp] theorem setBacklog_cl (l : List Nat) : (setBacklog l p).cl = p.cl := rfl
@[simp] theorem setBacklog_evt (l : List Nat) : (setBacklog l p).evt = p.evt := rfl
@[simp] theorem setBacklog_resA (l : List Nat) : (setBacklog l p).mp.resA = p.mp.resA := rfl
@[simp] theorem setBacklog_resB (l : List Nat) : (setBacklog l p).mp.resB = p.mp.resB := rfl
@[simp] theorem setBacklog_queue (l : List Nat) : (setBacklog l p).mp.queue = p.mp.queue := rfl
@[simp] theorem setBacklog_counter (l : List Nat) : (setBacklog l p).mp.counter = p.mp.counter := rfl

/-! `mapContexts` -/

@[simp] theorem mapContexts_mc (f : Nat → Context → Context) : (mapContexts f p).mc = p.mc := rfl
@[simp] theorem mapContexts_bs (f : Nat → Context → Context) : (mapContexts f p).bs = p.bs := rfl
@[simp] theorem mapContexts_tu (f : Nat → Context → Context) : (mapContexts f p).tu = p.tu := rfl
@[simp] theorem mapContexts_sm (f : Nat → Context → Context) : (mapContexts f p).sm = p.sm := rfl
@[simp] theorem mapContexts_mp (f : Nat → Context → Context) : (mapContexts f p).mp = p.mp := rfl
@[simp] theorem mapContexts_csA (f : Nat → Context → Context) : (mapContexts f p).csA = p.csA := rfl
@[simp] theorem mapContexts_csB (f : Nat → Context → Context) : (mapContexts f p).csB = p.csB := rfl
@[simp] theorem mapContexts_fl (f : Nat → Context → Context) : (mapContexts f p).fl = p.fl := rfl
@[simp] theorem mapContexts_cl (f : Nat → Context → Context) : (mapContexts f p).cl = p.cl := rfl
@[simp] theorem mapContexts_evt (f : Nat → Context → Context) : (mapContexts f p).evt = p.evt := rfl

/-! `setAlloc` -/

@[simp] theorem setAlloc_mc (a : Alloc) : (setAlloc a p).mc = p.mc := rfl
@[simp] theorem setAlloc_bs (a : Alloc) : (setAlloc a p).bs = p.bs := rfl
@[simp] theorem setAlloc_tu (a : Alloc) : (setAlloc a p).tu = p.tu := rfl
@[simp] theorem setAlloc_sm (a : Alloc) : (setAlloc a p).sm = p.sm := rfl
@[simp] theorem setAlloc_mp (a : Alloc) : (setAlloc a p).mp = p.mp := rfl
@[simp] theorem setAlloc_csA (a : Alloc) : (setAlloc a p).csA = p.csA := rfl
@[simp] theorem setAlloc_csB (a : Alloc) : (setAlloc a p).csB = p.csB := rfl
@[simp] theorem setAlloc_fl (a : Alloc) : (setAlloc a p).fl = p.fl := rfl
@[simp] theorem setAlloc_cl (a : Alloc) : (setAlloc a p).cl = p.cl := rfl
@[simp] theorem setAlloc_evt (a : Alloc) : (setAlloc a p).evt = p.evt := rfl

/-! `awaitRetry` -/

@[simp] theorem awaitRetry_mc (ex : Exchange) : (awaitRetry ex p).mc = p.mc := rfl
@[simp] theorem awaitRetry_bs (ex : Exchange) : (awaitRetry ex p).bs = p.bs := rfl
@[simp] theorem awaitRetry_cc (ex : Exchange) : (awaitRetry ex p).cc = p.cc := rfl
@[simp] theorem awaitRetry_tu (ex : Exchange) : (awaitRetry ex p).tu = p.tu := rfl
@[simp] theorem awaitRetry_sm (ex : Exchange) : (awaitRetry ex p).sm = p.sm := rfl
@[simp] theorem awaitRetry_mp (ex : Exchange) : (awaitRetry ex p).mp = p.mp := rfl
@[simp] theorem awaitRetry_csA (ex : Exchange) : (awaitRetry ex p).csA = p.csA := rfl
@[simp] theorem awaitRetry_csB (ex : Exchange) : (awaitRetry ex p).csB = p.csB := rfl
@[simp] theorem awaitRetry_cl (ex : Exchange) : (awaitRetry ex p).cl = p.cl := rfl
@[simp] theorem awaitRetry_evt (ex : Exchange) : (awaitRetry ex p).evt = p.evt := rfl

/-! `takePlace` -/

@[simp] theorem takePlace_mc (kind tag : Nat) : (takePlace kind tag p).mc = p.mc := rfl
@[simp] theorem takePlace_bs (kind tag : Nat) : (takePlace kind tag p).bs = p.bs := rfl
@[simp] theorem takePlace_cc (kind tag : Nat) : (takePlace kind tag p).cc = p.cc := rfl
@[simp] theorem takePlace_tu (kind tag : Nat) : (takePlace kind tag p).tu = p.tu := rfl
@[simp] theorem takePlace_sm (kind tag : Nat) : (takePlace kind tag p).sm = p.sm := rfl
@[simp] theorem takePlace_mp (kind tag : Nat) : (takePlace kind tag p).mp = p.mp := rfl
@[simp] theorem takePlace_csA (kind tag : Nat) : (takePlace kind tag p).csA = p.csA := rfl
@[simp] theorem takePlace_csB (kind tag : Nat) : (takePlace kind tag p).csB = p.csB := rfl
@[simp] theorem takePlace_fl (kind tag : Nat) : (takePlace kind tag p).fl = p.fl := rfl
@[simp] theorem takePlace_evt (kind tag : Nat) : (takePlace kind tag p).evt = p.evt := rfl

/-! `queueReply` -/

@[simp] theorem queueReply_mc (r : Reply) : (queueReply r p).mc = p.mc := rfl
@[simp] theorem queueReply_bs (r : Reply) : (queueReply r p).bs = p.bs := rfl
@[simp] theorem queueReply_cc (r : Reply) : (queueReply r p).cc = p.cc := rfl
@[simp] theorem queueReply_tu (r : Reply) : (queueReply r p).tu = p.tu := rfl
@[simp] theorem queueReply_sm (r : Reply) : (queueReply r p).sm = p.sm := rfl
@[simp] theorem queueReply_mp (r : Reply) : (queueReply r p).mp = p.mp := rfl
@[simp] theorem queueReply_csA (r : Reply) : (queueReply r p).csA = p.csA := rfl
@[simp] theorem queueReply_csB (r : Reply) : (queueReply r p).csB = p.csB := rfl
@[simp] theorem queueReply_fl (r : Reply) : (queueReply r p).fl = p.fl := rfl
@[simp] theorem queueReply_evt (r : Reply) : (queueReply r p).evt = p.evt := rfl

/-! `setModeOf` -/

@[simp] theorem setModeOf_bs (m : Mode) : (setModeOf m p).bs = p.bs := rfl
@[simp] theorem setModeOf_cc (m : Mode) : (setModeOf m p).cc = p.cc := rfl
@[simp] theorem setModeOf_tu (m : Mode) : (setModeOf m p).tu = p.tu := rfl
@[simp] theorem setModeOf_sm (m : Mode) : (setModeOf m p).sm = p.sm := rfl
@[simp] theorem setModeOf_mp (m : Mode) : (setModeOf m p).mp = p.mp := rfl
@[simp] theorem setModeOf_csA (m : Mode) : (setModeOf m p).csA = p.csA := rfl
@[simp] theorem setModeOf_csB (m : Mode) : (setModeOf m p).csB = p.csB := rfl
@[simp] theorem setModeOf_fl (m : Mode) : (setModeOf m p).fl = p.fl := rfl
@[simp] theorem setModeOf_cl (m : Mode) : (setModeOf m p).cl = p.cl := rfl
@[simp] theorem setModeOf_evt (m : Mode) : (setModeOf m p).evt = p.evt := rfl

/-! `takeSequence` -/

@[simp] theorem takeSequence_mc : (takeSequence p).mc = p.mc := rfl
@[simp] theorem takeSequence_cc : (takeSequence p).cc = p.cc := rfl
@[simp] theorem takeSequence_tu : (takeSequence p).tu = p.tu := rfl
@[simp] theorem takeSequence_sm : (takeSequence p).sm = p.sm := rfl
@[simp] theorem takeSequence_mp : (takeSequence p).mp = p.mp := rfl
@[simp] theorem takeSequence_csA : (takeSequence p).csA = p.csA := rfl
@[simp] theorem takeSequence_csB : (takeSequence p).csB = p.csB := rfl
@[simp] theorem takeSequence_fl : (takeSequence p).fl = p.fl := rfl
@[simp] theorem takeSequence_cl : (takeSequence p).cl = p.cl := rfl
@[simp] theorem takeSequence_evt : (takeSequence p).evt = p.evt := rfl

/-! `recomputeReservations` -/

@[simp] theorem recomputeReservations_mc (g : Store) : (recomputeReservations g p).mc = p.mc := rfl
@[simp] theorem recomputeReservations_bs (g : Store) : (recomputeReservations g p).bs = p.bs := rfl
@[simp] theorem recomputeReservations_cc (g : Store) : (recomputeReservations g p).cc = p.cc := rfl
@[simp] theorem recomputeReservations_tu (g : Store) : (recomputeReservations g p).tu = p.tu := rfl
@[simp] theorem recomputeReservations_sm (g : Store) : (recomputeReservations g p).sm = p.sm := rfl
@[simp] theorem recomputeReservations_csA (g : Store) : (recomputeReservations g p).csA = p.csA := rfl
@[simp] theorem recomputeReservations_csB (g : Store) : (recomputeReservations g p).csB = p.csB := rfl
@[simp] theorem recomputeReservations_fl (g : Store) : (recomputeReservations g p).fl = p.fl := rfl
@[simp] theorem recomputeReservations_cl (g : Store) : (recomputeReservations g p).cl = p.cl := rfl
@[simp] theorem recomputeReservations_evt (g : Store) : (recomputeReservations g p).evt = p.evt := rfl
@[simp] theorem recomputeReservations_queue (g : Store) : (recomputeReservations g p).mp.queue = p.mp.queue := rfl
@[simp] theorem recomputeReservations_counter (g : Store) : (recomputeReservations g p).mp.counter = p.mp.counter :=
    rfl
@[simp] theorem recomputeReservations_backlog (g : Store) : (recomputeReservations g p).mp.backlog = p.mp.backlog :=
    rfl

/-! `restartCuring` -/

@[simp] theorem restartCuring_mc (g : Store) : (restartCuring g p).mc = p.mc := rfl
@[simp] theorem restartCuring_bs (g : Store) : (restartCuring g p).bs = p.bs := rfl
@[simp] theorem restartCuring_tu (g : Store) : (restartCuring g p).tu = p.tu := rfl
@[simp] theorem restartCuring_sm (g : Store) : (restartCuring g p).sm = p.sm := rfl
@[simp] theorem restartCuring_mp (g : Store) : (restartCuring g p).mp = p.mp := rfl
@[simp] theorem restartCuring_csA (g : Store) : (restartCuring g p).csA = p.csA := rfl
@[simp] theorem restartCuring_csB (g : Store) : (restartCuring g p).csB = p.csB := rfl
@[simp] theorem restartCuring_fl (g : Store) : (restartCuring g p).fl = p.fl := rfl
@[simp] theorem restartCuring_cl (g : Store) : (restartCuring g p).cl = p.cl := rfl
@[simp] theorem restartCuring_evt (g : Store) : (restartCuring g p).evt = p.evt := rfl

/-! `restartYard` -/

@[simp] theorem restartYard_mc (g : Store) : (restartYard g p).mc = p.mc := rfl
@[simp] theorem restartYard_bs (g : Store) : (restartYard g p).bs = p.bs := rfl
@[simp] theorem restartYard_cc (g : Store) : (restartYard g p).cc = p.cc := rfl
@[simp] theorem restartYard_tu (g : Store) : (restartYard g p).tu = p.tu := rfl
@[simp] theorem restartYard_mp (g : Store) : (restartYard g p).mp = p.mp := rfl
@[simp] theorem restartYard_csA (g : Store) : (restartYard g p).csA = p.csA := rfl
@[simp] theorem restartYard_csB (g : Store) : (restartYard g p).csB = p.csB := rfl
@[simp] theorem restartYard_fl (g : Store) : (restartYard g p).fl = p.fl := rfl
@[simp] theorem restartYard_cl (g : Store) : (restartYard g p).cl = p.cl := rfl
@[simp] theorem restartYard_evt (g : Store) : (restartYard g p).evt = p.evt := rfl
@[simp] theorem restartYard_pieces (g : Store) : (restartYard g p).sm.pieces = p.sm.pieces := rfl
@[simp] theorem restartYard_slots (g : Store) : (restartYard g p).sm.slots = p.sm.slots := rfl

/-! A crane's own record, and its reservation -/

@[simp] theorem craneOf_putCrane (c : CraneId) (r : Crane) : craneOf (putCrane c r p) c = r := by cases c <;> rfl
@[simp] theorem craneOf_putCrane_other (c : CraneId) (r : Crane) :
    craneOf (putCrane c r p) (otherCrane c) = craneOf p (otherCrane c) := by cases c <;> rfl
@[simp] theorem reservationOf_writeReservation (c : CraneId) (r : Option Reservation) :
    reservationOf (writeReservation c r p) c = r := by cases c <;> rfl
@[simp] theorem reservationOf_writeReservation_other (c : CraneId) (r : Option Reservation) :
    reservationOf (writeReservation c r p) (otherCrane c) = reservationOf p (otherCrane c) := by cases c <;> rfl

end Sys2Proof.Machine
end

