-- ==== Sys2Proof/Laws/Frames.lean ====
section
/-! SUPPORT. Frames of the shared operations: which blocks' records each leaves as they stand, said once per operation so
that no proof unfolds one. -/

namespace Sys2Proof.Machine

variable {p : Part} {α : Type}

@[simp] theorem foldl_mc (f : Part → α → Part) (h : ∀ p a, (f p a).mc = p.mc) (l : List α) (p : Part) :
    (l.foldl f p).mc = p.mc := by
  induction l generalizing p with
  | nil => rfl
  | cons a l ih => rw [List.foldl_cons, ih, h]

@[simp] theorem foldl_bs (f : Part → α → Part) (h : ∀ p a, (f p a).bs = p.bs) (l : List α) (p : Part) :
    (l.foldl f p).bs = p.bs := by
  induction l generalizing p with
  | nil => rfl
  | cons a l ih => rw [List.foldl_cons, ih, h]

@[simp] theorem foldl_cc (f : Part → α → Part) (h : ∀ p a, (f p a).cc = p.cc) (l : List α) (p : Part) :
    (l.foldl f p).cc = p.cc := by
  induction l generalizing p with
  | nil => rfl
  | cons a l ih => rw [List.foldl_cons, ih, h]

@[simp] theorem foldl_tu (f : Part → α → Part) (h : ∀ p a, (f p a).tu = p.tu) (l : List α) (p : Part) :
    (l.foldl f p).tu = p.tu := by
  induction l generalizing p with
  | nil => rfl
  | cons a l ih => rw [List.foldl_cons, ih, h]

@[simp] theorem foldl_sm (f : Part → α → Part) (h : ∀ p a, (f p a).sm = p.sm) (l : List α) (p : Part) :
    (l.foldl f p).sm = p.sm := by
  induction l generalizing p with
  | nil => rfl
  | cons a l ih => rw [List.foldl_cons, ih, h]

@[simp] theorem foldl_mp (f : Part → α → Part) (h : ∀ p a, (f p a).mp = p.mp) (l : List α) (p : Part) :
    (l.foldl f p).mp = p.mp := by
  induction l generalizing p with
  | nil => rfl
  | cons a l ih => rw [List.foldl_cons, ih, h]

@[simp] theorem foldl_csA (f : Part → α → Part) (h : ∀ p a, (f p a).csA = p.csA) (l : List α) (p : Part) :
    (l.foldl f p).csA = p.csA := by
  induction l generalizing p with
  | nil => rfl
  | cons a l ih => rw [List.foldl_cons, ih, h]

@[simp] theorem foldl_csB (f : Part → α → Part) (h : ∀ p a, (f p a).csB = p.csB) (l : List α) (p : Part) :
    (l.foldl f p).csB = p.csB := by
  induction l generalizing p with
  | nil => rfl
  | cons a l ih => rw [List.foldl_cons, ih, h]

@[simp] theorem foldl_fl (f : Part → α → Part) (h : ∀ p a, (f p a).fl = p.fl) (l : List α) (p : Part) :
    (l.foldl f p).fl = p.fl := by
  induction l generalizing p with
  | nil => rfl
  | cons a l ih => rw [List.foldl_cons, ih, h]

@[simp] theorem foldl_cl (f : Part → α → Part) (h : ∀ p a, (f p a).cl = p.cl) (l : List α) (p : Part) :
    (l.foldl f p).cl = p.cl := by
  induction l generalizing p with
  | nil => rfl
  | cons a l ih => rw [List.foldl_cons, ih, h]

@[simp] theorem foldl_evt (f : Part → α → Part) (h : ∀ p a, (f p a).evt = p.evt) (l : List α) (p : Part) :
    (l.foldl f p).evt = p.evt := by
  induction l generalizing p with
  | nil => rfl
  | cons a l ih => rw [List.foldl_cons, ih, h]

@[simp] theorem foldl_link (f : Part → α → Part) (h : ∀ p a, linkCore (f p a).cl = linkCore p.cl) (l : List α) (p : Part) :
    linkCore (l.foldl f p).cl = linkCore p.cl := by
  induction l generalizing p with
  | nil => rfl
  | cons a l ih => rw [List.foldl_cons, ih, h]

@[simp] theorem foldl_pieces (f : Part → α → Part) (h : ∀ p a, (f p a).sm.pieces = p.sm.pieces) (l : List α) (p : Part) :
    (l.foldl f p).sm.pieces = p.sm.pieces := by
  induction l generalizing p with
  | nil => rfl
  | cons a l ih => rw [List.foldl_cons, ih, h]

@[simp] theorem foldl_slots (f : Part → α → Part) (h : ∀ p a, (f p a).sm.slots = p.sm.slots) (l : List α) (p : Part) :
    (l.foldl f p).sm.slots = p.sm.slots := by
  induction l generalizing p with
  | nil => rfl
  | cons a l ih => rw [List.foldl_cons, ih, h]

@[simp] theorem foldl_yard (f : Part → α → Part) (h : ∀ p a, (f p a).sm.timer = p.sm.timer) (l : List α) (p : Part) :
    (l.foldl f p).sm.timer = p.sm.timer := by
  induction l generalizing p with
  | nil => rfl
  | cons a l ih => rw [List.foldl_cons, ih, h]

@[simp] theorem foldl_resA (f : Part → α → Part) (h : ∀ p a, (f p a).mp.resA = p.mp.resA) (l : List α) (p : Part) :
    (l.foldl f p).mp.resA = p.mp.resA := by
  induction l generalizing p with
  | nil => rfl
  | cons a l ih => rw [List.foldl_cons, ih, h]

@[simp] theorem foldl_resB (f : Part → α → Part) (h : ∀ p a, (f p a).mp.resB = p.mp.resB) (l : List α) (p : Part) :
    (l.foldl f p).mp.resB = p.mp.resB := by
  induction l generalizing p with
  | nil => rfl
  | cons a l ih => rw [List.foldl_cons, ih, h]

@[simp] theorem foldl_queue (f : Part → α → Part) (h : ∀ p a, (f p a).mp.queue = p.mp.queue) (l : List α) (p : Part) :
    (l.foldl f p).mp.queue = p.mp.queue := by
  induction l generalizing p with
  | nil => rfl
  | cons a l ih => rw [List.foldl_cons, ih, h]

@[simp] theorem foldl_counter (f : Part → α → Part) (h : ∀ p a, (f p a).mp.counter = p.mp.counter) (l : List α) (p : Part) :
    (l.foldl f p).mp.counter = p.mp.counter := by
  induction l generalizing p with
  | nil => rfl
  | cons a l ih => rw [List.foldl_cons, ih, h]

@[simp] theorem foldl_backlog (f : Part → α → Part) (h : ∀ p a, (f p a).mp.backlog = p.mp.backlog) (l : List α) (p : Part) :
    (l.foldl f p).mp.backlog = p.mp.backlog := by
  induction l generalizing p with
  | nil => rfl
  | cons a l ih => rw [List.foldl_cons, ih, h]

@[simp] theorem foldl_coreA (f : Part → α → Part) (h : ∀ p a, craneCore (f p a).csA = craneCore p.csA) (l : List α) (p : Part) :
    craneCore (l.foldl f p).csA = craneCore p.csA := by
  induction l generalizing p with
  | nil => rfl
  | cons a l ih => rw [List.foldl_cons, ih, h]

@[simp] theorem foldl_coreB (f : Part → α → Part) (h : ∀ p a, craneCore (f p a).csB = craneCore p.csB) (l : List α) (p : Part) :
    craneCore (l.foldl f p).csB = craneCore p.csB := by
  induction l generalizing p with
  | nil => rfl
  | cons a l ih => rw [List.foldl_cons, ih, h]

@[simp] theorem enqueue_keeps (e : Entry) (p : Part) :
    (enqueue e p).2.mc = p.mc ∧ (enqueue e p).2.bs = p.bs ∧ (enqueue e p).2.cc = p.cc ∧ (enqueue e p).2.tu = p.tu ∧
    (enqueue e p).2.sm = p.sm ∧ (enqueue e p).2.mp = p.mp ∧ (enqueue e p).2.csA = p.csA ∧
    (enqueue e p).2.csB = p.csB ∧ (enqueue e p).2.cl = p.cl ∧ (enqueue e p).2.evt = p.evt := by
  unfold enqueue
  (try dsimp only)
  (repeat' split) <;> simp

@[simp] theorem commandAnswered_keeps (g : Store) (c : CraneId) (cmd : FieldCmd) (answer : Offer) (p : Part) :
    (commandAnswered g c cmd answer p).mc = p.mc ∧ (commandAnswered g c cmd answer p).bs = p.bs ∧
    (commandAnswered g c cmd answer p).cc = p.cc ∧ (commandAnswered g c cmd answer p).tu = p.tu ∧
    (commandAnswered g c cmd answer p).sm = p.sm ∧ (commandAnswered g c cmd answer p).mp = p.mp ∧
    (commandAnswered g c cmd answer p).fl = p.fl ∧ (commandAnswered g c cmd answer p).cl = p.cl ∧
    (commandAnswered g c cmd answer p).evt = p.evt ∧
    craneCore (commandAnswered g c cmd answer p).csA = craneCore p.csA ∧
    craneCore (commandAnswered g c cmd answer p).csB = craneCore p.csB := by
  unfold commandAnswered startStepTimer
  cases c <;> (repeat' split) <;> simp [putCrane, craneOf, craneCore]

@[simp] theorem plainAnswered_keeps (c : CraneId) (cmd : FieldCmd) (answer : Offer) (p : Part) :
    (plainAnswered c cmd answer p).mc = p.mc ∧ (plainAnswered c cmd answer p).bs = p.bs ∧
    (plainAnswered c cmd answer p).cc = p.cc ∧ (plainAnswered c cmd answer p).tu = p.tu ∧
    (plainAnswered c cmd answer p).sm = p.sm ∧ (plainAnswered c cmd answer p).mp = p.mp ∧
    (plainAnswered c cmd answer p).fl = p.fl ∧ (plainAnswered c cmd answer p).cl = p.cl ∧
    (plainAnswered c cmd answer p).evt = p.evt ∧ craneCore (plainAnswered c cmd answer p).csA = craneCore p.csA ∧
    craneCore (plainAnswered c cmd answer p).csB = craneCore p.csB := by
  unfold plainAnswered
  cases c <;> split <;> simp [putCrane, craneOf, craneCore]

@[simp] theorem reofferKept_keeps (g : Store) (c : CraneId) (p : Part) :
    (reofferKept g c p).mc = p.mc ∧ (reofferKept g c p).bs = p.bs ∧ (reofferKept g c p).cc = p.cc ∧
    (reofferKept g c p).tu = p.tu ∧ (reofferKept g c p).sm = p.sm ∧ (reofferKept g c p).mp = p.mp ∧
    (reofferKept g c p).cl = p.cl ∧ (reofferKept g c p).evt = p.evt ∧
    craneCore (reofferKept g c p).csA = craneCore p.csA ∧ craneCore (reofferKept g c p).csB = craneCore p.csB := by
  unfold reofferKept
  (try dsimp only)
  (repeat' split) <;> simp

@[simp] theorem reofferStep_keeps (g : Store) (c : CraneId) (p : Part) :
    (reofferStep g c p).mc = p.mc ∧ (reofferStep g c p).bs = p.bs ∧ (reofferStep g c p).cc = p.cc ∧
    (reofferStep g c p).tu = p.tu ∧ (reofferStep g c p).sm = p.sm ∧ (reofferStep g c p).mp = p.mp ∧
    (reofferStep g c p).cl = p.cl ∧ (reofferStep g c p).evt = p.evt ∧
    craneCore (reofferStep g c p).csA = craneCore p.csA ∧ craneCore (reofferStep g c p).csB = craneCore p.csB := by
  unfold reofferStep
  (try dsimp only)
  (repeat' split) <;> simp

@[simp] theorem reoffer_keeps (g : Store) (c : CraneId) (p : Part) :
    (reoffer g c p).mc = p.mc ∧ (reoffer g c p).bs = p.bs ∧ (reoffer g c p).cc = p.cc ∧ (reoffer g c p).tu = p.tu ∧
    (reoffer g c p).sm = p.sm ∧ (reoffer g c p).mp = p.mp ∧ (reoffer g c p).cl = p.cl ∧
    (reoffer g c p).evt = p.evt ∧ craneCore (reoffer g c p).csA = craneCore p.csA ∧
    craneCore (reoffer g c p).csB = craneCore p.csB := by
  unfold reoffer
  (try dsimp only)
  (repeat' split) <;> simp

@[simp] theorem entryFreed_keeps (g : Store) (p : Part) :
    (entryFreed g p).mc = p.mc ∧ (entryFreed g p).bs = p.bs ∧ (entryFreed g p).cc = p.cc ∧
    (entryFreed g p).tu = p.tu ∧ (entryFreed g p).sm = p.sm ∧ (entryFreed g p).mp = p.mp ∧
    (entryFreed g p).cl = p.cl ∧ (entryFreed g p).evt = p.evt ∧ craneCore (entryFreed g p).csA = craneCore p.csA ∧
    craneCore (entryFreed g p).csB = craneCore p.csB := by
  unfold entryFreed
  (try dsimp only)
  (repeat' split) <;> simp

@[simp] theorem beginExchange_keeps (g : Store) (addr : Nat) (cls : ExchangeClass) (cmd : FieldCmd) (by_ : Option Requester) (p : Part) :
    (beginExchange g addr cls cmd by_ p).mc = p.mc ∧ (beginExchange g addr cls cmd by_ p).bs = p.bs ∧
    (beginExchange g addr cls cmd by_ p).cc = p.cc ∧ (beginExchange g addr cls cmd by_ p).tu = p.tu ∧
    (beginExchange g addr cls cmd by_ p).sm = p.sm ∧ (beginExchange g addr cls cmd by_ p).mp = p.mp ∧
    (beginExchange g addr cls cmd by_ p).csA = p.csA ∧ (beginExchange g addr cls cmd by_ p).csB = p.csB ∧
    (beginExchange g addr cls cmd by_ p).cl = p.cl ∧ (beginExchange g addr cls cmd by_ p).evt = p.evt := by
  unfold beginExchange
  (try dsimp only)
  (repeat' split) <;> simp

@[simp] theorem beginEntry_keeps (g : Store) (e : Entry) (cls : ExchangeClass) (p : Part) :
    (beginEntry g e cls p).mc = p.mc ∧ (beginEntry g e cls p).bs = p.bs ∧ (beginEntry g e cls p).cc = p.cc ∧
    (beginEntry g e cls p).tu = p.tu ∧ (beginEntry g e cls p).sm = p.sm ∧ (beginEntry g e cls p).mp = p.mp ∧
    (beginEntry g e cls p).cl = p.cl ∧ (beginEntry g e cls p).evt = p.evt ∧
    craneCore (beginEntry g e cls p).csA = craneCore p.csA ∧ craneCore (beginEntry g e cls p).csB = craneCore p.csB := by
  unfold beginEntry
  (try dsimp only)
  (repeat' split) <;> simp

@[simp] theorem beginRetry_keeps (g : Store) (ex : Exchange) (rest : List Exchange) (p : Part) :
    (beginRetry g ex rest p).mc = p.mc ∧ (beginRetry g ex rest p).bs = p.bs ∧ (beginRetry g ex rest p).cc = p.cc ∧
    (beginRetry g ex rest p).tu = p.tu ∧ (beginRetry g ex rest p).sm = p.sm ∧ (beginRetry g ex rest p).mp = p.mp ∧
    (beginRetry g ex rest p).csA = p.csA ∧ (beginRetry g ex rest p).csB = p.csB ∧
    (beginRetry g ex rest p).cl = p.cl ∧ (beginRetry g ex rest p).evt = p.evt := by
  unfold beginRetry
  (try dsimp only)
  (repeat' split) <;> simp

@[simp] theorem beginRoundPoll_keeps (g : Store) (p : Part) :
    (beginRoundPoll g p).mc = p.mc ∧ (beginRoundPoll g p).bs = p.bs ∧ (beginRoundPoll g p).cc = p.cc ∧
    (beginRoundPoll g p).tu = p.tu ∧ (beginRoundPoll g p).sm = p.sm ∧ (beginRoundPoll g p).mp = p.mp ∧
    (beginRoundPoll g p).csA = p.csA ∧ (beginRoundPoll g p).csB = p.csB ∧ (beginRoundPoll g p).cl = p.cl ∧
    (beginRoundPoll g p).evt = p.evt := by
  unfold beginRoundPoll
  (try dsimp only)
  (repeat' split) <;> simp

@[simp] theorem nextExchange_keeps (g : Store) (p : Part) :
    (nextExchange g p).mc = p.mc ∧ (nextExchange g p).bs = p.bs ∧ (nextExchange g p).cc = p.cc ∧
    (nextExchange g p).tu = p.tu ∧ (nextExchange g p).sm = p.sm ∧ (nextExchange g p).mp = p.mp ∧
    (nextExchange g p).cl = p.cl ∧ (nextExchange g p).evt = p.evt ∧
    craneCore (nextExchange g p).csA = craneCore p.csA ∧ craneCore (nextExchange g p).csB = craneCore p.csB := by
  unfold nextExchange
  (try dsimp only)
  (repeat' split) <;> simp

@[simp] theorem offer_keeps (g : Store) (e : Entry) (p : Part) :
    (offer g e p).2.mc = p.mc ∧ (offer g e p).2.bs = p.bs ∧ (offer g e p).2.cc = p.cc ∧ (offer g e p).2.tu = p.tu ∧
    (offer g e p).2.sm = p.sm ∧ (offer g e p).2.mp = p.mp ∧ (offer g e p).2.cl = p.cl ∧
    (offer g e p).2.evt = p.evt ∧ craneCore (offer g e p).2.csA = craneCore p.csA ∧
    craneCore (offer g e p).2.csB = craneCore p.csB := by
  unfold offer
  (try dsimp only)
  (repeat' split) <;> simp

@[simp] theorem endRound_keeps (p : Part) :
    (endRound p).mc = p.mc ∧ (endRound p).bs = p.bs ∧ (endRound p).cc = p.cc ∧ (endRound p).tu = p.tu ∧
    (endRound p).sm = p.sm ∧ (endRound p).mp = p.mp ∧ (endRound p).csA = p.csA ∧ (endRound p).csB = p.csB ∧
    (endRound p).cl = p.cl ∧ (endRound p).evt = p.evt := by
  unfold endRound
  (try dsimp only)
  (repeat' split) <;> simp

@[simp] theorem beginRound_keeps (g : Store) (p : Part) :
    (beginRound g p).mc = p.mc ∧ (beginRound g p).bs = p.bs ∧ (beginRound g p).cc = p.cc ∧
    (beginRound g p).tu = p.tu ∧ (beginRound g p).sm = p.sm ∧ (beginRound g p).mp = p.mp ∧
    (beginRound g p).csA = p.csA ∧ (beginRound g p).csB = p.csB ∧ (beginRound g p).cl = p.cl ∧
    (beginRound g p).evt = p.evt := by
  unfold beginRound
  (try dsimp only)
  (repeat' split) <;> simp

@[simp] theorem lineFree_keeps (g : Store) (p : Part) :
    (lineFree g p).mc = p.mc ∧ (lineFree g p).bs = p.bs ∧ (lineFree g p).cc = p.cc ∧ (lineFree g p).tu = p.tu ∧
    (lineFree g p).sm = p.sm ∧ (lineFree g p).mp = p.mp ∧ (lineFree g p).cl = p.cl ∧ (lineFree g p).evt = p.evt ∧
    craneCore (lineFree g p).csA = craneCore p.csA ∧ craneCore (lineFree g p).csB = craneCore p.csB := by
  unfold lineFree
  (try dsimp only)
  (repeat' split) <;> simp

@[simp] theorem withdraw_keeps (g : Store) (c : CraneId) (p : Part) :
    (withdraw g c p).mc = p.mc ∧ (withdraw g c p).bs = p.bs ∧ (withdraw g c p).cc = p.cc ∧
    (withdraw g c p).tu = p.tu ∧ (withdraw g c p).sm = p.sm ∧ (withdraw g c p).mp = p.mp ∧
    (withdraw g c p).cl = p.cl ∧ (withdraw g c p).evt = p.evt ∧ craneCore (withdraw g c p).csA = craneCore p.csA ∧
    craneCore (withdraw g c p).csB = craneCore p.csB := by
  unfold withdraw
  (try dsimp only)
  (repeat' split) <;> simp

@[simp] theorem enterState_keeps (g : Store) (c : CraneId) (r : Crane) (p : Part) :
    (enterState g c r p).mc = p.mc ∧ (enterState g c r p).bs = p.bs ∧ (enterState g c r p).cc = p.cc ∧
    (enterState g c r p).tu = p.tu ∧ (enterState g c r p).sm = p.sm ∧ (enterState g c r p).mp = p.mp ∧
    (enterState g c r p).cl = p.cl ∧ (enterState g c r p).evt = p.evt := by
  unfold enterState
  (try dsimp only)
  (repeat' split) <;> simp

@[simp] theorem syncNodes_keeps (g : Store) (p : Part) :
    (syncNodes g p).mc = p.mc ∧ (syncNodes g p).bs = p.bs ∧ (syncNodes g p).cc = p.cc ∧ (syncNodes g p).tu = p.tu ∧
    (syncNodes g p).sm = p.sm ∧ (syncNodes g p).mp = p.mp ∧ (syncNodes g p).cl = p.cl ∧
    (syncNodes g p).evt = p.evt ∧ craneCore (syncNodes g p).csA = craneCore p.csA ∧
    craneCore (syncNodes g p).csB = craneCore p.csB := by
  unfold syncNodes
  (try dsimp only)
  (repeat' split) <;> simp

@[simp] theorem storeZoneResult_keeps (bed zone : Nat) (result : ZoneResult) (p : Part) :
    (storeZoneResult bed zone result p).mc = p.mc ∧ (storeZoneResult bed zone result p).bs = p.bs ∧
    (storeZoneResult bed zone result p).cc = p.cc ∧ (storeZoneResult bed zone result p).sm = p.sm ∧
    (storeZoneResult bed zone result p).mp = p.mp ∧ (storeZoneResult bed zone result p).csA = p.csA ∧
    (storeZoneResult bed zone result p).csB = p.csB ∧ (storeZoneResult bed zone result p).fl = p.fl ∧
    (storeZoneResult bed zone result p).cl = p.cl ∧ (storeZoneResult bed zone result p).evt = p.evt := by
  unfold storeZoneResult
  (try dsimp only)
  (repeat' split) <;> simp

@[simp] theorem storeAreaResult_keeps (area : Nat) (result : AreaResult) (p : Part) :
    (storeAreaResult area result p).mc = p.mc ∧ (storeAreaResult area result p).bs = p.bs ∧
    (storeAreaResult area result p).cc = p.cc ∧ (storeAreaResult area result p).sm = p.sm ∧
    (storeAreaResult area result p).mp = p.mp ∧ (storeAreaResult area result p).csA = p.csA ∧
    (storeAreaResult area result p).csB = p.csB ∧ (storeAreaResult area result p).fl = p.fl ∧
    (storeAreaResult area result p).cl = p.cl ∧ (storeAreaResult area result p).evt = p.evt := by
  unfold storeAreaResult
  (try dsimp only)
  (repeat' split) <;> simp

@[simp] theorem takeZoneReply_keeps (bed zone : Nat) (bytes : List Nat) (p : Part) :
    (takeZoneReply bed zone bytes p).mc = p.mc ∧ (takeZoneReply bed zone bytes p).bs = p.bs ∧
    (takeZoneReply bed zone bytes p).cc = p.cc ∧ (takeZoneReply bed zone bytes p).sm = p.sm ∧
    (takeZoneReply bed zone bytes p).mp = p.mp ∧ (takeZoneReply bed zone bytes p).csA = p.csA ∧
    (takeZoneReply bed zone bytes p).csB = p.csB ∧ (takeZoneReply bed zone bytes p).fl = p.fl ∧
    (takeZoneReply bed zone bytes p).cl = p.cl ∧ (takeZoneReply bed zone bytes p).evt = p.evt := by
  unfold takeZoneReply
  (try dsimp only)
  (repeat' split) <;> simp

@[simp] theorem takeYardReply_keeps (area : Nat) (bytes : List Nat) (p : Part) :
    (takeYardReply area bytes p).mc = p.mc ∧ (takeYardReply area bytes p).bs = p.bs ∧
    (takeYardReply area bytes p).cc = p.cc ∧ (takeYardReply area bytes p).sm = p.sm ∧
    (takeYardReply area bytes p).mp = p.mp ∧ (takeYardReply area bytes p).csA = p.csA ∧
    (takeYardReply area bytes p).csB = p.csB ∧ (takeYardReply area bytes p).fl = p.fl ∧
    (takeYardReply area bytes p).cl = p.cl ∧ (takeYardReply area bytes p).evt = p.evt := by
  unfold takeYardReply
  (try dsimp only)
  (repeat' split) <;> simp

@[simp] theorem rebuildBed_keeps (bed : Nat) (before after : List ZoneCfg) (p : Part) :
    (rebuildBed bed before after p).mc = p.mc ∧ (rebuildBed bed before after p).bs = p.bs ∧
    (rebuildBed bed before after p).sm = p.sm ∧ (rebuildBed bed before after p).mp = p.mp ∧
    (rebuildBed bed before after p).csA = p.csA ∧ (rebuildBed bed before after p).csB = p.csB ∧
    (rebuildBed bed before after p).fl = p.fl ∧ (rebuildBed bed before after p).cl = p.cl ∧
    (rebuildBed bed before after p).evt = p.evt := by
  unfold rebuildBed
  (try dsimp only)
  (repeat' split) <;> simp

@[simp] theorem rebuildArea_keeps (area : Nat) (node : Option Nat) (p : Part) :
    (rebuildArea area node p).mc = p.mc ∧ (rebuildArea area node p).bs = p.bs ∧
    (rebuildArea area node p).cc = p.cc ∧ (rebuildArea area node p).sm = p.sm ∧
    (rebuildArea area node p).mp = p.mp ∧ (rebuildArea area node p).csA = p.csA ∧
    (rebuildArea area node p).csB = p.csB ∧ (rebuildArea area node p).fl = p.fl ∧
    (rebuildArea area node p).cl = p.cl ∧ (rebuildArea area node p).evt = p.evt := by
  unfold rebuildArea
  (try dsimp only)
  (repeat' split) <;> simp

@[simp] theorem settlePour_keeps (pour : Nat) (r : Pour) (p : Part) :
    (settlePour pour r p).mc = p.mc ∧ (settlePour pour r p).cc = p.cc ∧ (settlePour pour r p).tu = p.tu ∧
    (settlePour pour r p).sm = p.sm ∧ (settlePour pour r p).mp = p.mp ∧ (settlePour pour r p).csA = p.csA ∧
    (settlePour pour r p).csB = p.csB ∧ (settlePour pour r p).fl = p.fl ∧ (settlePour pour r p).cl = p.cl ∧
    (settlePour pour r p).evt = p.evt := by
  unfold settlePour
  (try dsimp only)
  (repeat' split) <;> simp

@[simp] theorem pieceGone_keeps (pour : Nat) (p : Part) :
    (pieceGone pour p).mc = p.mc ∧ (pieceGone pour p).cc = p.cc ∧ (pieceGone pour p).tu = p.tu ∧
    (pieceGone pour p).sm = p.sm ∧ (pieceGone pour p).mp = p.mp ∧ (pieceGone pour p).csA = p.csA ∧
    (pieceGone pour p).csB = p.csB ∧ (pieceGone pour p).fl = p.fl ∧ (pieceGone pour p).cl = p.cl ∧
    (pieceGone pour p).evt = p.evt := by
  unfold pieceGone
  (try dsimp only)
  (repeat' split) <;> simp

@[simp] theorem clearCurrent_keeps (pour : Nat) (p : Part) :
    (clearCurrent pour p).mc = p.mc ∧ (clearCurrent pour p).cc = p.cc ∧ (clearCurrent pour p).tu = p.tu ∧
    (clearCurrent pour p).sm = p.sm ∧ (clearCurrent pour p).mp = p.mp ∧ (clearCurrent pour p).csA = p.csA ∧
    (clearCurrent pour p).csB = p.csB ∧ (clearCurrent pour p).fl = p.fl ∧ (clearCurrent pour p).cl = p.cl ∧
    (clearCurrent pour p).evt = p.evt := by
  unfold clearCurrent
  (try dsimp only)
  (repeat' split) <;> simp

@[simp] theorem release_keeps (n : Nat) (p : Part) :
    (release n p).mc = p.mc ∧ (release n p).bs = p.bs ∧ (release n p).cc = p.cc ∧ (release n p).tu = p.tu ∧
    (release n p).mp = p.mp ∧ (release n p).csA = p.csA ∧ (release n p).csB = p.csB ∧ (release n p).fl = p.fl ∧
    (release n p).cl = p.cl ∧ (release n p).sm.pieces = p.sm.pieces ∧ (release n p).sm.timer = p.sm.timer := by
  unfold release
  (try dsimp only)
  (repeat' split) <;> simp

@[simp] theorem engageSlot_keeps (n : Nat) (role : Role) (slot : Nat) (p : Part) :
    (engageSlot n role slot p).mc = p.mc ∧ (engageSlot n role slot p).bs = p.bs ∧
    (engageSlot n role slot p).cc = p.cc ∧ (engageSlot n role slot p).tu = p.tu ∧
    (engageSlot n role slot p).mp = p.mp ∧ (engageSlot n role slot p).csA = p.csA ∧
    (engageSlot n role slot p).csB = p.csB ∧ (engageSlot n role slot p).fl = p.fl ∧
    (engageSlot n role slot p).cl = p.cl ∧ (engageSlot n role slot p).evt = p.evt ∧
    (engageSlot n role slot p).sm.pieces = p.sm.pieces ∧ (engageSlot n role slot p).sm.timer = p.sm.timer := by
  unfold engageSlot
  (try dsimp only)
  (repeat' split) <;> simp

@[simp] theorem engage_keeps (n : Nat) (source dest : Option Nat) (p : Part) :
    (engage n source dest p).mc = p.mc ∧ (engage n source dest p).bs = p.bs ∧ (engage n source dest p).cc = p.cc ∧
    (engage n source dest p).tu = p.tu ∧ (engage n source dest p).mp = p.mp ∧
    (engage n source dest p).csA = p.csA ∧ (engage n source dest p).csB = p.csB ∧
    (engage n source dest p).fl = p.fl ∧ (engage n source dest p).cl = p.cl ∧
    (engage n source dest p).sm.pieces = p.sm.pieces ∧ (engage n source dest p).sm.timer = p.sm.timer := by
  unfold engage
  (try dsimp only)
  (repeat' split) <;> simp

@[simp] theorem unlock_keeps (n : Nat) (p : Part) :
    (unlock n p).mc = p.mc ∧ (unlock n p).bs = p.bs ∧ (unlock n p).cc = p.cc ∧ (unlock n p).tu = p.tu ∧
    (unlock n p).mp = p.mp ∧ (unlock n p).csA = p.csA ∧ (unlock n p).csB = p.csB ∧ (unlock n p).fl = p.fl ∧
    (unlock n p).cl = p.cl ∧ (unlock n p).sm.pieces = p.sm.pieces ∧ (unlock n p).sm.timer = p.sm.timer := by
  unfold unlock
  (try dsimp only)
  (repeat' split) <;> simp

@[simp] theorem pushPiece_keeps (mark : Nat) (q : Piece) (slot : Nat) (p : Part) :
    (pushPiece mark q slot p).mc = p.mc ∧ (pushPiece mark q slot p).bs = p.bs ∧
    (pushPiece mark q slot p).cc = p.cc ∧ (pushPiece mark q slot p).tu = p.tu ∧
    (pushPiece mark q slot p).mp = p.mp ∧ (pushPiece mark q slot p).csA = p.csA ∧
    (pushPiece mark q slot p).csB = p.csB ∧ (pushPiece mark q slot p).fl = p.fl ∧
    (pushPiece mark q slot p).cl = p.cl ∧ (pushPiece mark q slot p).evt = p.evt ∧
    (pushPiece mark q slot p).sm.timer = p.sm.timer := by
  unfold pushPiece
  (try dsimp only)
  (repeat' split) <;> simp

@[simp] theorem removePiece_keeps (mark : Nat) (p : Part) :
    (removePiece mark p).mc = p.mc ∧ (removePiece mark p).cc = p.cc ∧ (removePiece mark p).tu = p.tu ∧
    (removePiece mark p).mp = p.mp ∧ (removePiece mark p).csA = p.csA ∧ (removePiece mark p).csB = p.csB ∧
    (removePiece mark p).fl = p.fl ∧ (removePiece mark p).cl = p.cl ∧ (removePiece mark p).sm.timer = p.sm.timer := by
  unfold removePiece
  (try dsimp only)
  (repeat' split) <;> simp

@[simp] theorem removePieces_keeps (marks : List Nat) (p : Part) :
    (removePieces marks p).mc = p.mc ∧ (removePieces marks p).cc = p.cc ∧ (removePieces marks p).tu = p.tu ∧
    (removePieces marks p).mp = p.mp ∧ (removePieces marks p).csA = p.csA ∧ (removePieces marks p).csB = p.csB ∧
    (removePieces marks p).fl = p.fl ∧ (removePieces marks p).cl = p.cl ∧
    (removePieces marks p).sm.timer = p.sm.timer := by
  unfold removePieces
  (try dsimp only)
  (repeat' split) <;> simp

@[simp] theorem setCondition_keeps (mark : Nat) (c : Condition) (p : Part) :
    (setCondition mark c p).mc = p.mc ∧ (setCondition mark c p).bs = p.bs ∧ (setCondition mark c p).cc = p.cc ∧
    (setCondition mark c p).tu = p.tu ∧ (setCondition mark c p).mp = p.mp ∧ (setCondition mark c p).csA = p.csA ∧
    (setCondition mark c p).csB = p.csB ∧ (setCondition mark c p).fl = p.fl ∧ (setCondition mark c p).cl = p.cl ∧
    (setCondition mark c p).sm.slots = p.sm.slots ∧ (setCondition mark c p).sm.timer = p.sm.timer := by
  unfold setCondition
  (try dsimp only)
  (repeat' split) <;> simp

@[simp] theorem reviewHold_keeps (pour : Nat) (p : Part) :
    (reviewHold pour p).mc = p.mc ∧ (reviewHold pour p).bs = p.bs ∧ (reviewHold pour p).cc = p.cc ∧
    (reviewHold pour p).tu = p.tu ∧ (reviewHold pour p).mp = p.mp ∧ (reviewHold pour p).csA = p.csA ∧
    (reviewHold pour p).csB = p.csB ∧ (reviewHold pour p).fl = p.fl ∧ (reviewHold pour p).cl = p.cl ∧
    (reviewHold pour p).sm.slots = p.sm.slots ∧ (reviewHold pour p).sm.timer = p.sm.timer := by
  unfold reviewHold
  (try dsimp only)
  (repeat' split) <;> simp

@[simp] theorem changePour_keeps (pour : Nat) (which : Condition → Bool) (c : Condition) (p : Part) :
    (changePour pour which c p).mc = p.mc ∧ (changePour pour which c p).bs = p.bs ∧
    (changePour pour which c p).cc = p.cc ∧ (changePour pour which c p).tu = p.tu ∧
    (changePour pour which c p).mp = p.mp ∧ (changePour pour which c p).csA = p.csA ∧
    (changePour pour which c p).csB = p.csB ∧ (changePour pour which c p).fl = p.fl ∧
    (changePour pour which c p).cl = p.cl ∧ (changePour pour which c p).sm.slots = p.sm.slots ∧
    (changePour pour which c p).sm.timer = p.sm.timer := by
  unfold changePour
  exact ⟨foldl_mc _ (by intro p a; (repeat' split) <;> simp) _ _, foldl_bs _ (by intro p a; (repeat' split) <;> simp) _ _, foldl_cc _ (by intro p a; (repeat' split) <;> simp) _ _, foldl_tu _ (by intro p a; (repeat' split) <;> simp) _ _, foldl_mp _ (by intro p a; (repeat' split) <;> simp) _ _, foldl_csA _ (by intro p a; (repeat' split) <;> simp) _ _, foldl_csB _ (by intro p a; (repeat' split) <;> simp) _ _, foldl_fl _ (by intro p a; (repeat' split) <;> simp) _ _, foldl_cl _ (by intro p a; (repeat' split) <;> simp) _ _, foldl_slots _ (by intro p a; (repeat' split) <;> simp) _ _, foldl_yard _ (by intro p a; (repeat' split) <;> simp) _ _⟩

@[simp] theorem recordDeviation_keeps (g : Store) (bed pour : Nat) (d : Deviation) (p : Part) :
    (recordDeviation g bed pour d p).mc = p.mc ∧ (recordDeviation g bed pour d p).cc = p.cc ∧
    (recordDeviation g bed pour d p).tu = p.tu ∧ (recordDeviation g bed pour d p).mp = p.mp ∧
    (recordDeviation g bed pour d p).csA = p.csA ∧ (recordDeviation g bed pour d p).csB = p.csB ∧
    (recordDeviation g bed pour d p).fl = p.fl ∧ linkCore (recordDeviation g bed pour d p).cl = linkCore p.cl ∧
    (recordDeviation g bed pour d p).sm.slots = p.sm.slots ∧ (recordDeviation g bed pour d p).sm.timer = p.sm.timer := by
  unfold recordDeviation
  (try dsimp only)
  (repeat' split) <;> simp

@[simp] theorem reportDeviation_keeps (g : Store) (bed pour : Nat) (d : Deviation) (p : Part) :
    (reportDeviation g bed pour d p).mc = p.mc ∧ (reportDeviation g bed pour d p).cc = p.cc ∧
    (reportDeviation g bed pour d p).tu = p.tu ∧ (reportDeviation g bed pour d p).mp = p.mp ∧
    (reportDeviation g bed pour d p).csA = p.csA ∧ (reportDeviation g bed pour d p).csB = p.csB ∧
    (reportDeviation g bed pour d p).fl = p.fl ∧ linkCore (reportDeviation g bed pour d p).cl = linkCore p.cl ∧
    (reportDeviation g bed pour d p).sm.slots = p.sm.slots ∧ (reportDeviation g bed pour d p).sm.timer = p.sm.timer := by
  unfold reportDeviation
  (try dsimp only)
  (repeat' split) <;> simp

@[simp] theorem emptyBed_keeps (bed : Nat) (p : Part) :
    (emptyBed bed p).mc = p.mc ∧ (emptyBed bed p).tu = p.tu ∧ (emptyBed bed p).sm = p.sm ∧
    (emptyBed bed p).mp = p.mp ∧ (emptyBed bed p).csA = p.csA ∧ (emptyBed bed p).csB = p.csB ∧
    (emptyBed bed p).fl = p.fl ∧ (emptyBed bed p).cl = p.cl ∧ (emptyBed bed p).evt = p.evt := by
  unfold emptyBed
  (try dsimp only)
  (repeat' split) <;> simp

@[simp] theorem leftBed_keeps (bed pour : Nat) (p : Part) :
    (leftBed bed pour p).mc = p.mc ∧ (leftBed bed pour p).tu = p.tu ∧ (leftBed bed pour p).sm = p.sm ∧
    (leftBed bed pour p).mp = p.mp ∧ (leftBed bed pour p).csA = p.csA ∧ (leftBed bed pour p).csB = p.csB ∧
    (leftBed bed pour p).fl = p.fl ∧ (leftBed bed pour p).evt = p.evt ∧
    linkCore (leftBed bed pour p).cl = linkCore p.cl := by
  unfold leftBed
  (try dsimp only)
  (repeat' split) <;> simp

@[simp] theorem liftPiece_keeps (c : CraneId) (mark : Nat) (p : Part) :
    (liftPiece c mark p).mc = p.mc ∧ (liftPiece c mark p).tu = p.tu ∧ (liftPiece c mark p).mp = p.mp ∧
    (liftPiece c mark p).csA = p.csA ∧ (liftPiece c mark p).csB = p.csB ∧ (liftPiece c mark p).fl = p.fl ∧
    linkCore (liftPiece c mark p).cl = linkCore p.cl ∧ (liftPiece c mark p).sm.timer = p.sm.timer := by
  unfold liftPiece
  (try dsimp only)
  (repeat' split) <;> simp

@[simp] theorem placeOnSlot_keeps (g : Store) (m : Move) (mark slot : Nat) (p : Part) :
    (placeOnSlot g m mark slot p).mc = p.mc ∧ (placeOnSlot g m mark slot p).bs = p.bs ∧
    (placeOnSlot g m mark slot p).cc = p.cc ∧ (placeOnSlot g m mark slot p).tu = p.tu ∧
    (placeOnSlot g m mark slot p).mp = p.mp ∧ (placeOnSlot g m mark slot p).csA = p.csA ∧
    (placeOnSlot g m mark slot p).csB = p.csB ∧ (placeOnSlot g m mark slot p).fl = p.fl ∧
    linkCore (placeOnSlot g m mark slot p).cl = linkCore p.cl ∧ (placeOnSlot g m mark slot p).sm.timer = p.sm.timer := by
  unfold placeOnSlot
  (try dsimp only)
  (repeat' split) <;> simp

@[simp] theorem placeInBay_keeps (m : Move) (mark bay : Nat) (p : Part) :
    (placeInBay m mark bay p).mc = p.mc ∧ (placeInBay m mark bay p).cc = p.cc ∧
    (placeInBay m mark bay p).tu = p.tu ∧ (placeInBay m mark bay p).mp = p.mp ∧
    (placeInBay m mark bay p).csA = p.csA ∧ (placeInBay m mark bay p).csB = p.csB ∧
    (placeInBay m mark bay p).fl = p.fl ∧ linkCore (placeInBay m mark bay p).cl = linkCore p.cl ∧
    (placeInBay m mark bay p).sm.timer = p.sm.timer := by
  unfold placeInBay
  (try dsimp only)
  (repeat' split) <;> simp

@[simp] theorem setReservation_keeps (c : CraneId) (r : Reservation) (p : Part) :
    (setReservation c r p).mc = p.mc ∧ (setReservation c r p).bs = p.bs ∧ (setReservation c r p).cc = p.cc ∧
    (setReservation c r p).tu = p.tu ∧ (setReservation c r p).sm = p.sm ∧ (setReservation c r p).csA = p.csA ∧
    (setReservation c r p).csB = p.csB ∧ (setReservation c r p).fl = p.fl ∧ (setReservation c r p).cl = p.cl ∧
    (setReservation c r p).mp.queue = p.mp.queue ∧ (setReservation c r p).mp.counter = p.mp.counter ∧
    (setReservation c r p).mp.backlog = p.mp.backlog := by
  unfold setReservation
  (try dsimp only)
  (repeat' split) <;> simp

theorem askReservation_keeps {g : Store} {c : CraneId} {basis : List Int} {p q : Part}
    (h : askReservation g c basis p = some q) :
    q.mc = p.mc ∧ q.bs = p.bs ∧ q.cc = p.cc ∧ q.tu = p.tu ∧ q.sm = p.sm ∧ q.csA = p.csA ∧ q.csB = p.csB ∧ q.fl = p.fl ∧ q.cl = p.cl ∧ q.mp.queue = p.mp.queue ∧ q.mp.counter = p.mp.counter ∧ q.mp.backlog = p.mp.backlog := by
  unfold askReservation at h
  split at h
  · cases h; simp
  · cases h

@[simp] theorem comeToRest_keeps (g : Store) (c : CraneId) (pos : Int) (p : Part) :
    (comeToRest g c pos p).mc = p.mc ∧ (comeToRest g c pos p).bs = p.bs ∧ (comeToRest g c pos p).cc = p.cc ∧
    (comeToRest g c pos p).tu = p.tu ∧ (comeToRest g c pos p).sm = p.sm ∧ (comeToRest g c pos p).csA = p.csA ∧
    (comeToRest g c pos p).csB = p.csB ∧ (comeToRest g c pos p).fl = p.fl ∧ (comeToRest g c pos p).cl = p.cl ∧
    (comeToRest g c pos p).mp.queue = p.mp.queue ∧ (comeToRest g c pos p).mp.counter = p.mp.counter ∧
    (comeToRest g c pos p).mp.backlog = p.mp.backlog := by
  unfold comeToRest
  (try dsimp only)
  (repeat' split) <;> simp

@[simp] theorem setPieceMove_keeps (mark : Nat) (n : Option Nat) (p : Part) :
    (setPieceMove mark n p).mc = p.mc ∧ (setPieceMove mark n p).bs = p.bs ∧ (setPieceMove mark n p).cc = p.cc ∧
    (setPieceMove mark n p).tu = p.tu ∧ (setPieceMove mark n p).mp = p.mp ∧ (setPieceMove mark n p).csA = p.csA ∧
    (setPieceMove mark n p).csB = p.csB ∧ (setPieceMove mark n p).fl = p.fl ∧ (setPieceMove mark n p).cl = p.cl ∧
    (setPieceMove mark n p).evt = p.evt ∧ (setPieceMove mark n p).sm.slots = p.sm.slots ∧
    (setPieceMove mark n p).sm.timer = p.sm.timer := by
  unfold setPieceMove
  (try dsimp only)
  (repeat' split) <;> simp

@[simp] theorem joinQueue_keeps (atHead : Bool) (m : Move) (p : Part) :
    (joinQueue atHead m p).mc = p.mc ∧ (joinQueue atHead m p).bs = p.bs ∧ (joinQueue atHead m p).cc = p.cc ∧
    (joinQueue atHead m p).tu = p.tu ∧ (joinQueue atHead m p).csA = p.csA ∧ (joinQueue atHead m p).csB = p.csB ∧
    (joinQueue atHead m p).fl = p.fl ∧ (joinQueue atHead m p).cl = p.cl ∧
    (joinQueue atHead m p).sm.slots = p.sm.slots ∧ (joinQueue atHead m p).sm.timer = p.sm.timer ∧
    (joinQueue atHead m p).mp.resA = p.mp.resA ∧ (joinQueue atHead m p).mp.resB = p.mp.resB ∧
    (joinQueue atHead m p).mp.backlog = p.mp.backlog := by
  unfold joinQueue
  (try dsimp only)
  (repeat' split) <;> simp

@[simp] theorem queueStrip_keeps (mark : Nat) (p : Part) :
    (queueStrip mark p).mc = p.mc ∧ (queueStrip mark p).bs = p.bs ∧ (queueStrip mark p).cc = p.cc ∧
    (queueStrip mark p).tu = p.tu ∧ (queueStrip mark p).csA = p.csA ∧ (queueStrip mark p).csB = p.csB ∧
    (queueStrip mark p).fl = p.fl ∧ (queueStrip mark p).cl = p.cl ∧ (queueStrip mark p).sm.slots = p.sm.slots ∧
    (queueStrip mark p).sm.timer = p.sm.timer ∧ (queueStrip mark p).mp.resA = p.mp.resA ∧
    (queueStrip mark p).mp.resB = p.mp.resB ∧ (queueStrip mark p).mp.backlog = p.mp.backlog := by
  unfold queueStrip
  (try dsimp only)
  (repeat' split) <;> simp

@[simp] theorem queueStrips_keeps (marks : List Nat) (p : Part) :
    (queueStrips marks p).mc = p.mc ∧ (queueStrips marks p).bs = p.bs ∧ (queueStrips marks p).cc = p.cc ∧
    (queueStrips marks p).tu = p.tu ∧ (queueStrips marks p).csA = p.csA ∧ (queueStrips marks p).csB = p.csB ∧
    (queueStrips marks p).fl = p.fl ∧ (queueStrips marks p).cl = p.cl ∧
    (queueStrips marks p).sm.slots = p.sm.slots ∧ (queueStrips marks p).sm.timer = p.sm.timer ∧
    (queueStrips marks p).mp.resA = p.mp.resA ∧ (queueStrips marks p).mp.resB = p.mp.resB ∧
    (queueStrips marks p).mp.backlog = p.mp.backlog := by
  unfold queueStrips
  (try dsimp only)
  (repeat' split) <;> simp

@[simp] theorem removeMove_keeps (n : Nat) (p : Part) :
    (removeMove n p).mc = p.mc ∧ (removeMove n p).bs = p.bs ∧ (removeMove n p).cc = p.cc ∧
    (removeMove n p).tu = p.tu ∧ (removeMove n p).csA = p.csA ∧ (removeMove n p).csB = p.csB ∧
    (removeMove n p).fl = p.fl ∧ (removeMove n p).cl = p.cl ∧ (removeMove n p).sm.timer = p.sm.timer ∧
    (removeMove n p).mp.resA = p.mp.resA ∧ (removeMove n p).mp.resB = p.mp.resB ∧
    (removeMove n p).mp.counter = p.mp.counter ∧ (removeMove n p).mp.backlog = p.mp.backlog := by
  unfold removeMove
  (try dsimp only)
  (repeat' split) <;> simp

@[simp] theorem fillFrom_keeps (l : List Nat) (p : Part) :
    (fillFrom l p).mc = p.mc ∧
    (fillFrom l p).bs = p.bs ∧
    (fillFrom l p).cc = p.cc ∧
    (fillFrom l p).tu = p.tu ∧
    (fillFrom l p).csA = p.csA ∧
    (fillFrom l p).csB = p.csB ∧
    (fillFrom l p).fl = p.fl ∧
    (fillFrom l p).cl = p.cl ∧
    (fillFrom l p).sm.slots = p.sm.slots ∧
    (fillFrom l p).sm.timer = p.sm.timer ∧
    (fillFrom l p).mp.resA = p.mp.resA ∧
    (fillFrom l p).mp.resB = p.mp.resB := by
  induction l generalizing p with
  | nil => simp [fillFrom]
  | cons m l ih =>
    unfold fillFrom
    (repeat' split) <;> simp [ih]

@[simp] theorem backlogFill_keeps (p : Part) :
    (backlogFill p).mc = p.mc ∧ (backlogFill p).bs = p.bs ∧ (backlogFill p).cc = p.cc ∧ (backlogFill p).tu = p.tu ∧
    (backlogFill p).csA = p.csA ∧ (backlogFill p).csB = p.csB ∧ (backlogFill p).fl = p.fl ∧
    (backlogFill p).cl = p.cl ∧ (backlogFill p).sm.slots = p.sm.slots ∧ (backlogFill p).sm.timer = p.sm.timer ∧
    (backlogFill p).mp.resA = p.mp.resA ∧ (backlogFill p).mp.resB = p.mp.resB := by
  unfold backlogFill
  (try dsimp only)
  (repeat' split) <;> simp

@[simp] theorem suspendBound_keeps (n : Nat) (reason : SuspendReason) (p : Part) :
    (suspendBound n reason p).mc = p.mc ∧ (suspendBound n reason p).bs = p.bs ∧
    (suspendBound n reason p).cc = p.cc ∧ (suspendBound n reason p).tu = p.tu ∧
    (suspendBound n reason p).sm = p.sm ∧ (suspendBound n reason p).csA = p.csA ∧
    (suspendBound n reason p).csB = p.csB ∧ (suspendBound n reason p).fl = p.fl ∧
    (suspendBound n reason p).cl = p.cl ∧ (suspendBound n reason p).mp.resA = p.mp.resA ∧
    (suspendBound n reason p).mp.resB = p.mp.resB ∧ (suspendBound n reason p).mp.counter = p.mp.counter ∧
    (suspendBound n reason p).mp.backlog = p.mp.backlog := by
  unfold suspendBound
  (try dsimp only)
  (repeat' split) <;> simp

@[simp] theorem suspendUnbound_keeps (g : Store) (n : Nat) (c : CraneId) (pos : Int) (reason : SuspendReason) (p : Part) :
    (suspendUnbound g n c pos reason p).mc = p.mc ∧ (suspendUnbound g n c pos reason p).bs = p.bs ∧
    (suspendUnbound g n c pos reason p).cc = p.cc ∧ (suspendUnbound g n c pos reason p).tu = p.tu ∧
    (suspendUnbound g n c pos reason p).csA = p.csA ∧ (suspendUnbound g n c pos reason p).csB = p.csB ∧
    (suspendUnbound g n c pos reason p).fl = p.fl ∧ (suspendUnbound g n c pos reason p).cl = p.cl ∧
    (suspendUnbound g n c pos reason p).sm.pieces = p.sm.pieces ∧
    (suspendUnbound g n c pos reason p).sm.timer = p.sm.timer ∧
    (suspendUnbound g n c pos reason p).mp.counter = p.mp.counter ∧
    (suspendUnbound g n c pos reason p).mp.backlog = p.mp.backlog := by
  unfold suspendUnbound
  (try dsimp only)
  (repeat' split) <;> simp

@[simp] theorem moveDone_keeps (g : Store) (n : Nat) (c : CraneId) (pos : Int) (p : Part) :
    (moveDone g n c pos p).mc = p.mc ∧ (moveDone g n c pos p).bs = p.bs ∧ (moveDone g n c pos p).cc = p.cc ∧
    (moveDone g n c pos p).tu = p.tu ∧ (moveDone g n c pos p).csA = p.csA ∧ (moveDone g n c pos p).csB = p.csB ∧
    (moveDone g n c pos p).fl = p.fl ∧ (moveDone g n c pos p).cl = p.cl ∧
    (moveDone g n c pos p).sm.timer = p.sm.timer := by
  unfold moveDone
  (try dsimp only)
  (repeat' split) <;> simp

@[simp] theorem offerStep_keeps (g : Store) (c : CraneId) (cmd : FieldCmd) (p : Part) :
    (offerStep g c cmd p).mc = p.mc ∧ (offerStep g c cmd p).bs = p.bs ∧ (offerStep g c cmd p).cc = p.cc ∧
    (offerStep g c cmd p).tu = p.tu ∧ (offerStep g c cmd p).sm = p.sm ∧ (offerStep g c cmd p).mp = p.mp ∧
    (offerStep g c cmd p).cl = p.cl ∧ (offerStep g c cmd p).evt = p.evt ∧
    craneCore (offerStep g c cmd p).csA = craneCore p.csA ∧ craneCore (offerStep g c cmd p).csB = craneCore p.csB := by
  unfold offerStep
  (try dsimp only)
  (repeat' split) <;> simp

@[simp] theorem beginStep_keeps (g : Store) (c : CraneId) (step : Step) (p : Part) :
    (beginStep g c step p).mc = p.mc ∧ (beginStep g c step p).bs = p.bs ∧ (beginStep g c step p).cc = p.cc ∧
    (beginStep g c step p).tu = p.tu ∧ (beginStep g c step p).sm = p.sm ∧ (beginStep g c step p).mp = p.mp ∧
    (beginStep g c step p).cl = p.cl ∧ (beginStep g c step p).evt = p.evt := by
  unfold beginStep
  (try dsimp only)
  (repeat' split) <;> simp

@[simp] theorem offerPlain_keeps (g : Store) (c : CraneId) (cmd : FieldCmd) (p : Part) :
    (offerPlain g c cmd p).mc = p.mc ∧ (offerPlain g c cmd p).bs = p.bs ∧ (offerPlain g c cmd p).cc = p.cc ∧
    (offerPlain g c cmd p).tu = p.tu ∧ (offerPlain g c cmd p).sm = p.sm ∧ (offerPlain g c cmd p).mp = p.mp ∧
    (offerPlain g c cmd p).cl = p.cl ∧ (offerPlain g c cmd p).evt = p.evt ∧
    craneCore (offerPlain g c cmd p).csA = craneCore p.csA ∧ craneCore (offerPlain g c cmd p).csB = craneCore p.csB := by
  unfold offerPlain
  (try dsimp only)
  (repeat' split) <;> simp

@[simp] theorem takeMove_keeps (g : Store) (c : CraneId) (m : Move) (p : Part) :
    (takeMove g c m p).mc = p.mc ∧ (takeMove g c m p).bs = p.bs ∧ (takeMove g c m p).cc = p.cc ∧
    (takeMove g c m p).tu = p.tu ∧ (takeMove g c m p).sm = p.sm ∧ (takeMove g c m p).mp = p.mp ∧
    (takeMove g c m p).cl = p.cl ∧ (takeMove g c m p).evt = p.evt := by
  unfold takeMove
  (try dsimp only)
  (repeat' split) <;> simp

@[simp] theorem stopNotices_keeps (c : CraneId) (reason : StopReason) (p : Part) :
    (stopNotices c reason p).mc = p.mc ∧ (stopNotices c reason p).bs = p.bs ∧ (stopNotices c reason p).cc = p.cc ∧
    (stopNotices c reason p).tu = p.tu ∧ (stopNotices c reason p).sm = p.sm ∧ (stopNotices c reason p).mp = p.mp ∧
    (stopNotices c reason p).csA = p.csA ∧ (stopNotices c reason p).csB = p.csB ∧
    (stopNotices c reason p).fl = p.fl ∧ (stopNotices c reason p).evt = p.evt ∧
    linkCore (stopNotices c reason p).cl = linkCore p.cl := by
  unfold stopNotices
  (try dsimp only)
  (repeat' split) <;> simp

@[simp] theorem stopCrane_keeps (g : Store) (c : CraneId) (reason : StopReason) (sendStop : Bool) (p : Part) :
    (stopCrane g c reason sendStop p).mc = p.mc ∧ (stopCrane g c reason sendStop p).bs = p.bs ∧
    (stopCrane g c reason sendStop p).cc = p.cc ∧ (stopCrane g c reason sendStop p).tu = p.tu ∧
    (stopCrane g c reason sendStop p).sm = p.sm ∧ linkCore (stopCrane g c reason sendStop p).cl = linkCore p.cl ∧
    (stopCrane g c reason sendStop p).mp.resA = p.mp.resA ∧ (stopCrane g c reason sendStop p).mp.resB = p.mp.resB ∧
    (stopCrane g c reason sendStop p).mp.counter = p.mp.counter ∧
    (stopCrane g c reason sendStop p).mp.backlog = p.mp.backlog := by
  unfold stopCrane
  (try dsimp only)
  (repeat' split) <;> simp

@[simp] theorem stopIfLocated_keeps (g : Store) (c : CraneId) (reason : StopReason) (sendStop : Bool) (p : Part) :
    (stopIfLocated g c reason sendStop p).mc = p.mc ∧ (stopIfLocated g c reason sendStop p).bs = p.bs ∧
    (stopIfLocated g c reason sendStop p).cc = p.cc ∧ (stopIfLocated g c reason sendStop p).tu = p.tu ∧
    (stopIfLocated g c reason sendStop p).sm = p.sm ∧
    linkCore (stopIfLocated g c reason sendStop p).cl = linkCore p.cl ∧
    (stopIfLocated g c reason sendStop p).mp.resA = p.mp.resA ∧
    (stopIfLocated g c reason sendStop p).mp.resB = p.mp.resB ∧
    (stopIfLocated g c reason sendStop p).mp.counter = p.mp.counter ∧
    (stopIfLocated g c reason sendStop p).mp.backlog = p.mp.backlog := by
  unfold stopIfLocated
  (try dsimp only)
  (repeat' split) <;> simp

@[simp] theorem craneNodeLost_keeps (g : Store) (c : CraneId) (p : Part) :
    (craneNodeLost g c p).mc = p.mc ∧ (craneNodeLost g c p).bs = p.bs ∧ (craneNodeLost g c p).cc = p.cc ∧
    (craneNodeLost g c p).tu = p.tu ∧ (craneNodeLost g c p).sm = p.sm ∧
    linkCore (craneNodeLost g c p).cl = linkCore p.cl ∧ (craneNodeLost g c p).mp.resA = p.mp.resA ∧
    (craneNodeLost g c p).mp.resB = p.mp.resB ∧ (craneNodeLost g c p).mp.counter = p.mp.counter ∧
    (craneNodeLost g c p).mp.backlog = p.mp.backlog := by
  unfold craneNodeLost
  (try dsimp only)
  (repeat' split) <;> simp

@[simp] theorem craneNodeBack_keeps (g : Store) (c : CraneId) (p : Part) :
    (craneNodeBack g c p).mc = p.mc ∧ (craneNodeBack g c p).bs = p.bs ∧ (craneNodeBack g c p).cc = p.cc ∧
    (craneNodeBack g c p).tu = p.tu ∧ (craneNodeBack g c p).sm = p.sm ∧ (craneNodeBack g c p).mp = p.mp ∧
    (craneNodeBack g c p).cl = p.cl ∧ (craneNodeBack g c p).evt = p.evt ∧
    craneCore (craneNodeBack g c p).csA = craneCore p.csA ∧ craneCore (craneNodeBack g c p).csB = craneCore p.csB := by
  unfold craneNodeBack
  (try dsimp only)
  (repeat' split) <;> simp

@[simp] theorem haltMove_keeps (g : Store) (c : CraneId) (p : Part) :
    (haltMove g c p).mc = p.mc ∧ (haltMove g c p).bs = p.bs ∧ (haltMove g c p).cc = p.cc ∧
    (haltMove g c p).tu = p.tu ∧ (haltMove g c p).sm = p.sm ∧ (haltMove g c p).mp = p.mp ∧
    (haltMove g c p).cl = p.cl := by
  unfold haltMove
  (try dsimp only)
  (repeat' split) <;> simp

@[simp] theorem withdrawShip_keeps (g : Store) (m : Move) (p : Part) :
    (withdrawShip g m p).mc = p.mc ∧ (withdrawShip g m p).bs = p.bs ∧ (withdrawShip g m p).cc = p.cc ∧
    (withdrawShip g m p).tu = p.tu ∧ linkCore (withdrawShip g m p).cl = linkCore p.cl ∧
    (withdrawShip g m p).sm.pieces = p.sm.pieces ∧ (withdrawShip g m p).sm.timer = p.sm.timer ∧
    (withdrawShip g m p).mp.counter = p.mp.counter ∧ (withdrawShip g m p).mp.backlog = p.mp.backlog := by
  unfold withdrawShip
  (try dsimp only)
  (repeat' split) <;> simp

@[simp] theorem locateCrane_keeps (g : Store) (c : CraneId) (pos : Int) (p : Part) :
    (locateCrane g c pos p).mc = p.mc ∧ (locateCrane g c pos p).bs = p.bs ∧ (locateCrane g c pos p).cc = p.cc ∧
    (locateCrane g c pos p).tu = p.tu ∧ (locateCrane g c pos p).sm = p.sm ∧
    linkCore (locateCrane g c pos p).cl = linkCore p.cl ∧ (locateCrane g c pos p).mp.counter = p.mp.counter ∧
    (locateCrane g c pos p).mp.backlog = p.mp.backlog := by
  unfold locateCrane
  split
  · next h => simp [askReservation_keeps h]
  · simp

@[simp] theorem overrunCheck_keeps (g : Store) (c : CraneId) (pos : Int) (p : Part) :
    (overrunCheck g c pos p).mc = p.mc ∧ (overrunCheck g c pos p).bs = p.bs ∧ (overrunCheck g c pos p).cc = p.cc ∧
    (overrunCheck g c pos p).tu = p.tu ∧ (overrunCheck g c pos p).sm = p.sm ∧
    linkCore (overrunCheck g c pos p).cl = linkCore p.cl ∧ (overrunCheck g c pos p).mp.resA = p.mp.resA ∧
    (overrunCheck g c pos p).mp.resB = p.mp.resB ∧ (overrunCheck g c pos p).mp.counter = p.mp.counter ∧
    (overrunCheck g c pos p).mp.backlog = p.mp.backlog := by
  unfold overrunCheck
  (try dsimp only)
  (repeat' split) <;> simp

@[simp] theorem countFault_keeps (g : Store) (c : CraneId) (fault : Bool) (p : Part) :
    (countFault g c fault p).mc = p.mc ∧ (countFault g c fault p).bs = p.bs ∧ (countFault g c fault p).cc = p.cc ∧
    (countFault g c fault p).tu = p.tu ∧ (countFault g c fault p).sm = p.sm ∧
    linkCore (countFault g c fault p).cl = linkCore p.cl ∧ (countFault g c fault p).mp.resA = p.mp.resA ∧
    (countFault g c fault p).mp.resB = p.mp.resB ∧ (countFault g c fault p).mp.counter = p.mp.counter ∧
    (countFault g c fault p).mp.backlog = p.mp.backlog := by
  unfold countFault
  (try dsimp only)
  (repeat' split) <;> simp

@[simp] theorem acceptLoad_keeps (g : Store) (c : CraneId) (mark : Nat) (p : Part) :
    (acceptLoad g c mark p).mc = p.mc ∧ (acceptLoad g c mark p).tu = p.tu ∧ (acceptLoad g c mark p).mp = p.mp ∧
    linkCore (acceptLoad g c mark p).cl = linkCore p.cl ∧ (acceptLoad g c mark p).sm.timer = p.sm.timer := by
  unfold acceptLoad
  (try dsimp only)
  (repeat' split) <;> simp

@[simp] theorem refuseLoad_keeps (g : Store) (c : CraneId) (m : Move) (mark mass : Nat) (y : CraneReply) (reason : SuspendReason) (p : Part) :
    (refuseLoad g c m mark mass y reason p).mc = p.mc ∧ (refuseLoad g c m mark mass y reason p).bs = p.bs ∧
    (refuseLoad g c m mark mass y reason p).cc = p.cc ∧ (refuseLoad g c m mark mass y reason p).tu = p.tu ∧
    linkCore (refuseLoad g c m mark mass y reason p).cl = linkCore p.cl ∧
    (refuseLoad g c m mark mass y reason p).sm.pieces = p.sm.pieces ∧
    (refuseLoad g c m mark mass y reason p).sm.timer = p.sm.timer ∧
    (refuseLoad g c m mark mass y reason p).mp.counter = p.mp.counter ∧
    (refuseLoad g c m mark mass y reason p).mp.backlog = p.mp.backlog := by
  unfold refuseLoad
  (try dsimp only)
  (repeat' split) <;> simp

@[simp] theorem loadCheck_keeps (g : Store) (c : CraneId) (y : CraneReply) (p : Part) :
    (loadCheck g c y p).mc = p.mc ∧ (loadCheck g c y p).tu = p.tu ∧
    linkCore (loadCheck g c y p).cl = linkCore p.cl ∧ (loadCheck g c y p).sm.timer = p.sm.timer ∧
    (loadCheck g c y p).mp.counter = p.mp.counter ∧ (loadCheck g c y p).mp.backlog = p.mp.backlog := by
  unfold loadCheck
  (try dsimp only)
  (repeat' split) <;> simp

@[simp] theorem becomeIdle_keeps (g : Store) (c : CraneId) (p : Part) :
    (becomeIdle g c p).mc = p.mc ∧ (becomeIdle g c p).bs = p.bs ∧ (becomeIdle g c p).cc = p.cc ∧
    (becomeIdle g c p).tu = p.tu ∧ (becomeIdle g c p).sm = p.sm ∧ (becomeIdle g c p).mp = p.mp ∧
    (becomeIdle g c p).cl = p.cl := by
  unfold becomeIdle
  (try dsimp only)
  (repeat' split) <;> simp

@[simp] theorem placePiece_keeps (g : Store) (m : Move) (mark : Nat) (p : Part) :
    (placePiece g m mark p).mc = p.mc ∧ (placePiece g m mark p).cc = p.cc ∧ (placePiece g m mark p).tu = p.tu ∧
    (placePiece g m mark p).mp = p.mp ∧ (placePiece g m mark p).csA = p.csA ∧ (placePiece g m mark p).csB = p.csB ∧
    (placePiece g m mark p).fl = p.fl ∧ linkCore (placePiece g m mark p).cl = linkCore p.cl ∧
    (placePiece g m mark p).sm.timer = p.sm.timer := by
  unfold placePiece
  (try dsimp only)
  (repeat' split) <;> simp

@[simp] theorem finishMove_keeps (g : Store) (c : CraneId) (m : Move) (mark : Nat) (pos : Int) (p : Part) :
    (finishMove g c m mark pos p).mc = p.mc ∧ (finishMove g c m mark pos p).cc = p.cc ∧
    (finishMove g c m mark pos p).tu = p.tu ∧ linkCore (finishMove g c m mark pos p).cl = linkCore p.cl ∧
    (finishMove g c m mark pos p).sm.timer = p.sm.timer := by
  unfold finishMove
  (try dsimp only)
  (repeat' split) <;> simp

@[simp] theorem completeStep_keeps (g : Store) (c : CraneId) (y : CraneReply) (step : Step) (p : Part) :
    (completeStep g c y step p).mc = p.mc ∧ (completeStep g c y step p).tu = p.tu ∧
    linkCore (completeStep g c y step p).cl = linkCore p.cl ∧ (completeStep g c y step p).sm.timer = p.sm.timer := by
  unfold completeStep
  (try dsimp only)
  (repeat' split) <;> simp

@[simp] theorem judgeStep_keeps (g : Store) (c : CraneId) (exchange : Nat) (y : CraneReply) (p : Part) :
    (judgeStep g c exchange y p).mc = p.mc ∧ (judgeStep g c exchange y p).tu = p.tu ∧
    linkCore (judgeStep g c exchange y p).cl = linkCore p.cl ∧ (judgeStep g c exchange y p).sm.timer = p.sm.timer := by
  unfold judgeStep
  (try dsimp only)
  (repeat' split) <;> simp

@[simp] theorem takeCraneReply_keeps (g : Store) (c : CraneId) (exchange : Nat) (y : CraneReply) (p : Part) :
    (takeCraneReply g c exchange y p).mc = p.mc ∧ (takeCraneReply g c exchange y p).tu = p.tu ∧
    linkCore (takeCraneReply g c exchange y p).cl = linkCore p.cl ∧
    (takeCraneReply g c exchange y p).sm.timer = p.sm.timer := by
  unfold takeCraneReply
  (try dsimp only)
  (repeat' split) <;> simp

@[simp] theorem commandCarried_keeps (c : CraneId) (cmd : FieldCmd) (exchange : Nat) (p : Part) :
    (commandCarried c cmd exchange p).mc = p.mc ∧ (commandCarried c cmd exchange p).bs = p.bs ∧
    (commandCarried c cmd exchange p).cc = p.cc ∧ (commandCarried c cmd exchange p).tu = p.tu ∧
    (commandCarried c cmd exchange p).sm = p.sm ∧ (commandCarried c cmd exchange p).mp = p.mp ∧
    (commandCarried c cmd exchange p).fl = p.fl ∧ (commandCarried c cmd exchange p).cl = p.cl ∧
    (commandCarried c cmd exchange p).evt = p.evt := by
  unfold commandCarried
  (try dsimp only)
  (repeat' split) <;> simp

@[simp] theorem commandMissed_keeps (g : Store) (c : CraneId) (cmd : FieldCmd) (p : Part) :
    (commandMissed g c cmd p).mc = p.mc ∧ (commandMissed g c cmd p).bs = p.bs ∧
    (commandMissed g c cmd p).cc = p.cc ∧ (commandMissed g c cmd p).tu = p.tu ∧
    (commandMissed g c cmd p).sm = p.sm ∧ (commandMissed g c cmd p).mp = p.mp ∧
    (commandMissed g c cmd p).cl = p.cl ∧ (commandMissed g c cmd p).evt = p.evt ∧
    craneCore (commandMissed g c cmd p).csA = craneCore p.csA ∧
    craneCore (commandMissed g c cmd p).csB = craneCore p.csB := by
  unfold commandMissed
  (try dsimp only)
  (repeat' split) <;> simp

@[simp] theorem dispatch_keeps (g : Store) (c : CraneId) (m : Move) (d : Dest) (p : Part) :
    (dispatch g c m d p).mc = p.mc ∧ (dispatch g c m d p).bs = p.bs ∧ (dispatch g c m d p).cc = p.cc ∧
    (dispatch g c m d p).tu = p.tu ∧ (dispatch g c m d p).cl = p.cl ∧
    (dispatch g c m d p).sm.pieces = p.sm.pieces ∧ (dispatch g c m d p).sm.timer = p.sm.timer ∧
    (dispatch g c m d p).mp.counter = p.mp.counter ∧ (dispatch g c m d p).mp.backlog = p.mp.backlog := by
  unfold dispatch
  (try dsimp only)
  (repeat' split) <;> simp

@[simp] theorem visit_keeps (g : Store) (w : Walk) (n : Nat) :
    (visit g w n).part.mc = w.part.mc ∧
    (visit g w n).part.bs = w.part.bs ∧
    (visit g w n).part.cc = w.part.cc ∧
    (visit g w n).part.tu = w.part.tu ∧
    (visit g w n).part.cl = w.part.cl ∧
    (visit g w n).part.sm.pieces = w.part.sm.pieces ∧
    (visit g w n).part.sm.timer = w.part.sm.timer ∧
    (visit g w n).part.mp.counter = w.part.mp.counter ∧
    (visit g w n).part.mp.backlog = w.part.mp.backlog := by
  unfold visit
  split
  · simp
  · split
    · simp
    · split
      · dsimp only
        split <;> simp
      · simp

@[simp] theorem walk_keeps (g : Store) (l : List Nat) (w : Walk) :
    (l.foldl (visit g) w).part.mc = w.part.mc ∧
    (l.foldl (visit g) w).part.bs = w.part.bs ∧
    (l.foldl (visit g) w).part.cc = w.part.cc ∧
    (l.foldl (visit g) w).part.tu = w.part.tu ∧
    (l.foldl (visit g) w).part.cl = w.part.cl ∧
    (l.foldl (visit g) w).part.sm.pieces = w.part.sm.pieces ∧
    (l.foldl (visit g) w).part.sm.timer = w.part.sm.timer ∧
    (l.foldl (visit g) w).part.mp.counter = w.part.mp.counter ∧
    (l.foldl (visit g) w).part.mp.backlog = w.part.mp.backlog := by
  induction l generalizing w with
  | nil => simp
  | cons a l ih => simp [ih]

@[simp] theorem park_keeps (g : Store) (o : CraneId) (p : Part) :
    (park g o p).mc = p.mc ∧ (park g o p).bs = p.bs ∧ (park g o p).cc = p.cc ∧ (park g o p).tu = p.tu ∧
    (park g o p).cl = p.cl ∧ (park g o p).sm.pieces = p.sm.pieces ∧ (park g o p).sm.slots = p.sm.slots ∧
    (park g o p).sm.timer = p.sm.timer ∧ (park g o p).mp.backlog = p.mp.backlog := by
  unfold park
  simp [joinQueue, plainMove]

@[simp] theorem giveWay_keeps (g : Store) (first : Option Nat) (p : Part) :
    (giveWay g first p).mc = p.mc ∧ (giveWay g first p).bs = p.bs ∧ (giveWay g first p).cc = p.cc ∧
    (giveWay g first p).tu = p.tu ∧ (giveWay g first p).cl = p.cl ∧ (giveWay g first p).sm.pieces = p.sm.pieces ∧
    (giveWay g first p).sm.slots = p.sm.slots ∧ (giveWay g first p).sm.timer = p.sm.timer ∧
    (giveWay g first p).mp.backlog = p.mp.backlog := by
  unfold giveWay
  (try dsimp only)
  (repeat' split) <;> simp

@[simp] theorem scan_keeps (g : Store) (p : Part) :
    (scan g p).mc = p.mc ∧ (scan g p).bs = p.bs ∧ (scan g p).cc = p.cc ∧ (scan g p).tu = p.tu ∧
    (scan g p).cl = p.cl ∧ (scan g p).sm.pieces = p.sm.pieces ∧ (scan g p).sm.timer = p.sm.timer ∧
    (scan g p).mp.backlog = p.mp.backlog := by
  unfold scan
  dsimp only
  split <;> simp

@[simp] theorem reviewShip_keeps (g : Store) (p : Part) (mark : Nat) :
    (reviewShip g p mark).mc = p.mc ∧ (reviewShip g p mark).bs = p.bs ∧ (reviewShip g p mark).cc = p.cc ∧
    (reviewShip g p mark).tu = p.tu ∧ linkCore (reviewShip g p mark).cl = linkCore p.cl ∧
    (reviewShip g p mark).sm.pieces = p.sm.pieces ∧ (reviewShip g p mark).sm.timer = p.sm.timer ∧
    (reviewShip g p mark).mp.counter = p.mp.counter ∧ (reviewShip g p mark).mp.backlog = p.mp.backlog := by
  unfold reviewShip
  (try dsimp only)
  (repeat' split) <;> simp

@[simp] theorem endOfEvent_keeps (g : Store) (p : Part) :
    (endOfEvent g p).mc = p.mc ∧ (endOfEvent g p).bs = p.bs ∧ (endOfEvent g p).cc = p.cc ∧
    (endOfEvent g p).tu = p.tu ∧ linkCore (endOfEvent g p).cl = linkCore p.cl ∧
    (endOfEvent g p).sm.pieces = p.sm.pieces ∧ (endOfEvent g p).sm.timer = p.sm.timer ∧
    (endOfEvent g p).mp.backlog = p.mp.backlog := by
  unfold endOfEvent
  (try dsimp only)
  (repeat' split) <;> simp

@[simp] theorem writeGrants_keeps (gs : List (Handed × Nat)) (p : Part) :
    (writeGrants gs p).mc = p.mc ∧ (writeGrants gs p).bs = p.bs ∧ (writeGrants gs p).tu = p.tu ∧
    (writeGrants gs p).sm = p.sm ∧ (writeGrants gs p).mp = p.mp ∧ (writeGrants gs p).csA = p.csA ∧
    (writeGrants gs p).csB = p.csB ∧ (writeGrants gs p).fl = p.fl ∧ (writeGrants gs p).cl = p.cl ∧
    (writeGrants gs p).evt = p.evt := by
  unfold writeGrants
  (try dsimp only)
  (repeat' split) <;> simp

@[simp] theorem judgeStarved_keeps (g : Store) (gs : List (Handed × Nat)) (p : Part) (bed : Nat) :
    (judgeStarved g gs p bed).mc = p.mc ∧ (judgeStarved g gs p bed).tu = p.tu ∧
    (judgeStarved g gs p bed).mp = p.mp ∧ (judgeStarved g gs p bed).csA = p.csA ∧
    (judgeStarved g gs p bed).csB = p.csB ∧ (judgeStarved g gs p bed).fl = p.fl ∧
    linkCore (judgeStarved g gs p bed).cl = linkCore p.cl ∧ (judgeStarved g gs p bed).sm.slots = p.sm.slots ∧
    (judgeStarved g gs p bed).sm.timer = p.sm.timer := by
  unfold judgeStarved
  (try dsimp only)
  (repeat' split) <;> simp

@[simp] theorem heatNotice_keeps (g : Store) (gs : List (Handed × Nat)) (before : Bool) (p : Part) :
    (heatNotice g gs before p).mc = p.mc ∧ (heatNotice g gs before p).bs = p.bs ∧
    (heatNotice g gs before p).cc = p.cc ∧ (heatNotice g gs before p).tu = p.tu ∧
    (heatNotice g gs before p).sm = p.sm ∧ (heatNotice g gs before p).mp = p.mp ∧
    (heatNotice g gs before p).csA = p.csA ∧ (heatNotice g gs before p).csB = p.csB ∧
    (heatNotice g gs before p).fl = p.fl ∧ (heatNotice g gs before p).evt = p.evt ∧
    linkCore (heatNotice g gs before p).cl = linkCore p.cl := by
  unfold heatNotice
  (try dsimp only)
  (repeat' split) <;> simp

@[simp] theorem setWanted_keeps (g : Store) (p : Part) :
    (setWanted g p).mc = p.mc ∧ (setWanted g p).bs = p.bs ∧ (setWanted g p).tu = p.tu ∧ (setWanted g p).sm = p.sm ∧
    (setWanted g p).mp = p.mp ∧ (setWanted g p).csA = p.csA ∧ (setWanted g p).csB = p.csB ∧
    (setWanted g p).fl = p.fl ∧ (setWanted g p).cl = p.cl ∧ (setWanted g p).evt = p.evt := by
  unfold setWanted
  (try dsimp only)
  (repeat' split) <;> simp

@[simp] theorem allocate_keeps (g : Store) (p : Part) :
    (allocate g p).mc = p.mc ∧ (allocate g p).tu = p.tu ∧ (allocate g p).mp = p.mp ∧ (allocate g p).csA = p.csA ∧
    (allocate g p).csB = p.csB ∧ (allocate g p).fl = p.fl ∧ linkCore (allocate g p).cl = linkCore p.cl ∧
    (allocate g p).sm.slots = p.sm.slots ∧ (allocate g p).sm.timer = p.sm.timer := by
  unfold allocate
  (try dsimp only)
  (repeat' split) <;> simp

@[simp] theorem nullAllocation_keeps (p : Part) :
    (nullAllocation p).mc = p.mc ∧ (nullAllocation p).bs = p.bs ∧ (nullAllocation p).tu = p.tu ∧
    (nullAllocation p).sm = p.sm ∧ (nullAllocation p).mp = p.mp ∧ (nullAllocation p).csA = p.csA ∧
    (nullAllocation p).csB = p.csB ∧ (nullAllocation p).fl = p.fl ∧ (nullAllocation p).cl = p.cl ∧
    (nullAllocation p).evt = p.evt := by
  unfold nullAllocation
  (try dsimp only)
  (repeat' split) <;> simp

@[simp] theorem withhold_keeps (p : Part) :
    (withhold p).mc = p.mc ∧ (withhold p).bs = p.bs ∧ (withhold p).tu = p.tu ∧ (withhold p).sm = p.sm ∧
    (withhold p).mp = p.mp ∧ (withhold p).csA = p.csA ∧ (withhold p).csB = p.csB ∧ (withhold p).fl = p.fl ∧
    (withhold p).cl = p.cl ∧ (withhold p).evt = p.evt := by
  unfold withhold
  (try dsimp only)
  (repeat' split) <;> simp

@[simp] theorem stage7_keeps (g : Store) (p : Part) :
    (stage7 g p).mc = p.mc ∧ (stage7 g p).tu = p.tu ∧ (stage7 g p).mp = p.mp ∧ (stage7 g p).csA = p.csA ∧
    (stage7 g p).csB = p.csB ∧ (stage7 g p).fl = p.fl ∧ linkCore (stage7 g p).cl = linkCore p.cl ∧
    (stage7 g p).sm.slots = p.sm.slots ∧ (stage7 g p).sm.timer = p.sm.timer := by
  unfold stage7
  (try dsimp only)
  (repeat' split) <;> simp

@[simp] theorem offerValve_keeps (g : Store) (bed zone opening : Nat) (p : Part) :
    (offerValve g bed zone opening p).mc = p.mc ∧ (offerValve g bed zone opening p).bs = p.bs ∧
    (offerValve g bed zone opening p).tu = p.tu ∧ (offerValve g bed zone opening p).sm = p.sm ∧
    (offerValve g bed zone opening p).mp = p.mp ∧ (offerValve g bed zone opening p).cl = p.cl ∧
    (offerValve g bed zone opening p).evt = p.evt ∧
    craneCore (offerValve g bed zone opening p).csA = craneCore p.csA ∧
    craneCore (offerValve g bed zone opening p).csB = craneCore p.csB := by
  unfold offerValve
  (try dsimp only)
  (repeat' split) <;> simp

@[simp] theorem stage8Zone_keeps (g : Store) (p : Part) (k : Nat) :
    (stage8Zone g p k).mc = p.mc ∧ (stage8Zone g p k).bs = p.bs ∧ (stage8Zone g p k).tu = p.tu ∧
    (stage8Zone g p k).sm = p.sm ∧ (stage8Zone g p k).mp = p.mp ∧ (stage8Zone g p k).cl = p.cl ∧
    (stage8Zone g p k).evt = p.evt ∧ craneCore (stage8Zone g p k).csA = craneCore p.csA ∧
    craneCore (stage8Zone g p k).csB = craneCore p.csB := by
  unfold stage8Zone
  (try dsimp only)
  (repeat' split) <;> simp

@[simp] theorem offerValves_keeps (g : Store) (p : Part) :
    (offerValves g p).mc = p.mc ∧ (offerValves g p).bs = p.bs ∧ (offerValves g p).tu = p.tu ∧
    (offerValves g p).sm = p.sm ∧ (offerValves g p).mp = p.mp ∧ (offerValves g p).cl = p.cl ∧
    (offerValves g p).evt = p.evt ∧ craneCore (offerValves g p).csA = craneCore p.csA ∧
    craneCore (offerValves g p).csB = craneCore p.csB := by
  unfold offerValves
  (try dsimp only)
  (repeat' split) <;> simp

@[simp] theorem stage8_keeps (g : Store) (p : Part) :
    (stage8 g p).mc = p.mc ∧ (stage8 g p).bs = p.bs ∧ (stage8 g p).tu = p.tu ∧ (stage8 g p).sm = p.sm ∧
    (stage8 g p).mp = p.mp ∧ (stage8 g p).cl = p.cl ∧ (stage8 g p).evt = p.evt ∧
    craneCore (stage8 g p).csA = craneCore p.csA ∧ craneCore (stage8 g p).csB = craneCore p.csB := by
  unfold stage8
  (try dsimp only)
  (repeat' split) <;> simp

@[simp] theorem setupZone_keeps (g : Store) (p : Part) (k : Nat) :
    (setupZone g p k).mc = p.mc ∧ (setupZone g p k).bs = p.bs ∧ (setupZone g p k).tu = p.tu ∧
    (setupZone g p k).sm = p.sm ∧ (setupZone g p k).mp = p.mp ∧ (setupZone g p k).cl = p.cl ∧
    (setupZone g p k).evt = p.evt ∧ craneCore (setupZone g p k).csA = craneCore p.csA ∧
    craneCore (setupZone g p k).csB = craneCore p.csB := by
  unfold setupZone
  (try dsimp only)
  (repeat' split) <;> simp

@[simp] theorem enterSetup_keeps (g : Store) (p : Part) :
    (enterSetup g p).mc = p.mc ∧ (enterSetup g p).bs = p.bs ∧ (enterSetup g p).tu = p.tu ∧
    (enterSetup g p).sm = p.sm ∧ (enterSetup g p).mp = p.mp ∧ (enterSetup g p).cl = p.cl ∧
    (enterSetup g p).evt = p.evt ∧ craneCore (enterSetup g p).csA = craneCore p.csA ∧
    craneCore (enterSetup g p).csB = craneCore p.csB := by
  unfold enterSetup
  (try dsimp only)
  (repeat' split) <;> simp

@[simp] theorem zoneNodeBack_keeps (g : Store) (bed zone : Nat) (p : Part) :
    (zoneNodeBack g bed zone p).mc = p.mc ∧ (zoneNodeBack g bed zone p).bs = p.bs ∧
    (zoneNodeBack g bed zone p).tu = p.tu ∧ (zoneNodeBack g bed zone p).sm = p.sm ∧
    (zoneNodeBack g bed zone p).mp = p.mp ∧ (zoneNodeBack g bed zone p).cl = p.cl ∧
    (zoneNodeBack g bed zone p).evt = p.evt ∧ craneCore (zoneNodeBack g bed zone p).csA = craneCore p.csA ∧
    craneCore (zoneNodeBack g bed zone p).csB = craneCore p.csB := by
  unfold zoneNodeBack
  (try dsimp only)
  (repeat' split) <;> simp

@[simp] theorem valveMissed_keeps (bed zone : Nat) (p : Part) :
    (valveMissed bed zone p).mc = p.mc ∧ (valveMissed bed zone p).bs = p.bs ∧ (valveMissed bed zone p).tu = p.tu ∧
    (valveMissed bed zone p).sm = p.sm ∧ (valveMissed bed zone p).mp = p.mp ∧
    (valveMissed bed zone p).csA = p.csA ∧ (valveMissed bed zone p).csB = p.csB ∧
    (valveMissed bed zone p).fl = p.fl ∧ (valveMissed bed zone p).cl = p.cl ∧ (valveMissed bed zone p).evt = p.evt := by
  unfold valveMissed
  (try dsimp only)
  (repeat' split) <;> simp

@[simp] theorem openContext_keeps (g : Store) (bed pour : Nat) (p : Part) :
    (openContext g bed pour p).mc = p.mc ∧ (openContext g bed pour p).bs = p.bs ∧
    (openContext g bed pour p).tu = p.tu ∧ (openContext g bed pour p).sm = p.sm ∧
    (openContext g bed pour p).mp = p.mp ∧ (openContext g bed pour p).csA = p.csA ∧
    (openContext g bed pour p).csB = p.csB ∧ (openContext g bed pour p).fl = p.fl ∧
    (openContext g bed pour p).cl = p.cl ∧ (openContext g bed pour p).evt = p.evt := by
  unfold openContext
  (try dsimp only)
  (repeat' split) <;> simp

@[simp] theorem updateZone_keeps (bed zone : Nat) (f : ZoneCuring → ZoneCuring) (p : Part) :
    (updateZone bed zone f p).mc = p.mc ∧ (updateZone bed zone f p).bs = p.bs ∧
    (updateZone bed zone f p).tu = p.tu ∧ (updateZone bed zone f p).sm = p.sm ∧
    (updateZone bed zone f p).mp = p.mp ∧ (updateZone bed zone f p).csA = p.csA ∧
    (updateZone bed zone f p).csB = p.csB ∧ (updateZone bed zone f p).fl = p.fl ∧
    (updateZone bed zone f p).cl = p.cl ∧ (updateZone bed zone f p).evt = p.evt := by
  unfold updateZone
  (try dsimp only)
  (repeat' split) <;> simp

@[simp] theorem excludeZone_keeps (bed zone : Nat) (p : Part) :
    (excludeZone bed zone p).mc = p.mc ∧ (excludeZone bed zone p).bs = p.bs ∧ (excludeZone bed zone p).tu = p.tu ∧
    (excludeZone bed zone p).sm = p.sm ∧ (excludeZone bed zone p).mp = p.mp ∧
    (excludeZone bed zone p).csA = p.csA ∧ (excludeZone bed zone p).csB = p.csB ∧
    (excludeZone bed zone p).fl = p.fl ∧ (excludeZone bed zone p).cl = p.cl ∧ (excludeZone bed zone p).evt = p.evt := by
  unfold excludeZone
  (try dsimp only)
  (repeat' split) <;> simp

@[simp] theorem formZone_keeps (g : Store) (limit : Nat) (acc : Part × Map Resolved) (bz : Nat × Nat) :
    (formZone g limit acc bz).1.mc = acc.1.mc ∧ (formZone g limit acc bz).1.bs = acc.1.bs ∧
    (formZone g limit acc bz).1.sm = acc.1.sm ∧ (formZone g limit acc bz).1.mp = acc.1.mp ∧
    (formZone g limit acc bz).1.csA = acc.1.csA ∧ (formZone g limit acc bz).1.csB = acc.1.csB ∧
    (formZone g limit acc bz).1.fl = acc.1.fl ∧ (formZone g limit acc bz).1.cl = acc.1.cl ∧
    (formZone g limit acc bz).1.evt = acc.1.evt := by
  unfold formZone
  (try dsimp only)
  (repeat' split) <;> simp

@[simp] theorem stage1_keeps (g : Store) (limit : Nat) (p : Part) :
    (stage1 g limit p).1.mc = p.mc ∧ (stage1 g limit p).1.bs = p.bs ∧ (stage1 g limit p).1.sm = p.sm ∧
    (stage1 g limit p).1.mp = p.mp ∧ (stage1 g limit p).1.csA = p.csA ∧ (stage1 g limit p).1.csB = p.csB ∧
    (stage1 g limit p).1.fl = p.fl ∧ (stage1 g limit p).1.cl = p.cl ∧ (stage1 g limit p).1.evt = p.evt := by
  have h (l : List (Nat × Nat)) (a : Part × Map Resolved) :
      (l.foldl (formZone g limit) a).1.mc = a.1.mc ∧
      (l.foldl (formZone g limit) a).1.bs = a.1.bs ∧
      (l.foldl (formZone g limit) a).1.sm = a.1.sm ∧
      (l.foldl (formZone g limit) a).1.mp = a.1.mp ∧
      (l.foldl (formZone g limit) a).1.csA = a.1.csA ∧
      (l.foldl (formZone g limit) a).1.csB = a.1.csB ∧
      (l.foldl (formZone g limit) a).1.fl = a.1.fl ∧
      (l.foldl (formZone g limit) a).1.cl = a.1.cl ∧
      (l.foldl (formZone g limit) a).1.evt = a.1.evt := by
    induction l generalizing a with
    | nil => simp
    | cons x l ih => simp [ih]
  exact h _ _

@[simp] theorem stage2_keeps (g : Store) (rs : Map Resolved) (dt : Nat) (p : Part) :
    (stage2 g rs dt p).mc = p.mc ∧ (stage2 g rs dt p).bs = p.bs ∧ (stage2 g rs dt p).tu = p.tu ∧
    (stage2 g rs dt p).sm = p.sm ∧ (stage2 g rs dt p).mp = p.mp ∧ (stage2 g rs dt p).csA = p.csA ∧
    (stage2 g rs dt p).csB = p.csB ∧ (stage2 g rs dt p).fl = p.fl ∧ (stage2 g rs dt p).cl = p.cl ∧
    (stage2 g rs dt p).evt = p.evt := by
  unfold stage2
  (try dsimp only)
  (repeat' split) <;> simp

@[simp] theorem checkZone_keeps (g : Store) (rs : Map Resolved) (p : Part) (bz : Nat × Nat) :
    (checkZone g rs p bz).mc = p.mc ∧ (checkZone g rs p bz).tu = p.tu ∧ (checkZone g rs p bz).mp = p.mp ∧
    (checkZone g rs p bz).csA = p.csA ∧ (checkZone g rs p bz).csB = p.csB ∧ (checkZone g rs p bz).fl = p.fl ∧
    linkCore (checkZone g rs p bz).cl = linkCore p.cl ∧ (checkZone g rs p bz).sm.slots = p.sm.slots ∧
    (checkZone g rs p bz).sm.timer = p.sm.timer := by
  unfold checkZone
  (try dsimp only)
  (repeat' split) <;> simp

@[simp] theorem stage3_keeps (g : Store) (rs : Map Resolved) (p : Part) :
    (stage3 g rs p).mc = p.mc ∧ (stage3 g rs p).tu = p.tu ∧ (stage3 g rs p).mp = p.mp ∧
    (stage3 g rs p).csA = p.csA ∧ (stage3 g rs p).csB = p.csB ∧ (stage3 g rs p).fl = p.fl ∧
    linkCore (stage3 g rs p).cl = linkCore p.cl ∧ (stage3 g rs p).sm.slots = p.sm.slots ∧
    (stage3 g rs p).sm.timer = p.sm.timer := by
  unfold stage3
  (try dsimp only)
  (repeat' split) <;> simp

@[simp] theorem takePhaseReport_keeps (bed pour : Nat) (p : Part) (r : PhaseReport) :
    (takePhaseReport bed pour p r).mc = p.mc ∧ (takePhaseReport bed pour p r).cc = p.cc ∧
    (takePhaseReport bed pour p r).tu = p.tu ∧ (takePhaseReport bed pour p r).sm = p.sm ∧
    (takePhaseReport bed pour p r).mp = p.mp ∧ (takePhaseReport bed pour p r).csA = p.csA ∧
    (takePhaseReport bed pour p r).csB = p.csB ∧ (takePhaseReport bed pour p r).fl = p.fl ∧
    (takePhaseReport bed pour p r).evt = p.evt ∧ linkCore (takePhaseReport bed pour p r).cl = linkCore p.cl := by
  unfold takePhaseReport
  (try dsimp only)
  (repeat' split) <;> simp

@[simp] theorem advanceBed_keeps (g : Store) (rs : Map Resolved) (dt : Nat) (p : Part) (bed : Nat) :
    (advanceBed g rs dt p bed).mc = p.mc ∧ (advanceBed g rs dt p bed).tu = p.tu ∧
    (advanceBed g rs dt p bed).sm = p.sm ∧ (advanceBed g rs dt p bed).mp = p.mp ∧
    (advanceBed g rs dt p bed).csA = p.csA ∧ (advanceBed g rs dt p bed).csB = p.csB ∧
    (advanceBed g rs dt p bed).fl = p.fl ∧ (advanceBed g rs dt p bed).evt = p.evt ∧
    linkCore (advanceBed g rs dt p bed).cl = linkCore p.cl := by
  unfold advanceBed
  (try dsimp only)
  (repeat' split) <;> simp

@[simp] theorem stage4_keeps (g : Store) (rs : Map Resolved) (dt : Nat) (p : Part) :
    (stage4 g rs dt p).mc = p.mc ∧ (stage4 g rs dt p).tu = p.tu ∧ (stage4 g rs dt p).sm = p.sm ∧
    (stage4 g rs dt p).mp = p.mp ∧ (stage4 g rs dt p).csA = p.csA ∧ (stage4 g rs dt p).csB = p.csB ∧
    (stage4 g rs dt p).fl = p.fl ∧ (stage4 g rs dt p).evt = p.evt ∧ linkCore (stage4 g rs dt p).cl = linkCore p.cl := by
  unfold stage4
  (try dsimp only)
  (repeat' split) <;> simp

@[simp] theorem stage6_keeps (g : Store) (rs : Map Resolved) (p : Part) :
    (stage6 g rs p).mc = p.mc ∧ (stage6 g rs p).bs = p.bs ∧ (stage6 g rs p).tu = p.tu ∧ (stage6 g rs p).sm = p.sm ∧
    (stage6 g rs p).mp = p.mp ∧ (stage6 g rs p).csA = p.csA ∧ (stage6 g rs p).csB = p.csB ∧
    (stage6 g rs p).fl = p.fl ∧ (stage6 g rs p).cl = p.cl ∧ (stage6 g rs p).evt = p.evt := by
  unfold stage6
  (try dsimp only)
  (repeat' split) <;> simp

@[simp] theorem serveContexts_keeps (g : Store) (dt : Nat) (p : Part) :
    (serveContexts g dt p).mc = p.mc ∧ (serveContexts g dt p).mp = p.mp ∧
    linkCore (serveContexts g dt p).cl = linkCore p.cl ∧ (serveContexts g dt p).sm.slots = p.sm.slots ∧
    (serveContexts g dt p).sm.timer = p.sm.timer ∧ craneCore (serveContexts g dt p).csA = craneCore p.csA ∧
    craneCore (serveContexts g dt p).csB = craneCore p.csB := by
  unfold serveContexts
  (try dsimp only)
  (repeat' split) <;> simp

@[simp] theorem curingExpiry_keeps (g : Store) (p : Part) :
    (curingExpiry g p).mc = p.mc ∧ (curingExpiry g p).mp = p.mp ∧ linkCore (curingExpiry g p).cl = linkCore p.cl ∧
    (curingExpiry g p).sm.slots = p.sm.slots ∧ (curingExpiry g p).sm.timer = p.sm.timer ∧
    craneCore (curingExpiry g p).csA = craneCore p.csA ∧ craneCore (curingExpiry g p).csB = craneCore p.csB := by
  unfold curingExpiry
  (try dsimp only)
  (repeat' split) <;> simp

@[simp] theorem sendNext_keeps (p : Part) :
    (sendNext p).mc = p.mc ∧ (sendNext p).bs = p.bs ∧ (sendNext p).cc = p.cc ∧ (sendNext p).tu = p.tu ∧
    (sendNext p).sm = p.sm ∧ (sendNext p).mp = p.mp ∧ (sendNext p).csA = p.csA ∧ (sendNext p).csB = p.csB ∧
    (sendNext p).fl = p.fl ∧ (sendNext p).evt = p.evt := by
  unfold sendNext
  (try dsimp only)
  (repeat' split) <;> simp

@[simp] theorem finish_keeps (g : Store) (p : Part) :
    (finish g p).mc = p.mc ∧ (finish g p).bs = p.bs ∧ (finish g p).cc = p.cc ∧ (finish g p).tu = p.tu ∧
    (finish g p).sm.pieces = p.sm.pieces ∧ (finish g p).sm.timer = p.sm.timer ∧
    (finish g p).mp.backlog = p.mp.backlog := by
  unfold finish
  (try dsimp only)
  (repeat' split) <;> simp

@[simp] theorem recordCause_keeps (ex : Exchange) (cause : AttemptFailure) (p : Part) :
    (recordCause ex cause p).mc = p.mc ∧ (recordCause ex cause p).bs = p.bs ∧ (recordCause ex cause p).cc = p.cc ∧
    (recordCause ex cause p).tu = p.tu ∧ (recordCause ex cause p).sm = p.sm ∧ (recordCause ex cause p).mp = p.mp ∧
    (recordCause ex cause p).csA = p.csA ∧ (recordCause ex cause p).csB = p.csB ∧
    (recordCause ex cause p).cl = p.cl ∧ (recordCause ex cause p).evt = p.evt := by
  unfold recordCause
  (try dsimp only)
  (repeat' split) <;> simp

@[simp] theorem releaseLine_keeps (g : Store) (p : Part) :
    (releaseLine g p).mc = p.mc ∧ (releaseLine g p).bs = p.bs ∧ (releaseLine g p).cc = p.cc ∧
    (releaseLine g p).tu = p.tu ∧ (releaseLine g p).sm = p.sm ∧ (releaseLine g p).mp = p.mp ∧
    (releaseLine g p).cl = p.cl ∧ (releaseLine g p).evt = p.evt ∧
    craneCore (releaseLine g p).csA = craneCore p.csA ∧ craneCore (releaseLine g p).csB = craneCore p.csB := by
  unfold releaseLine
  (try dsimp only)
  (repeat' split) <;> simp

@[simp] theorem reportBack_keeps (g : Store) (owner : Owner) (p : Part) :
    (reportBack g owner p).mc = p.mc ∧ (reportBack g owner p).bs = p.bs ∧ (reportBack g owner p).tu = p.tu ∧
    (reportBack g owner p).sm = p.sm ∧ (reportBack g owner p).mp = p.mp ∧ (reportBack g owner p).cl = p.cl ∧
    (reportBack g owner p).evt = p.evt ∧ craneCore (reportBack g owner p).csA = craneCore p.csA ∧
    craneCore (reportBack g owner p).csB = craneCore p.csB := by
  unfold reportBack
  (try dsimp only)
  (repeat' split) <;> simp

@[simp] theorem revive_keeps (g : Store) (addr : Nat) (owner : Owner) (p : Part) :
    (revive g addr owner p).mc = p.mc ∧ (revive g addr owner p).bs = p.bs ∧ (revive g addr owner p).tu = p.tu ∧
    (revive g addr owner p).sm = p.sm ∧ (revive g addr owner p).mp = p.mp ∧ (revive g addr owner p).evt = p.evt ∧
    linkCore (revive g addr owner p).cl = linkCore p.cl ∧ craneCore (revive g addr owner p).csA = craneCore p.csA ∧
    craneCore (revive g addr owner p).csB = craneCore p.csB := by
  unfold revive
  (try dsimp only)
  (repeat' split) <;> simp

@[simp] theorem handOn_keeps (g : Store) (ex : Exchange) (bytes : List Nat) (p : Part) :
    (handOn g ex bytes p).mc = p.mc ∧ linkCore (handOn g ex bytes p).cl = linkCore p.cl ∧
    (handOn g ex bytes p).sm.timer = p.sm.timer := by
  unfold handOn
  (try dsimp only)
  (repeat' split) <;> simp

@[simp] theorem reportCarry_keeps (ex : Exchange) (p : Part) :
    (reportCarry ex p).mc = p.mc ∧ (reportCarry ex p).bs = p.bs ∧ (reportCarry ex p).cc = p.cc ∧
    (reportCarry ex p).tu = p.tu ∧ (reportCarry ex p).sm = p.sm ∧ (reportCarry ex p).mp = p.mp ∧
    (reportCarry ex p).fl = p.fl ∧ (reportCarry ex p).cl = p.cl ∧ (reportCarry ex p).evt = p.evt := by
  unfold reportCarry
  (try dsimp only)
  (repeat' split) <;> simp

@[simp] theorem storeReply_keeps (addr : Nat) (bytes : List Nat) (p : Part) :
    (storeReply addr bytes p).mc = p.mc ∧ (storeReply addr bytes p).bs = p.bs ∧
    (storeReply addr bytes p).cc = p.cc ∧ (storeReply addr bytes p).tu = p.tu ∧
    (storeReply addr bytes p).sm = p.sm ∧ (storeReply addr bytes p).mp = p.mp ∧
    (storeReply addr bytes p).csA = p.csA ∧ (storeReply addr bytes p).csB = p.csB ∧
    (storeReply addr bytes p).cl = p.cl ∧ (storeReply addr bytes p).evt = p.evt := by
  unfold storeReply
  (try dsimp only)
  (repeat' split) <;> simp

@[simp] theorem goodReply_keeps (g : Store) (ex : Exchange) (bytes : List Nat) (p : Part) :
    (goodReply g ex bytes p).mc = p.mc ∧ linkCore (goodReply g ex bytes p).cl = linkCore p.cl ∧
    (goodReply g ex bytes p).sm.timer = p.sm.timer := by
  unfold goodReply
  (try dsimp only)
  (repeat' split) <;> simp

@[simp] theorem reportMiss_keeps (g : Store) (ex : Exchange) (p : Part) :
    (reportMiss g ex p).mc = p.mc ∧ (reportMiss g ex p).bs = p.bs ∧ (reportMiss g ex p).tu = p.tu ∧
    (reportMiss g ex p).sm = p.sm ∧ (reportMiss g ex p).mp = p.mp ∧ (reportMiss g ex p).cl = p.cl ∧
    (reportMiss g ex p).evt = p.evt ∧ craneCore (reportMiss g ex p).csA = craneCore p.csA ∧
    craneCore (reportMiss g ex p).csB = craneCore p.csB := by
  unfold reportMiss
  (try dsimp only)
  (repeat' split) <;> simp

@[simp] theorem dropEntries_keeps (g : Store) (addr : Nat) (p : Part) :
    (dropEntries g addr p).mc = p.mc ∧ (dropEntries g addr p).bs = p.bs ∧ (dropEntries g addr p).cc = p.cc ∧
    (dropEntries g addr p).tu = p.tu ∧ (dropEntries g addr p).sm = p.sm ∧ (dropEntries g addr p).mp = p.mp ∧
    (dropEntries g addr p).cl = p.cl ∧ (dropEntries g addr p).evt = p.evt ∧
    craneCore (dropEntries g addr p).csA = craneCore p.csA ∧ craneCore (dropEntries g addr p).csB = craneCore p.csB := by
  unfold dropEntries
  (try dsimp only)
  (repeat' split) <;> simp

@[simp] theorem reportLoss_keeps (g : Store) (owner : Owner) (p : Part) :
    (reportLoss g owner p).mc = p.mc ∧ (reportLoss g owner p).bs = p.bs ∧ (reportLoss g owner p).cc = p.cc ∧
    (reportLoss g owner p).tu = p.tu ∧ (reportLoss g owner p).sm = p.sm ∧
    linkCore (reportLoss g owner p).cl = linkCore p.cl ∧ (reportLoss g owner p).mp.resA = p.mp.resA ∧
    (reportLoss g owner p).mp.resB = p.mp.resB ∧ (reportLoss g owner p).mp.counter = p.mp.counter ∧
    (reportLoss g owner p).mp.backlog = p.mp.backlog := by
  unfold reportLoss
  (try dsimp only)
  (repeat' split) <;> simp

@[simp] theorem loseNode_keeps (g : Store) (addr : Nat) (nd : Node) (p : Part) :
    (loseNode g addr nd p).mc = p.mc ∧ (loseNode g addr nd p).bs = p.bs ∧ (loseNode g addr nd p).cc = p.cc ∧
    (loseNode g addr nd p).tu = p.tu ∧ (loseNode g addr nd p).sm = p.sm ∧
    linkCore (loseNode g addr nd p).cl = linkCore p.cl ∧ (loseNode g addr nd p).mp.resA = p.mp.resA ∧
    (loseNode g addr nd p).mp.resB = p.mp.resB ∧ (loseNode g addr nd p).mp.counter = p.mp.counter ∧
    (loseNode g addr nd p).mp.backlog = p.mp.backlog := by
  unfold loseNode
  (try dsimp only)
  (repeat' split) <;> simp

@[simp] theorem judgeStanding_keeps (g : Store) (addr : Nat) (p : Part) :
    (judgeStanding g addr p).mc = p.mc ∧ (judgeStanding g addr p).bs = p.bs ∧ (judgeStanding g addr p).cc = p.cc ∧
    (judgeStanding g addr p).tu = p.tu ∧ (judgeStanding g addr p).sm = p.sm ∧
    linkCore (judgeStanding g addr p).cl = linkCore p.cl ∧ (judgeStanding g addr p).mp.resA = p.mp.resA ∧
    (judgeStanding g addr p).mp.resB = p.mp.resB ∧ (judgeStanding g addr p).mp.counter = p.mp.counter ∧
    (judgeStanding g addr p).mp.backlog = p.mp.backlog := by
  unfold judgeStanding
  (try dsimp only)
  (repeat' split) <;> simp

@[simp] theorem repeatMissedStop_keeps (ex : Exchange) (p : Part) :
    (repeatMissedStop ex p).mc = p.mc ∧ (repeatMissedStop ex p).bs = p.bs ∧ (repeatMissedStop ex p).cc = p.cc ∧
    (repeatMissedStop ex p).tu = p.tu ∧ (repeatMissedStop ex p).sm = p.sm ∧ (repeatMissedStop ex p).mp = p.mp ∧
    (repeatMissedStop ex p).csA = p.csA ∧ (repeatMissedStop ex p).csB = p.csB ∧ (repeatMissedStop ex p).cl = p.cl ∧
    (repeatMissedStop ex p).evt = p.evt := by
  unfold repeatMissedStop
  (try dsimp only)
  (repeat' split) <;> simp

@[simp] theorem countMiss_keeps (addr : Nat) (p : Part) :
    (countMiss addr p).mc = p.mc ∧ (countMiss addr p).bs = p.bs ∧ (countMiss addr p).cc = p.cc ∧
    (countMiss addr p).tu = p.tu ∧ (countMiss addr p).sm = p.sm ∧ (countMiss addr p).mp = p.mp ∧
    (countMiss addr p).csA = p.csA ∧ (countMiss addr p).csB = p.csB ∧ (countMiss addr p).cl = p.cl ∧
    (countMiss addr p).evt = p.evt := by
  unfold countMiss
  (try dsimp only)
  (repeat' split) <;> simp

@[simp] theorem miss_keeps (g : Store) (ex : Exchange) (p : Part) :
    (miss g ex p).mc = p.mc ∧ (miss g ex p).bs = p.bs ∧ (miss g ex p).tu = p.tu ∧ (miss g ex p).sm = p.sm ∧
    linkCore (miss g ex p).cl = linkCore p.cl ∧ (miss g ex p).mp.resA = p.mp.resA ∧
    (miss g ex p).mp.resB = p.mp.resB ∧ (miss g ex p).mp.counter = p.mp.counter ∧
    (miss g ex p).mp.backlog = p.mp.backlog := by
  unfold miss
  (try dsimp only)
  (repeat' split) <;> simp

@[simp] theorem attemptFailed_keeps (g : Store) (ex : Exchange) (cause : AttemptFailure) (p : Part) :
    (attemptFailed g ex cause p).mc = p.mc ∧ (attemptFailed g ex cause p).bs = p.bs ∧
    (attemptFailed g ex cause p).tu = p.tu ∧ (attemptFailed g ex cause p).sm = p.sm ∧
    linkCore (attemptFailed g ex cause p).cl = linkCore p.cl ∧ (attemptFailed g ex cause p).mp.resA = p.mp.resA ∧
    (attemptFailed g ex cause p).mp.resB = p.mp.resB ∧ (attemptFailed g ex cause p).mp.counter = p.mp.counter ∧
    (attemptFailed g ex cause p).mp.backlog = p.mp.backlog := by
  unfold attemptFailed
  (try dsimp only)
  (repeat' split) <;> simp

@[simp] theorem replyEnded_keeps (g : Store) (chars : List FieldChar) (ex : Exchange) (p : Part) :
    (replyEnded g chars ex p).mc = p.mc ∧ linkCore (replyEnded g chars ex p).cl = linkCore p.cl ∧
    (replyEnded g chars ex p).sm.timer = p.sm.timer := by
  unfold replyEnded
  (try dsimp only)
  (repeat' split) <;> simp

@[simp] theorem roundTimeout_keeps (g : Store) (p : Part) :
    (roundTimeout g p).mc = p.mc ∧ (roundTimeout g p).bs = p.bs ∧ (roundTimeout g p).cc = p.cc ∧
    (roundTimeout g p).tu = p.tu ∧ (roundTimeout g p).sm = p.sm ∧ (roundTimeout g p).mp = p.mp ∧
    (roundTimeout g p).cl = p.cl ∧ (roundTimeout g p).evt = p.evt ∧
    craneCore (roundTimeout g p).csA = craneCore p.csA ∧ craneCore (roundTimeout g p).csB = craneCore p.csB := by
  unfold roundTimeout
  (try dsimp only)
  (repeat' split) <;> simp

@[simp] theorem pollTimeout_keeps (g : Store) (c : CraneId) (p : Part) :
    (pollTimeout g c p).mc = p.mc ∧ (pollTimeout g c p).bs = p.bs ∧ (pollTimeout g c p).cc = p.cc ∧
    (pollTimeout g c p).tu = p.tu ∧ (pollTimeout g c p).sm = p.sm ∧ (pollTimeout g c p).mp = p.mp ∧
    (pollTimeout g c p).cl = p.cl ∧ (pollTimeout g c p).evt = p.evt ∧
    craneCore (pollTimeout g c p).csA = craneCore p.csA ∧ craneCore (pollTimeout g c p).csB = craneCore p.csB := by
  unfold pollTimeout
  (try dsimp only)
  (repeat' split) <;> simp

@[simp] theorem followBed_keeps (h : Store) (bed : Nat) (before : List ZoneCfg) (p : Part) :
    (followBed h bed before p).mc = p.mc ∧ (followBed h bed before p).bs = p.bs ∧
    (followBed h bed before p).sm = p.sm ∧ (followBed h bed before p).mp = p.mp ∧
    (followBed h bed before p).cl = p.cl ∧ (followBed h bed before p).evt = p.evt ∧
    craneCore (followBed h bed before p).csA = craneCore p.csA ∧
    craneCore (followBed h bed before p).csB = craneCore p.csB := by
  unfold followBed
  (try dsimp only)
  (repeat' split) <;> simp

@[simp] theorem forgetCrane_keeps (g : Store) (c : CraneId) (p : Part) :
    (forgetCrane g c p).mc = p.mc ∧ (forgetCrane g c p).bs = p.bs ∧ (forgetCrane g c p).cc = p.cc ∧
    (forgetCrane g c p).tu = p.tu ∧ (forgetCrane g c p).sm = p.sm ∧ (forgetCrane g c p).cl = p.cl ∧
    (forgetCrane g c p).evt = p.evt ∧ (forgetCrane g c p).mp.queue = p.mp.queue ∧
    (forgetCrane g c p).mp.counter = p.mp.counter ∧ (forgetCrane g c p).mp.backlog = p.mp.backlog := by
  unfold forgetCrane
  (try dsimp only)
  (repeat' split) <;> simp

@[simp] theorem stopForMode_keeps (g : Store) (c : CraneId) (p : Part) :
    (stopForMode g c p).mc = p.mc ∧ (stopForMode g c p).bs = p.bs ∧ (stopForMode g c p).cc = p.cc ∧
    (stopForMode g c p).tu = p.tu ∧ (stopForMode g c p).sm = p.sm ∧
    linkCore (stopForMode g c p).cl = linkCore p.cl ∧ (stopForMode g c p).mp.resA = p.mp.resA ∧
    (stopForMode g c p).mp.resB = p.mp.resB ∧ (stopForMode g c p).mp.counter = p.mp.counter ∧
    (stopForMode g c p).mp.backlog = p.mp.backlog := by
  unfold stopForMode
  (try dsimp only)
  (repeat' split) <;> simp

@[simp] theorem tellMode_keeps (g : Store) (before : Mode) (p : Part) :
    (tellMode g before p).mc = p.mc ∧ (tellMode g before p).bs = p.bs ∧ (tellMode g before p).tu = p.tu ∧
    (tellMode g before p).sm = p.sm ∧ linkCore (tellMode g before p).cl = linkCore p.cl ∧
    (tellMode g before p).mp.resA = p.mp.resA ∧ (tellMode g before p).mp.resB = p.mp.resB ∧
    (tellMode g before p).mp.counter = p.mp.counter ∧ (tellMode g before p).mp.backlog = p.mp.backlog := by
  unfold tellMode
  (try dsimp only)
  (repeat' split) <;> simp

@[simp] theorem abortPour_keeps (bed : Nat) (cause : CloseCause) (p : Part) :
    (abortPour bed cause p).mc = p.mc ∧ (abortPour bed cause p).cc = p.cc ∧ (abortPour bed cause p).tu = p.tu ∧
    (abortPour bed cause p).mp = p.mp ∧ (abortPour bed cause p).csA = p.csA ∧ (abortPour bed cause p).csB = p.csB ∧
    (abortPour bed cause p).fl = p.fl ∧ linkCore (abortPour bed cause p).cl = linkCore p.cl ∧
    (abortPour bed cause p).sm.slots = p.sm.slots ∧ (abortPour bed cause p).sm.timer = p.sm.timer := by
  unfold abortPour
  (try dsimp only)
  (repeat' split) <;> simp

@[simp] theorem powerGap_keeps (g : Store) (bed : Nat) (p : Part) :
    (powerGap g bed p).mc = p.mc ∧ (powerGap g bed p).cc = p.cc ∧ (powerGap g bed p).tu = p.tu ∧
    (powerGap g bed p).mp = p.mp ∧ (powerGap g bed p).csA = p.csA ∧ (powerGap g bed p).csB = p.csB ∧
    (powerGap g bed p).fl = p.fl ∧ linkCore (powerGap g bed p).cl = linkCore p.cl ∧
    (powerGap g bed p).sm.slots = p.sm.slots ∧ (powerGap g bed p).sm.timer = p.sm.timer := by
  unfold powerGap
  (try dsimp only)
  (repeat' split) <;> simp

@[simp] theorem repairBed_keeps (g : Store) (p : Part) (bed : Nat) :
    (repairBed g p bed).mc = p.mc ∧ (repairBed g p bed).cc = p.cc ∧ (repairBed g p bed).tu = p.tu ∧
    (repairBed g p bed).mp = p.mp ∧ (repairBed g p bed).csA = p.csA ∧ (repairBed g p bed).csB = p.csB ∧
    (repairBed g p bed).fl = p.fl ∧ linkCore (repairBed g p bed).cl = linkCore p.cl ∧
    (repairBed g p bed).sm.slots = p.sm.slots ∧ (repairBed g p bed).sm.timer = p.sm.timer := by
  unfold repairBed
  (try dsimp only)
  (repeat' split) <;> simp

@[simp] theorem repair_keeps (g : Store) (p : Part) :
    (repair g p).mc = p.mc ∧ (repair g p).tu = p.tu ∧ (repair g p).csA = p.csA ∧ (repair g p).csB = p.csB ∧
    (repair g p).fl = p.fl ∧ linkCore (repair g p).cl = linkCore p.cl ∧ (repair g p).sm.slots = p.sm.slots ∧
    (repair g p).sm.timer = p.sm.timer ∧ (repair g p).mp.resA = p.mp.resA ∧ (repair g p).mp.resB = p.mp.resB := by
  unfold repair
  dsimp only
  simp

@[simp] theorem raiseStarted_keeps (n : Notice) (p : Part) :
    (raiseStarted n p).mc = p.mc ∧ (raiseStarted n p).bs = p.bs ∧ (raiseStarted n p).cc = p.cc ∧
    (raiseStarted n p).tu = p.tu ∧ (raiseStarted n p).sm = p.sm ∧ (raiseStarted n p).mp = p.mp ∧
    (raiseStarted n p).csA = p.csA ∧ (raiseStarted n p).csB = p.csB ∧ (raiseStarted n p).fl = p.fl ∧
    (raiseStarted n p).evt = p.evt ∧ linkCore (raiseStarted n p).cl = linkCore p.cl := by
  unfold raiseStarted
  split <;> simp [linkCore]

@[simp] theorem beginWork_keeps (g : Store) (p : Part) :
    (beginWork g p).mc = p.mc ∧ (beginWork g p).bs = p.bs ∧ (beginWork g p).cc = p.cc ∧ (beginWork g p).tu = p.tu ∧
    (beginWork g p).sm = p.sm ∧ (beginWork g p).mp = p.mp ∧ (beginWork g p).evt = p.evt ∧
    craneCore (beginWork g p).csA = craneCore p.csA ∧ craneCore (beginWork g p).csB = craneCore p.csB := by
  unfold beginWork
  (try dsimp only)
  (repeat' split) <;> simp

@[simp] theorem createPiece_keeps (g : Store) (bed prod pour : Nat) (p : Part) (e : PieceSpec) :
    (createPiece g bed prod pour p e).mc = p.mc ∧ (createPiece g bed prod pour p e).bs = p.bs ∧
    (createPiece g bed prod pour p e).cc = p.cc ∧ (createPiece g bed prod pour p e).tu = p.tu ∧
    (createPiece g bed prod pour p e).mp = p.mp ∧ (createPiece g bed prod pour p e).csA = p.csA ∧
    (createPiece g bed prod pour p e).csB = p.csB ∧ (createPiece g bed prod pour p e).fl = p.fl ∧
    (createPiece g bed prod pour p e).cl = p.cl ∧ (createPiece g bed prod pour p e).evt = p.evt ∧
    (createPiece g bed prod pour p e).sm.slots = p.sm.slots ∧
    (createPiece g bed prod pour p e).sm.timer = p.sm.timer := by
  unfold createPiece
  (try dsimp only)
  (repeat' split) <;> simp

@[simp] theorem openPour_keeps (g : Store) (bed prod pour planned : Nat) (pieces : List PieceSpec) (p : Part) :
    (openPour g bed prod pour planned pieces p).mc = p.mc ∧ (openPour g bed prod pour planned pieces p).cc = p.cc ∧
    (openPour g bed prod pour planned pieces p).tu = p.tu ∧ (openPour g bed prod pour planned pieces p).mp = p.mp ∧
    (openPour g bed prod pour planned pieces p).csA = p.csA ∧
    (openPour g bed prod pour planned pieces p).csB = p.csB ∧
    (openPour g bed prod pour planned pieces p).fl = p.fl ∧ (openPour g bed prod pour planned pieces p).cl = p.cl ∧
    (openPour g bed prod pour planned pieces p).evt = p.evt ∧
    (openPour g bed prod pour planned pieces p).sm.slots = p.sm.slots ∧
    (openPour g bed prod pour planned pieces p).sm.timer = p.sm.timer := by
  unfold openPour
  (try dsimp only)
  (repeat' split) <;> simp

@[simp] theorem sealPour_keeps (g : Store) (bed pour : Nat) (cause : CloseCause) (note : VolumeNote) (p : Part) :
    (sealPour g bed pour cause note p).mc = p.mc ∧ (sealPour g bed pour cause note p).tu = p.tu ∧
    (sealPour g bed pour cause note p).mp = p.mp ∧ (sealPour g bed pour cause note p).csA = p.csA ∧
    (sealPour g bed pour cause note p).csB = p.csB ∧ (sealPour g bed pour cause note p).fl = p.fl ∧
    linkCore (sealPour g bed pour cause note p).cl = linkCore p.cl ∧
    (sealPour g bed pour cause note p).sm.slots = p.sm.slots ∧
    (sealPour g bed pour cause note p).sm.timer = p.sm.timer := by
  unfold sealPour
  (try dsimp only)
  (repeat' split) <;> simp

@[simp] theorem closePour_keeps (g : Store) (bed pour : Nat) (cause : CloseCause) (p : Part) :
    (closePour g bed pour cause p).mc = p.mc ∧ (closePour g bed pour cause p).tu = p.tu ∧
    (closePour g bed pour cause p).mp = p.mp ∧ (closePour g bed pour cause p).csA = p.csA ∧
    (closePour g bed pour cause p).csB = p.csB ∧ (closePour g bed pour cause p).fl = p.fl ∧
    linkCore (closePour g bed pour cause p).cl = linkCore p.cl ∧
    (closePour g bed pour cause p).sm.slots = p.sm.slots ∧ (closePour g bed pour cause p).sm.timer = p.sm.timer := by
  unfold closePour
  (try dsimp only)
  (repeat' split) <;> simp

@[simp] theorem addBatch_keeps (g : Store) (bed pour volume : Nat) (r : Pour) (p : Part) :
    (addBatch g bed pour volume r p).mc = p.mc ∧ (addBatch g bed pour volume r p).cc = p.cc ∧
    (addBatch g bed pour volume r p).tu = p.tu ∧ (addBatch g bed pour volume r p).sm = p.sm ∧
    (addBatch g bed pour volume r p).mp = p.mp ∧ (addBatch g bed pour volume r p).csA = p.csA ∧
    (addBatch g bed pour volume r p).csB = p.csB ∧ (addBatch g bed pour volume r p).fl = p.fl ∧
    (addBatch g bed pour volume r p).cl = p.cl ∧ (addBatch g bed pour volume r p).evt = p.evt := by
  unfold addBatch
  (try dsimp only)
  (repeat' split) <;> simp

@[simp] theorem cancelPour_keeps (bed pour : Nat) (p : Part) :
    (cancelPour bed pour p).mc = p.mc ∧ (cancelPour bed pour p).cc = p.cc ∧ (cancelPour bed pour p).tu = p.tu ∧
    (cancelPour bed pour p).mp = p.mp ∧ (cancelPour bed pour p).csA = p.csA ∧ (cancelPour bed pour p).csB = p.csB ∧
    (cancelPour bed pour p).fl = p.fl ∧ (cancelPour bed pour p).cl = p.cl ∧
    (cancelPour bed pour p).sm.timer = p.sm.timer := by
  unfold cancelPour
  (try dsimp only)
  (repeat' split) <;> simp

@[simp] theorem gapTimeout_keeps (bed : Nat) (p : Part) :
    (gapTimeout bed p).mc = p.mc ∧ (gapTimeout bed p).cc = p.cc ∧ (gapTimeout bed p).tu = p.tu ∧
    (gapTimeout bed p).mp = p.mp ∧ (gapTimeout bed p).csA = p.csA ∧ (gapTimeout bed p).csB = p.csB ∧
    (gapTimeout bed p).fl = p.fl ∧ linkCore (gapTimeout bed p).cl = linkCore p.cl ∧
    (gapTimeout bed p).sm.slots = p.sm.slots ∧ (gapTimeout bed p).sm.timer = p.sm.timer := by
  unfold gapTimeout
  (try dsimp only)
  (repeat' split) <;> simp

@[simp] theorem clearRejected_keeps (bed pour : Nat) (p : Part) :
    (clearRejected bed pour p).mc = p.mc ∧ (clearRejected bed pour p).cc = p.cc ∧
    (clearRejected bed pour p).tu = p.tu ∧ (clearRejected bed pour p).mp = p.mp ∧
    (clearRejected bed pour p).csA = p.csA ∧ (clearRejected bed pour p).csB = p.csB ∧
    (clearRejected bed pour p).fl = p.fl ∧ (clearRejected bed pour p).cl = p.cl ∧
    (clearRejected bed pour p).sm.timer = p.sm.timer := by
  unfold clearRejected
  (try dsimp only)
  (repeat' split) <;> simp

@[simp] theorem clearStripping_keeps (bed pour : Nat) (p : Part) :
    (clearStripping bed pour p).mc = p.mc ∧ (clearStripping bed pour p).tu = p.tu ∧
    (clearStripping bed pour p).csA = p.csA ∧ (clearStripping bed pour p).csB = p.csB ∧
    (clearStripping bed pour p).fl = p.fl ∧ (clearStripping bed pour p).cl = p.cl ∧
    (clearStripping bed pour p).sm.timer = p.sm.timer ∧ (clearStripping bed pour p).mp.resA = p.mp.resA ∧
    (clearStripping bed pour p).mp.resB = p.mp.resB := by
  unfold clearStripping
  (try dsimp only)
  (repeat' split) <;> simp

@[simp] theorem digChain_keeps (slot bay mark : Nat) (kind : MoveKind) (digs : List Nat) (p : Part) :
    (digChain slot bay mark kind digs p).mc = p.mc ∧ (digChain slot bay mark kind digs p).bs = p.bs ∧
    (digChain slot bay mark kind digs p).cc = p.cc ∧ (digChain slot bay mark kind digs p).tu = p.tu ∧
    (digChain slot bay mark kind digs p).csA = p.csA ∧ (digChain slot bay mark kind digs p).csB = p.csB ∧
    (digChain slot bay mark kind digs p).fl = p.fl ∧ (digChain slot bay mark kind digs p).cl = p.cl ∧
    (digChain slot bay mark kind digs p).sm.timer = p.sm.timer ∧
    (digChain slot bay mark kind digs p).mp.resA = p.mp.resA ∧
    (digChain slot bay mark kind digs p).mp.resB = p.mp.resB ∧
    (digChain slot bay mark kind digs p).mp.backlog = p.mp.backlog := by
  unfold digChain
  (try dsimp only)
  (repeat' split) <;> simp

@[simp] theorem foundOn_keeps (mark slot : Nat) (q : Piece) (p : Part) :
    (foundOn mark slot q p).mc = p.mc ∧ (foundOn mark slot q p).bs = p.bs ∧ (foundOn mark slot q p).cc = p.cc ∧
    (foundOn mark slot q p).tu = p.tu ∧ (foundOn mark slot q p).mp = p.mp ∧ (foundOn mark slot q p).csA = p.csA ∧
    (foundOn mark slot q p).csB = p.csB ∧ (foundOn mark slot q p).fl = p.fl ∧ (foundOn mark slot q p).cl = p.cl ∧
    (foundOn mark slot q p).sm.timer = p.sm.timer := by
  unfold foundOn
  (try dsimp only)
  (repeat' split) <;> simp

@[simp] theorem creditPiece_keeps (credit : Nat) (p : Part) (mark : Nat) :
    (creditPiece credit p mark).mc = p.mc ∧ (creditPiece credit p mark).bs = p.bs ∧
    (creditPiece credit p mark).cc = p.cc ∧ (creditPiece credit p mark).tu = p.tu ∧
    (creditPiece credit p mark).mp = p.mp ∧ (creditPiece credit p mark).csA = p.csA ∧
    (creditPiece credit p mark).csB = p.csB ∧ (creditPiece credit p mark).fl = p.fl ∧
    (creditPiece credit p mark).cl = p.cl ∧ (creditPiece credit p mark).evt = p.evt ∧
    (creditPiece credit p mark).sm.slots = p.sm.slots ∧ (creditPiece credit p mark).sm.timer = p.sm.timer := by
  unfold creditPiece
  (try dsimp only)
  (repeat' split) <;> simp

@[simp] theorem creditSlot_keeps (g : Store) (temps : Nat → Option Int) (dt : Nat) (p : Part) (slot : Nat) :
    (creditSlot g temps dt p slot).mc = p.mc ∧ (creditSlot g temps dt p slot).bs = p.bs ∧
    (creditSlot g temps dt p slot).cc = p.cc ∧ (creditSlot g temps dt p slot).tu = p.tu ∧
    (creditSlot g temps dt p slot).mp = p.mp ∧ (creditSlot g temps dt p slot).csA = p.csA ∧
    (creditSlot g temps dt p slot).csB = p.csB ∧ (creditSlot g temps dt p slot).fl = p.fl ∧
    (creditSlot g temps dt p slot).cl = p.cl ∧ (creditSlot g temps dt p slot).evt = p.evt ∧
    (creditSlot g temps dt p slot).sm.slots = p.sm.slots ∧ (creditSlot g temps dt p slot).sm.timer = p.sm.timer := by
  unfold creditSlot
  (try dsimp only)
  (repeat' split) <;> simp

@[simp] theorem promotePiece_keeps (g : Store) (p : Part) (mark : Nat) :
    (promotePiece g p mark).mc = p.mc ∧ (promotePiece g p mark).bs = p.bs ∧ (promotePiece g p mark).cc = p.cc ∧
    (promotePiece g p mark).tu = p.tu ∧ (promotePiece g p mark).mp = p.mp ∧ (promotePiece g p mark).csA = p.csA ∧
    (promotePiece g p mark).csB = p.csB ∧ (promotePiece g p mark).fl = p.fl ∧
    linkCore (promotePiece g p mark).cl = linkCore p.cl ∧ (promotePiece g p mark).sm.slots = p.sm.slots ∧
    (promotePiece g p mark).sm.timer = p.sm.timer := by
  unfold promotePiece
  (try dsimp only)
  (repeat' split) <;> simp

@[simp] theorem promoteSlot_keeps (g : Store) (p : Part) (slot : Nat) :
    (promoteSlot g p slot).mc = p.mc ∧ (promoteSlot g p slot).bs = p.bs ∧ (promoteSlot g p slot).cc = p.cc ∧
    (promoteSlot g p slot).tu = p.tu ∧ (promoteSlot g p slot).mp = p.mp ∧ (promoteSlot g p slot).csA = p.csA ∧
    (promoteSlot g p slot).csB = p.csB ∧ (promoteSlot g p slot).fl = p.fl ∧
    linkCore (promoteSlot g p slot).cl = linkCore p.cl ∧ (promoteSlot g p slot).sm.slots = p.sm.slots ∧
    (promoteSlot g p slot).sm.timer = p.sm.timer := by
  unfold promoteSlot
  (try dsimp only)
  (repeat' split) <;> simp

@[simp] theorem formAreas_keeps (limit : Nat) (p : Part) :
    (formAreas limit p).mc = p.mc ∧ (formAreas limit p).bs = p.bs ∧ (formAreas limit p).cc = p.cc ∧
    (formAreas limit p).sm = p.sm ∧ (formAreas limit p).mp = p.mp ∧ (formAreas limit p).csA = p.csA ∧
    (formAreas limit p).csB = p.csB ∧ (formAreas limit p).fl = p.fl ∧ (formAreas limit p).cl = p.cl ∧
    (formAreas limit p).evt = p.evt := by
  unfold formAreas
  (try dsimp only)
  (repeat' split) <;> simp

@[simp] theorem serveYard_keeps (g : Store) (dt : Nat) (p : Part) :
    (serveYard g dt p).mc = p.mc ∧ (serveYard g dt p).bs = p.bs ∧ (serveYard g dt p).cc = p.cc ∧
    (serveYard g dt p).mp = p.mp ∧ (serveYard g dt p).csA = p.csA ∧ (serveYard g dt p).csB = p.csB ∧
    (serveYard g dt p).fl = p.fl ∧ linkCore (serveYard g dt p).cl = linkCore p.cl ∧
    (serveYard g dt p).sm.slots = p.sm.slots ∧ (serveYard g dt p).sm.timer = p.sm.timer := by
  unfold serveYard
  (try dsimp only)
  (repeat' split) <;> simp

@[simp] theorem yardExpiry_keeps (g : Store) (p : Part) :
    (yardExpiry g p).mc = p.mc ∧ (yardExpiry g p).bs = p.bs ∧ (yardExpiry g p).cc = p.cc ∧
    (yardExpiry g p).mp = p.mp ∧ (yardExpiry g p).csA = p.csA ∧ (yardExpiry g p).csB = p.csB ∧
    (yardExpiry g p).fl = p.fl ∧ linkCore (yardExpiry g p).cl = linkCore p.cl ∧
    (yardExpiry g p).sm.slots = p.sm.slots := by
  unfold yardExpiry
  (try dsimp only)
  (repeat' split) <;> simp

@[simp] theorem leaveChain_keeps (chain : Option Nat) (p : Part) :
    (leaveChain chain p).mc = p.mc ∧ (leaveChain chain p).bs = p.bs ∧ (leaveChain chain p).cc = p.cc ∧
    (leaveChain chain p).tu = p.tu ∧ (leaveChain chain p).sm = p.sm ∧ (leaveChain chain p).csA = p.csA ∧
    (leaveChain chain p).csB = p.csB ∧ (leaveChain chain p).fl = p.fl ∧ (leaveChain chain p).cl = p.cl ∧
    (leaveChain chain p).evt = p.evt ∧ (leaveChain chain p).mp.resA = p.mp.resA ∧
    (leaveChain chain p).mp.resB = p.mp.resB ∧ (leaveChain chain p).mp.counter = p.mp.counter ∧
    (leaveChain chain p).mp.backlog = p.mp.backlog := by
  unfold leaveChain
  (try dsimp only)
  (repeat' split) <;> simp

@[simp] theorem removeChain_keeps (m : Move) (p : Part) :
    (removeChain m p).mc = p.mc ∧ (removeChain m p).bs = p.bs ∧ (removeChain m p).cc = p.cc ∧
    (removeChain m p).tu = p.tu ∧ (removeChain m p).csA = p.csA ∧ (removeChain m p).csB = p.csB ∧
    (removeChain m p).fl = p.fl ∧ (removeChain m p).cl = p.cl ∧ (removeChain m p).sm.timer = p.sm.timer ∧
    (removeChain m p).mp.resA = p.mp.resA ∧ (removeChain m p).mp.resB = p.mp.resB := by
  unfold removeChain
  (try dsimp only)
  (repeat' split) <;> simp

@[simp] theorem letGo_keeps (g : Store) (m : Move) (c : CraneId) (p : Part) :
    (letGo g m c p).mc = p.mc ∧ (letGo g m c p).bs = p.bs ∧ (letGo g m c p).cc = p.cc ∧ (letGo g m c p).tu = p.tu ∧
    (letGo g m c p).sm = p.sm ∧ (letGo g m c p).cl = p.cl ∧ (letGo g m c p).mp.queue = p.mp.queue ∧
    (letGo g m c p).mp.counter = p.mp.counter ∧ (letGo g m c p).mp.backlog = p.mp.backlog := by
  unfold letGo
  (try dsimp only)
  (repeat' split) <;> simp

@[simp] theorem moveResumed_keeps (m : Move) (p : Part) :
    (moveResumed m p).mc = p.mc ∧ (moveResumed m p).bs = p.bs ∧ (moveResumed m p).cc = p.cc ∧
    (moveResumed m p).tu = p.tu ∧ (moveResumed m p).sm = p.sm ∧ (moveResumed m p).csA = p.csA ∧
    (moveResumed m p).csB = p.csB ∧ (moveResumed m p).fl = p.fl ∧ (moveResumed m p).cl = p.cl ∧
    (moveResumed m p).evt = p.evt ∧ (moveResumed m p).mp.resA = p.mp.resA ∧ (moveResumed m p).mp.resB = p.mp.resB ∧
    (moveResumed m p).mp.counter = p.mp.counter ∧ (moveResumed m p).mp.backlog = p.mp.backlog := by
  unfold moveResumed
  (try dsimp only)
  (repeat' split) <;> simp

@[simp] theorem withdrawLapsed_keeps (g : Store) (c : CraneId) (p : Part) :
    (withdrawLapsed g c p).mc = p.mc ∧ (withdrawLapsed g c p).bs = p.bs ∧ (withdrawLapsed g c p).cc = p.cc ∧
    (withdrawLapsed g c p).tu = p.tu ∧ (withdrawLapsed g c p).csA = p.csA ∧ (withdrawLapsed g c p).csB = p.csB ∧
    (withdrawLapsed g c p).fl = p.fl ∧ linkCore (withdrawLapsed g c p).cl = linkCore p.cl ∧
    (withdrawLapsed g c p).sm.pieces = p.sm.pieces ∧ (withdrawLapsed g c p).sm.timer = p.sm.timer ∧
    (withdrawLapsed g c p).mp.counter = p.mp.counter ∧ (withdrawLapsed g c p).mp.backlog = p.mp.backlog := by
  unfold withdrawLapsed
  (try dsimp only)
  (repeat' split) <;> simp

@[simp] theorem goOn_keeps (g : Store) (c : CraneId) (m : Option Move) (p : Part) :
    (goOn g c m p).mc = p.mc ∧ (goOn g c m p).bs = p.bs ∧ (goOn g c m p).cc = p.cc ∧ (goOn g c m p).tu = p.tu ∧
    linkCore (goOn g c m p).cl = linkCore p.cl ∧ (goOn g c m p).sm.pieces = p.sm.pieces ∧
    (goOn g c m p).sm.timer = p.sm.timer ∧ (goOn g c m p).mp.counter = p.mp.counter ∧
    (goOn g c m p).mp.backlog = p.mp.backlog := by
  unfold goOn
  (try dsimp only)
  (repeat' split) <;> simp

@[simp] theorem stepTimeout_keeps (g : Store) (c : CraneId) (p : Part) :
    (stepTimeout g c p).mc = p.mc ∧ (stepTimeout g c p).bs = p.bs ∧ (stepTimeout g c p).cc = p.cc ∧
    (stepTimeout g c p).tu = p.tu ∧ (stepTimeout g c p).sm = p.sm ∧
    linkCore (stepTimeout g c p).cl = linkCore p.cl ∧ (stepTimeout g c p).mp.resA = p.mp.resA ∧
    (stepTimeout g c p).mp.resB = p.mp.resB ∧ (stepTimeout g c p).mp.counter = p.mp.counter ∧
    (stepTimeout g c p).mp.backlog = p.mp.backlog := by
  unfold stepTimeout
  (try dsimp only)
  (repeat' split) <;> simp

end Sys2Proof.Machine
end

