-- ==== Sys2Proof/Laws/Events.lean ====
section
/-! SUPPORT. What the shape of every event does, said once: sending, the end of an event, a request taken and answered, an
event of another block. -/

namespace Sys2Proof.Machine

/-! ### The outgoing line -/

/-- Everything `nextFrame` can do: nothing, or begin the oldest reply, or, with no reply waiting, the oldest notice. -/
theorem nextFrame_cases (k : CommandLink) :
    nextFrame k = k ∨ (∃ r rest, k.sending = none ∧ k.replies = r :: rest ∧ nextFrame k = beginReply r rest k) ∨
    (∃ n rest, k.sending = none ∧ k.replies = [] ∧ k.notices = n :: rest ∧ nextFrame k = beginNotice n rest k) := by
  unfold nextFrame
  split
  · exact .inl rfl
  · next h1 h2 => exact .inr (.inl ⟨_, _, h1, h2, rfl⟩)
  · next h1 h2 h3 => exact .inr (.inr ⟨_, _, h1, h2, h3, rfl⟩)
  · exact .inl rfl

/-- Beginning a frame moves what is sent from a queue to the line, and changes no count and nothing of the receiver. -/
@[simp] theorem nextFrame_keeps (k : CommandLink) :
    unsent (nextFrame k) = unsent k ∧ unheard (nextFrame k) = unheard k ∧ (nextFrame k).places = k.places ∧
    (nextFrame k).rx = k.rx ∧ (nextFrame k).rate = k.rate ∧ (nextFrame k).lengthDiscards = k.lengthDiscards ∧
    (nextFrame k).gapDiscards = k.gapDiscards ∧ (nextFrame k).framingDiscards = k.framingDiscards ∧
    (nextFrame k).checkDiscards = k.checkDiscards ∧ (nextFrame k).overruns = k.overruns ∧
    (nextFrame k).dropped = k.dropped ∧ (nextFrame k).restarting = k.restarting := by
  rcases nextFrame_cases k with h | ⟨r, rest, h1, h2, h⟩ | ⟨n, rest, h1, h2, h3, h⟩
  · rw [h]; simp
  · rw [h]; simp [beginReply, unsent, unheard, h1, h2]
  · rw [h]; simp [beginNotice, unsent, unheard, h1, h2, h3]

/-- Beginning a frame can clear the two flags of the flags byte and sets neither. -/
theorem nextFrame_flags (k : CommandLink) :
    ((nextFrame k).rxOverrun = true → k.rxOverrun = true) ∧ ((nextFrame k).overflow = true → k.overflow = true) := by
  rcases nextFrame_cases k with h | ⟨r, rest, h1, h2, h⟩ | ⟨n, rest, h1, h2, h3, h⟩
  · rw [h]; simp
  · rw [h]; simp [beginReply]
  · rw [h]; simp [beginNotice]

@[simp] theorem sendNext_cl (p : Part) : (sendNext p).cl = nextFrame p.cl := rfl

/-! ### Raising a notice -/

/-- A queue with room takes the notice at its tail. -/
theorem raise_room {n : Notice} {p : Part} (h : p.cl.notices.length < 24) :
    (raise n p).cl = { p.cl with notices := p.cl.notices ++ [n] } := by simp [raise, Config.noticePlaces, h]

/-- A full queue drops it and counts. -/
theorem raise_full {n : Notice} {p : Part} (h : 24 ≤ p.cl.notices.length) :
    (raise n p).cl = { p.cl with overflow := true, dropped := satSucc 65535 p.cl.dropped } := by
  simp [raise, Config.noticePlaces, Nat.not_lt.mpr h]

/-- The line after an event that leaves what is on it, RX_OVERRUN and the rate to `nextFrame`. -/
theorem lineServed_next {s t : State} {k : CommandLink} (ht : t.cl = nextFrame k) (h1 : k.sending = s.cl.sending)
    (h2 : k.rxOverrun = s.cl.rxOverrun) (h3 : k.rate = s.cl.rate) : lineServed s t := by
  unfold lineServed
  rw [ht, ← h1, ← h2, ← h3]
  rcases hs : k.sending with _ | f
  · rcases hr : k.replies with _ | ⟨r, rest⟩
    · rcases hn : k.notices with _ | ⟨n, rest⟩
      · simp [nextFrame, hs, hr, hn, unsent, unheard]
      · cases h : k.overflow <;> simp [nextFrame, hs, hr, hn, beginNotice, unsent, unheard, h]
    · simp [nextFrame, hs, hr, beginReply, unsent]
  · simp [nextFrame, hs]

/-- No notice was raised by an event that leaves the notice queue to `nextFrame` as it stands. -/
theorem told_nothing {s t : State} {k : CommandLink} (ht : t.cl = nextFrame k) (h1 : k.sending = s.cl.sending)
    (h2 : k.notices = s.cl.notices) (h3 : k.dropped = s.cl.dropped) (h4 : k.overflow = s.cl.overflow) : told s t [] := by
  refine ⟨?_, ?_, ?_⟩
  · rw [ht, (nextFrame_keeps _).2.1]; simp [unheard, h1, h2]
  · rw [ht]; simp [nextFrame_keeps, h3]
  · rw [ht]
    rcases nextFrame_cases k with h | ⟨r, rest, h5, h6, h⟩ | ⟨n, rest, h5, h6, h7, h⟩ <;> rw [h]
    · rw [h1, h4]
      rcases hs : s.cl.sending with _ | f <;> simp
    · rw [← h1, h5]; simp [beginReply, h4]
    · rw [← h1, h5]; simp [beginNotice, h4]

/-! ### The end of an event -/

/-- Records with no DISPATCHED move have no SHIP move to withdraw. -/
theorem spared_of_queue {u : Part} (h : ∀ m ∈ u.mp.queue, m.state ≠ .dispatched) : spared u :=
  fun _ _ _ m _ _ _ hm _ hd _ _ => absurd hd (h m (List.mem_of_find?_eq_some hm))

theorem reviewShip_spared {g : Store} {p : Part} (h : spared p) (mark : Nat) : reviewShip g p mark = p := by
  unfold reviewShip
  split
  · rfl
  · next q hq =>
    split
    · rfl
    · next n hn =>
      split
      · rfl
      · next m hm =>
        split
        · next hc =>
          unfold withdrawShip
          split
          · next c _ hs hk _ =>
            split
            · rfl
            · next hl => exact absurd (h mark q n m c hq hn hm hc.1 hs hk (by simpa using hl)) hc.2
          · rfl
        · rfl

/-- Where no SHIP move is to be withdrawn, the end of an event is one scan where a trigger arose in RUN (R121). -/
theorem endOfEvent_spared {g : Store} {p : Part} (h : spared p) :
    endOfEvent g p = { (if p.evt.scan && p.mc.mode == .run then scan g p else p) with evt := .none } := by
  have hw : ∀ l : List Nat, l.foldl (reviewShip g) p = p := by
    intro l
    induction l with
    | nil => rfl
    | cons a l ih => rw [List.foldl_cons, reviewShip_spared h, ih]
  simp [endOfEvent, hw]

/-- Where neither a scan nor a withdrawal can follow, the end of an event only clears the event's record. -/
theorem endOfEvent_still {g : Store} {p : Part} (h : still p) : endOfEvent g p = { p with evt := .none } := by
  have hm : (p.mc.mode == Mode.run) = false := by simpa using h.1
  simp [endOfEvent_spared (spared_of_queue h.2), hm]

/-- An event that changed no condition and set off no trigger ends with nothing more. -/
theorem endOfEvent_quiet {g : Store} {p : Part} (h : p.evt = .none) : endOfEvent g p = p := by
  have h1 : p.evt.changed = [] := by rw [h]; rfl
  have h2 : p.evt.scan = false := by rw [h]; rfl
  cases p
  simp_all [endOfEvent]

/-! ### Requests -/

/-- The part as an owner meets it: the request has its place, and the event is at its beginning. -/
def atOwner (kind tag : Nat) (s : State) : Part := takePlace kind tag { s.toPart with evt := .none }

/-- The reply that a decision makes. -/
def replyOf (kind tag : Nat) (d : Decision) : Reply :=
  { kind := kind, tag := tag, status := d.status, fields := d.fields, after := d.after }

/-- A request that finds CL ready is decided, answered, and its event ended. -/
theorem receive_ready {s : State} (h : ready s) (kind tag : Nat) (decide : Store → Part → Decision) :
    receive kind tag decide s =
      { s with store := (decide s.store (atOwner kind tag s)).store
               toPart := finish (decide s.store (atOwner kind tag s)).store
                 (queueReply (replyOf kind tag (decide s.store (atOwner kind tag s)))
                   (decide s.store (atOwner kind tag s)).part) } := by
  obtain ⟨hp, hb, hr⟩ := h
  have hb' : ¬ Config.bufferPlaces ≤ s.cl.places.length := by simp [Config.bufferPlaces]; omega
  simp [receive, hp, hb', hr, atOwner, replyOf]

/-- Where the owner leaves CL's own records alone, raising notices apart, the request is answered. -/
theorem answered_of_link {s : State} (h : ready s) {kind tag : Nat} {decide : Store → Part → Decision} {d : Decision}
    (hd : decide s.store (atOwner kind tag s) = d) (hl : linkCore d.part.cl = linkCore (atOwner kind tag s).cl) :
    answered s (receive kind tag decide s) kind tag d.status d.fields d.after := by
  have hk : linkCore (endOfEvent d.store (queueReply (replyOf kind tag d) d.part)).cl
      = linkCore (queueReply (replyOf kind tag d) d.part).cl := (endOfEvent_keeps _ _).2.2.2.2.1
  have hk' := hk
  rw [receive_ready h, hd]
  generalize hq : endOfEvent d.store (queueReply (replyOf kind tag d) d.part) = q at hk hk'
  have hl' : ∀ {β : Type} (π : CommandLink → β), (∀ k, π (linkCore k) = π k) →
      π q.cl = π (queueReply (replyOf kind tag d) d.part).cl := fun π hπ => by rw [← hπ, hk, hπ]
  have hm : ∀ {β : Type} (π : CommandLink → β), (∀ k, π (linkCore k) = π k) →
      π d.part.cl = π (atOwner kind tag s).cl := fun π hπ => by rw [← hπ, hl, hπ]
  simp only [answered, sameReceiver, finish, hq, sendNext_cl, nextFrame_keeps]
  refine ⟨?_, ?_, ⟨?_, ?_, ?_, ?_, ?_, ?_, ?_, ?_⟩, ?_⟩
  · rw [hl' unsent (fun _ => rfl)]
    have := hm unsent (fun _ => rfl)
    simp only [unsent, queueReply, replyOf, atOwner, takePlace] at this ⊢
    rw [← List.append_assoc, this]
  · rw [hl' (·.places) (fun _ => rfl)]; exact hm (·.places) (fun _ => rfl)
  · rw [hl' (·.rx) (fun _ => rfl)]; exact hm (·.rx) (fun _ => rfl)
  · rw [hl' (·.rate) (fun _ => rfl)]; exact hm (·.rate) (fun _ => rfl)
  · rw [hl' (·.lengthDiscards) (fun _ => rfl)]; exact hm (·.lengthDiscards) (fun _ => rfl)
  · rw [hl' (·.gapDiscards) (fun _ => rfl)]; exact hm (·.gapDiscards) (fun _ => rfl)
  · rw [hl' (·.framingDiscards) (fun _ => rfl)]; exact hm (·.framingDiscards) (fun _ => rfl)
  · rw [hl' (·.checkDiscards) (fun _ => rfl)]; exact hm (·.checkDiscards) (fun _ => rfl)
  · rw [hl' (·.overruns) (fun _ => rfl)]; exact hm (·.overruns) (fun _ => rfl)
  · intro hx
    have := (nextFrame_flags q.cl).1 hx
    rw [hl' (·.rxOverrun) (fun _ => rfl)] at this
    exact (hm (·.rxOverrun) (fun _ => rfl)).symm.trans this
  · rw [hl' (·.restarting) (fun _ => rfl)]; exact hm (·.restarting) (fun _ => rfl)

/-- A request that set off nothing: the state after it is the owner's, with the reply queued. -/
theorem receive_quiet {s : State} (h : ready s) {kind tag : Nat} {decide : Store → Part → Decision} {d : Decision}
    (hd : decide s.store (atOwner kind tag s) = d) (he : d.part.evt = .none) :
    receive kind tag decide s =
      { s with store := d.store, toPart := sendNext (queueReply (replyOf kind tag d) d.part) } := by
  rw [receive_ready h, hd, finish, endOfEvent_quiet (by simpa using he)]

/-- A request after which neither a scan nor a withdrawal can follow. -/
theorem receive_still {s : State} (h : ready s) {kind tag : Nat} {decide : Store → Part → Decision} {d : Decision}
    (hd : decide s.store (atOwner kind tag s) = d) (he : still d.part) :
    receive kind tag decide s =
      { s with store := d.store
               toPart := sendNext { queueReply (replyOf kind tag d) d.part with evt := .none } } := by
  rw [receive_ready h, hd, finish, endOfEvent_still (by simpa [still] using he)]

/-- A refused request leaves every block as it was (R12, R177). -/
theorem refused {s : State} (h : ready s) {kind tag : Nat} {decide : Store → Part → Decision} {st : Status}
    (hd : decide s.store (atOwner kind tag s) = refusal s.store (atOwner kind tag s) st) :
    refusedWith s (receive kind tag decide s) kind tag st := by
  refine ⟨?_, answered_of_link h hd rfl, ?_⟩
  · rw [receive_quiet h hd rfl]
    simp [becomes, refusal, atOwner]
  · rw [receive_quiet h hd rfl]
    exact told_nothing rfl rfl rfl rfl rfl

/-- Every request is received in one way, with its own kind, tag and owner. -/
theorem exec_request {i : Instr} {kind tag : Nat} (h : requestHead i = some (kind, tag)) :
    ∃ f, service i = some f ∧ ∀ s, exec i s = .next (receive kind tag f s) := by
  cases i <;> first
    | exact (Option.some_ne_none _ h.symm).elim
    | (obtain ⟨rfl, rfl⟩ := Prod.mk.inj (Option.some.inj h); exact ⟨_, rfl, fun _ => rfl⟩)

/-- Everything a request can do to the store: nothing, or what its owner decided. -/
theorem receive_store (kind tag : Nat) (decide : Store → Part → Decision) (s : State) :
    (receive kind tag decide s).store = s.store ∨
      (receive kind tag decide s).store = (decide s.store (atOwner kind tag s)).store := by
  unfold receive
  split
  · exact .inl rfl
  · split
    · exact .inl rfl
    · split
      · exact .inl rfl
      · exact .inr rfl

@[simp] theorem byPart_store (f : Store → Part → Judgement Taken) (g : Store) (p : Part) :
    (byPart f g p).store = g := by
  unfold byPart
  split <;> rfl

@[simp] theorem byRead_store (f : Store → Part → Judgement (List Field)) (g : Store) (p : Part) :
    (byRead f g p).store = g := by
  unfold byRead
  split <;> rfl

@[simp] theorem byRead_part (f : Store → Part → Judgement (List Field)) (g : Store) (p : Part) :
    (byRead f g p).part = p := by
  unfold byRead
  split <;> rfl

@[simp] theorem event_store (f : Part → Part) (s : State) : (event f s).store = s.store := by
  unfold event
  split <;> rfl

@[simp] theorem attemptEnd_store (f : Exchange → Part → Part) (s : State) : (attemptEnd f s).store = s.store := by
  unfold attemptEnd
  split <;> rfl

/-- A request that set off nothing and touched nothing of CL: the records after it are the owner's, no notice was raised,
and the request was answered. -/
theorem quiet {s : State} (h : ready s) {kind tag : Nat} {decide : Store → Part → Decision} {d : Decision}
    (hd : decide s.store (atOwner kind tag s) = d) (he : d.part.evt = .none)
    (hl : d.part.cl = (atOwner kind tag s).cl) :
    becomes s (receive kind tag decide s) d.store d.part ∧ told s (receive kind tag decide s) [] ∧
    answered s (receive kind tag decide s) kind tag d.status d.fields d.after := by
  refine ⟨?_, ?_, answered_of_link h hd (by rw [hl])⟩
  · rw [receive_quiet h hd he]; simp [becomes]
  · rw [receive_quiet h hd he]
    exact told_nothing rfl (by simp [queueReply, hl, atOwner, takePlace]) (by simp [queueReply, hl, atOwner, takePlace])
      (by simp [queueReply, hl, atOwner, takePlace]) (by simp [queueReply, hl, atOwner, takePlace])

/-! ### Checks -/

@[simp] theorem need_true {α : Type} (st : Status) (k : Judgement α) : need true st k = k := rfl
@[simp] theorem need_false {α : Type} (st : Status) (k : Judgement α) : need false st k = .error st := rfl
@[simp] theorem must_some {α β : Type} (a : α) (st : Status) (k : α → Judgement β) : must (some a) st k = k a := rfl
@[simp] theorem must_none {α β : Type} (st : Status) (k : α → Judgement β) : must none st k = .error st := rfl

/-- An owner that refuses changes nothing. -/
theorem byStore_refuses {f : Store → Part → Judgement (Store × Taken)} {g : Store} {p : Part} {st : Status}
    (h : f g p = .error st) : byStore f g p = refusal g p st := by simp [byStore, h]

theorem byPart_refuses {f : Store → Part → Judgement Taken} {g : Store} {p : Part} {st : Status}
    (h : f g p = .error st) : byPart f g p = refusal g p st := by simp [byPart, h]

theorem byRead_refuses {f : Store → Part → Judgement (List Field)} {g : Store} {p : Part} {st : Status}
    (h : f g p = .error st) : byRead f g p = refusal g p st := by simp [byRead, h]

/-! ### Events of the other blocks -/

/-- An event after which neither a scan nor a withdrawal can follow. -/
theorem event_still {s : State} (h : s.mc.power = true) {f : Part → Part}
    (he : still (f { s.toPart with evt := .none })) :
    event f s = { s with toPart := sendNext { f { s.toPart with evt := .none } with evt := .none } } := by
  simp [event, h, finish, endOfEvent_still he]

/-- An event that leaves CL's own records alone, raising notices apart, answers no request. -/
theorem noReply_of_link {s : State} {f : Part → Part}
    (hl : linkCore (f { s.toPart with evt := .none }).cl = linkCore s.cl) : noReply s (event f s) := by
  unfold event
  split
  · have hk := (endOfEvent_keeps s.store (f { s.toPart with evt := .none })).2.2.2.2.1
    generalize hq : endOfEvent s.store (f { s.toPart with evt := .none }) = q at hk
    have hl' : ∀ {β : Type} (π : CommandLink → β), (∀ k, π (linkCore k) = π k) → π q.cl = π s.cl :=
      fun π hπ => by rw [← hπ, hk, hl, hπ]
    simp only [noReply, sameReceiver, finish, sendNext_cl, nextFrame_keeps, hq]
    exact ⟨hl' unsent (fun _ => rfl), hl' (·.places) (fun _ => rfl),
      ⟨hl' (·.rx) (fun _ => rfl), hl' (·.rate) (fun _ => rfl), hl' (·.lengthDiscards) (fun _ => rfl),
        hl' (·.gapDiscards) (fun _ => rfl), hl' (·.framingDiscards) (fun _ => rfl),
        hl' (·.checkDiscards) (fun _ => rfl), hl' (·.overruns) (fun _ => rfl),
        fun hx => (hl' (·.rxOverrun) (fun _ => rfl)).symm.trans ((nextFrame_flags _).1 hx)⟩,
      hl' (·.restarting) (fun _ => rfl)⟩
  · simp [noReply, sameReceiver]

end Sys2Proof.Machine
end

