-- ==== Sys2Proof/Laws/Map.lean ====
section
/-! SUPPORT. Records kept by number: what is read after a writing, a dropping and a change of every record, and that
each of them keeps the numbers rising. -/

namespace Sys2Proof.Map

variable {α : Type}

@[simp] theorem find_put_same (m : Map α) (k : Nat) (v : α) : find (put m k v) k = some v := by
  induction m with
  | nil => simp [put, find]
  | cons e m ih =>
    obtain ⟨j, w⟩ := e
    unfold put
    split
    · simp [find]
    · split
      · simp [find]
      · next h => simp [find, h, ih]

@[simp] theorem find_put_other (m : Map α) (k i : Nat) (v : α) (h : i ≠ k) : find (put m k v) i = find m i := by
  induction m with
  | nil => simp [put, find, Ne.symm h]
  | cons e m ih =>
    obtain ⟨j, w⟩ := e
    unfold put
    split
    · simp [find, Ne.symm h]
    · split
      · next hj => subst hj; simp [find, Ne.symm h]
      · simp only [find, ih]

@[simp] theorem find_del_same (m : Map α) (k : Nat) : find (del m k) k = none := by
  induction m with
  | nil => rfl
  | cons e m ih =>
    obtain ⟨j, w⟩ := e
    by_cases h : j = k <;> simp_all [del, find]

@[simp] theorem find_del_other (m : Map α) (k i : Nat) (h : i ≠ k) : find (del m k) i = find m i := by
  induction m with
  | nil => rfl
  | cons e m ih =>
    obtain ⟨j, w⟩ := e
    by_cases hj : j = k
    · have : j ≠ i := fun hi => h (by omega)
      simp_all [del, find]
    · by_cases hi : j = i <;> simp_all [del, find]

@[simp] theorem find_mapRecords (f : Nat → α → α) (m : Map α) (k : Nat) :
    find (mapRecords f m) k = (find m k).map (f k) := by
  induction m with
  | nil => rfl
  | cons e m ih =>
    obtain ⟨j, w⟩ := e
    simp only [mapRecords, List.map_cons, find]
    split
    · next h => subst h; rfl
    · exact ih

@[simp] theorem keys_mapRecords (f : Nat → α → α) (m : Map α) : keys (mapRecords f m) = keys m := by
  simp [keys, mapRecords, Function.comp_def]

/-- A member of a map whose numbers rise is what its number finds; a found record is always a member. -/
theorem mem_of_find {m : Map α} {k : Nat} {v : α} (h : find m k = some v) : (k, v) ∈ m := by
  induction m with
  | nil => cases h
  | cons e m ih =>
    obtain ⟨j, w⟩ := e
    simp only [find] at h
    split at h
    · next hj => subst hj; cases h; simp
    · exact List.mem_cons_of_mem _ (ih h)

/-- What a writing leaves in a map is the new record or one that stood there. -/
theorem mem_put {m : Map α} {k : Nat} {v : α} {e : Nat × α} (h : e ∈ put m k v) : e = (k, v) ∨ e ∈ m := by
  induction m with
  | nil => simpa [put] using h
  | cons d m ih =>
    obtain ⟨j, w⟩ := d
    unfold put at h
    split at h
    · simpa using h
    · split at h
      · rcases List.mem_cons.mp h with h | h
        · exact .inl h
        · exact .inr (List.mem_cons_of_mem _ h)
      · rcases List.mem_cons.mp h with h | h
        · exact .inr (by simp [h])
        · rcases ih h with h | h
          · exact .inl h
          · exact .inr (List.mem_cons_of_mem _ h)

theorem mem_del {m : Map α} {k : Nat} {e : Nat × α} (h : e ∈ del m k) : e ∈ m := List.mem_of_mem_filter h

/-- Rising, said of the numbers alone. -/
theorem rising_iff (m : Map α) : rising m = true ↔ (keys m).Pairwise (· < ·) := by
  induction m with
  | nil => simp [rising, keys]
  | cons e m ih =>
    obtain ⟨j, v⟩ := e
    cases m with
    | nil => simp [rising, keys]
    | cons d m =>
      obtain ⟨k, w⟩ := d
      simp only [rising, Bool.and_eq_true, decide_eq_true_eq, ih, keys, List.map_cons, List.pairwise_cons,
        List.mem_cons]
      constructor
      · rintro ⟨hjk, hk, hp⟩
        refine ⟨?_, hk, hp⟩
        rintro a (rfl | ha)
        · exact hjk
        · exact lt_trans hjk (hk a ha)
      · rintro ⟨hj, hk, hp⟩
        exact ⟨hj k (.inl rfl), hk, hp⟩

theorem mem_keys_put (m : Map α) (k : Nat) (v : α) (i : Nat) : i ∈ keys (put m k v) ↔ i = k ∨ i ∈ keys m := by
  induction m with
  | nil => simp [put, keys]
  | cons e m ih =>
    obtain ⟨j, w⟩ := e
    unfold put
    split
    · simp [keys]
    · split
      · next h => subst h; simp [keys]
      · simp only [keys, List.map_cons, List.mem_cons] at ih ⊢
        rw [ih]; tauto

/-- A writing keeps the numbers rising. -/
theorem put_rising {m : Map α} (h : rising m = true) (k : Nat) (v : α) : rising (put m k v) = true := by
  rw [rising_iff] at *
  induction m with
  | nil => simp [put, keys]
  | cons e m ih =>
    obtain ⟨j, w⟩ := e
    simp only [keys, List.map_cons, List.pairwise_cons] at h
    unfold put
    split
    · next hk =>
      simp only [keys, List.map_cons, List.pairwise_cons, List.mem_cons]
      refine ⟨?_, h.1, h.2⟩
      rintro a (rfl | ha)
      · exact hk
      · exact lt_trans hk (h.1 a ha)
    · split
      · next hj => subst hj; simpa [keys] using h
      · next hk hj =>
        simp only [keys, List.map_cons, List.pairwise_cons]
        refine ⟨fun a ha => ?_, ih h.2⟩
        rcases (mem_keys_put m k v a).mp ha with rfl | ha
        · omega
        · exact h.1 a ha

/-- A dropping keeps the numbers rising. -/
theorem del_rising {m : Map α} (h : rising m = true) (k : Nat) : rising (del m k) = true := by
  rw [rising_iff] at *
  exact h.sublist ((List.filter_sublist).map _)

/-- A change of every record keeps the numbers. -/
theorem mapRecords_rising {m : Map α} (h : rising m = true) (f : Nat → α → α) : rising (mapRecords f m) = true := by
  rw [rising_iff] at *
  simpa using h

end Sys2Proof.Map
end

