-- ==== Sys2Proof/Laws/PerInstr.lean ====
section
/-! SUPPORT. Said of every command: the kind, the tag and the payload of a request fit the bytes of one frame. -/

namespace Sys2Proof.Laws

theorem both {a b : Bool} (h : (a && b) = true) : a = true ∧ b = true := by simpa using h

theorem byte_of {n : Nat} (h : isByte n = true) : n < 256 := by simpa [isByte] using h

theorem bytes16_fit {n : Nat} (h : isWord n = true) : ∀ b ∈ bytes16 n, b < 256 := by
  have h' : n < 65536 := by simpa [isWord] using h
  simp only [bytes16, List.mem_cons, List.not_mem_nil, or_false]
  rintro b (rfl | rfl) <;> omega

theorem bytes32_fit {n : Nat} (h : n < 4294967296) : ∀ b ∈ bytes32 n, b < 256 := by
  simp only [bytes32, List.mem_cons, List.not_mem_nil, or_false]
  rintro b (rfl | rfl | rfl | rfl) <;> omega

@[simp] theorem bytes16_length (n : Nat) : (bytes16 n).length = 2 := rfl
@[simp] theorem bytes32_length (n : Nat) : (bytes32 n).length = 4 := rfl

theorem unsignedOf_fit (v : Int) : unsignedOf 32 v < 4294967296 := by
  unfold unsignedOf
  have := Int.emod_lt_of_pos v (show (0 : Int) < 2 ^ 32 by decide)
  omega

theorem zoneBytes_fit {z : ZoneSpec} (h : z.wf = true) : ∀ b ∈ zoneBytes z, b < 256 := by
  simp only [ZoneSpec.wf, Bool.and_eq_true] at h
  obtain ⟨⟨h1, h2⟩, h3⟩ := h
  intro b hb
  simp only [zoneBytes, List.mem_append, List.mem_singleton] at hb
  rcases hb with (hb | rfl) | hb
  · exact bytes16_fit h1 b hb
  · exact byte_of h2
  · exact bytes16_fit h3 b hb

theorem pieceBytes_fit {e : PieceSpec} (h : e.wf = true) : ∀ b ∈ pieceBytes e, b < 256 := by
  simp only [PieceSpec.wf, Bool.and_eq_true] at h
  obtain ⟨⟨⟨h1, h2⟩, h3⟩, h4⟩ := h
  intro b hb
  simp only [pieceBytes, List.mem_append] at hb
  rcases hb with ((hb | hb) | hb) | hb
  · exact bytes16_fit h1 b hb
  · exact bytes16_fit h2 b hb
  · exact bytes16_fit h3 b hb
  · exact bytes16_fit h4 b hb

theorem zoneBytes_length (zs : List ZoneSpec) : (zs.flatMap zoneBytes).length = 5 * zs.length := by
  induction zs with
  | nil => rfl
  | cons z zs ih => simp only [List.flatMap_cons, List.length_append, ih, List.length_cons]; simp [zoneBytes]; omega

theorem pieceBytes_length (es : List PieceSpec) : (es.flatMap pieceBytes).length = 8 * es.length := by
  induction es with
  | nil => rfl
  | cons e es ih => simp only [List.flatMap_cons, List.length_append, ih, List.length_cons]; simp [pieceBytes]; omega

/-- Bytes. -/
def Bytes (l : List Nat) : Prop := ∀ b ∈ l, b < 256

theorem Bytes.nil : Bytes [] := by simp [Bytes]

theorem Bytes.one {a : Nat} (h : isByte a = true) : Bytes [a] := by simpa [Bytes] using byte_of h

theorem Bytes.two {a b : Nat} (h : isByte a = true) (k : isByte b = true) : Bytes [a, b] := by
  simpa [Bytes] using ⟨byte_of h, byte_of k⟩

theorem Bytes.append {l m : List Nat} (h : Bytes l) (k : Bytes m) : Bytes (l ++ m) := by
  intro b hb
  rcases List.mem_append.mp hb with hb | hb
  · exact h b hb
  · exact k b hb

theorem Bytes.flatMap {α : Type} {xs : List α} {f : α → List Nat} (h : ∀ x ∈ xs, Bytes (f x)) :
    Bytes (xs.flatMap f) := by
  intro b hb
  obtain ⟨x, hx, hb⟩ := List.mem_flatMap.mp hb
  exact h x hx b hb

theorem Bytes.code {code : List Nat} (h : isCode code = true) : Bytes code ∧ code.length = 8 := by
  simp only [isCode, Bool.and_eq_true, decide_eq_true_eq, List.all_eq_true] at h
  exact ⟨fun b hb => byte_of (h.2 b hb), h.1⟩

theorem Bytes.of_all {l : List Nat} (h : l.all isByte = true) : Bytes l :=
  fun b hb => byte_of (List.all_eq_true.mp h b hb)

theorem long_of {n : Nat} (h : isLong n = true) : n < 4294967296 := by simpa [isLong] using h

/-- A payload within a frame: at most 240 bytes (R174). -/
def Fits (payload : List Nat) : Prop := payload.length ≤ 240 ∧ Bytes payload

namespace Head

/-- A request whose fields fit their widths has a one-byte kind, a one-byte tag and a payload that a frame can carry. -/
def Statement (i : Instr) : Prop :=
  ∀ kind tag, requestHead i = some (kind, tag) → i.wf = true → kind < 256 ∧ tag < 256 ∧ Fits (requestPayload i)

theorem powerUp : Statement .powerUp := by
  exact fun _ _ h => (Option.some_ne_none _ h.symm).elim

theorem resetPin : Statement .resetPin := by
  exact fun _ _ h => (Option.some_ne_none _ h.symm).elim

theorem frameReceived (chars : List RxChar) : Statement (.frameReceived chars) := by
  exact fun _ _ h => (Option.some_ne_none _ h.symm).elim

theorem interCharacterGap (char : RxChar) : Statement (.interCharacterGap char) := by
  exact fun _ _ h => (Option.some_ne_none _ h.symm).elim

theorem unknownKind (tag kind : Nat) (payload : List Nat) : Statement (.unknownKind tag kind payload) := by
  exact fun _ _ h => (Option.some_ne_none _ h.symm).elim

theorem frameSent : Statement .frameSent := by
  exact fun _ _ h => (Option.some_ne_none _ h.symm).elim

theorem setRunway (tag length : Nat) : Statement (.setRunway tag length) := by
  intro _ _ h hw
  obtain ⟨rfl, rfl⟩ := Prod.mk.inj (Option.some.inj h)
  obtain ⟨h0, h1⟩ := both hw
  exact ⟨by decide, byte_of h0, Nat.le_of_ble_eq_true rfl, bytes16_fit h1⟩

theorem setBed (tag bed xStart xEnd : Nat) (zones : List ZoneSpec) : Statement (.setBed tag bed xStart xEnd zones) := by
  intro _ _ h hw
  obtain ⟨rfl, rfl⟩ := Prod.mk.inj (Option.some.inj h)
  simp only [Instr.wf, Bool.and_eq_true] at hw
  simp only [decide_eq_true_eq, List.all_eq_true] at hw
  obtain ⟨⟨⟨⟨⟨h0, h1⟩, h2⟩, h3⟩, h4⟩, h5⟩ := hw
  refine ⟨by decide, byte_of h0, ?_, ?_⟩
  · simp only [requestPayload, List.length_append, zoneBytes_length, bytes16_length, List.length_singleton]; omega
  · refine .append (.append (.append (.append (.one h1) (bytes16_fit h2)) (bytes16_fit h3)) ?_)
      (.flatMap fun z hz => zoneBytes_fit (h5 z hz))
    simp [Bytes]; omega

theorem setSlot (tag slot x massLimit tierLimit area : Nat) : Statement (.setSlot tag slot x massLimit tierLimit area) := by
  intro _ _ h hw
  obtain ⟨rfl, rfl⟩ := Prod.mk.inj (Option.some.inj h)
  simp only [Instr.wf, Bool.and_eq_true] at hw
  obtain ⟨⟨⟨⟨⟨h0, h1⟩, h2⟩, h3⟩, h4⟩, h5⟩ := hw
  exact ⟨by decide, byte_of h0, by simp [requestPayload],
    .append (.append (.append (.one h1) (bytes16_fit h2)) (bytes32_fit (long_of h3))) (.two h4 h5)⟩

theorem setArea (tag area node : Nat) : Statement (.setArea tag area node) := by
  intro _ _ h hw
  obtain ⟨rfl, rfl⟩ := Prod.mk.inj (Option.some.inj h)
  obtain ⟨w2, h2⟩ := both hw
  obtain ⟨h0, h1⟩ := both w2
  exact ⟨by decide, byte_of h0, Nat.le_of_ble_eq_true rfl, .two h1 h2⟩

theorem setBay (tag bay x : Nat) : Statement (.setBay tag bay x) := by
  intro _ _ h hw
  obtain ⟨rfl, rfl⟩ := Prod.mk.inj (Option.some.inj h)
  obtain ⟨w2, h2⟩ := both hw
  obtain ⟨h0, h1⟩ := both w2
  exact ⟨by decide, byte_of h0, Nat.le_of_ble_eq_true rfl, .append (.one h1) (bytes16_fit h2)⟩

theorem setCrane (tag crane node home : Nat) : Statement (.setCrane tag crane node home) := by
  intro _ _ h hw
  obtain ⟨rfl, rfl⟩ := Prod.mk.inj (Option.some.inj h)
  obtain ⟨w3, h3⟩ := both hw
  obtain ⟨w2, h2⟩ := both w3
  obtain ⟨h0, h1⟩ := both w2
  exact ⟨by decide, byte_of h0, Nat.le_of_ble_eq_true rfl, .append (.two h1 h2) (bytes16_fit h3)⟩

theorem setProduct (tag index : Nat) (spec : ProductSpec) : Statement (.setProduct tag index spec) := by
  intro _ _ h hw
  obtain ⟨rfl, rfl⟩ := Prod.mk.inj (Option.some.inj h)
  simp only [Instr.wf, Bool.and_eq_true] at hw
  simp only [ProductSpec.wf, Bool.and_eq_true] at hw
  obtain ⟨⟨h0, h1⟩, ⟨⟨⟨⟨⟨⟨⟨⟨hc, k1⟩, k2⟩, k3⟩, k4⟩, k5⟩, k6⟩, k7⟩, k8⟩⟩ := hw
  refine ⟨by decide, byte_of h0, by simp [requestPayload, (Bytes.code hc).2], ?_⟩
  exact .append (.append (.append (.append (.append (.append (.append (.append (.append (.one h1) (Bytes.code hc).1)
    (bytes16_fit k1)) (bytes16_fit k2)) (bytes16_fit k3)) (bytes16_fit k4)) (bytes16_fit k5)) (bytes16_fit k6))
    (bytes16_fit k7)) (.one k8)

theorem clearProduct (tag index : Nat) : Statement (.clearProduct tag index) := by
  intro _ _ h hw
  obtain ⟨rfl, rfl⟩ := Prod.mk.inj (Option.some.inj h)
  obtain ⟨h0, h1⟩ := both hw
  exact ⟨by decide, byte_of h0, Nat.le_of_ble_eq_true rfl, .one h1⟩

theorem setPlant (tag number : Nat) (value : Int) : Statement (.setPlant tag number value) := by
  intro _ _ h hw
  obtain ⟨rfl, rfl⟩ := Prod.mk.inj (Option.some.inj h)
  simp only [Instr.wf, Bool.and_eq_true] at hw
  obtain ⟨⟨h0, h1⟩, h2⟩ := hw
  exact ⟨by decide, byte_of h0, by simp [requestPayload], .append (.one h1) (bytes32_fit (unsignedOf_fit value))⟩

theorem setBoiler (tag capacity : Nat) : Statement (.setBoiler tag capacity) := by
  intro _ _ h hw
  obtain ⟨rfl, rfl⟩ := Prod.mk.inj (Option.some.inj h)
  obtain ⟨h0, h1⟩ := both hw
  exact ⟨by decide, byte_of h0, Nat.le_of_ble_eq_true rfl, bytes16_fit h1⟩

theorem setMode (tag mode : Nat) : Statement (.setMode tag mode) := by
  intro _ _ h hw
  obtain ⟨rfl, rfl⟩ := Prod.mk.inj (Option.some.inj h)
  obtain ⟨h0, h1⟩ := both hw
  exact ⟨by decide, byte_of h0, Nat.le_of_ble_eq_true rfl, .one h1⟩

theorem restart (tag : Nat) : Statement (.restart tag) := by
  intro _ _ h hw
  obtain ⟨rfl, rfl⟩ := Prod.mk.inj (Option.some.inj h)
  have h0 : isByte tag = true := hw
  exact ⟨by decide, byte_of h0, Nat.le_of_ble_eq_true rfl, .nil⟩

theorem prepare (tag bed : Nat) (code : List Nat) : Statement (.prepare tag bed code) := by
  intro _ _ h hw
  obtain ⟨rfl, rfl⟩ := Prod.mk.inj (Option.some.inj h)
  simp only [Instr.wf, Bool.and_eq_true] at hw
  obtain ⟨⟨h0, h1⟩, hc⟩ := hw
  exact ⟨by decide, byte_of h0, by simp [requestPayload, (Bytes.code hc).2], .append (.one h1) (Bytes.code hc).1⟩

theorem pourOrder (tag bed : Nat) (code : List Nat) (planned : Nat) (pieces : List PieceSpec) : Statement (.pourOrder tag bed code planned pieces) := by
  intro _ _ h hw
  obtain ⟨rfl, rfl⟩ := Prod.mk.inj (Option.some.inj h)
  simp only [Instr.wf, Bool.and_eq_true] at hw
  simp only [decide_eq_true_eq, List.all_eq_true] at hw
  obtain ⟨⟨⟨⟨⟨h0, h1⟩, hc⟩, h2⟩, h4⟩, h5⟩ := hw
  refine ⟨by decide, byte_of h0, ?_, ?_⟩
  · simp only [requestPayload, List.length_append, pieceBytes_length, bytes16_length, List.length_singleton,
      (Bytes.code hc).2]
    omega
  · refine .append (.append (.append (.append (.one h1) (Bytes.code hc).1) (bytes16_fit h2)) ?_)
      (.flatMap fun e he => pieceBytes_fit (h5 e he))
    simp [Bytes]; omega

theorem batch (tag bed volume : Nat) : Statement (.batch tag bed volume) := by
  intro _ _ h hw
  obtain ⟨rfl, rfl⟩ := Prod.mk.inj (Option.some.inj h)
  obtain ⟨w2, h2⟩ := both hw
  obtain ⟨h0, h1⟩ := both w2
  exact ⟨by decide, byte_of h0, Nat.le_of_ble_eq_true rfl, .append (.one h1) (bytes16_fit h2)⟩

theorem pourEnd (tag bed : Nat) : Statement (.pourEnd tag bed) := by
  intro _ _ h hw
  obtain ⟨rfl, rfl⟩ := Prod.mk.inj (Option.some.inj h)
  obtain ⟨h0, h1⟩ := both hw
  exact ⟨by decide, byte_of h0, Nat.le_of_ble_eq_true rfl, .one h1⟩

theorem gapTimerExpiry (bed : Nat) : Statement (.gapTimerExpiry bed) := by
  exact fun _ _ h => (Option.some_ne_none _ h.symm).elim

theorem zoneOut (tag bed zone : Nat) : Statement (.zoneOut tag bed zone) := by
  intro _ _ h hw
  obtain ⟨rfl, rfl⟩ := Prod.mk.inj (Option.some.inj h)
  obtain ⟨w2, h2⟩ := both hw
  obtain ⟨h0, h1⟩ := both w2
  exact ⟨by decide, byte_of h0, Nat.le_of_ble_eq_true rfl, .two h1 h2⟩

theorem detension (tag bed : Nat) : Statement (.detension tag bed) := by
  intro _ _ h hw
  obtain ⟨rfl, rfl⟩ := Prod.mk.inj (Option.some.inj h)
  obtain ⟨h0, h1⟩ := both hw
  exact ⟨by decide, byte_of h0, Nat.le_of_ble_eq_true rfl, .one h1⟩

theorem clearBed (tag bed : Nat) : Statement (.clearBed tag bed) := by
  intro _ _ h hw
  obtain ⟨rfl, rfl⟩ := Prod.mk.inj (Option.some.inj h)
  obtain ⟨h0, h1⟩ := both hw
  exact ⟨by decide, byte_of h0, Nat.le_of_ble_eq_true rfl, .one h1⟩

theorem ship (tag mark bay : Nat) : Statement (.ship tag mark bay) := by
  intro _ _ h hw
  obtain ⟨rfl, rfl⟩ := Prod.mk.inj (Option.some.inj h)
  obtain ⟨w2, h2⟩ := both hw
  obtain ⟨h0, h1⟩ := both w2
  exact ⟨by decide, byte_of h0, Nat.le_of_ble_eq_true rfl, .append (bytes16_fit h1) (.one h2)⟩

theorem scrap (tag mark bay : Nat) : Statement (.scrap tag mark bay) := by
  intro _ _ h hw
  obtain ⟨rfl, rfl⟩ := Prod.mk.inj (Option.some.inj h)
  obtain ⟨w2, h2⟩ := both hw
  obtain ⟨h0, h1⟩ := both w2
  exact ⟨by decide, byte_of h0, Nat.le_of_ble_eq_true rfl, .append (bytes16_fit h1) (.one h2)⟩

theorem holdPiece (tag mark : Nat) : Statement (.holdPiece tag mark) := by
  intro _ _ h hw
  obtain ⟨rfl, rfl⟩ := Prod.mk.inj (Option.some.inj h)
  obtain ⟨h0, h1⟩ := both hw
  exact ⟨by decide, byte_of h0, Nat.le_of_ble_eq_true rfl, bytes16_fit h1⟩

theorem releasePiece (tag mark : Nat) : Statement (.releasePiece tag mark) := by
  intro _ _ h hw
  obtain ⟨rfl, rfl⟩ := Prod.mk.inj (Option.some.inj h)
  obtain ⟨h0, h1⟩ := both hw
  exact ⟨by decide, byte_of h0, Nat.le_of_ble_eq_true rfl, bytes16_fit h1⟩

theorem rejectPiece (tag mark : Nat) : Statement (.rejectPiece tag mark) := by
  intro _ _ h hw
  obtain ⟨rfl, rfl⟩ := Prod.mk.inj (Option.some.inj h)
  obtain ⟨h0, h1⟩ := both hw
  exact ⟨by decide, byte_of h0, Nat.le_of_ble_eq_true rfl, bytes16_fit h1⟩

theorem locate (tag mark slot : Nat) : Statement (.locate tag mark slot) := by
  intro _ _ h hw
  obtain ⟨rfl, rfl⟩ := Prod.mk.inj (Option.some.inj h)
  obtain ⟨w2, h2⟩ := both hw
  obtain ⟨h0, h1⟩ := both w2
  exact ⟨by decide, byte_of h0, Nat.le_of_ble_eq_true rfl, .append (bytes16_fit h1) (.one h2)⟩

theorem removePiece (tag mark : Nat) : Statement (.removePiece tag mark) := by
  intro _ _ h hw
  obtain ⟨rfl, rfl⟩ := Prod.mk.inj (Option.some.inj h)
  obtain ⟨h0, h1⟩ := both hw
  exact ⟨by decide, byte_of h0, Nat.le_of_ble_eq_true rfl, bytes16_fit h1⟩

theorem expedite (tag move : Nat) : Statement (.expedite tag move) := by
  intro _ _ h hw
  obtain ⟨rfl, rfl⟩ := Prod.mk.inj (Option.some.inj h)
  obtain ⟨h0, h1⟩ := both hw
  exact ⟨by decide, byte_of h0, Nat.le_of_ble_eq_true rfl, .one h1⟩

theorem cancelMove (tag move : Nat) : Statement (.cancelMove tag move) := by
  intro _ _ h hw
  obtain ⟨rfl, rfl⟩ := Prod.mk.inj (Option.some.inj h)
  obtain ⟨h0, h1⟩ := both hw
  exact ⟨by decide, byte_of h0, Nat.le_of_ble_eq_true rfl, .one h1⟩

theorem retryMove (tag move : Nat) : Statement (.retryMove tag move) := by
  intro _ _ h hw
  obtain ⟨rfl, rfl⟩ := Prod.mk.inj (Option.some.inj h)
  obtain ⟨h0, h1⟩ := both hw
  exact ⟨by decide, byte_of h0, Nat.le_of_ble_eq_true rfl, .one h1⟩

theorem resumeCrane (tag crane : Nat) : Statement (.resumeCrane tag crane) := by
  intro _ _ h hw
  obtain ⟨rfl, rfl⟩ := Prod.mk.inj (Option.some.inj h)
  obtain ⟨h0, h1⟩ := both hw
  exact ⟨by decide, byte_of h0, Nat.le_of_ble_eq_true rfl, .one h1⟩

theorem craneOut (tag crane : Nat) : Statement (.craneOut tag crane) := by
  intro _ _ h hw
  obtain ⟨rfl, rfl⟩ := Prod.mk.inj (Option.some.inj h)
  obtain ⟨h0, h1⟩ := both hw
  exact ⟨by decide, byte_of h0, Nat.le_of_ble_eq_true rfl, .one h1⟩

theorem craneIn (tag crane : Nat) : Statement (.craneIn tag crane) := by
  intro _ _ h hw
  obtain ⟨rfl, rfl⟩ := Prod.mk.inj (Option.some.inj h)
  obtain ⟨h0, h1⟩ := both hw
  exact ⟨by decide, byte_of h0, Nat.le_of_ble_eq_true rfl, .one h1⟩

theorem readPlant (tag cls index : Nat) : Statement (.readPlant tag cls index) := by
  intro _ _ h hw
  obtain ⟨rfl, rfl⟩ := Prod.mk.inj (Option.some.inj h)
  obtain ⟨w2, h2⟩ := both hw
  obtain ⟨h0, h1⟩ := both w2
  exact ⟨by decide, byte_of h0, Nat.le_of_ble_eq_true rfl, .two h1 h2⟩

theorem readBed (tag bed : Nat) : Statement (.readBed tag bed) := by
  intro _ _ h hw
  obtain ⟨rfl, rfl⟩ := Prod.mk.inj (Option.some.inj h)
  obtain ⟨h0, h1⟩ := both hw
  exact ⟨by decide, byte_of h0, Nat.le_of_ble_eq_true rfl, .one h1⟩

theorem readZone (tag bed zone : Nat) : Statement (.readZone tag bed zone) := by
  intro _ _ h hw
  obtain ⟨rfl, rfl⟩ := Prod.mk.inj (Option.some.inj h)
  obtain ⟨w2, h2⟩ := both hw
  obtain ⟨h0, h1⟩ := both w2
  exact ⟨by decide, byte_of h0, Nat.le_of_ble_eq_true rfl, .two h1 h2⟩

theorem readPour (tag pour : Nat) : Statement (.readPour tag pour) := by
  intro _ _ h hw
  obtain ⟨rfl, rfl⟩ := Prod.mk.inj (Option.some.inj h)
  obtain ⟨h0, h1⟩ := both hw
  exact ⟨by decide, byte_of h0, Nat.le_of_ble_eq_true rfl, .one h1⟩

theorem readPiece (tag mark : Nat) : Statement (.readPiece tag mark) := by
  intro _ _ h hw
  obtain ⟨rfl, rfl⟩ := Prod.mk.inj (Option.some.inj h)
  obtain ⟨h0, h1⟩ := both hw
  exact ⟨by decide, byte_of h0, Nat.le_of_ble_eq_true rfl, bytes16_fit h1⟩

theorem readSlot (tag slot : Nat) : Statement (.readSlot tag slot) := by
  intro _ _ h hw
  obtain ⟨rfl, rfl⟩ := Prod.mk.inj (Option.some.inj h)
  obtain ⟨h0, h1⟩ := both hw
  exact ⟨by decide, byte_of h0, Nat.le_of_ble_eq_true rfl, .one h1⟩

theorem readMoves (tag page : Nat) : Statement (.readMoves tag page) := by
  intro _ _ h hw
  obtain ⟨rfl, rfl⟩ := Prod.mk.inj (Option.some.inj h)
  obtain ⟨h0, h1⟩ := both hw
  exact ⟨by decide, byte_of h0, Nat.le_of_ble_eq_true rfl, .one h1⟩

theorem readCrane (tag crane : Nat) : Statement (.readCrane tag crane) := by
  intro _ _ h hw
  obtain ⟨rfl, rfl⟩ := Prod.mk.inj (Option.some.inj h)
  obtain ⟨h0, h1⟩ := both hw
  exact ⟨by decide, byte_of h0, Nat.le_of_ble_eq_true rfl, .one h1⟩

theorem readNodes (tag page : Nat) : Statement (.readNodes tag page) := by
  intro _ _ h hw
  obtain ⟨rfl, rfl⟩ := Prod.mk.inj (Option.some.inj h)
  obtain ⟨h0, h1⟩ := both hw
  exact ⟨by decide, byte_of h0, Nat.le_of_ble_eq_true rfl, .one h1⟩

theorem readStatus (tag : Nat) : Statement (.readStatus tag) := by
  intro _ _ h hw
  obtain ⟨rfl, rfl⟩ := Prod.mk.inj (Option.some.inj h)
  have h0 : isByte tag = true := hw
  exact ⟨by decide, byte_of h0, Nat.le_of_ble_eq_true rfl, .nil⟩

theorem curingIntervalExpiry : Statement .curingIntervalExpiry := by
  exact fun _ _ h => (Option.some_ne_none _ h.symm).elim

theorem yardIntervalExpiry : Statement .yardIntervalExpiry := by
  exact fun _ _ h => (Option.some_ne_none _ h.symm).elim

theorem stepTimerExpiry (crane : CraneId) : Statement (.stepTimerExpiry crane) := by
  exact fun _ _ h => (Option.some_ne_none _ h.symm).elim

theorem replyTimerExpiry : Statement .replyTimerExpiry := by
  exact fun _ _ h => (Option.some_ne_none _ h.symm).elim

theorem replyComplete (chars : List FieldChar) : Statement (.replyComplete chars) := by
  exact fun _ _ h => (Option.some_ne_none _ h.symm).elim

theorem roundTimerExpiry : Statement .roundTimerExpiry := by
  exact fun _ _ h => (Option.some_ne_none _ h.symm).elim

theorem cranePollTimerExpiry (crane : CraneId) : Statement (.cranePollTimerExpiry crane) := by
  exact fun _ _ h => (Option.some_ne_none _ h.symm).elim

theorem mainPowerFails : Statement .mainPowerFails := by
  exact fun _ _ h => (Option.some_ne_none _ h.symm).elim

theorem backupSupplyBelowThreshold : Statement .backupSupplyBelowThreshold := by
  exact fun _ _ h => (Option.some_ne_none _ h.symm).elim

end Head

end Sys2Proof.Laws
end

