-- ==== Sys2Proof/Tests/Slice0.lean ====
section
/-! SUPPORT. The model's own tests. The expected values are those of the manual's worked cases (the section stands before
each), or worked out by hand from the rule named. Each `test_` theorem is about one step; each `witness_` theorem shows a
state and operands that meet together the premises of the statement it is named after, clause by clause. -/

namespace Sys2Proof.Tests

set_option Elab.async false

open Sys2Proof.Machine

/-! ### Small states -/

/-- "HC-40-12". -/
def hc : List Nat := [0x48, 0x43, 0x2D, 0x34, 0x30, 0x2D, 0x31, 0x32]

/-- A product: strip 400, ship 550, preset 120 min, ramp 150, hold 600, cool 200, cool-end 300, gain 10. -/
def hcProduct : Product :=
  { code := hc, strip := 400, ship := 550, preset := 120, rampRate := 150, hold := 600, coolRate := 200,
    coolEnd := 300, gain := 10 }

/-- The plant of sections 2.11, 3.8 and 7.9: beds 2 and 3, four slots, area 1, bay 2, two cranes. -/
def shop : Store :=
  { Store.fresh with
    beds := [(2, { xStart := 300, xEnd := 1500, zones := [⟨900, 1, 150⟩, ⟨1500, 2, 150⟩] }),
             (3, { xStart := 300, xEnd := 1500, zones := [⟨900, 5, 150⟩, ⟨1500, 6, 150⟩] })]
    slots := [(20, ⟨1900, 80000, 6, 1⟩), (21, ⟨1750, 60000, 6, 1⟩), (22, ⟨2000, 60000, 6, 1⟩),
              (23, ⟨1200, 60000, 6, 1⟩)]
    areas := [(1, 11)], bays := [(2, 2300)]
    craneA := some ⟨29, 200⟩, craneB := some ⟨30, 2300⟩
    products := [(1, hcProduct)], lastMode := .watch }

/-- The plant with no bed in use, no stock and both cranes UNLOCATED, in a mode. -/
def works (m : Mode) : State :=
  { store := shop, pending := [],
    toPart := { Part.reset with
      mc := { Part.reset.mc with mode := m }
      cc := { Part.reset.cc with valves := freshValves shop }
      tu := { zones := freshZoneRecords shop, areas := freshAreaRecords shop }
      fl := { FieldLink.fresh with opened := true, nodes := namedTable shop Part.reset }
      cl := CommandLink.fresh 115200 } }

/-- A state with its part changed. -/
def upon (s : State) (f : Part → Part) : State := { s with toPart := f s.toPart }

/-- The state with main power off, and the backup supply as said. -/
def dark (held : Bool) (s : State) : State := { s with mc := { s.mc with power := false, backupHeld := held } }

/-- Pour 5 of bed 2 (section 2.11), after two batches. -/
def pour5 : Pour :=
  { bed := 2, product := 1, planned := 300, delivered := 240, batches := 2, state := .opened, cause := none, seq := none,
    review := false, deviations := [], overflow := false, count := 3, current := true, order := [7001, 7002, 7003] }

/-- A piece of a pour on bed 2. -/
def onBed2 (x : Int) (zone : Nat) (c : Condition) : Piece :=
  { product := 1, pour := 5, length := 1200, mass := 9800, place := .bed 2 x, zone := some zone, condition := c,
    acc := 0, stripAcc := none, move := none, released := false }

/-- Bed 2 in a state, with pour 5 and its three pieces on it. -/
def casting (st : BedState) (gap : Option Timer) (r : Pour) (c : Condition) (p : Part) : Part :=
  { p with
    bs := { beds := Map.put p.bs.beds 2 ⟨st, some 1, some 5, gap⟩, pours := [(5, r)], seq := 41 }
    sm := { p.sm with pieces := [(7001, onBed2 400 1 c), (7002, onBed2 800 1 c), (7003, onBed2 1200 2 c)] } }

/-- Bed 2 POURING pour 5. -/
def pouring (m : Mode) : State := upon (works m) (casting .pouring (some (.start 1800000)) pour5 .cast)

/-- Pour 5 CLOSED. -/
def closed5 : Pour := { pour5 with state := .closed, cause := some .ended, seq := some 41 }

/-- The curing context of bed 2, with a phase and a setpoint. -/
def context2 (ph : Phase) (sp : Option Int) : Context :=
  { pour := 5, seq := 41, product := 1, phase := ph, sp := sp, remainder := 0, presetElapsed := 0, curingTime := 3600,
    starved := false, starvedCount := 0, fresh := false, repairPending := false,
    zones := [(1, ZoneCuring.opened), (2, ZoneCuring.opened)] }

/-- Bed 2 in a state after the close of its pour, with its context. -/
def cured (st : BedState) (m : Mode) : State :=
  upon (works m) fun p => putContext 2 (context2 .ramp (some 392)) (casting st none closed5 .curing p)

/-- A piece in stock. -/
def inStock (length mass slot tier : Nat) (c : Condition) : Piece :=
  { product := 1, pour := 1, length := length, mass := mass, place := .slot slot tier, zone := none, condition := c,
    acc := 3600000, stripAcc := some 0, move := none, released := false }

/-- The yard of section 7.9, with the counter at 17. -/
def yard (p : Part) : Part :=
  { p with
    bs := { p.bs with pours := [(1, { closed5 with count := 5, current := false, order := [5001, 5002, 5003, 5004, 5300] })] }
    sm := { p.sm with
      pieces := [(5001, inStock 1500 12000 20 1 .curing), (5002, inStock 1400 11000 20 2 .shippable),
                 (5003, inStock 1200 9000 20 3 .rejected), (5004, inStock 1000 8000 20 4 .held),
                 (5300, inStock 900 7000 22 1 .curing)]
      slots := [(20, ⟨[5001, 5002, 5003, 5004], none, none⟩), (22, ⟨[5300], none, none⟩)] }
    mp := { p.mp with counter := 17 } }

/-- The stocked yard in a mode. -/
def stocked (m : Mode) : State := upon (works m) yard

/-- A crane at rest at a position, IDLE. -/
def resting (pos : Int) : Crane :=
  { Crane.atReset with state := .idle, pos := some pos, hook := some .up, motion := some .stopped, driveFault := some false }

/-- Both cranes IDLE as section 7.9 has them. -/
def located (p : Part) : Part :=
  { p with csA := resting 1500, csB := resting 2000
           mp := { p.mp with resA := some ⟨1350, 1650, [1500]⟩, resB := some ⟨1850, 2150, [2000]⟩ } }

/-- Move 18 of section 8.12: piece 5004 from slot 20 to slot 23, with crane A. -/
def move18 (st : MoveState) (reason : Option SuspendReason) : Move :=
  { plainMove .rehandle (some 5004) (.slot 20) (some (.slot 23)) with
    number := 18, state := st, crane := some .A, reason := reason }

/-- Crane A in a step of move 18, its command CARRIED. -/
def working (st : CraneState) (pos : Int) (cmd : FieldCmd) : Crane :=
  { resting pos with state := st, move := some 18, dispatchPos := some 1200, command := some (cmd, .carried 3)
                     timer := some (timeoutKind st, .start 300000) }

/-- Section 8.12: crane A in a step of move 18 with [1050, 2050], crane B IDLE at 2300 with [2150, 2400]. -/
def moving (st : CraneState) (pos : Int) (cmd : FieldCmd) (p : Part) : Part :=
  let q := yard p
  { q with
    sm := { q.sm with
      pieces := Map.put q.sm.pieces 5004 { inStock 1000 8000 20 4 .held with move := some 18 }
      slots := [(20, ⟨[5001, 5002, 5003, 5004], some (18, .source), none⟩), (22, ⟨[5300], none, none⟩),
                (23, ⟨[], some (18, .destination), none⟩)] }
    mp := { q.mp with queue := [move18 .dispatched none], resA := some ⟨1050, 2050, [1200, 1900, 1200]⟩,
                      resB := some ⟨2150, 2400, [2300]⟩ }
    csA := working st pos cmd, csB := resting 2300
    fl := { q.fl with pollA := some (.start 100) } }

/-- Crane A STOPPED in a step of move 18, fresh. -/
def stoppedWith (pos : Int) (reason : StopReason) (step : Step) (p : Part) : Part :=
  let q := moving .toSource pos (.goto 1900) p
  { q with
    csA := { resting pos with state := .stopped, move := some 18, dispatchPos := some 1200, reason := some reason,
                              stoppedStep := some step, fresh := true }
    mp := { q.mp with queue := [move18 .suspended (some (suspendReason reason))] }
    fl := { q.fl with pollA := none } }

/-- An exchange in progress with a node. -/
def onLine (addr : Nat) (owner : Owner) (attempt : Nat) (p : Part) : Part :=
  { p with fl := { p.fl with
      line := some { id := 7, addr := addr, owner := owner, cls := .round, cmd := .poll, by_ := none, attempt := attempt,
                     withdrawn := false, orphan := false, rate := 57600 }
      replyTimer := some (.start 10), serial := 8 } }

/-- The node at an address, ALIVE or otherwise, with misses. -/
def standing (addr : Nat) (owner : Owner) (st : Standing) (misses : Nat) (p : Part) : Part :=
  putNode addr { Node.fresh owner with standing := st, misses := misses } p

/-- The characters of a reply with its check. -/
def fieldChars (bytes : List Nat) : List FieldChar :=
  (bytes ++ [(256 - bytes.sum % 256) % 256]).map fun b => ⟨b, false, false⟩

/-- The state after a command. -/
def after (i : Instr) (s : State) : State :=
  match exec i s with
  | .next t => t
  | _ => s

/-- The status and fields of the reply a request has been given. -/
def reply (i : Instr) (s : State) : Option (Status × List Field) :=
  (unsent (after i s).cl).getLast?.map fun r => (r.status, r.fields)

/-- The notices raised by a command, of a state with none queued. -/
def notices (i : Instr) (s : State) : List Notice := unheard (after i s).cl

/-! ### WellFormed refuses what no sender can spell -/

theorem test_wf_links : [Instr.frameReceived [⟨256, false⟩], .interCharacterGap ⟨256, false⟩, .unknownKind 256 0 [],
    .unknownKind 0 256 [], .unknownKind 0 0 [256], .unknownKind 0 0 (List.replicate 241 0), .replyComplete [],
    .replyComplete [⟨256, false, false⟩], .gapTimerExpiry 0, .gapTimerExpiry 7].all (fun i => !i.wf) = true := by decide +kernel

theorem test_wf_settings : [Instr.setRunway 256 0, .setRunway 0 65536, .setBed 256 0 0 0 [], .setBed 0 256 0 0 [],
    .setBed 0 0 65536 0 [], .setBed 0 0 0 65536 [], .setBed 0 0 0 0 [⟨65536, 0, 0⟩], .setBed 0 0 0 0 [⟨0, 256, 0⟩],
    .setBed 0 0 0 0 [⟨0, 0, 65536⟩], .setBed 0 0 0 0 (List.replicate 47 ⟨0, 0, 0⟩), .setSlot 256 0 0 0 0 0,
    .setSlot 0 256 0 0 0 0, .setSlot 0 0 65536 0 0 0, .setSlot 0 0 0 4294967296 0 0, .setSlot 0 0 0 0 256 0,
    .setSlot 0 0 0 0 0 256, .setArea 256 0 0, .setArea 0 256 0, .setArea 0 0 256, .setBay 256 0 0, .setBay 0 256 0,
    .setBay 0 0 65536, .setCrane 256 0 0 0, .setCrane 0 256 0 0, .setCrane 0 0 256 0, .setCrane 0 0 0 65536,
    .setPlant 256 0 0, .setPlant 0 256 0, .setPlant 0 0 2147483648, .setPlant 0 0 (-2147483649), .setBoiler 256 0,
    .setBoiler 0 65536, .setMode 256 0, .setMode 0 256, .restart 256].all (fun i => !i.wf) = true := by decide +kernel

/-- The product of section 1.5. -/
def spec0 : ProductSpec := ⟨hc, 400, 350, 120, 150, 600, 200, 650, 10⟩

theorem test_wf_products : [Instr.setProduct 256 0 spec0, .setProduct 0 256 spec0, .setProduct 0 0 { spec0 with code := [] },
    .setProduct 0 0 { spec0 with code := [256, 0, 0, 0, 0, 0, 0, 0] }, .setProduct 0 0 { spec0 with strip := 65536 },
    .setProduct 0 0 { spec0 with ship := 65536 }, .setProduct 0 0 { spec0 with preset := 65536 },
    .setProduct 0 0 { spec0 with rampRate := 65536 }, .setProduct 0 0 { spec0 with hold := 65536 },
    .setProduct 0 0 { spec0 with coolRate := 65536 }, .setProduct 0 0 { spec0 with coolEnd := 65536 },
    .setProduct 0 0 { spec0 with gain := 256 }, .clearProduct 256 0, .clearProduct 0 256].all (fun i => !i.wf) = true := by
  decide +kernel

theorem test_wf_beds : [Instr.prepare 256 0 hc, .prepare 0 256 hc, .prepare 0 0 [], .pourOrder 256 0 hc 0 [],
    .pourOrder 0 256 hc 0 [], .pourOrder 0 0 [] 0 [], .pourOrder 0 0 hc 65536 [], .pourOrder 0 0 hc 0 [⟨65536, 0, 0, 0⟩],
    .pourOrder 0 0 hc 0 [⟨0, 65536, 0, 0⟩], .pourOrder 0 0 hc 0 [⟨0, 0, 65536, 0⟩], .pourOrder 0 0 hc 0 [⟨0, 0, 0, 65536⟩],
    .pourOrder 0 0 hc 0 (List.replicate 29 ⟨0, 0, 0, 0⟩), .batch 256 0 0, .batch 0 256 0, .batch 0 0 65536, .pourEnd 256 0,
    .pourEnd 0 256, .zoneOut 256 0 0, .zoneOut 0 256 0, .zoneOut 0 0 256, .detension 256 0, .detension 0 256,
    .clearBed 256 0, .clearBed 0 256].all (fun i => !i.wf) = true := by decide +kernel

theorem test_wf_stock : [Instr.ship 256 0 0, .ship 0 65536 0, .ship 0 0 256, .scrap 256 0 0, .scrap 0 65536 0,
    .scrap 0 0 256, .holdPiece 256 0, .holdPiece 0 65536, .releasePiece 256 0, .releasePiece 0 65536, .rejectPiece 256 0,
    .rejectPiece 0 65536, .locate 256 0 0, .locate 0 65536 0, .locate 0 0 256, .removePiece 256 0, .removePiece 0 65536,
    .expedite 256 0, .expedite 0 256, .cancelMove 256 0, .cancelMove 0 256, .retryMove 256 0, .retryMove 0 256,
    .resumeCrane 256 0, .resumeCrane 0 256, .craneOut 256 0, .craneOut 0 256, .craneIn 256 0, .craneIn 0 256].all
    (fun i => !i.wf) = true := by decide +kernel

theorem test_wf_reads : [Instr.readPlant 256 0 0, .readPlant 0 256 0, .readPlant 0 0 256, .readBed 256 0, .readBed 0 256,
    .readZone 256 0 0, .readZone 0 256 0, .readZone 0 0 256, .readPour 256 0, .readPour 0 256, .readPiece 256 0,
    .readPiece 0 65536, .readSlot 256 0, .readSlot 0 256, .readMoves 256 0, .readMoves 0 256, .readCrane 256 0,
    .readCrane 0 256, .readNodes 256 0, .readNodes 0 256, .readStatus 256].all (fun i => !i.wf) = true := by decide +kernel

/-- What the manual's own sequences send is well-formed. -/
theorem test_wf_takes : [Instr.powerUp, .resetPin, .frameSent, .setSlot 8 1 1900 130000 9 1, .setProduct 9 1 spec0,
    .setPlant 1 2 (-100), .pourOrder 2 2 hc 300 [⟨7001, 1200, 9800, 400⟩], .gapTimerExpiry 6, .curingIntervalExpiry,
    .yardIntervalExpiry, .stepTimerExpiry .A, .replyTimerExpiry, .replyComplete [⟨6, false, false⟩], .roundTimerExpiry,
    .cranePollTimerExpiry .B, .mainPowerFails, .backupSupplyBelowThreshold].all Instr.wf = true := by decide +kernel

/-! ### Bytes on the Command Link (R172, section 10.5) -/

/-- R172: the CRC over 0x31 to 0x39 is 0x29B1. -/
theorem test_crc : crc16 [0x31, 0x32, 0x33, 0x34, 0x35, 0x36, 0x37, 0x38, 0x39] = 0x29B1 := by decide +kernel

theorem test_decode_settings :
    decodeRequest 0x01 7 [0x09, 0x60] = .request (.setRunway 7 2400) ∧
    decodeRequest 0x02 7 [1, 0, 200, 1, 0x90, 1, 1, 0x90, 3, 0, 150] = .request (.setBed 7 1 200 400 [⟨400, 3, 150⟩]) ∧
    decodeRequest 0x03 7 [1, 0x07, 0x6C, 0, 1, 0xFB, 0xD0, 9, 1] = .request (.setSlot 7 1 1900 130000 9 1) ∧
    decodeRequest 0x06 7 [0x41, 29, 0, 100] = .request (.setCrane 7 0x41 29 100) ∧
    decodeRequest 0x09 7 [2, 0xFF, 0xFF, 0xFF, 0x9C] = .request (.setPlant 7 2 (-100)) ∧
    decodeRequest 0x0A 7 [0x04, 0x4C] = .request (.setBoiler 7 1100) := by decide +kernel

theorem test_decode_product :
    decodeRequest 0x07 9 (1 :: hc ++ [1, 0x90, 1, 0x5E, 0, 120, 0, 150, 2, 0x58, 0, 200, 2, 0x8A, 10]) =
      .request (.setProduct 9 1 spec0) := by decide +kernel

theorem test_decode_pours :
    decodeRequest 0x10 1 (2 :: hc) = .request (.prepare 1 2 hc) ∧
    decodeRequest 0x11 1 (2 :: hc ++ [1, 0x2C, 1, 0x1B, 0x59, 0x04, 0xB0, 0x26, 0x48, 1, 0x90]) =
      .request (.pourOrder 1 2 hc 300 [⟨7001, 1200, 9800, 400⟩]) ∧
    decodeRequest 0x12 1 [2, 0, 75] = .request (.batch 1 2 75) := by decide +kernel

theorem test_decode_others :
    decodeRequest 0x20 9 [0x13, 0x8A, 2] = .request (.ship 9 5002 2) ∧
    decodeRequest 0x29 9 [19] = .request (.cancelMove 9 19) ∧ decodeRequest 0x2C 9 [0x41] = .request (.resumeCrane 9 0x41) ∧
    decodeRequest 0x42 9 [0, 4] = .request (.readZone 9 0 4) ∧ decodeRequest 0x49 9 [] = .request (.readStatus 9) ∧
    decodeRequest 0x49 9 [0] = .badLength ∧ decodeRequest 0x7F 9 [] = .unknownKind := by decide +kernel

/-- No row of the opcode table gives bits, so no word spells a command. -/
theorem test_no_word : decodeTableWord 8 0 = none ∧ (works .watch).withFetchWord 8 0 = works .watch := by decide +kernel

/-! ### Steps, starts and modes -/

/-- R185 to R189 for a fresh part: what `State.reset` is. -/
theorem test_first_power_up : after .powerUp (dark false State.reset) = State.reset := by decide +kernel

/-- R187, R188: a pour is aborted by the outage, and the start tells it. -/
theorem test_power_up_retained :
    (after .powerUp (dark true (pouring .run))).cl.sending =
        some (.notice (.started .powerUp true .setup 1) 2 115200) ∧
      (bedOf (after .powerUp (dark true (pouring .run))).toPart 2).state = .rejected := by decide +kernel

theorem test_reset_pin : (after .resetPin (stocked .run)).mc = { (works .setup).mc with startCause := .resetPin, retained := true } ∧
    (slotOf (after .resetPin (stocked .run)).toPart 20).stack = [5001, 5002, 5003, 5004] := by decide +kernel

theorem test_main_power : (after .mainPowerFails (stocked .run)).mc.power = false ∧
    (after .backupSupplyBelowThreshold (dark true (stocked .run))).sm.pieces = [] := by decide +kernel

/-- Section 1.5, step 11, and R183's refusal of a change to SETUP with a bed at work. -/
theorem test_set_mode : reply (.setMode 1 1) (works .setup) = some (.ok, []) ∧
    reply (.setMode 1 0) (pouring .watch) = some (.state, []) := by decide +kernel

theorem test_restart : reply (.restart 1) (works .run) = some (.ok, []) ∧
    (after (.restart 1) (works .run)).cl.restarting = true := by decide +kernel

/-- One idle step is 1 ms: the curing interval timer of 60 s has 59,999 ms left. -/
theorem test_idle : ∀ t, step (works .watch) = .next t → t.cc.timer = ⟨60000, 59999⟩ := by
  intro t h; cases h; decide +kernel

/-! ### Settings: section 1.5 -/

/-- The store before a step of section 1.5: both cranes configured. -/
def bare : State := { (works .setup) with store := { Store.fresh with craneA := some ⟨29, 100⟩, craneB := some ⟨30, 2300⟩ } }

/-- Steps 1 to 3. -/
theorem test_set_crane : reply (.setCrane 1 0x41 29 100) State.reset = some (.ok, []) ∧
    reply (.setCrane 2 0x42 30 350) { bare with store := { bare.store with craneB := none } } = some (.range, []) := by
  decide +kernel

/-- Step 4, and the two rates of R11. -/
theorem test_set_plant : reply (.setPlant 4 12 600) bare = some (.clamped, []) ∧
    (after (.setPlant 4 12 600) bare).store.plant.clearance = 500 ∧ nearestRate 47000 = 38400 ∧
    nearestRate 200000 = 115200 := by decide +kernel

/-- Step 5: rating 1200 is clamped to 999, and addresses 1 to 4 enter the node table UNPOLLED. -/
theorem test_set_bed :
    let i : Instr := .setBed 5 1 200 1400 [⟨500, 1, 150⟩, ⟨800, 2, 150⟩, ⟨1100, 3, 150⟩, ⟨1400, 4, 1200⟩]
    reply i bare = some (.clamped, []) ∧ (zoneCfg (after i bare).store 1 4).map (·.rating) = some 999 ∧
      (nodeOf (after i bare).toPart 4).map (·.standing) = some .unpolled := by decide +kernel

/-- Steps 6 and 7. -/
theorem test_set_area : reply (.setArea 6 1 1) (works .setup) = some (.duplicate, []) ∧
    reply (.setArea 7 2 12) (works .setup) = some (.ok, []) := by decide +kernel

/-- R42: a SET AREA that clears an area discards its last result, also where the area was clear before. -/
theorem test_clear_area : (areaRecord (after (.setArea 7 2 0) (upon (works .setup) (putAreaRecord 2
    { AreaRecord.fresh none with result := some (.unmeasured .stale) }))).toPart 2).result = none := by decide +kernel

/-- Step 8. -/
theorem test_set_slot : reply (.setSlot 8 1 1900 130000 9 1) (works .setup) = some (.clamped, []) ∧
    Map.find (after (.setSlot 8 1 1900 130000 9 1) (works .setup)).store.slots 1 = some ⟨1900, 120000, 8, 1⟩ := by
  decide +kernel

/-- Step 9: the ship target is raised to 400, cool-end is clamped to 400. -/
theorem test_set_product : reply (.setProduct 9 1 spec0) bare = some (.clamped, []) ∧
    product (after (.setProduct 9 1 spec0) bare).store 1 = some { hcProduct with ship := 400, coolEnd := 400 } := by
  decide +kernel

theorem test_clear_product : reply (.clearProduct 9 1) (works .setup) = some (.ok, []) ∧
    reply (.clearProduct 9 1) (stocked .setup) = some (.state, []) := by decide +kernel

/-- Step 10. -/
theorem test_set_runway : reply (.setRunway 10 1800) bare = some (.range, []) ∧
    reply (.setRunway 10 2350) bare = some (.ok, []) := by decide +kernel

theorem test_set_bay : reply (.setBay 1 2 2401) bare = some (.range, []) ∧
    reply (.setBay 1 2 2400) bare = some (.ok, []) := by decide +kernel

/-- Step 13, and the clamp of R13. -/
theorem test_set_boiler : (after (.setBoiler 13 1100) (works .watch)).store.boiler = 1100 ∧
    reply (.setBoiler 13 10000) (works .run) = some (.clamped, []) := by decide +kernel

/-! ### Beds and pours: sections 2.11 to 2.13 -/

/-- Step 1. -/
theorem test_prepare : reply (.prepare 1 2 hc) (works .run) = some (.ok, []) ∧
    bedOf (after (.prepare 1 2 hc) (works .run)).toPart 2 = ⟨.prepared, some 1, none, none⟩ := by decide +kernel

/-- Step 2: piece 7003 at x 1200 lies in zone 2. -/
theorem test_pour_order :
    let s := upon (works .run) (putBed 2 ⟨.prepared, some 1, none, none⟩)
    let i : Instr := .pourOrder 1 2 hc 300 [⟨7001, 1200, 9800, 400⟩, ⟨7002, 1200, 9800, 800⟩, ⟨7003, 1200, 9800, 1200⟩]
    reply i s = some (.ok, [.u8 1]) ∧ (pieceOf (after i s).toPart 7003).map (·.zone) = some (some 2) := by decide +kernel

/-- Steps 4 and 6: POUR CLOSED follows the OVER deviation of value 15. -/
theorem test_batch : reply (.batch 1 2 180) (pouring .watch) = some (.range, []) ∧
    reply (.batch 1 2 75) (pouring .watch) = some (.ok, [.u16 315, .u8 1]) ∧
    notices (.batch 1 2 75) (pouring .watch) = [.deviation 2 5 ⟨.over, none, 15, 0⟩ .appended,
      .pourClosed 2 5 hc 300 315 3 .volume .over 41] := by decide +kernel

/-- After step 5: cause END, SHORT of value −60, the review flag set. -/
theorem test_pour_end : reply (.pourEnd 1 2) (pouring .watch) = some (.ok, [.u8 1]) ∧
    (pourOf (after (.pourEnd 1 2) (pouring .watch)).toPart 5).map (fun r => (r.review, r.deviations, r.seq)) =
      some (true, [⟨.short, none, -60, 0⟩], some 41) := by decide +kernel

/-- Section 2.12: the expiry is taken first. -/
theorem test_gap_timer : notices (.gapTimerExpiry 2) (pouring .watch) = [.pourAborted 2 5 240 2 .gap] ∧
    (bedOf (after (.gapTimerExpiry 2) (pouring .watch)).toPart 2).state = .rejected := by decide +kernel

/-- Section 2.13: the seventh report under KEEP_LATEST and KEEP_FIRST. -/
theorem test_deviation_list :
    let six : List Deviation := [⟨.freeze, some 1, -3, 14⟩, ⟨.freeze, some 3, -1, 15⟩, ⟨.starved, none, 10, 210⟩,
      ⟨.unmeasured, some 2, 3, 260⟩, ⟨.zoneExcluded, some 2, 0, 275⟩, ⟨.starved, none, 10, 420⟩]
    listDeviation true ⟨.overtemp, some 1, 660, 500⟩ six = (.replaced, six.tail ++ [⟨.overtemp, some 1, 660, 500⟩]) ∧
    listDeviation false ⟨.overtemp, some 1, 660, 500⟩ six = (.dropped, six) := by decide +kernel

/-- R28, R64: 3,600 s of curing are 60 minutes. -/
theorem test_zone_out : reply (.zoneOut 1 2 1) (cured .curing .watch) = some (.ok, []) ∧
    notices (.zoneOut 1 2 1) (cured .curing .watch) = [.deviation 2 5 ⟨.zoneExcluded, some 1, 0, 60⟩ .appended] := by
  decide +kernel

theorem test_detension : reply (.detension 1 2) (cured .ready .watch) = some (.ok, [.u8 3]) ∧
    ((after (.detension 1 2) (cured .ready .watch)).mp.queue.map fun m => (m.number, m.piece)) =
      [(1, some 7001), (2, some 7002), (3, some 7003)] := by decide +kernel

theorem test_clear_bed : reply (.clearBed 1 2) (cured .stripping .watch) = some (.ok, [.u8 0]) ∧
    (after (.clearBed 1 2) (cured .stripping .watch)).sm.pieces = [] := by decide +kernel

/-! ### Temperatures: section 3.7, cases A to H -/

theorem test_agreement_pairs : agree 30 [(1, 412), (2, 475), (3, 419)] = .measured 415 (.pair 2) ∧
    agree 30 [(1, 400), (2, 425), (3, 450)] = .measured 425 .median ∧
    agree 30 [(1, 300), (2, 340), (3, 380)] = .unmeasured .disagree ∧
    agree 30 [(1, 520), (2, 520), (3, 600)] = .measured 520 (.pair 3) ∧
    agree 30 [(1, 600), (2, 520), (3, 520)] = .measured 520 (.pair 1) := by decide +kernel

/-- A zone record with three readings. -/
def readings (a b c : Probe) : ZoneRecord := { ZoneRecord.fresh 6 with probe1 := a, probe2 := b, probe3 := c }

theorem test_agreement_fewer :
    agree 30 (validReadings false 60000 (readings ⟨some (-151), 0⟩ ⟨some (-150), 0⟩ ⟨some (-32768), 0⟩)) =
      .measured (-151) .two ∧
    agree 30 (validReadings false 60000 (readings ⟨some 410, 0⟩ ⟨some 430, 60000⟩ ⟨some 450, 0⟩)) = .unmeasured .disagree ∧
    agree 30 (validReadings false 60000 (readings ⟨some 1300, 0⟩ ⟨some (-32768), 0⟩ ⟨some 405, 0⟩)) = .unmeasured .tooFew := by
  decide +kernel

/-! ### Curing and heat: sections 4.4, 4.6, 4.7 and 5.10 -/

theorem test_credit : credit (-100) 415 60 = 30900 ∧ credit (-100) (-150) 60 = 0 ∧ credit (-100) 1250 600 = 810000 ∧
    reported 25956000 = 721 ∧ reported 25925100 = 720 ∧ satAdd32 4294900000 810000 = 4294967295 := by decide +kernel

/-- Expiries 0, 2 and 3 of the ramp table. -/
theorem test_ramp :
    let c := fun sp rest starved => { context2 .ramp (some sp) with remainder := rest, starved := starved }
    (enterRamp hcProduct 50 [392, 398, 405] (context2 .preset none)).1.sp = some 392 ∧
    ((rampStep hcProduct 60 (c 394 1800 false)).1.sp, (rampStep hcProduct 60 (c 394 1800 false)).1.remainder) =
      (some 397, 0) ∧
    (rampStep hcProduct 60 (c 397 0 true)).1.sp = some 397 := by decide +kernel

/-- The three grants of section 5.10 around the partial zone. -/
theorem test_grants :
    let h := fun bed zone req => ({ bed := bed, zone := zone, cls := .ramp, seq := 1, request := req, rating := 200 } : Handed)
    grantAll 30250 [h 3 3 20000, h 3 4 20000, h 6 1 2000] = [(h 3 3 20000, 20000), (h 3 4 20000, 10250), (h 6 1 2000, 0)] ∧
    partialOf (grantAll 30250 [h 3 3 20000, h 3 4 20000, h 6 1 2000]) = some (3, 4) ∧ 10250 / 200 = 51 := by decide +kernel

/-- Bed 2 curing, with fresh readings of zone 1 at 41.5 °C and none of zone 2. -/
def measuring (m : Mode) : State :=
  upon (cured .curing m) fun p => putZoneRecord 2 1
    { ZoneRecord.fresh 1 with probe1 := ⟨some 415, 0⟩, probe2 := ⟨some 415, 0⟩, probe3 := ⟨some 415, 0⟩ } p

/-- Section 4.4: 30,900 for 60 s at 415; a zone with no reading earns nothing and lapses. -/
theorem test_curing_expiry :
    (contextOf (after .curingIntervalExpiry (measuring .watch)).toPart 2).map (fun c => c.zones.map fun z => (z.2.acc, z.2.lapsed)) =
      some [(30900, false), (0, true)] ∧
    (after .curingIntervalExpiry (measuring .watch)).cc.timer = .start 60000 := by decide +kernel

/-! ### Stock: sections 6.6, 6.8 and 6.10 -/

/-- Section 6.8 in small: the slot with the same product is chosen, though an empty one is nearer. -/
theorem test_chooser :
    let g : Store := { shop with slots := [(3, ⟨1000, 60000, 6, 1⟩), (7, ⟨850, 50000, 4, 1⟩), (9, ⟨1700, 60000, 6, 1⟩)] }
    let p : Part := { (works .run).toPart with sm := { (works .run).sm with
      pieces := [(11, inStock 1200 9800 3 1 .curing)], slots := [(3, ⟨[11], none, none⟩)] } }
    chooseSlot g p (inStock 1200 9800 2 1 .curing) none 800 0 1600 = some 3 ∧
    chooseSlot g p (inStock 1300 9800 2 1 .curing) none 800 0 1600 = some 7 := by decide +kernel

/-- Section 7.9: the reply carries move 19 and two rehandles. -/
theorem test_ship : reply (.ship 9 5002 2) (stocked .watch) = some (.ok, [.u8 3, .u8 1, .u8 20, .u8 2, .u8 19, .u8 2]) ∧
    ((after (.ship 9 5002 2) (stocked .watch)).mp.queue.map fun m => (m.number, m.kind, m.piece, m.chain)) =
      [(17, .rehandle, some 5004, some 19), (18, .rehandle, some 5003, some 19), (19, .ship, some 5002, some 19)] := by
  decide +kernel

theorem test_scrap : reply (.scrap 9 5002 2) (stocked .watch) = some (.notReady, []) ∧
    (slotOf (after (.scrap 9 5003 2) (stocked .watch)).toPart 20).lock = some 18 := by decide +kernel

theorem test_hold_and_reject : ((pieceOf (after (.holdPiece 1 5001) (stocked .watch)).toPart 5001).map (·.condition)) = some .held ∧
    ((pieceOf (after (.rejectPiece 1 5004) (stocked .watch)).toPart 5004).map (·.condition)) = some .rejected ∧
    reply (.holdPiece 1 5004) (stocked .watch) = some (.state, []) := by decide +kernel

/-- R110: 3,600,000 tenth-°C·s are 100 °C·h, below the ship target of 550. -/
theorem test_release : ((pieceOf (after (.releasePiece 1 5004) (stocked .watch)).toPart 5004).map
    fun q => (q.condition, q.released)) = some (.curing, true) := by decide +kernel

/-- The yard with piece 5300 UNLOCATED. -/
def missing (m : Mode) : State :=
  upon (stocked m) fun p => putSlot 22 .clear (putPiece 5300 { inStock 900 7000 22 1 .curing with place := .unlocated } p)

theorem test_locate : (pieceOf (after (.locate 1 5300 21) (missing .watch)).toPart 5300).map (fun q => (q.place, q.condition)) =
    some (.slot 21 1, .held) ∧ reply (.locate 1 5300 21) (stocked .watch) = some (.state, []) := by decide +kernel

theorem test_remove : pieceOf (after (.removePiece 1 5300) (missing .watch)).toPart 5300 = none ∧
    (pourOf (after (.removePiece 1 5300) (missing .watch)).toPart 1).map (·.count) = some 4 := by decide +kernel

/-- The yard with area 1 at −73 and piece 5001 short of its ship target. -/
def ripe : State :=
  upon (stocked .watch) fun p => putAreaRecord 1 { AreaRecord.fresh (some 11) with value := some (-73) }
    (putPiece 5001 { inStock 1500 12000 20 1 .curing with acc := 19790000 } p)

/-- Section 6.10, area 1 at −73: 16,200 for 600 s, and the piece reaches its target of 550 °C·h. -/
theorem test_yard_expiry :
    (pieceOf (after .yardIntervalExpiry ripe).toPart 5001).map (fun q => (q.acc, q.condition)) = some (19806200, .shippable) ∧
    notices .yardIntervalExpiry ripe = [.pieceShippable 5001 20 1 550] := by decide +kernel

/-! ### Moves: section 7.9 -/

/-- The chain 17, 18, 19 of section 7.9, in WATCH. -/
def chained (p : Part) : Part :=
  { yard p with mp := { p.mp with
      counter := 20
      queue := [{ plainMove .rehandle (some 5004) (.slot 20) none with number := 17, chain := some 19, rank := 0 },
                { plainMove .rehandle (some 5003) (.slot 20) none with number := 18, chain := some 19, rank := 1 },
                { plainMove .ship (some 5002) (.slot 20) (some (.bay 2)) with number := 19, chain := some 19, rank := 2 }] } }

/-- In RUN nothing fits at first, so crane B is parked by move 20 with [1850, 2400]. -/
theorem test_give_way : ((after (.expedite 1 17) (upon (works .run) fun p => located (chained p))).mp.queue.map
      fun m => (m.number, m.kind, m.crane)).head? = some (20, .park, some .B) ∧
    ((after (.expedite 1 17) (upon (works .run) fun p => located (chained p))).mp.resB.map fun r => (r.lo, r.hi)) =
      some (1850, 2400) := by decide +kernel

theorem test_expedite : reply (.expedite 1 17) (upon (works .watch) chained) = some (.ok, [.u8 3]) ∧
    reply (.expedite 1 18) (upon (works .watch) (moving .toSource 1932 (.goto 1900))) = some (.state, []) := by
  decide +kernel

/-- CANCEL MOVE 19 while 18 is dispatched removes one move, and 18 stays. -/
theorem test_cancel :
    let s := upon (works .watch) fun p => { chained p with mp := { (chained p).mp with
      queue := [{ move18 .dispatched none with chain := some 19, rank := 1 },
                { plainMove .ship (some 5002) (.slot 20) (some (.bay 2)) with number := 19, chain := some 19, rank := 2 }] } }
    reply (.cancelMove 1 19) s = some (.ok, [.u8 1]) ∧
    ((after (.cancelMove 1 19) s).mp.queue.map fun m => (m.number, m.chain)) = [(18, none)] := by decide +kernel

/-- R151, R164: with the directed queue full, the LOWER of a cancel in TAKE_UP is refused and kept. -/
theorem test_kept_lower :
    let s := upon (works .watch) fun p =>
      let q := moving .takeUp 1900 .takeUp p
      { q with fl := { q.fl with queue := (List.range 16).map fun k => ⟨k + 1, .setValve 5, .cc⟩ } }
    reply (.cancelMove 1 18) s = some (.ok, [.u8 1]) ∧ (after (.cancelMove 1 18) s).csA.kept = some .lower := by
  decide +kernel

theorem test_retry :
    let m : Move := { move18 .suspended (some .loadHigh) with crane := none }
    let s := upon (works .watch) fun p => { yard p with mp := { p.mp with queue := [m] } }
    reply (.retryMove 1 18) s = some (.ok, []) ∧
    (after (.retryMove 1 18) s).mp.queue = [{ m with state := .queued, reason := none }] := by decide +kernel

/-! ### Cranes: sections 8.11 and 8.12 -/

/-- RESUME CRANE A at 2063 is CLEARANCE; at 1905 it takes [1050, 2055]. -/
theorem test_resume : reply (.resumeCrane 1 0x41) (upon (works .run) (stoppedWith 2063 .overrun .toSource)) = some (.clearance, []) ∧
    reply (.resumeCrane 1 0x41) (upon (works .run) (stoppedWith 1905 .overrun .toSource)) =
      some (.ok, [.u16 1050, .u16 2055]) := by decide +kernel

theorem test_crane_out_in : reply (.craneOut 1 0x41) (upon (works .watch) located) = some (.ok, [.u16 1350, .u16 1650]) ∧
    reply (.craneIn 1 0x41) (upon (works .watch) located) = some (.state, []) := by decide +kernel

theorem test_step_timer : notices (.stepTimerExpiry .A) (upon (works .watch) (moving .toSource 1700 (.goto 1900))) =
    [.craneStopped .A .timeout (some 1700) (some 18) none, .moveSuspended 18 5004 .timeout none] := by decide +kernel

/-- A reply from A at 2057 while MOVING: both cranes stop. -/
theorem test_overrun :
    let s := upon (works .run) fun p => onLine 29 (.crane .A) 1 (standing 29 (.crane .A) .alive 0 (moving .toSource 1932 (.goto 1900) p))
    let t := after (.replyComplete (fieldChars [29, 0x08, 0x09, 0x01, 0, 0])) s
    (t.csA.state, t.csA.reason, t.csB.state, t.csB.reason) = (.stopped, some .overrun, .stopped, some .overrunOther) := by
  decide +kernel

/-- 9,800 kg at 10 %: 11,200 is HIGH, 10,400 is accepted. -/
theorem test_load : judgeLoad 10 9800 11200 = .high ∧ judgeLoad 10 9800 10400 = .accepted := by decide +kernel

/-! ### Field Link: section 9.2 and the timers -/

/-- The check characters 0xEA, 0xFA and 0x3E; the address flag is 1 on a request's first character only (R156). -/
theorem test_checks : requestBytes 6 .poll = [6, 0x10, 0xEA] ∧ requestBytes 29 (.goto 1900) = [29, 0x32, 0x07, 0x6C, 0x3E] ∧
    requestChars 6 .poll = [⟨6, true, false⟩, ⟨0x10, false, false⟩, ⟨0xEA, false, false⟩] ∧
    replyFault .zone 6 (fieldChars [6, 0x01, 0x85, 0x01, 0x88, 0x01, 0x8C, 0x64]) = none ∧
    (fieldChars [6, 0x01, 0x85, 0x01, 0x88, 0x01, 0x8C, 0x64]).getLast?.map (·.data) = some 0xFA := by decide +kernel

/-- Address 0x06 with flag 1, and check 0xEA, bit by bit from the layout of section 9.2; a missing stop bit, and a start bit
of 1. -/
theorem test_character_bits :
    let bits := fun l : List Nat => l.map (· == 1)
    (exchangeBits { id := 0, addr := 6, owner := .zone 3 2, cls := .round, cmd := .poll, by_ := none, attempt := 1,
                    withdrawn := false, orphan := false, rate := 57600 }).take 11 = bits [0, 0, 1, 1, 0, 0, 0, 0, 0, 1, 1] ∧
    charBits ⟨0xEA, false, false⟩ = bits [0, 0, 1, 0, 1, 0, 1, 1, 1, 0, 1] ∧
    charOfBits (bits [0, 0, 1, 0, 1, 0, 1, 1, 1, 0, 1]) = ⟨0xEA, false, false⟩ ∧
    (charOfBits (bits [0, 0, 1, 0, 1, 0, 1, 1, 1, 0, 0])).framing = true ∧
    (charOfBits (bits [1, 0, 1, 0, 1, 0, 1, 1, 1, 0, 1])).framing = true := by decide +kernel

/-- SYNC, 0xA5, bit by bit from R172: start bit, least significant bit first, one stop bit; the same with no stop bit; and the
first character of the frame on the line after reset. -/
theorem test_line_bits :
    let bits := fun l : List Nat => l.map (· == 1)
    lineBits ⟨0xA5, false⟩ = bits [0, 1, 0, 1, 0, 0, 1, 0, 1, 1] ∧
    lineCharOfBits (bits [0, 1, 0, 1, 0, 0, 1, 0, 1, 1]) = ⟨0xA5, false⟩ ∧
    lineCharOfBits (bits [0, 1, 0, 1, 0, 0, 1, 0, 1, 0]) = ⟨0xA5, true⟩ ∧
    (State.reset.cl.sending.bind fun f => f.bits.head?) = some (bits [0, 1, 0, 1, 0, 0, 1, 0, 1, 1]) := by decide +kernel

/-- R157's order: a framing error before a wrong address; a wrong address before a wrong length; a character short, and one
too many, before the check; the check before the content; hook field 3. -/
theorem test_reply_causes :
    replyFault .zone 6 [⟨7, false, true⟩] = some .framing ∧ replyFault .zone 6 (fieldChars [7, 0]) = some .address ∧
    replyFault .yard 11 [⟨11, false, false⟩, ⟨1, false, false⟩, ⟨2, false, false⟩] = some .gap ∧
    replyFault .yard 11 (fieldChars [11, 1, 2] ++ [⟨9, false, false⟩]) = some .length ∧
    replyFault .crane 29 (([29, 4, 0, 6, 0, 0, 0].map fun b => ⟨b, false, false⟩)) = some .check ∧
    replyFault .crane 29 (fieldChars [29, 4, 0, 6, 0, 0]) = some .content := by decide +kernel

/-- The reply of section 9.2 reaches zone 2 of bed 3. -/
theorem test_zone_reply :
    let s := upon (works .watch) (onLine 6 (.zone 3 2) 1)
    let t := after (.replyComplete (fieldChars [6, 0x01, 0x85, 0x01, 0x88, 0x01, 0x8C, 0x64])) s
    (zoneRecord t.toPart 3 2).map (fun r => (r.probe1.value, r.probe2.value, r.probe3.value, r.echo)) =
      some (some 389, some 392, some 396, some 100) ∧
    (nodeOf t.toPart 6).map (·.standing) = some .alive := by decide +kernel

/-- A third miss makes a node LOST (R167, R168); a first attempt is retried. -/
theorem test_reply_timer :
    let s := fun n => upon (works .watch) fun p => onLine 6 (.zone 3 2) n (standing 6 (.zone 3 2) .alive 2 p)
    notices .replyTimerExpiry (s 2) = [.nodeLost 6 (.zone 3 2) 3 (some .timeout)] ∧
    (after .replyTimerExpiry (s 1)).fl.line.map (·.attempt) = some 2 := by decide +kernel

/-- A round begins at the lowest address; a motion poll goes to its crane. -/
theorem test_field_timers :
    let s := upon (works .watch) fun p => { p with fl := { p.fl with roundTimer := some (.start 500), pollA := some (.start 100) } }
    (after .roundTimerExpiry s).fl.line.map (fun e => (e.addr, e.cmd)) = some (1, .poll) ∧
    (after (.cranePollTimerExpiry .A) s).fl.line.map (fun e => (e.addr, e.cls)) = some (29, .motion) := by decide +kernel

/-! ### Command Link -/

/-- A SET BOILER of 1100 as its bytes (R172). -/
theorem test_frame : (after (.frameReceived (asChars (frameBytes 0x0A 13 [0x04, 0x4C]))) (works .watch)).store.boiler = 1100 ∧
    (after (.frameReceived (asChars [0xA5, 0, 0x49, 1, 0, 0])) (works .watch)).cl.checkDiscards = 1 := by decide +kernel

theorem test_gap : (after (.interCharacterGap ⟨0xA5, false⟩)
      { (works .watch) with cl := { (works .watch).cl with rx := .collecting [0] } }).cl =
    { (works .watch).cl with rx := .collecting [], gapDiscards := 1 } := by decide +kernel

theorem test_unknown_kind : reply (.unknownKind 7 0x30 [1, 1]) (works .watch) = some (.unknown, []) ∧
    reply (.unknownKind 7 0x42 [1]) (works .watch) = some (.format, []) := by decide +kernel

/-- RX_OVERRUN rides in the next reply's flags byte (R175). -/
theorem test_frame_sent :
    let k : CommandLink := { (works .watch).cl with
      places := [(0x49, 1), (0x0A, 2)], rxOverrun := true, overruns := 1,
      sending := some (.reply ⟨0x49, 1, .ok, [], .nothing⟩ 0 115200), replies := [⟨0x0A, 2, .ok, [], .nothing⟩] }
    (after .frameSent { (works .watch) with cl := k }).cl = { k with
      places := [(0x0A, 2)], rxOverrun := false, replies := [],
      sending := some (.reply ⟨0x0A, 2, .ok, [], .nothing⟩ 1 115200) } := by decide +kernel

/-- Reads of the states above: pour 5 of section 2.11, slot 20 and page 1 of section 7.9, and what is refused. -/
theorem test_reads_taken : (reply (.readPlant 1 1 2) (works .watch)).map Prod.fst = some .ok ∧
    (reply (.readBed 1 2) (pouring .watch)).map (fun r => r.2.take 2) = some [.u8 2, .u8 1] ∧
    (reply (.readZone 1 3 2) (works .watch)).map (fun r => r.2.take 2) = some [.u8 6, .u8 0] ∧
    (reply (.readPour 1 5) (pouring .watch)).map (fun r => r.2.take 6) =
      some [.u8 5, .u8 2, .bytes hc, .u16 300, .u16 240, .u8 2] ∧
    (reply (.readPiece 1 5002) (stocked .watch)).map Prod.fst = some .ok ∧
    (reply (.readSlot 1 20) (stocked .watch)).map Prod.fst = some .ok ∧
    (reply (.readMoves 1 1) (upon (works .watch) chained)).map (fun r => r.2.take 1) = some [.u8 3] ∧
    (reply (.readCrane 1 0x42) (works .watch)).map Prod.fst = some .ok ∧
    (reply (.readNodes 1 3) (works .watch)).map (fun r => r.2.take 1) = some [.u8 2] ∧
    (reply (.readStatus 1) (works .watch)).map (fun r => r.2.take 1) = some [.u16 1200] := by decide +kernel

theorem test_reads_refused : [reply (.readPlant 1 7 1) (works .watch), reply (.readBed 1 7) (works .watch),
    reply (.readZone 1 1 1) (works .watch), reply (.readPour 1 25) (works .watch), reply (.readSlot 1 49) (works .watch),
    reply (.readMoves 1 5) (works .watch), reply (.readCrane 1 1) (works .watch), reply (.readNodes 1 4) (works .watch)].all
      (fun r => r == some (.range, [])) = true ∧
    reply (.readPour 1 24) (works .watch) = some (.unknown, []) ∧
    reply (.readPiece 1 7001) (works .watch) = some (.unknown, []) := by decide +kernel

/-! ### Witnesses: the premises of each statement are met, clause by clause -/

theorem witness_StepRunsFront : ({ works .watch with pending := [.powerUp, .frameSent] } : State).pending =
    .powerUp :: [.frameSent] := rfl

/-- Power off, power on, and a zone record whose age stands at its greatest value. -/
theorem witness_IdleStepPassesTime :
    let s := upon (works .watch) (putZoneRecord 3 2 (readings ⟨some 389, 3600000⟩ .blank .blank))
    (dark true s).pending = [] ∧ (dark true s).mc.power = false ∧ s.pending = [] ∧ s.mc.power = true ∧
    Map.find s.tu.zones (zoneKey 3 2) = some (readings ⟨some 389, 3600000⟩ .blank .blank) ∧
    (readings ⟨some 389, 3600000⟩ .blank .blank).probe1.value.isSome = true := by decide +kernel

theorem witness_FreshPowerUpIsReset : (dark false State.reset).store = Store.fresh ∧
    (dark false State.reset).mc.backupHeld = false ∧ (dark false State.reset).fl.ties = 0 := by decide +kernel

/-- A RESTART's reply on the line. -/
def restarting (s : State) : State :=
  { s with cl := { s.cl with restarting := true, places := [(0x0F, 1)],
                             sending := some (.reply ⟨0x0F, 1, .ok, [], .restart⟩ 0 115200) } }

/-- The state with the retain setting OFF. -/
def forgetful (s : State) : State := { s with store := { s.store with plant := { s.store.plant with retain := 0 } } }

theorem witness_StartsAlike : (works .watch).mc.power = true ∧ endsRestart (restarting (works .watch)) :=
  ⟨rfl, rfl, _, _, _, rfl, rfl⟩

theorem witness_StartClearsJobs :
    ¬ ((dark false (stocked .run)).mc.backupHeld = true ∧ (dark false (stocked .run)).store.plant.retain = 1) ∧
    ¬ ((dark true (forgetful (stocked .run))).mc.backupHeld = true ∧
        (dark true (forgetful (stocked .run))).store.plant.retain = 1) ∧
    ((forgetful (stocked .run)).mc.power = true ∧ (forgetful (stocked .run)).store.plant.retain ≠ 1) ∧
    endsRestart (restarting (forgetful (stocked .run))) ∧
    (restarting (forgetful (stocked .run))).store.plant.retain ≠ 1 :=
  ⟨by decide +kernel, by decide +kernel, by decide +kernel, ⟨rfl, _, _, _, rfl, rfl⟩, by decide +kernel⟩

/-- Bed 2 POURING pour 5 and bed 3 CURING pour 6, one piece of each kind, and piece 5300 on a hook: near section 11.4. -/
def winter : State :=
  upon (pouring .run) fun p => putContext 3 { context2 .ramp (some 392) with pour := 6 }
    (putBed 3 ⟨.curing, some 1, some 6, none⟩ (putPour 6 { closed5 with bed := 3, order := [7101] }
      (putPour 1 { closed5 with count := 1, current := false, order := [5300] }
        (putPiece 7101 { onBed2 400 1 .curing with pour := 6, place := .bed 3 400 }
          (putPiece 5300 { inStock 900 7000 22 1 .shippable with place := .hook .A } p)))))

/-- R187 in the order of section 11.4: POUR ABORTED, then DEVIATION, behind STARTED. -/
theorem test_repair :
    let t := after .powerUp (dark true winter)
    t.cl.notices = [.pourAborted 2 5 240 2 .power, .deviation 3 6 ⟨.powerGap, none, 0, 60⟩ .appended] ∧
    [7001, 7101, 5300].map (fun k => (pieceOf t.toPart k).map fun q => q.condition) =
      [some .rejected, some .held, some .shippable] := by decide +kernel

/-- The three starts; a piece on a bed, one on a hook and a mark of none; a bed that is neither POURING nor CURING, one of
each, with their pours, a pour of no bed and a free record. -/
theorem witness_StartKeepsJobs :
    winter.store.plant.retain = 1 ∧ (dark true winter).mc.backupHeld = true ∧ winter.mc.power = true ∧
    endsRestart (restarting winter) ∧
    pieceOf winter.toPart 7001 = some (onBed2 400 1 .cast) ∧ pieceOf winter.toPart 9 = none ∧
    (pieceOf winter.toPart 5300).map (·.place) = some (.hook .A) ∧
    Map.find winter.bs.beds 1 = some .vacant ∧ Bed.vacant.state ≠ .pouring ∧
    Map.find winter.bs.beds 2 = some ⟨.pouring, some 1, some 5, some (.start 1800000)⟩ ∧
    pourOf winter.toPart 5 = some pour5 ∧ 7001 ∈ pour5.order ∧ oneBedAPour winter ∧
    (3, ⟨.curing, some 1, some 6, none⟩) ∈ winter.bs.beds ∧
    ((pourOf winter.toPart 6).map (·.review) = some false ∧
      (pieceOf winter.toPart 7101).map (fun q => (q.pour, q.condition, q.released)) = some (6, .curing, false)) ∧
    ((pourOf winter.toPart 1).isSome = true ∧ ∀ b ∈ winter.bs.beds, b.2.pour ≠ some 1) ∧
    pourOf winter.toPart 2 = none :=
  ⟨by decide +kernel, by decide +kernel, by decide +kernel, ⟨rfl, _, _, _, rfl, rfl⟩, by decide +kernel⟩

/-- A piece on a STRIPPING bed, whose STRIP move the start queues again, and one in stock with a move before. -/
theorem witness_StartKeepsJobs_moves :
    let s := upon (cured .stripping .run) fun p =>
      putPiece 5300 { inStock 900 7000 22 1 .shippable with move := some 9 } (putPour 1 { closed5 with order := [5300] } p)
    let t := after .resetPin s
    s.store.plant.retain = 1 ∧ s.mc.power = true ∧ (pieceOf t.toPart 7001).isSome = true ∧
    (∃ m ∈ t.mp.queue, m.piece = some 7001) ∧ (pieceOf t.toPart 5300).isSome = true ∧
    ∀ m ∈ t.mp.queue, m.piece ≠ some 5300 := by decide +kernel

theorem witness_SupplyLost : (stocked .run).mc.power = true ∧ (dark true (stocked .run)).mc.power = false ∧
    Instr.resetPin ≠ .powerUp ∧ Instr.resetPin ≠ .backupSupplyBelowThreshold := by decide +kernel

/-- The first code not listed; a change to SETUP at work and at rest; the mode in force; SETUP to WATCH. -/
theorem witness_SetModeResult :
    ready (works .run) ∧ 2 < 3 ∧
    (ready (pouring .run) ∧ modeOfCode 0 = some .setup ∧ Mode.setup ≠ (pouring .run).mc.mode ∧
      ¬ (∀ e ∈ (pouring .run).bs.beds, e.2.state = .empty ∨ e.2.state = .prepared ∨ e.2.state = .rejected)) ∧
    (Mode.setup ≠ (works .run).mc.mode ∧
      (∀ e ∈ (works .run).bs.beds, e.2.state = .empty ∨ e.2.state = .prepared ∨ e.2.state = .rejected) ∧
      (works .run).mp.queue = [] ∧ (works .run).sm.pieces = [] ∧
      (craneOf (works .run).toPart .A).state = .unlocated ∧ (craneOf (works .run).toPart .B).state = .unlocated) ∧
    (modeOfCode 2 = some .run ∧ Mode.run = (works .run).mc.mode) ∧
    (ready (works .setup) ∧ modeOfCode 1 = some .watch ∧ (works .setup).mc.mode = .setup) := by decide +kernel

/-- A zone with no opening handed, beside a queue with room for four valves, on an idle line and on a busy one. -/
theorem witness_SetModeResult_valves :
    let s := works .run
    let busy := upon s (onLine 29 (.crane .A) 1)
    Map.find s.cc.valves (zoneKey 2 1) = some .fresh ∧ Valve.fresh.handed ≠ some 0 ∧
    zoneCfg s.store 2 1 = some ⟨900, 1, 150⟩ ∧ (nodeOf s.toPart 1).map (·.standing) = some .unpolled ∧
    ((namedItems s.store).map Prod.fst).Nodup ∧ (s.fl.line = none ∧ hasRoom s (s.cc.valves.length + 4)) ∧
    (busy.fl.line.isSome = true ∧ hasRoom busy busy.cc.valves.length) ∧
    zoneLost (upon s (standing 1 (.zone 2 1) .lost 3)).store (upon s (standing 1 (.zone 2 1) .lost 3)).toPart 2 1 = true := by
  decide +kernel

/-- Crane A works a move; crane B does not. -/
theorem witness_LeavingRunStopsCranes :
    let s := upon (works .run) (moving .toSource 1932 (.goto 1900))
    ready s ∧ s.mc.mode = .run ∧ craneNode s.store .A = some 29 ∧ nodeOf s.toPart 29 = some (.fresh (.crane .A)) ∧ ((stepOf (craneOf s.toPart .A).state).isSome ∧ (craneOf s.toPart .A).move.isSome) ∧
    ¬ ((stepOf (craneOf s.toPart .B).state).isSome ∧ (craneOf s.toPart .B).move.isSome) := by decide +kernel

theorem witness_RestartIsLast : ready (works .run) ∧ requestHead (.readStatus 1) = some (0x49, 1) ∧
    (restarting (works .run)).mc.power = true ∧ (restarting (works .run)).cl.restarting = true ∧
    (restarting (works .run)).cl.places.length < 2 := by decide +kernel

/-- Kinds 0x01 and 0x09 outside SETUP; 0x10, 0x21, 0x2C and 0x2E in SETUP; beds 0, 1 and 7, which are not configured. -/
theorem witness_ModeRefusals :
    (ready (works .watch) ∧ requestHead (.setRunway 1 2400) = some (0x01, 1) ∧ 0x01 ≤ 0x09 ∧
      requestHead (.setPlant 1 3 90) = some (0x09, 1) ∧ (works .watch).mc.mode ≠ .setup) ∧
    (ready (works .setup) ∧ requestHead (.prepare 1 2 hc) = some (0x10, 1) ∧ requestHead (.scrap 1 1 1) = some (0x21, 1) ∧
      requestHead (.resumeCrane 1 0x41) = some (0x2C, 1) ∧ requestHead (.craneIn 1 0x41) = some (0x2E, 1) ∧
      (works .setup).mc.mode = .setup) ∧
    (bedNamed (.clearBed 1 7) = some 7 ∧ ¬ bedOpen (works .watch) 7 ∧ bedNamed (.clearBed 1 0) = some 0 ∧
      ¬ bedOpen (works .watch) 0 ∧ bedNamed (.clearBed 1 1) = some 1 ∧ ¬ bedOpen (works .watch) 1 ∧
      (works .watch).mc.mode ≠ .setup) := by decide +kernel

/-- Everything fits 2300, crane B's home; at 2299 it does not. -/
theorem witness_SetRunwayResult :
    let s := works .setup
    ready s ∧ s.mc.mode = .setup ∧
    ((∀ x ∈ configuredPositions s.store, x ≤ clampInt 100 4000 2300) ∧ (∀ x ∈ basisPoints s.toPart, x ≤ clampInt 100 4000 2300) ∧
      ordered (s.mp.resA.map fun r => stretch { s.store with runway := clampInt 100 4000 2300 } r.basis)
        (s.mp.resB.map fun r => stretch { s.store with runway := clampInt 100 4000 2300 } r.basis) = true) ∧
    ¬ (∀ x ∈ configuredPositions s.store, x ≤ clampInt 100 4000 2299) := by decide +kernel

/-- Two zones, the first keeping its address, up to the runway's end. -/
def twoZones : List ZoneSpec := [⟨900, 1, 150⟩, ⟨2400, 3, 1000⟩]

/-- Bed numbers, counts and addresses out of range; a bed in use; geometries one step off; an address of another bed and one
given twice; and what an EMPTY bed takes: no zone, or two. -/
theorem witness_SetBedResult :
    let s := works .setup
    let inside := fun (bed : Nat) (zones : List ZoneSpec) =>
      (1 ≤ bed ∧ bed ≤ 6) ∧ zones.length ≤ 4 ∧ ∀ z ∈ zones, z.node ≤ 30
    let geometry := fun (xStart xEnd : Nat) (zones : List ZoneSpec) =>
      xStart < xEnd ∧ (xEnd : Int) ≤ s.store.runway ∧ (∀ z ∈ zones, xStart ≤ z.east ∧ 1 ≤ z.node) ∧
      (zones.map (·.east)).Pairwise (· < ·) ∧ zones.getLast?.map (·.east) = some xEnd
    (ready s ∧ s.mc.mode = .setup) ∧ (¬ inside 0 [] ∧ ¬ inside 7 [] ∧ ¬ inside 2 (List.replicate 5 ⟨900, 1, 150⟩) ∧
      ¬ inside 2 [⟨900, 31, 150⟩]) ∧
    (ready (cured .ready .setup) ∧ inside 2 twoZones ∧ (bedOf (cured .ready .setup).toPart 2).state ≠ .empty) ∧
    (inside 2 twoZones ∧ (bedOf s.toPart 2).state = .empty ∧ twoZones ≠ []) ∧
    (¬ geometry 300 2401 twoZones ∧ ¬ geometry 901 2400 twoZones ∧ ¬ geometry 300 2400 [⟨2400, 0, 150⟩]) ∧
    (geometry 300 2400 [⟨900, 1, 150⟩, ⟨2400, 5, 150⟩] ∧ (5, Owner.zone 3 1) ∈ namedItems s.store) ∧
    (geometry 300 2400 [⟨900, 1, 150⟩, ⟨2400, 1, 150⟩] ∧
      ¬ (([⟨900, 1, 150⟩, ⟨2400, 1, 150⟩] : List ZoneSpec).map (·.node)).Nodup) ∧
    (inside 2 [] ∧ inside 1 [] ∧ (bedOf s.toPart 1).state = .empty) ∧
    (geometry 300 2400 twoZones ∧ (twoZones.map (·.node)).Nodup ∧
      ∀ z ∈ twoZones, ∀ e ∈ namedItems s.store, e.1 = z.node → e.2 = .zone 2 1) ∧
    (twoZones[0]? = some ⟨900, 1, 150⟩ ∧ hadNode (zonesOf s.store 2) 1 1 = true) ∧
    (twoZones[1]? = some ⟨2400, 3, 1000⟩ ∧ hadNode (zonesOf s.store 2) 2 3 = false) := by
  dsimp only
  constructorm* _ ∧ _ <;> decide +kernel

/-- The limits of each number; a slot with pieces keeping x and area; one whose tier limit would be too low. -/
theorem witness_SetSlotAndBayResult :
    let s := stocked .setup
    ready s ∧ s.mc.mode = .setup ∧ (slotOf s.toPart 48).stack = [] ∧ ((2400 : Nat) : Int) ≤ s.store.runway ∧
    ((slotOf s.toPart 20).stack ≠ [] ∧ Map.find s.store.slots 20 = some ⟨1900, 80000, 6, 1⟩ ∧
      (slotOf s.toPart 20).stack.length ≤ max 1 (min 8 4) ∧
      stackMass s.toPart (slotOf s.toPart 20).stack ≤ min 120000 40000) ∧
    ¬ ((slotOf s.toPart 20).stack.length ≤ max 1 (min 8 3)) ∧ ¬ (stackMass s.toPart (slotOf s.toPart 20).stack ≤ 39999) ∧
    ¬ (1 ≤ 49 ∧ 49 ≤ 48) ∧ ((1 ≤ 2 ∧ 2 ≤ 2) ∧ ((2400 : Nat) : Int) ≤ s.store.runway) ∧
    ¬ (((2401 : Nat) : Int) ≤ s.store.runway) := by decide +kernel

/-- Areas 4 and 5, addresses 30 and 31; an address in use; the address the area has. -/
theorem witness_SetAreaResult :
    let s := works .setup
    ready s ∧ s.mc.mode = .setup ∧ ¬ (1 ≤ 5 ∧ 5 ≤ 4 ∧ 30 ≤ 30) ∧ ¬ (1 ≤ 4 ∧ 4 ≤ 4 ∧ 31 ≤ 30) ∧
    ((1 ≤ 4 ∧ 4 ≤ 4 ∧ 30 ≤ 30) ∧ 30 ≠ 0 ∧ ∃ e ∈ namedItems s.store, e.1 = 30 ∧ e.2 ≠ .area 4) ∧
    ((1 ≤ 4 ∧ 4 ≤ 4 ∧ 28 ≤ 30) ∧ ¬ (28 ≠ 0 ∧ ∃ e ∈ namedItems s.store, e.1 = 28 ∧ e.2 ≠ .area 4)) ∧
    (11 ≠ 0 ∧ (areaRecord s.toPart 1).node = some 11) ∧ (areaRecord s.toPart 4).node ≠ some 28 ∧
    (areaRecord s.toPart 4).node = none := by decide +kernel

/-- Crane B at homes 500 and 501 with A at 200; an address of a zone; the address it has, and a new one. -/
theorem witness_SetCraneResult :
    let s := works .setup
    ready s ∧ s.mc.mode = .setup ∧ (0x43 ≠ 0x41 ∧ 0x43 ≠ 0x42) ∧ craneOfByte 0x42 = some .B ∧
    ¬ (homesApart (withCrane s.store .B { node := 30, home := 500 }) s.store.plant.clearance = true) ∧
    (homesApart (withCrane s.store .B { node := 30, home := 501 }) s.store.plant.clearance = true ∧
      ((501 : Nat) : Int) ≤ s.store.runway) ∧
    (∃ e ∈ namedItems s.store, e.1 = 1 ∧ e.2 ≠ .crane .B) ∧ ¬ (∃ e ∈ namedItems s.store, e.1 = 30 ∧ e.2 ≠ .crane .B) ∧
    ¬ (∃ e ∈ namedItems s.store, e.1 = 28 ∧ e.2 ≠ .crane .B) ∧ craneNode s.store .B = some 30 ∧
    craneNode s.store .B ≠ some 28 := by decide +kernel

/-- Commands queued for crane A's node 29 and for zone node 6, an exchange with node 29 on the line; no refused command is
held. SET CRANE gives the crane node 28. -/
def commanded : State := upon (works .setup) fun p => onLine 29 (.crane .A) 1 { p with
  fl := { p.fl with queue := [⟨29, .stop, .cs .A⟩, ⟨6, .setValve 40, .cc⟩] } }

theorem witness_linkFollows :
    commanded.fl.line.isSome = true ∧
    (∀ c ∈ [CraneId.A, .B], (craneOf commanded.toPart c).kept = none ∧ (craneOf commanded.toPart c).command = none) ∧
    unnamedSince commanded (after (.setCrane 1 0x41 28 100) commanded) 29 = true ∧
    unnamedSince commanded (after (.setCrane 1 0x41 28 100) commanded) 6 = false := by decide +kernel

/-- R8, R170: the STOP for node 29 is removed, the SET VALVE for node 6 stays. -/
theorem test_set_crane_unnames : (after (.setCrane 1 0x41 28 100) commanded).fl.queue = [⟨6, .setValve 40, .cc⟩] := by
  decide +kernel

/-- A referenced entry; an UNUSED one; a DEFINED one that nothing references; a code that is no code; a code in use. -/
theorem witness_ProductResult :
    ready (works .setup) ∧ (works .setup).mc.mode = .setup ∧ ¬ (1 ≤ 0 ∧ 0 ≤ 16) ∧ ¬ (1 ≤ 17 ∧ 17 ≤ 16) ∧
    ((product (stocked .setup).store 1).isSome = true ∧ referenced (stocked .setup).toPart 1 = true) ∧
    product (works .setup).store 16 = none ∧
    ((product (works .setup).store 1).isSome = true ∧ referenced (works .setup).toPart 1 = false) ∧
    isProductCode [0, 0, 0, 0, 0, 0, 0, 0] = false ∧
    (isProductCode hc = true ∧ ∃ e ∈ (works .setup).store.products, e.2.code = hc ∧ e.1 ≠ 16) ∧
    (∀ e ∈ (works .setup).store.products, e.2.code = hc → e.1 = 1) := by decide +kernel

/-- Settings 0 and 28; an unlisted code; a value; clearances that fit and that do not. -/
theorem witness_SetPlantResult :
    let s := upon (works .setup) located
    ready s ∧ s.mc.mode = .setup ∧ ¬ (1 ≤ 0 ∧ 0 ≤ 27) ∧ ¬ (1 ≤ 28 ∧ 28 ≤ 27) ∧ settingTaken 26 3 = none ∧
    settingTaken 1 30 = some 30 ∧ settingTaken 27 1 = some 1 ∧
    ((24, 5, 100) ∈ settingRanges ∧ settingTaken 24 4 = some 5 ∧ settingTaken 24 5 = some 5 ∧ settingTaken 24 101 = some 100) ∧
    ((25, 0, 1) ∈ settingRanges ∧ settingTaken 25 1 = some 1 ∧ settingTaken 25 2 = none ∧ settingTaken 25 (-1) = none) ∧
    (settingTaken 12 150 = some 150 ∧ homesApart s.store 150 = true ∧
      ordered (s.mp.resA.map fun r => stretch { s.store with plant := s.store.plant.change 12 150 } r.basis)
        (s.mp.resB.map fun r => stretch { s.store with plant := s.store.plant.change 12 150 } r.basis) = true) ∧
    (settingTaken 12 500 = some 500 ∧
      ¬ ordered (s.mp.resA.map fun r => stretch { s.store with plant := s.store.plant.change 12 500 } r.basis)
        (s.mp.resB.map fun r => stretch { s.store with plant := s.store.plant.change 12 500 } r.basis) = true) := by
  decide +kernel

theorem witness_SetBoilerResult : ready (works .run) := by decide +kernel

/-- A bed at work; an EMPTY bed with an unknown code, and with a known one. -/
theorem witness_PrepareResult :
    ready (pouring .watch) ∧ bedOpen (pouring .watch) 2 ∧
    ¬ ((bedOf (pouring .watch).toPart 2).state = .empty ∨ (bedOf (pouring .watch).toPart 2).state = .prepared) ∧
    (ready (works .run) ∧ bedOpen (works .run) 3 ∧ (bedOf (works .run).toPart 3).state = .empty) ∧
    productByCode (works .run).store [] = none ∧ productByCode (works .run).store hc = some (1, hcProduct) := by
  decide +kernel

/-- Bed 2 PREPARED for product 1. -/
def prepared (m : Mode) : State := upon (works m) (putBed 2 ⟨.prepared, some 1, none, none⟩)

/-- The least order: planned 10, one piece, mark 65535, at the bed's end; and one for each check that fails. Record 1 is in
use, so record 2 is the lowest that is free. -/
theorem witness_PourOrderResult :
    let s := upon (prepared .watch) (putPour 1 closed5)
    let cfg : BedCfg := { xStart := 300, xEnd := 1500, zones := [⟨900, 1, 150⟩, ⟨1500, 2, 150⟩] }
    let full := upon (prepared .watch) fun p =>
      { p with bs := { p.bs with pours := (List.range 24).map fun k => (k + 1, closed5) } }
    let ranges := fun (planned : Nat) (pieces : List PieceSpec) =>
      (10 ≤ planned ∧ planned ≤ 9999) ∧ (1 ≤ pieces.length ∧ pieces.length ≤ 16) ∧ ∀ e ∈ pieces,
      (1 ≤ e.mark ∧ e.mark ≤ 65535) ∧ (50 ≤ e.length ∧ e.length ≤ 4000) ∧ (100 ≤ e.mass ∧ e.mass ≤ 60000) ∧
      cfg.xStart ≤ e.x ∧ (e.x : Int) ≤ cfg.xEnd
    let marks := fun (pieces : List PieceSpec) =>
      (pieces.map (·.mark)).Nodup ∧ ∀ e ∈ pieces, pieceOf s.toPart e.mark = none
    (ready s ∧ bedOpen s 2 ∧ Map.find s.store.beds 2 = some cfg) ∧
    (ready (pouring .watch) ∧ bedOpen (pouring .watch) 2 ∧ (bedOf (pouring .watch).toPart 2).state ≠ .prepared) ∧
    ((bedOf s.toPart 2).state = .prepared ∧ (bedOf s.toPart 2).product = some 1 ∧
      product s.store 1 = some hcProduct ∧ hcProduct.code = hc ∧ hcProduct.code ≠ []) ∧
    (¬ ranges 9 [⟨65535, 50, 100, 1500⟩] ∧ ¬ ranges 10 [⟨65535, 50, 100, 1501⟩] ∧ ¬ ranges 10 []) ∧
    (ranges 10 [⟨1, 50, 100, 300⟩, ⟨1, 50, 100, 300⟩] ∧ ¬ marks [⟨1, 50, 100, 300⟩, ⟨1, 50, 100, 300⟩]) ∧
    (ready full ∧ (bedOf full.toPart 2).product = some 1 ∧ ∀ k < 25, 1 ≤ k → (pourOf full.toPart k).isSome) ∧
    (ranges 10 [⟨65535, 50, 100, 1500⟩] ∧ marks [⟨65535, 50, 100, 1500⟩] ∧ s.sm.pieces.length + 1 ≤ 480) ∧
    ((1 ≤ 2 ∧ 2 ≤ 24) ∧ pourOf s.toPart 2 = none ∧ ∀ k < 2, 1 ≤ k → (pourOf s.toPart k).isSome) := by
  dsimp only
  constructorm* _ ∧ _ <;> decide +kernel

/-- A bed not POURING; volumes 0 and 121; the greatest volume below the plan. -/
theorem witness_BatchResult :
    let s := pouring .watch
    ready s ∧ bedOpen s 2 ∧ (bedOf (works .watch).toPart 2).state ≠ .pouring ∧ (bedOf s.toPart 2).state = .pouring ∧
    ¬ (1 ≤ 0 ∧ ((0 : Nat) : Int) ≤ s.store.plant.maximumBatch) ∧ ¬ (1 ≤ 121 ∧ ((121 : Nat) : Int) ≤ s.store.plant.maximumBatch) ∧
    ((59 : Nat) : Int) ≤ s.store.plant.maximumBatch ∧ (bedOf s.toPart 2).pour = some 5 ∧ pourOf s.toPart 5 = some pour5 ∧
    pour5.delivered + 59 < pour5.planned := by decide +kernel

/-- POUR END after a delivery; a BATCH of exactly the rest; a piece of the pour and one of another. -/
theorem witness_PourCloses :
    let s := pouring .run
    ready s ∧ bedOpen s 2 ∧ (bedOf s.toPart 2).state = .pouring ∧ (bedOf s.toPart 2).pour = some 5 ∧
    pourOf s.toPart 5 = some pour5 ∧ pour5.delivered ≠ 0 ∧
    (1 ≤ 60 ∧ ((60 : Nat) : Int) ≤ s.store.plant.maximumBatch ∧ pour5.planned ≤ pour5.delivered + 60) ∧
    (0 ≤ s.store.plant.volumeTolerance ∧ pour5.delivered < pour5.planned) ∧
    (pieceOf s.toPart 7001 = some (onBed2 400 1 .cast) ∧ 7001 ∈ pour5.order) := by decide +kernel

theorem witness_PourEndCancels :
    let r := { pour5 with delivered := 0, batches := 0 }
    let s := upon (works .run) (casting .pouring none r .cast)
    ready s ∧ bedOpen s 2 ∧ (bedOf (works .run).toPart 2).state ≠ .pouring ∧ (bedOf s.toPart 2).state = .pouring ∧
    (bedOf s.toPart 2).pour = some 5 ∧ pourOf s.toPart 5 = some r ∧ r.delivered = 0 ∧
    r.count ≤ (piecesOfPour s.toPart 5).dedup.length := by decide +kernel

theorem witness_GapExpiryAborts :
    let s := pouring .run
    s.mc.power = true ∧ (bedOf s.toPart 3).state ≠ .pouring ∧ (bedOf s.toPart 2).state = .pouring ∧
    (bedOf s.toPart 2).gap = some (.start 1800000) ∧ (bedOf s.toPart 2).pour = some 5 ∧
    pourOf s.toPart 5 = some pour5 := by decide +kernel

/-- Zones 0 and 3 of a bed with two; a bed not CURING, and one with no context; a zone already excluded; the last included
zone; a zone of which the context holds no record; one that may be excluded. -/
theorem witness_ZoneOutExcludes :
    let s := cured .curing .run
    let ctx := context2 .ramp (some 392)
    let out1 := { ctx with zones := [(1, { ZoneCuring.opened with excluded := true }), (2, .opened)] }
    let last := upon s (putContext 2 out1)
    ready s ∧ bedOpen s 2 ∧ zoneCfg s.store 2 0 = none ∧ zoneCfg s.store 2 3 = none ∧ (zoneCfg s.store 2 2).isSome = true ∧
    (bedOf (cured .ready .watch).toPart 2).state ≠ .curing ∧ contextOf (works .watch).toPart 2 = none ∧
    (contextOf last.toPart 2 = some out1 ∧ (Map.find out1.zones 1).map (·.excluded) = some true ∧
      (out1.zones.filter fun e => !e.2.excluded).length ≤ 1) ∧
    (let bare := { ctx with zones := [(1, .opened)] }
     contextOf (upon s (putContext 2 bare)).toPart 2 = some bare ∧ Map.find bare.zones 2 = none) ∧
    (bedOf s.toPart 2).state = .curing ∧ (bedOf s.toPart 2).pour = some 5 ∧
    pourOf s.toPart 5 = some closed5 ∧ contextOf s.toPart 2 = some ctx ∧
    Map.find ctx.zones 2 = some .opened ∧ ZoneCuring.opened.excluded = false ∧
    1 < (ctx.zones.filter fun e => !e.2.excluded).length := by decide +kernel

/-- The premise of `endsAs` and of `allocatedIn` in RUN, where no move is DISPATCHED. -/
theorem witness_endsAs (c : Instr) :
    spared (changedOnly (pouring .run) (after c (pouring .run))) ∧
    spared (changedOnly (cured .curing .run) (after c (cured .curing .run))) ∧
    spared (changedOnly (measuring .run) (after c (measuring .run))) :=
  ⟨spared_of_queue (List.forall_mem_nil _), spared_of_queue (List.forall_mem_nil _), spared_of_queue (List.forall_mem_nil _)⟩

/-- A queue of moves with the given numbers. -/
def queued (n : Nat) (p : Part) : Part :=
  { p with mp := { p.mp with queue := (List.range n).map fun k =>
      { plainMove .rehandle none (.slot 20) none with number := k + 1 } } }

/-- 29 moves in the queue leave room for three; 30 do not. -/
theorem witness_DetensionQueuesStrips :
    let s := cured .ready .run
    ready s ∧ bedOpen s 2 ∧ (bedOf (cured .curing .watch).toPart 2).state ≠ .ready ∧ (bedOf s.toPart 2).state = .ready ∧
    (bedOf s.toPart 2).pour = some 5 ∧ piecesOnBed s.toPart 2 5 = [7001, 7002, 7003] ∧
    32 < (upon s (queued 30)).mp.queue.length + 3 ∧ (upon s (queued 29)).mp.queue.length + 3 ≤ 32 ∧
    movesSound (upon s (queued 29)).toPart ∧ pieceOf s.toPart 7001 = some (onBed2 400 1 .curing) := by decide +kernel

/-- A STRIP move of bed 2 on a crane, or without one. -/
def stripping (c : Option CraneId) : State :=
  upon (cured .stripping .watch) fun p => { p with mp := { p.mp with
    queue := [{ plainMove .strip (some 7001) (.bed 2 400) none with number := 1, crane := c }] } }

theorem witness_ClearBedResult :
    ready (works .watch) ∧ bedOpen (works .watch) 2 ∧ (bedOf (works .watch).toPart 2).state = .empty ∧
    (bedOf (pouring .watch).toPart 2).state = .pouring ∧ (bedOf (cured .curing .watch).toPart 2).state = .curing ∧
    (bedOf (cured .ready .watch).toPart 2).state = .ready ∧ (bedOf (prepared .watch).toPart 2).state = .prepared ∧
    ((bedOf (cured .rejected .watch).toPart 2).state = .rejected ∧ (bedOf (cured .rejected .watch).toPart 2).pour = some 5 ∧
      (piecesOfPour (cured .rejected .watch).toPart 5).length = closed5.count) ∧
    ((bedOf (stripping none).toPart 2).state = .stripping ∧ (bedOf (stripping none).toPart 2).pour = some 5) ∧
    (∃ m ∈ (stripping (some .A)).mp.queue, stripsBed 2 m = true ∧ m.crane.isSome) ∧
    (∀ m ∈ (stripping none).mp.queue, stripsBed 2 m = true → m.crane = none) ∧
    7001 ∈ piecesOnBed (stripping none).toPart 2 5 ∧ 5001 ∉ piecesOnBed (stripping none).toPart 2 5 := by decide +kernel

/-- A STRIPPING bed's STRIP move into slot 21, beside a move out of slot 22, each with its slots engaged. -/
theorem witness_ClearBedResult_others :
    let s := upon (stripping none) fun p => { p with
      mp := { p.mp with queue := p.mp.queue ++ [{ plainMove .rehandle none (.slot 22) none with number := 2 }] }
      sm := { p.sm with slots := [(21, ⟨[], some (1, .destination), none⟩), (22, ⟨[5300], some (2, .source), none⟩)] } }
    ready s ∧ bedOpen s 2 ∧ (bedOf s.toPart 2).state = .stripping ∧ (bedOf s.toPart 2).pour = some 5 ∧ movesSound s.toPart ∧
    s.mp.queue.map (stripsBed 2) = [true, false] ∧ ∀ m ∈ s.mp.queue, stripsBed 2 m = true → m.crane = none := by
  decide +kernel

/-- A bed with a context and one without, in each mode. -/
theorem witness_CuringExpiryCredits :
    let s := measuring .run
    s.mc.power = true ∧ curingSound s.toPart ∧ contextOf s.toPart 1 = none ∧
    contextOf s.toPart 2 = some (context2 .ramp (some 392)) ∧ Map.find (context2 .ramp (some 392)).zones 2 = some .opened ∧
    (measuring .setup).mc.mode = .setup ∧ curingSound (measuring .setup).toPart ∧ (measuring .watch).mc.mode = .watch ∧
    curingSound (measuring .watch).toPart ∧ s.mc.mode = .run ∧ product s.store 1 = some hcProduct := by decide +kernel

/-- The kinds of the deviations due at an expiry for zone 1 of bed 2, from its temperature, its held value and its phase. -/
def dueKinds (phase : Phase) (temp : Option Int) (r : ZoneCuring) : List DeviationKind :=
  let out : ZoneResult := match temp with | some t => .measured t .median | none => .unmeasured .tooFew
  (reportsDue shop hcProduct phase 60 1 out r).map (·.kind)

/-- Stage 3 at its limits: a held value kept and one held long enough; −1 and 0 in PRESET, HOLD; the overtemperature and one
below it, in COOL; a run of lapsed expiries already reported; a pour CLOSED on its bed. -/
theorem witness_CuringExpiryCredits_reports :
    let held := fun n : Nat => { ZoneCuring.opened with held := some 400, heldCount := n }
    let top := hcProduct.hold + shop.plant.overtempMargin
    keepsHeld shop (held (shop.plant.holdLastGood.toNat - 1)) = true ∧
    dueKinds .ramp none (held shop.plant.holdLastGood.toNat) = [.unmeasured] ∧
    dueKinds .ramp none { held shop.plant.holdLastGood.toNat with unmeasuredSeen := true } = [] ∧
    dueKinds .preset (some (-1)) .opened = [.freeze] ∧ dueKinds .preset (some 0) .opened = [] ∧
    dueKinds .hold (some (-1)) .opened = [] ∧ dueKinds .cool (some (top + 1)) .opened = [.overtemp] ∧
    dueKinds .cool (some top) .opened = [] ∧
    ((bedOf (measuring .run).toPart 2).pour = some 5 ∧ pourOf (measuring .run).toPart 5 = some closed5 ∧
      closed5.state = .closed ∧ (measuring .run).cl.dropped < 65535) := by decide +kernel

/-- Bed 2 at the end of COOL: its setpoint at the cool-end temperature, and both zones holding 299, below it. -/
def cooled : State :=
  upon (cured .curing .run) (putContext 2 { context2 .cool (some 300) with
    zones := [(1, { ZoneCuring.opened with held := some 299 }), (2, { ZoneCuring.opened with held := some 299 })] })

/-- A bed that becomes READY; a change to HOLD; unreleased pieces CURING of a pour free of review; every product DEFINED. -/
theorem witness_CuringExpiryCredits_phase :
    (cooled.mc.power = true ∧ curingSound cooled.toPart ∧ (bedOf cooled.toPart 2).state = .curing ∧
      (contextOf cooled.toPart 2).map (·.phase) = some .cool ∧ cooled.cl.dropped < 65535 ∧
      (∀ e ∈ cooled.cc.contexts, (product cooled.store e.2.product).isSome = true) ∧
      (contextOf (after .curingIntervalExpiry cooled).toPart 2).map (·.phase) = some .finished ∧
      (after .curingIntervalExpiry cooled).cl.dropped = cooled.cl.dropped) ∧
    (pourOf cooled.toPart 5).map (·.review) = some false ∧
    (pieceOf cooled.toPart 7001).map (fun q => (q.pour, q.condition, q.released)) = some (5, .curing, false) := by
  decide +kernel

/-- A zone whose opening changes from none to 0, on a busy line and on an idle one, with room in the queue; and a zone whose
node is LOST. -/
theorem witness_CuringExpiryCredits_valves :
    let s := upon (measuring .run) (onLine 29 (.crane .A) 1)
    let lost := upon (measuring .run) (standing 1 (.zone 2 1) .lost 3)
    Map.find s.cc.valves (zoneKey 2 1) = some .fresh ∧ (Valve.fresh.handed ≠ some 0 ∨ Valve.fresh.resend = true) ∧
    zoneCfg s.store 2 1 = some ⟨900, 1, 150⟩ ∧ nodeOf s.toPart 1 = some (.fresh (.zone 2 1)) ∧ s.fl.line.isSome = true ∧
    ((namedItems s.store).map Prod.fst).Nodup ∧
    hasRoom s s.cc.valves.length ∧ ((measuring .run).fl.line = none ∧ hasRoom (measuring .run) (s.cc.valves.length + 4)) ∧
    zoneLost lost.store lost.toPart 2 1 = true := by decide +kernel

/-- A zone handed to the allocator. -/
def handed (zone request : Nat) : Handed :=
  { bed := 3, zone := zone, cls := .ramp, seq := 1, request := request, rating := 200 }

/-- Requests that just fit; one too many by 1; nothing left for the next; and a zone short of its request. -/
theorem witness_AllocationInOrder :
    ([handed 1 100, handed 2 50].map (·.request)).sum ≤ 150 ∧
    (([handed 1 100].map (·.request)).sum ≤ 149 ∧ 149 < ([handed 1 100].map (·.request)).sum + (handed 2 50).request) ∧
    (([handed 1 100].map (·.request)).sum ≤ 100 ∧ 100 < ([handed 1 100].map (·.request)).sum + (handed 2 50).request) ∧
    (let r : ZoneCuring := { ZoneCuring.opened with demand := 100, request := 15000, grant := 14999 }
     let ctx := { context2 .ramp (some 392) with zones := [(1, r)] }
     contextOf (putContext 2 ctx (works .run).toPart) 2 = some ctx ∧ Map.find ctx.zones 1 = some r ∧
     r.request = r.demand * ratingOf shop 2 1 ∧ r.grant < r.request ∧
     let p := putContext 2 { ctx with starvedCount := 9 } (cured .curing .run).toPart
     curingSound p ∧ p.cl.notices.length + p.cc.contexts.length + 1 ≤ 24 ∧
     (handedOver { shop with boiler := 149 } p).map (fun h => (h.bed, h.zone, h.request)) = [(2, 1, 15000)] ∧
     shop.plant.starveLimit ≤ ((9 : Nat) : Int) + 1 ∧ (bedOf p 2).pour = some 5 ∧
     (pourOf p 5).map (·.state) = some .closed) := by decide +kernel

theorem witness_TwoOfThree :
    let r := { readings ⟨some 412, 0⟩ ⟨some 475, 0⟩ ⟨some 419, 0⟩ with result := some (.measured 415 (.pair 2)) }
    let p := putZoneRecord 3 2 r (works .watch).toPart
    zoneRecord p 3 2 = some r ∧ 1 ≤ 3 ∧ 3 ≤ 6 ∧ (zoneCfg shop 3 2).isSome = true ∧
    r.result = some (.measured 415 (.pair 2)) := by decide +kernel

/-- The ends of the valid range, and the two sums of the rule. -/
theorem witness_MeanInRange : (415 : Int) + 416 = 831 ∧ (-151 : Int) + -150 = -301 ∧
    ((-400 : Int) ≤ -400 ∧ (-400 : Int) ≤ 1250 ∧ (-400 : Int) ≤ 1250 ∧ (1250 : Int) ≤ 1250) ∧
    agree 30 (validReadings false 60000 (readings ⟨some (-400), 0⟩ ⟨some 1250, 0⟩ ⟨some 1250, 0⟩)) =
      .measured 1250 (.pair 1) ∧
    agree 30 (validReadings false 60000 (readings ⟨some 400, 0⟩ ⟨some 425, 0⟩ ⟨some 450, 0⟩)) =
      .measured 425 .median := by decide +kernel

/-- A setpoint one below the hold temperature; PRESET and RAMP; a starved RAMP; COOL that ends. -/
theorem witness_PhasesGoForward :
    hcProduct.inRange ∧
    ((context2 .ramp (some 599)).sp = some 599 ∧ (599 : Int) ≤ hcProduct.hold ∧
      (advance hcProduct 50 [] [] 60 (context2 .ramp (some 599))).1.sp = some 600) ∧
    (context2 .preset none).phase = .preset ∧
    ({ context2 .ramp (some 392) with starved := true }.starved = true ∧
      { context2 .ramp (some 392) with starved := true }.repairPending = false) ∧
    (advance hcProduct 50 [] [] 60 (context2 .cool (some 303))).1.phase = .finished := by decide +kernel

/-- The edges of the setpoint arithmetic: one second short of the preset and at it; a repair that waits and one that is made,
in RAMP and in COOL; a ramp that ends just at the hold temperature; the strip target met; COOL one above its end and at it. -/
theorem witness_PhasesGoForward_setpoint :
    let was (ph : Phase) (x : Int) (f : Context → Context) : Context := f (context2 ph (some x))
    let now (dt : Nat) (ms : List Int) (c : Context) : Phase × Option Int × Nat × List PhaseReport :=
      let r := advance hcProduct 50 [415, 419] ms dt c
      (r.1.phase, r.1.sp, r.1.remainder, r.2)
    let preset := fun n : Nat => { context2 .preset none with presetElapsed := n }
    let pending := fun c : Context => { c with repairPending := true }
    let ripe := fun c : Context => { c with zones := [(1, { ZoneCuring.opened with acc := 36000 * hcProduct.strip })] }
    now 60 [] (preset (hcProduct.preset * 60 - 61)) = (.preset, none, 0, []) ∧
    now 60 [] (preset (hcProduct.preset * 60 - 60)) = (.ramp, some 415, 0, [.phase .ramp]) ∧
    now 60 [] (was .ramp 392 pending) = (.ramp, some 392, 0, []) ∧
    (now 60 [300] (was .ramp 392 pending)).2.1 = some (300 + (hcProduct.rampRate * 60 / 3600 : Nat)) ∧
    (now 3600 [] (was .ramp (hcProduct.hold - hcProduct.rampRate) id)).1 = .hold ∧
    (now 3600 [] (was .ramp (hcProduct.hold - hcProduct.rampRate - 1) id)).1 = .ramp ∧
    (now 60 [] (was .hold hcProduct.hold ripe)).1 = .cool ∧
    now 60 [] (was .cool 500 pending) = (.cool, some 500, 0, []) ∧
    (now 3600 [] (was .cool (hcProduct.coolEnd + hcProduct.coolRate + 1) id)).1 = .cool ∧
    (now 3600 [] (was .cool (hcProduct.coolEnd + hcProduct.coolRate) id)).1 = .finished := by decide +kernel

/-- A piece of slot 20 for SHIP, one for SCRAP: UNLOCATED, in another condition, with a move, on a locked slot, free. -/
theorem witness_ShipAndScrapQueueChain :
    let s := stocked .watch
    let moved := upon s (putPiece 5002 { inStock 1400 11000 20 2 .shippable with move := some 4 })
    ready s ∧ s.mc.mode ≠ .setup ∧ (1 ≤ 5002 ∧ 5002 ≤ 65535) ∧ (1 ≤ 2 ∧ 2 ≤ 2) ∧ (Map.find s.store.bays 2).isSome = true ∧
    (¬ (1 ≤ 0) ∧ ¬ (65536 ≤ 65535) ∧ ¬ (1 ≤ 3 ∧ 3 ≤ 2) ∧ (Map.find s.store.bays 1).isSome = false ∧
      pieceOf s.toPart 65535 = none) ∧
    (pieceOf (missing .watch).toPart 5300).map (·.place) = some .unlocated ∧
    (pieceOf s.toPart 5001).map (fun q => (q.place, q.condition)) = some (.slot 20 1, .curing) ∧
    (pieceOf moved.toPart 5002).map (fun q => (q.condition, q.move)) = some (.shippable, some 4) ∧
    (slotOf (upon s (putSlot 20 ⟨[5001, 5002], none, some 9⟩)).toPart 20).lock.isSome = true ∧
    (slotOf (upon s (putSlot 20 ⟨[5001, 5002], some (9, .source), none⟩)).toPart 20).engaged.isSome = true ∧
    pieceOf s.toPart 5002 = some (inStock 1400 11000 20 2 .shippable) ∧
    pieceOf s.toPart 5003 = some (inStock 1200 9000 20 3 .rejected) ∧ (slotOf s.toPart 20).lock = none ∧
    (slotOf s.toPart 20).engaged = none ∧
    (above 5002 (slotOf s.toPart 20).stack).all (fun k => ((pieceOf s.toPart k).map (·.move)) == some none) = true ∧
    (above 5002 (slotOf s.toPart 20).stack = [5004, 5003] ∧
      (pieceOf (upon s (putPiece 5004 { inStock 1000 8000 20 4 .held with move := some 4 })).toPart 5004).map (·.move) =
        some (some 4)) ∧
    32 < (upon s (queued 30)).mp.queue.length + (above 5002 (slotOf s.toPart 20).stack).length + 1 ∧
    movesSound s.toPart ∧ movesSound (upon s (queued 29)).toPart ∧
    (upon s (queued 29)).mp.queue.length + (above 5002 (slotOf s.toPart 20).stack).length + 1 ≤ 32 := by decide +kernel

theorem witness_PieceRequests :
    let s := stocked .watch
    ready s ∧ (1 ≤ 5001 ∧ 5001 ≤ 65535) ∧ ¬ (1 ≤ 0 ∧ 0 ≤ 65535) ∧ ¬ (1 ≤ 65536 ∧ 65536 ≤ 65535) ∧
    pieceOf s.toPart 65535 = none ∧
    ((pieceOf (upon (works .watch) (moving .toSource 1932 (.goto 1900))).toPart 5004).map (·.move)) = some (some 18) ∧
    pieceOf s.toPart 5001 = some (inStock 1500 12000 20 1 .curing) ∧ (inStock 1500 12000 20 1 .curing).move = none ∧
    pieceOf s.toPart 5002 = some (inStock 1400 11000 20 2 .shippable) ∧
    pieceOf s.toPart 5003 = some (inStock 1200 9000 20 3 .rejected) ∧
    pieceOf s.toPart 5004 = some (inStock 1000 8000 20 4 .held) ∧
    pieceOf (pouring .watch).toPart 7001 = some (onBed2 400 1 .cast) ∧
    (inStock 1500 12000 20 1 .curing).place = .slot 20 1 ∧ still s.toPart := by decide +kernel

/-- Crane A in a step of a SHIP move of piece 5004, which was made HELD; in RUN. -/
def shipHeld (st : CraneState) : State :=
  upon (works .run) fun p => { moving st 1932 .takeUp p with
    mp := { (moving st 1932 .takeUp p).mp with queue := [{ move18 .dispatched none with kind := .ship, dest := some (.bay 2) }] } }

/-- RELEASE PIECE of a piece with that move, whose maturity is short of its target, the crane's hook empty. -/
theorem witness_PieceRequests_withdrawn :
    let s := shipHeld .takeUp
    ready s ∧ (1 ≤ 5004 ∧ 5004 ≤ 65535) ∧
    pieceOf s.toPart 5004 = some { inStock 1000 8000 20 4 .held with move := some 18 } ∧
    judged s.store { inStock 1000 8000 20 4 .held with move := some 18 } = .curing ∧
    ((moveOf s.toPart 18).map fun m => (m.kind, m.state, m.crane, m.piece)) =
      some (.ship, .dispatched, some .A, some 5004) ∧ (craneOf s.toPart .A).load = none ∧
    (craneOf s.toPart .A).state = .takeUp := by decide +kernel

/-- R128, R151: the move is SUSPENDED with reason HELD, the crane IDLE, and STOP and LOWER wait for its node. -/
theorem test_release_withdraws :
    let t := after (.releasePiece 1 5004) (shipHeld .takeUp)
    notices (.releasePiece 1 5004) (shipHeld .takeUp) = [.moveSuspended 18 5004 .held none] ∧
    ((moveOf t.toPart 18).map fun m => (m.state, m.reason, m.crane)) = some (.suspended, some .held, none) ∧
    (t.csA.state, t.csA.move) = (.idle, none) := by decide +kernel

/-- A piece on a slot; an UNLOCATED piece before a slot that takes it and one that does not; its pour. -/
theorem witness_LocateAndRemove :
    let s := missing .watch
    let q := { inStock 900 7000 22 1 .curing with place := .unlocated }
    ready s ∧ (1 ≤ 5300 ∧ 5300 ≤ 65535) ∧ pieceOf s.toPart 5300 = some q ∧
    (pieceOf s.toPart 5001).map (·.place) = some (.slot 20 1) ∧ (Map.find s.store.slots 21).isSome = true ∧
    placementTest s.store s.toPart q.length q.mass none 21 = true ∧
    placementTest s.store s.toPart q.length 60001 none 21 = false ∧
    (∀ mark ∈ (slotOf s.toPart 20).stack, (pieceOf s.toPart mark).isSome = true) ∧
    (placementTest s.store s.toPart 1000 43500 none 20 = false ∧ placementTest s.store s.toPart 1000 40000 none 20 = true ∧
      placementTest s.store s.toPart 1001 40000 none 20 = false ∧ placementTest s.store s.toPart 900 1 (some 20) 20 = false) ∧
    (¬ (1 ≤ 0 ∧ 0 ≤ 65535) ∧ ¬ (1 ≤ 49 ∧ 49 ≤ 48) ∧ (Map.find s.store.slots 48).isSome = false ∧
      pieceOf s.toPart 65535 = none) ∧ (pourOf s.toPart q.pour).isSome = true ∧
    still s.toPart := by decide +kernel

/-- The premise of LOCATE's frame, in RUN: no move is DISPATCHED. -/
theorem witness_LocateAndRemove_spared (r : Piece) (k : Slot) :
    ready (missing .run) ∧ placementTest (missing .run).store (missing .run).toPart 900 7000 none 21 = true ∧
    let p := (missing .run).toPart
    spared { p with sm := { p.sm with pieces := Map.put p.sm.pieces 5300 r, slots := Map.put p.sm.slots 21 k } } :=
  ⟨by decide +kernel, by decide +kernel, spared_of_queue (List.forall_mem_nil _)⟩

/-- A piece far from its target; and one that the expiry takes to 550 °C·h, with its pour not under review. -/
theorem witness_YardExpiryCredits : (stocked .run).mc.power = true ∧ pieceOf (stocked .run).toPart 1 = none ∧
    pieceOf (stocked .run).toPart 5001 = some (inStock 1500 12000 20 1 .curing) ∧ (1 ≤ 4 ∧ 4 ≤ 4) ∧
    ripe.mc.power = true ∧ pieceOf ripe.toPart 5001 = some { inStock 1500 12000 20 1 .curing with acc := 19790000 } ∧
    5001 ∈ (slotOf ripe.toPart 20).stack ∧ product ripe.store 1 = some hcProduct ∧
    ((pieceOf (after .yardIntervalExpiry ripe).toPart 5001).map fun r => decide (hcProduct.ship ≤ reported r.acc)) = some true ∧
    (pourOf ripe.toPart 1).map (·.review) = some false ∧ ripe.cl.notices.length + ripe.sm.pieces.length ≤ 24 := by
  decide +kernel

/-- In RUN, an expiry that promotes a piece and one that promotes none; an area's value at each bound of its validity. -/
theorem witness_YardExpiryCredits_scan :
    let run := { ripe with mc := { ripe.mc with mode := .run } }
    let valued (v : Int) (age : Nat) : Part :=
      putAreaRecord 1 { AreaRecord.fresh (some 11) with value := some v, age := age } (stocked .run).toPart
    ((pieceOf run.toPart 5001).map (·.condition), (pieceOf (after .yardIntervalExpiry run).toPart 5001).map (·.condition)) =
      (some .curing, some .shippable) ∧
    (after .yardIntervalExpiry (stocked .run)).sm.pieces.map (fun e => e.2.condition) =
      (stocked .run).sm.pieces.map (fun e => e.2.condition) ∧
    areaOutcome (valued 1250 599999) 600000 1 = .measured 1250 ∧ areaOutcome (valued (-400) 0) 600000 1 = .measured (-400) ∧
    areaOutcome (valued 1251 0) 600000 1 = .unmeasured .range ∧
    areaOutcome (valued 1250 600000) 600000 1 = .unmeasured .stale := by decide +kernel

/-- A REHANDLE of piece 5300, too heavy for any slot or not. -/
def shifting (mass : Nat) : State :=
  upon (works .run) fun p => { located (putPiece 5300 (inStock 900 mass 22 1 .curing) (yard p)) with
    mp := { (located p).mp with queue := [{ plainMove .rehandle (some 5300) (.slot 22) none with number := 17 }] } }

/-- A destination of a move for a crane that is free, as the scan asks it. -/
def legalNow (s : State) (c : CraneId) (m : Move) : Option Dest :=
  if (craneOf s.toPart c).state = .idle ∧ (craneOf s.toPart c).move = none then
    legal s.store s.toPart c m (reservationOf s.toPart (otherCrane c)) else none

/-- Both cranes free at their homes. -/
def atHome (p : Part) : Part :=
  { p with csA := resting 200, csB := resting 2300
           mp := { p.mp with resA := some ⟨50, 350, [200]⟩, resB := some ⟨2150, 2400, [2300]⟩ } }

/-- A piece for which slot 23 is chosen at the very end of the span, and none is one short of it; a move that a crane takes;
the chain of section 7.9, for which crane B gives way; a move that no slot takes, with both cranes at their homes. -/
theorem witness_DestinationChosen :
    let p := (stocked .run).toPart
    let one : Move := { plainMove .rehandle (some 5300) (.slot 22) none with number := 17 }
    let two := upon (works .run) fun p => located (chained p)
    let far := upon (shifting 200000) atHome
    (chooseSlot shop p (inStock 1200 9000 20 3 .rejected) (some 20) 1200 0 1200 = some 23 ∧
      chooseSlot shop p (inStock 1200 9000 20 3 .rejected) (some 20) 1200 0 1199 = none) ∧
    ((shifting 7000).mp.queue = [] ++ one :: [] ∧ candidate (shifting 7000).toPart one = true ∧
      legalNow (shifting 7000) .B one = some (.slot 20) ∧ legalNow (shifting 7000) .A one = none ∧
      (slotOf (shifting 7000).toPart 20).engaged = none) ∧
    (two.mp.queue.all (fun k => !candidate two.toPart k || ([CraneId.A, .B].all fun c => legalNow two c k == none)) = true ∧
      (two.mp.queue.map (·.number)).Nodup ∧ (two.mp.queue.head?.map fun m => candidate two.toPart m) = some true ∧
      two.csA.state = .idle ∧ two.csB.state = .idle ∧ two.mp.queue.length < 32 ∧
      fits .B (stretch shop [2000, 2300]) two.toPart = true) ∧
    (far.mp.queue = [one] ∧ candidate far.toPart one = true ∧ legalNow far .A one = none ∧ legalNow far .B one = none ∧
      distance 200 (destPos shop .A .home) = 0 ∧ distance 2300 (destPos shop .B .home) = 0) ∧
    (ready (works .watch) ∧ (works .watch).mc.mode ≠ .run) := by decide +kernel

/-- A scan that dispatches nothing: no candidate; a candidate no crane is legal for, with a full queue, with crane B not IDLE,
and with no crane B. -/
theorem witness_DestinationChosen_nothing :
    let far := upon (shifting 200000) atHome
    let one : Move := { plainMove .rehandle (some 5300) (.slot 22) none with number := 17 }
    let rest : List Move := (List.range 31).map fun k => { plainMove .park none (.runway 0) none with number := k + 20 }
    let full := upon far fun p => { p with mp := { p.mp with queue := one :: rest } }
    let out := upon far fun p => { p with csB := { p.csB with state := .outOfService } }
    let alone : State := { far with store := { far.store with craneB := none } }
    let barred (s : State) : Bool := s.mp.queue.all fun k =>
      !candidate s.toPart k || ([CraneId.A, .B].all fun c => legalNow s c k == none)
    ((upon (works .run) located).mp.queue = []) ∧ (candidate full.toPart one = true ∧ barred full = true ∧
      32 ≤ full.mp.queue.length) ∧ (barred out = true ∧ (craneOf out.toPart .B).state ≠ .idle) ∧
    (barred alone = true ∧ craneCfg alone.store .B = none) := by decide +kernel

/-- Numbers 0 and 256; a number not in the queue; a move on a crane, a PARK, and a craneless chain member. -/
theorem witness_ExpediteHead :
    let s := upon (works .watch) chained
    let parked := upon (works .watch) fun p => { p with mp := { p.mp with
      queue := [{ plainMove .park none (.runway 2000) (some .home) with number := 255 }] } }
    ready s ∧ ¬ (1 ≤ 0 ∧ 0 ≤ 255) ∧ ¬ (1 ≤ 256 ∧ 256 ≤ 255) ∧ moveOf s.toPart 255 = none ∧
    ((moveOf (upon (works .watch) (moving .toSource 1932 (.goto 1900))).toPart 18).map (·.crane)) = some (some .A) ∧
    ((moveOf parked.toPart 255).map (·.kind)) = some .park ∧
    ((moveOf s.toPart 18).map fun m => (m.crane, m.kind)) = some (none, .rehandle) := by decide +kernel

/-- A move whose crane has its piece on the hook, one whose crane has an empty hook, one with no crane. -/
theorem witness_CancelMoveResult :
    let s := upon (works .run) (moving .takeUp 1900 .takeUp)
    let loaded := upon s fun p => { p with csA := { p.csA with load := some 5004 } }
    ready s ∧ (1 ≤ 18 ∧ 18 ≤ 255) ∧ moveOf s.toPart 18 = some (move18 .dispatched none) ∧
    (move18 .dispatched none).crane = some .A ∧ (craneOf loaded.toPart .A).load.isSome = true ∧
    (craneOf s.toPart .A).load = none ∧ (move18 .dispatched none).state = .dispatched ∧
    ((craneOf s.toPart .A).state = .takeUp ∧ craneNode s.store .A = some 29 ∧
      nodeOf s.toPart 29 = some (.fresh (.crane .A)) ∧ (Node.fresh (.crane .A)).standing ≠ .lost) ∧
    movesSound s.toPart ∧ s.mp.backlog = [] ∧
    ((moveOf (upon (works .run) (stoppedWith 1905 .overrun .toSource)).toPart 18).map fun k => (k.state, k.crane)) =
      some (.suspended, some .A) ∧
    ((moveOf (upon (works .watch) chained).toPart 19).map (·.crane)) = some none ∧
    (¬ (1 ≤ 0 ∧ 0 ≤ 255) ∧ ¬ (1 ≤ 256 ∧ 256 ≤ 255) ∧ ∀ k ∈ s.mp.queue, k.number ≠ 255) := by decide +kernel

theorem witness_RetryMoveResult :
    let m : Move := { move18 .suspended (some .loadHigh) with crane := none }
    let s := upon (works .watch) fun p => { p with mp := { p.mp with queue := [m] } }
    ready s ∧ moveOf s.toPart 18 = some m ∧ m.state = .suspended ∧ m.crane = none ∧
    ((moveOf (upon (works .watch) (stoppedWith 1905 .overrun .toSource)).toPart 18).map fun k => (k.state, k.crane)) =
      some (.suspended, some .A) ∧ ((moveOf (upon (works .watch) chained).toPart 17).map (·.state)) = some .queued ∧
    (¬ (1 ≤ 256 ∧ 256 ≤ 255) ∧ ∀ k ∈ s.mp.queue, k.number ≠ 1) := by
  decide +kernel

/-- A crane STOPPED with no move, slackening or not. -/
def idleStop (slack : Bool) (p : Part) : Part :=
  { located p with csA := { resting 1500 with state := .stopped, reason := some .timeout, fresh := true, slackening := slack
                                              stoppedStep := if slack then some .lower else none } }

/-- Each check of R152 failed in turn, and each way of going on. -/
theorem witness_ResumeCraneResult :
    let s := upon (works .run) (stoppedWith 1905 .overrun .toSource)
    let res := fun (t : State) => stretch t.store ((craneOf t.toPart .A).pos.getD 0 ::
      remainingPoints t.store t.toPart .A (resumedMove t.toPart .A))
    ready s ∧ s.mc.mode ≠ .setup ∧ (0x40 ≠ 0x41 ∧ 0x40 ≠ 0x42) ∧
    ({ s with store := { s.store with craneB := none } } : State).store.craneB.isSome = false ∧
    craneOfByte 0x41 = some .A ∧ (craneCfg s.store .A).isSome = true ∧
    (craneOf (upon s located).toPart .A).state ≠ .stopped ∧ s.csA.state = .stopped ∧
    (upon s fun p => { p with csA := { p.csA with fresh := false } }).csA.fresh = false ∧
    (craneNode s.store .A = some 29 ∧ nodeLost (upon s (standing 29 (.crane .A) .lost 3)).toPart 29 = true) ∧
    (upon s fun p => { p with csA := { p.csA with driveFault := some true } }).csA.driveFault = some true ∧
    (s.csA.fresh = true ∧ nodeLost s.toPart 29 = false ∧ s.csA.driveFault ≠ some true) ∧
    ((upon (works .watch) (stoppedWith 1905 .overrun .toSource)).mc.mode ≠ .run ∧
      (resumedMove (upon (works .watch) (stoppedWith 1905 .overrun .toSource)).toPart .A).isSome = true) ∧
    s.mc.mode = .run ∧ fits .A (res (upon (works .run) (stoppedWith 2063 .overrun .toSource)))
      (upon (works .run) (stoppedWith 2063 .overrun .toSource)).toPart = false ∧
    fits .A (res s) s.toPart = true ∧ resumedMove s.toPart .A = some (move18 .suspended (some .overrun)) ∧
    s.csA.stoppedStep = some .toSource ∧
    (resumedMove (upon (works .watch) (idleStop true)).toPart .A = none ∧
      (upon (works .watch) (idleStop true)).csA.slackening = true ∧
      fits .A (res (upon (works .watch) (idleStop true))) (upon (works .watch) (idleStop true)).toPart = true) ∧
    (resumedMove (upon (works .watch) (idleStop false)).toPart .A = none ∧
      (upon (works .watch) (idleStop false)).csA.slackening = false ∧
      fits .A (res (upon (works .watch) (idleStop false))) (upon (works .watch) (idleStop false)).toPart = true) := by
  decide +kernel

theorem witness_CraneOutAndIn :
    let s := upon (works .watch) located
    let out := upon s fun p => { p with csA := { p.csA with state := .outOfService } }
    ready s ∧ s.mc.mode ≠ .setup ∧ (0x43 ≠ 0x41 ∧ 0x43 ≠ 0x42) ∧
    ({ s with store := { s.store with craneA := none } } : State).store.craneA.isSome = false ∧
    craneOfByte 0x41 = some .A ∧ (craneCfg s.store .A).isSome = true ∧
    ((craneOf (works .watch).toPart .A).state ≠ .idle ∧ (craneOf (works .watch).toPart .A).state ≠ .stopped) ∧
    ((upon (works .watch) (stoppedWith 1905 .overrun .toSource)).csA.state = .stopped ∧
      (upon (works .watch) (stoppedWith 1905 .overrun .toSource)).csA.move.isSome = true) ∧
    (upon (works .watch) (idleStop true)).csA.slackening = true ∧
    ((upon (works .watch) (idleStop false)).csA.move = none ∧ (upon (works .watch) (idleStop false)).csA.slackening = false) ∧
    s.csA.state = .idle ∧ fits .A (stretch s.store [1500]) s.toPart = true ∧
    fits .A (stretch s.store [1700]) s.toPart = false ∧ s.csA.state ≠ .outOfService ∧ out.csA.state = .outOfService := by
  decide +kernel

/-- A CRANE OUT whose reservation shrinks, and one whose reservation stays as it is. -/
theorem witness_CraneOutAndIn_shrinks :
    let s := upon (works .run) located
    let wide := upon s fun p => { p with mp := { p.mp with resA := some ⟨1050, 1800, [1200, 1650]⟩ } }
    (fits .A (stretch wide.store [1500]) wide.toPart = true ∧ reservationOf wide.toPart .A = some ⟨1050, 1800, [1200, 1650]⟩ ∧
      ((stretch wide.store [1500]).lo, (stretch wide.store [1500]).hi) = (1350, 1650)) ∧
    reservationOf s.toPart .A = some (stretch s.store [1500]) := by decide +kernel

theorem witness_StepTimerStops :
    let s := upon (works .watch) (moving .toSource 1932 (.goto 1900))
    s.mc.power = true ∧ (craneOf s.toPart .B).timer = none ∧ (craneOf s.toPart .A).timer.isSome = true ∧
    (craneOf s.toPart .A).state ≠ .unlocated ∧ (craneOf s.toPart .A).state ≠ .stopped ∧ movesSound s.toPart ∧
    s.cl.notices.length < 24 ∧ (craneOf s.toPart .A).move = some 18 ∧
    moveOf s.toPart 18 = some (move18 .dispatched none) ∧ craneNode s.store .A = some 29 ∧
    nodeOf s.toPart 29 = some (.fresh (.crane .A)) := by decide +kernel

/-- The node of crane A ALIVE, and its round poll on the line. -/
def polledA (p : Part) : Part := onLine 29 (.crane .A) 1 (standing 29 (.crane .A) .alive 0 p)

/-- Crane A in TO_SOURCE, its poll on the line. -/
def watchedA : State := upon (works .run) fun p => polledA (moving .toSource 1932 (.goto 1900) p)

/-- The reply of crane A's node: position, status character and strain (section 9.2). -/
def craneSays (pos status strain : Nat) : List FieldChar :=
  fieldChars [29, pos / 256, pos % 256, status, strain / 256, strain % 256]

/-- Whether `chars` is a good reply of a crane to the attempt on the line, with contents that satisfy `φ`. -/
def repliesWell (s : State) (c : CraneId) (chars : List FieldChar) (φ : Exchange → CraneReply → Bool) : Bool :=
  match s.fl.line with
  | some ex =>
    match nodeOf s.toPart ex.addr, craneContents (chars.map (·.data)) with
    | some _, some y => decide (s.mc.power = true ∧ ex.orphan = false ∧ ex.owner = .crane c ∧ chars ≠ [] ∧
        replyFault .crane ex.addr chars = none) && φ ex y
    | _, _ => false
  | none => false

theorem repliesWell_sound {s : State} {c : CraneId} {chars : List FieldChar} {φ : Exchange → CraneReply → Bool}
    (h : repliesWell s c chars φ = true) : ∃ ex nd y, craneReplies s c ex nd chars y ∧ φ ex y = true := by
  unfold repliesWell at h
  split at h
  · next ex hx =>
    split at h
    · next nd y hn hy =>
      simp only [Bool.and_eq_true, decide_eq_true_eq] at h
      obtain ⟨⟨h1, h2, h3, h4, h5⟩, h6⟩ := h
      exact ⟨ex, nd, y, ⟨h1, hx, h2, h3, hn, h4, h5, hy⟩, h6⟩
    · cases h
  · cases h

/-- Whether the position of a reply lies within the crane's reservation. -/
def inside (s : State) (c : CraneId) (y : CraneReply) : Bool :=
  match reservationOf s.toPart c with
  | some res => decide (res.lo ≤ y.pos ∧ y.pos ≤ res.hi)
  | none => true

theorem inside_sound {s : State} {c : CraneId} {y : CraneReply} (h : inside s c y = true) : keptWithin s c y.pos := by
  intro res hr
  simpa [inside, hr] using h

/-- Whether a step command of the crane was carried by an exchange before this one. -/
def carriedBefore (s : State) (c : CraneId) (ex : Exchange) : Bool :=
  match (craneOf s.toPart c).command with
  | some (_, .carried id) => decide (id < ex.id)
  | _ => false

/-- Whether a reply is judged, with contents that satisfy `φ`. -/
def judges (s : State) (c : CraneId) (chars : List FieldChar) (φ : CraneReply → Bool) : Bool :=
  repliesWell s c chars fun ex y => decide (nodeLost s.toPart ex.addr = false ∧ craneNode s.store c = some ex.addr ∧
    y.fault = false ∧ 1 ≤ s.store.plant.faultFilter) && (inside s c y && (carriedBefore s c ex && φ y))

theorem notLost {p : Part} {addr : Nat} {nd : Node} (hn : nodeOf p addr = some nd) (h : nodeLost p addr = false) :
    nd.standing ≠ .lost := by
  simpa [nodeLost, hn] using h

theorem judges_sound {s : State} {c : CraneId} {chars : List FieldChar} {φ : CraneReply → Bool}
    (h : judges s c chars φ = true) : ∃ ex nd y, replyJudged s c ex nd chars y ∧ φ y = true := by
  obtain ⟨ex, nd, y, hr, hp⟩ := repliesWell_sound h
  simp only [Bool.and_eq_true, decide_eq_true_eq] at hp
  obtain ⟨⟨h0, h1, h2, h3⟩, h4, h5, h6⟩ := hp
  refine ⟨ex, nd, y, ⟨hr, notLost hr.2.2.2.2.1 h0, h1, inside_sound h4, h2, h3, ?_⟩, h6⟩
  unfold carriedBefore at h5
  split at h5
  · next cmd id hc => exact ⟨cmd, id, hc, of_decide_eq_true h5⟩
  · cases h5

/-- Crane A before its first reply, B IDLE at its home. -/
def unheardA : State :=
  upon watchedA fun p => { p with csA := .atReset, mp := { p.mp with queue := [], resA := none } }

/-- The first location at 500, where A's stretch fits, and at 2300, where it does not. -/
theorem witness_OverrunStops_location :
    (unheardA.csA.state = .unlocated ∧ reservationOf unheardA.toPart .A = none ∧ unheardA.csA.move = none) ∧
    (∃ ex nd y, craneReplies unheardA .A ex nd (craneSays 500 0 0) y ∧ decide (fits .A (stretch shop [y.pos]) unheardA.toPart =
      true ∧ y.pos ≤ shop.runway ∧ 0 ≤ shop.plant.clearance ∧ ((heard y unheardA.csA).faults : Int) < shop.plant.faultFilter) = true) ∧
    ∃ ex nd y, craneReplies unheardA .A ex nd (craneSays 2300 0 0) y ∧
      (fits .A (stretch shop [y.pos]) unheardA.toPart == false) = true :=
  ⟨by decide +kernel, repliesWell_sound (φ := fun _ y => decide (_ ∧ _)) (by decide +kernel),
   repliesWell_sound (φ := fun _ y => fits _ _ _ == false) (by decide +kernel)⟩

/-- The first location one beyond the runway with crane B not located, and one on it with the fault count at the filter. -/
theorem witness_OverrunStops_locationStops :
    let alone := upon unheardA fun p => { p with csB := .atReset, mp := { p.mp with resB := none } }
    let faulty := upon alone fun p => { p with csA := { p.csA with faults := 1 } }
    (alone.csA.state = .unlocated ∧ reservationOf alone.toPart .A = none ∧ alone.csA.move = none) ∧
    (∃ ex nd y, craneReplies alone .A ex nd (craneSays 2401 0 0) y ∧
      decide (fits .A (stretch shop [y.pos]) alone.toPart = true ∧ y.pos = shop.runway + 1) = true) ∧
    (faulty.csA.state = .unlocated ∧ reservationOf faulty.toPart .A = none ∧ faulty.csA.move = none) ∧
    ∃ ex nd y, craneReplies faulty .A ex nd (craneSays 2400 16 0) y ∧ decide (fits .A (stretch shop [y.pos]) faulty.toPart =
      true ∧ y.pos = shop.runway ∧ 0 ≤ shop.plant.clearance ∧ shop.plant.faultFilter ≤ ((heard y faulty.csA).faults : Int)) = true :=
  ⟨by decide +kernel, repliesWell_sound (φ := fun _ y => decide (_ ∧ y.pos = _)) (by decide +kernel),
   by decide +kernel, repliesWell_sound (φ := fun _ y => decide (_ ∧ y.pos = _ ∧ _)) (by decide +kernel)⟩

/-- Crane A STOPPED with OVERRUN at 2063, beyond its reservation, its node with a standing, nothing queued. -/
def overrunA (st : Standing) : State :=
  upon (works .run) fun p => onLine 29 (.crane .A) 1 (standing 29 (.crane .A) st 3 (stoppedWith 2063 .overrun .toSource p))

/-- A reply that brings the node back, and the next one, of a crane STOPPED with OVERRUN and still beyond 2050. -/
theorem witness_OverrunStops_later :
    (∃ ex nd y, craneReplies (overrunA .lost) .A ex nd (craneSays 2063 0 0) y ∧ decide
      ((nodeOf (overrunA .lost).toPart ex.addr).map (·.standing) = some .lost ∧ craneNode shop .A = some ex.addr) = true) ∧
    (∃ ex nd y, craneReplies (overrunA .alive) .A ex nd (craneSays 2063 0 0) y ∧ decide
      ((nodeOf (overrunA .alive).toPart ex.addr).map (·.standing) = some .alive ∧ 2050 < y.pos) = true) ∧
    (overrunA .alive).csA.state = .stopped ∧ (overrunA .alive).csA.reason = some .overrun ∧
    reservationOf (overrunA .alive).toPart .A = some ⟨1050, 2050, [1200, 1900, 1200]⟩ ∧ (overrunA .alive).fl.queue = [] ∧
    (overrunA .alive).fl.repeatStop = none ∧ (overrunA .alive).fl.waiting = [] :=
  ⟨repliesWell_sound (φ := fun ex _ => decide (_ ∧ craneNode shop .A = some ex.addr)) (by decide +kernel),
   repliesWell_sound (φ := fun _ y => decide (_ ∧ 2050 < y.pos)) (by decide +kernel),
   by decide +kernel⟩

/-- One beyond each end of [1050, 2050], the other crane located. -/
theorem witness_OverrunStops : watchedA.csA.state ≠ .unlocated ∧
    reservationOf watchedA.toPart .A = some ⟨1050, 2050, [1200, 1900, 1200]⟩ ∧
    ¬ (watchedA.csA.state = .stopped ∧ watchedA.csA.reason = some .overrun) ∧ canStop watchedA.csB.state = true ∧
    (∃ ex nd y, craneReplies watchedA .A ex nd (craneSays 1049 1 0) y ∧ decide (y.pos < 1050) = true) ∧
    ∃ ex nd y, craneReplies watchedA .A ex nd (craneSays 2051 1 0) y ∧ decide (2050 < y.pos) = true :=
  ⟨by decide +kernel, by decide +kernel, by decide +kernel, by decide +kernel,
   repliesWell_sound (φ := fun _ y => decide (y.pos < 1050)) (by decide +kernel),
   repliesWell_sound (φ := fun _ y => decide (2050 < y.pos)) (by decide +kernel)⟩

/-- At the reservation's end: short of the source, and, with one fault counted, a second fault. -/
theorem witness_OverrunStops_reply :
    let faulty := upon watchedA fun p => { p with csA := { p.csA with faults := 1 } }
    (∃ ex nd y, craneReplies watchedA .A ex nd (craneSays 2050 1 0) y ∧ (inside watchedA .A y && decide
      (((heard y watchedA.csA).faults : Int) < shop.plant.faultFilter ∧
        stepComplete shop watchedA.toPart .A y .toSource = false)) = true) ∧
    (∃ ex nd y, craneReplies faulty .A ex nd (craneSays 2050 17 0) y ∧ (inside faulty .A y && decide
      (faulty.csA.state ≠ .stopped ∧ shop.plant.faultFilter ≤ ((heard y faulty.csA).faults : Int))) = true) ∧
    faulty.cl.notices.length < 24 :=
  ⟨repliesWell_sound (φ := fun _ y => inside _ _ y && decide (_ ∧ _)) (by decide +kernel),
   repliesWell_sound (φ := fun _ y => inside _ _ y && decide (_ ∧ _)) (by decide +kernel), by decide +kernel⟩

/-- The strains at the edges of 8,820..10,780. -/
theorem witness_LoadCheck : ((0 : Int) ≤ 0 ∧ (0 : Int) ≤ 100) ∧ ((0 : Int) ≤ 100 ∧ (100 : Int) ≤ 100) ∧
    judgeLoad 10 9800 8819 = .low ∧ judgeLoad 10 9800 8820 = .accepted ∧ judgeLoad 10 9800 10780 = .accepted ∧
    judgeLoad 10 9800 10781 = .high := by decide +kernel

/-- Crane A in a step of move 18 on an accepted poll, its records changed. -/
def stepping (st : CraneState) (pos : Int) (cmd : FieldCmd) (f : Part → Part) : State :=
  upon (works .run) fun p => polledA (f (moving st pos cmd p))

/-- Each step's completion, at the edge of the arrival tolerance where it is a travel. -/
theorem witness_LoadCheck_steps :
    (∃ ex nd y, replyJudged (stepping .toSource 1900 (.goto 1900) id) .A ex nd (craneSays 1902 0 0) y ∧ decide
      (reached shop y (heldSource shop (stepping .toSource 1900 (.goto 1900) id).toPart .A)) = true) ∧
    (∃ ex nd y, replyJudged (stepping .lift 1900 .lift id) .A ex nd (craneSays 1900 8 8000) y ∧ decide
      (y.hook = .up ∧ y.done = true) = true) ∧
    (∃ ex nd y, replyJudged (stepping .toDest 1200 (.goto 1200) id) .A ex nd (craneSays 1198 0 8000) y ∧ decide
      (reached shop y (heldDest shop (stepping .toDest 1200 (.goto 1200) id).toPart .A)) = true) :=
  ⟨judges_sound (φ := fun y => decide (reached _ y _)) (by decide +kernel),
   judges_sound (φ := fun y => decide (y.hook = .up ∧ y.done = true)) (by decide +kernel),
   judges_sound (φ := fun y => decide (reached _ y _)) (by decide +kernel)⟩

/-- Move 18 as a STRIP of piece 7001 from bed 2, the other pieces of the pour gone or not. -/
def stripped (alone : Bool) (p : Part) : Part :=
  let q := casting .stripping none closed5 .curing p
  { q with
    sm := { q.sm with pieces := if alone then [(7001, onBed2 400 1 .curing)] else q.sm.pieces }
    mp := { q.mp with
      queue := [{ plainMove .strip (some 7001) (.bed 2 400) (some (.slot 21)) with
                  number := 18, state := .dispatched, crane := some .A }]
      resA := some ⟨250, 2050, [400, 400, 1750]⟩ } }

/-- A completed TAKE_UP with a strain against a piece's mass. -/
def hooked (verdict : LoadJudgement) (mass : Nat) (y : CraneReply) : Bool :=
  decide (y.hook = .strained ∧ y.done = true ∧ judgeLoad shop.plant.loadTolerance mass y.strain = verdict)

/-- The load accepted from a slot, and from a bed as its last piece or not; HIGH by 1 kg and LOW by 1 kg. -/
theorem witness_LoadCheck_takeUp :
    let slot := stepping .takeUp 1900 .takeUp id
    let bed := fun alone => stepping .takeUp 400 .takeUp (stripped alone)
    (slot.csA.move = some 18 ∧ moveOf slot.toPart 18 = some (move18 .dispatched none) ∧
      pieceOf slot.toPart 5004 = some { inStock 1000 8000 20 4 .held with move := some 18 }) ∧
    (pieceOf (bed true).toPart 7001 = some (onBed2 400 1 .curing) ∧ (bedOf (bed true).toPart 2).state = .stripping ∧
      piecesOnBed (bed true).toPart 2 5 = [7001] ∧ piecesOnBed (bed false).toPart 2 5 = [7001, 7002, 7003]) ∧
    (∃ ex nd y, replyJudged slot .A ex nd (craneSays 1900 10 8800) y ∧ hooked .accepted 8000 y = true) ∧
    (∃ ex nd y, replyJudged slot .A ex nd (craneSays 1900 10 8801) y ∧ hooked .high 8000 y = true) ∧
    (∃ ex nd y, replyJudged slot .A ex nd (craneSays 1900 10 7199) y ∧ hooked .low 8000 y = true) ∧
    ∀ alone, ∃ ex nd y, replyJudged (bed alone) .A ex nd (craneSays 400 10 9800) y ∧ hooked .accepted 9800 y = true :=
  ⟨by decide +kernel, by decide +kernel, judges_sound (by decide +kernel), judges_sound (by decide +kernel),
   judges_sound (by decide +kernel), fun alone => judges_sound (by cases alone <;> decide +kernel)⟩

/-- A completed LOWER. -/
def laidDown (y : CraneReply) : Bool := decide (y.hook = .released ∧ y.done = true)

/-- Placed on a slot, a STRIP with its pour under review and one without, and in a bay; parked; and a hook slackened. -/
theorem witness_LoadCheck_end :
    let reviewed := fun p => putPour 5 { closed5 with review := true } (stripped true p)
    let bay : Move := { plainMove .ship (some 5004) (.slot 20) (some (.bay 2)) with
      number := 18, state := .dispatched, crane := some .A }
    let park : Move := { plainMove .park none (.runway 1200) (some .home) with
      number := 18, state := .dispatched, crane := some .A }
    let parking := stepping .parking 200 (.goto 200) fun p =>
      { p with mp := { p.mp with queue := [park], resA := some ⟨50, 2050, [1200, 200]⟩ } }
    let slack := stepping .lower 1900 .lower fun p => { p with csA := { p.csA with move := none, slackening := true } }
    (∃ ex nd y, replyJudged (stepping .lower 1200 .lower id) .A ex nd (craneSays 1200 12 0) y ∧ laidDown y = true) ∧
    (∃ ex nd y, replyJudged (stepping .lower 1750 .lower (stripped true)) .A ex nd (craneSays 1750 12 0) y ∧ laidDown y = true) ∧
    (∃ ex nd y, replyJudged (stepping .lower 1750 .lower reviewed) .A ex nd (craneSays 1750 12 0) y ∧ laidDown y = true) ∧
    (pourOf (stepping .lower 1750 .lower reviewed).toPart 5).map (·.review) = some true ∧
    (∃ ex nd y, replyJudged (stepping .lower 1900 .lower fun p => { p with mp := { p.mp with queue := [bay] } }) .A ex nd
      (craneSays 1900 12 0) y ∧ laidDown y = true) ∧
    (∃ ex nd y, replyJudged parking .A ex nd (craneSays 202 0 0) y ∧
      decide (reached shop y (destPos shop .A .home)) = true) ∧
    (slack.csA.state = .lower ∧ slack.csA.move = none) ∧
    ∃ ex nd y, replyJudged slack .A ex nd (craneSays 1900 12 0) y ∧ laidDown y = true :=
  ⟨judges_sound (by decide +kernel), judges_sound (by decide +kernel), judges_sound (by decide +kernel), by decide +kernel,
   judges_sound (by decide +kernel), judges_sound (φ := fun y => decide (reached _ y _)) (by decide +kernel),
   by decide +kernel, judges_sound (by decide +kernel)⟩

/-- An attempt with crane A's node on the line, after so many misses. -/
def attempt (n misses : Nat) : State :=
  upon (works .watch) fun p => onLine 29 (.crane .A) n
    (standing 29 (.crane .A) .alive misses (moving .toSource 1932 (.goto 1900) p))

/-- A first attempt; a second short of the miss limit; a second that reaches it. -/
theorem witness_FailedAttempts :
    (∃ ex nd, (attempt 1 0).mc.power = true ∧ (attempt 1 0).fl.line = some ex ∧ ex.orphan = false ∧
      nodeOf (attempt 1 0).toPart ex.addr = some nd ∧ ex.attempt = 1 ∧ (attempt 1 0).fl.opened = true ∧
      (attempt 1 0).fl.repeatStop = none ∧ ∀ e ∈ (attempt 1 0).fl.queue, isStop e.cmd = false) ∧
    (∃ ex nd, (attempt 2 1).mc.power = true ∧ (attempt 2 1).fl.line = some ex ∧ ex.orphan = false ∧
      nodeOf (attempt 2 1).toPart ex.addr = some nd ∧ ex.attempt ≠ 1 ∧
      ¬ ((attempt 2 1).store.plant.missLimit ≤ ((min 8 (nd.misses + 1) : Nat) : Int) ∧ nd.standing ≠ .lost)) ∧
    (∃ ex nd, (attempt 2 2).mc.power = true ∧ (attempt 2 2).fl.line = some ex ∧ ex.orphan = false ∧
      nodeOf (attempt 2 2).toPart ex.addr = some nd ∧ ex.attempt ≠ 1 ∧
      ((attempt 2 2).store.plant.missLimit ≤ ((min 8 (nd.misses + 1) : Nat) : Int) ∧ nd.standing ≠ .lost) ∧
      (attempt 2 2).cl.notices.length < 24 ∧ nd.owner = .crane .A ∧
      canStop (craneOf (attempt 2 2).toPart .A).state = true) :=
  ⟨⟨_, _, rfl, rfl, rfl, rfl, rfl, rfl, rfl, by decide +kernel⟩,
   ⟨_, _, rfl, rfl, rfl, rfl, by decide +kernel, by decide +kernel⟩,
   ⟨_, _, rfl, rfl, rfl, rfl, by decide +kernel, by decide +kernel, by decide +kernel, rfl, by decide +kernel⟩⟩

/-- The end of an attempt by its timer, and by a reply of each cause of R157, on the attempts above. -/
theorem witness_FailedAttempts_causes :
    (attempt 2 1).fl.line.map (fun x => (x.owner.kind, x.addr)) = some (.crane, 29) ∧
    (let bad : List (AttemptFailure × List FieldChar) :=
      [(.framing, [⟨29, true, false⟩]), (.address, fieldChars [28]), (.gap, fieldChars [29]),
       (.length, fieldChars [29, 4, 0, 0, 0, 0] ++ [⟨0, false, false⟩]),
       (.check, [29, 4, 0, 0, 0, 0, 0].map fun b => ⟨b, false, false⟩), (.content, fieldChars [29, 4, 0, 6, 0, 0])]
     ∀ e ∈ bad, e.2 ≠ [] ∧ ((causesOf .crane 29 e.2).find? (·.2)).map Prod.fst = some e.1) := by decide +kernel

/-- A second attempt on the line that carried a command for a requester, after one miss. -/
def carrying (addr : Nat) (owner : Owner) (cmd : FieldCmd) (who : Requester) (f : Part → Part) : State :=
  upon (works .watch) fun p =>
    let q := onLine addr owner 2 (standing addr owner .alive 1 (f p))
    { q with fl := { q.fl with line := q.fl.line.map fun x => { x with cls := .directed, cmd := cmd, by_ := some who } } }

/-- A miss on a zone's SET VALVE, on crane A's GOTO and on its STOP, short of the miss limit of 3. -/
theorem witness_FailedAttempts_commands :
    let valve := carrying 1 (.zone 2 1) (.setValve 60) .cc id
    let travel := carrying 29 (.crane .A) (.goto 1900) (.cs .A) fun p =>
      let q := moving .toSource 1932 (.goto 1900) p
      { q with csA := { q.csA with command := some (.goto 1900, .queued) } }
    let stop := carrying 29 (.crane .A) .stop (.cs .A) (stoppedWith 1932 .timeout .toSource)
    (∀ s ∈ [valve, travel, stop], s.mc.power = true ∧ s.store.plant.missLimit = 3 ∧
      s.fl.line.map (fun x => (x.attempt, x.withdrawn, x.orphan)) = some (2, false, false) ∧
      (s.fl.line.bind fun x => nodeOf s.toPart x.addr).map (fun nd => (nd.standing, nd.misses)) = some (.alive, 1)) ∧
    valve.fl.line.map (fun x => (x.by_, x.owner, x.cmd)) = some (some .cc, .zone 2 1, .setValve 60) ∧
    (travel.fl.line.map (fun x => (x.by_, x.addr, x.cmd)) = some (some (.cs .A), 29, .goto 1900) ∧
      craneNode travel.store .A = some 29 ∧ craneNode travel.store .B ≠ some 29 ∧ travel.csA.kept = none ∧
      travel.csA.command = some (.goto 1900, .queued) ∧ travel.csA.timer.isSome = true ∧ hasRoom travel 1) ∧
    (stop.fl.line.map (fun x => (x.cmd, x.by_)) = some (.stop, some (.cs .A)) ∧ stop.fl.opened = true) := by decide +kernel

/-- The poll of zone 2 of bed 3 on the line. -/
def polledZone (st : Standing) : State := upon (works .watch) fun p => onLine 6 (.zone 3 2) 1 (standing 6 (.zone 3 2) st 3 p)

/-- The yard node of area 1 answers −73. -/
theorem witness_ZoneReplyStored_yard :
    let s := upon (works .watch) fun p => onLine 11 (.area 1) 1 (standing 11 (.area 1) .lost 3 p)
    let chars := fieldChars [11, 0xFF, 0xB7]
    s.mc.power = true ∧ (s.fl.line.map fun ex => (ex.addr, ex.owner, ex.orphan)) = some (11, .area 1, false) ∧
    (nodeOf s.toPart 11).map (·.standing) = some .lost ∧ chars ≠ [] ∧ replyFault .yard 11 chars = none ∧
    yardContents (chars.map (·.data)) = some (-73) := by decide +kernel

/-- No exchange and no character; the reply of section 9.2, from a node ALIVE and from one LOST. -/
theorem witness_ZoneReplyStored : (works .watch).fl.line = none ∧ ([] : List FieldChar) = [] ∧
    ∀ st ∈ [Standing.alive, .lost], ∃ ex nd v1 v2 v3 echo r, (polledZone st).mc.power = true ∧
      (polledZone st).fl.line = some ex ∧ ex.orphan = false ∧ ex.owner = .zone 3 2 ∧
      nodeOf (polledZone st).toPart ex.addr = some nd ∧ fieldChars [6, 0x01, 0x85, 0x01, 0x88, 0x01, 0x8C, 0x64] ≠ [] ∧
      replyFault .zone ex.addr (fieldChars [6, 0x01, 0x85, 0x01, 0x88, 0x01, 0x8C, 0x64]) = none ∧
      zoneContents ((fieldChars [6, 0x01, 0x85, 0x01, 0x88, 0x01, 0x8C, 0x64]).map (·.data)) = some (v1, v2, v3, echo) ∧
      zoneRecord (polledZone st).toPart 3 2 = some r := by
  refine ⟨rfl, rfl, fun st h => ?_⟩
  simp only [List.mem_cons, List.not_mem_nil, or_false] at h
  rcases h with rfl | rfl
  · exact ⟨_, _, _, _, _, _, _, rfl, rfl, rfl, rfl, rfl, by decide +kernel, by decide +kernel, rfl, rfl⟩
  · exact ⟨_, _, _, _, _, _, _, rfl, rfl, rfl, rfl, rfl, by decide +kernel, by decide +kernel, rfl, rfl⟩

/-- NODE BACK beside a queue with room, with a SET VALVE of the node waiting, and full of another node's, with an opening
handed before. -/
theorem witness_ZoneReplyStored_valve :
    let filled (addr n : Nat) : State := upon (polledZone .lost) fun p => { p with
      fl := { p.fl with queue := List.replicate n ⟨addr, .setValve 30, .cc⟩ }
      cc := { p.cc with valves := Map.put p.cc.valves (zoneKey 3 2) { Valve.fresh with handed := some 40 } } }
    zoneCfg shop 3 2 = some ⟨1500, 6, 150⟩ ∧ (polledZone .lost).fl.line.map (·.addr) = some 6 ∧
    (nodeOf (filled 5 16).toPart 6).map (·.standing) = some .lost ∧
    (valveOf (polledZone .lost).toPart 3 2).handed = none ∧ (valveOf (filled 5 16).toPart 3 2).handed = some 40 ∧
    hasRoom (polledZone .lost) 1 ∧ directedClass (.setValve 30) = some .valve ∧
    (¬ hasRoom (filled 6 16) 1 ∧ ∃ e ∈ (filled 6 16).fl.queue, e.addr = 6 ∧ e.cmd = .setValve 30) ∧
    (¬ hasRoom (filled 5 16) 1 ∧ ∀ e ∈ (filled 5 16).fl.queue, e.addr ≠ 6) := by decide +kernel

/-- A part with the round timer and crane A's poll timer running on an idle line. -/
def timersOn : State :=
  upon (works .watch) fun p => { p with fl := { p.fl with roundTimer := some (.start 500), pollA := some (.start 100) } }

theorem witness_RoundAndPollTimers :
    let busy := upon timersOn fun p => onLine 29 (.crane .A) 1 { p with fl := { p.fl with roundOn := true } }
    timersOn.mc.power = true ∧ (works .watch).fl.roundTimer = none ∧
    (busy.fl.roundTimer.isSome = true ∧ busy.fl.line.isSome = true ∧ busy.fl.roundOn = true ∧ roundPollOut busy.fl = true) ∧
    (timersOn.fl.roundTimer.isSome = true ∧ timersOn.fl.line = none ∧ timersOn.fl.opened = true ∧
      timersOn.fl.repeatStop = none ∧ timersOn.fl.queue = [] ∧ timersOn.fl.waiting = [] ∧ timersOn.fl.due = [] ∧
      timersOn.fl.roundOn = false) ∧
    (Map.keys timersOn.fl.nodes).find? (fun k => decide (0 < k)) = some 1 ∧
    nodeOf timersOn.toPart 1 = some (.fresh (.zone 2 1)) ∧ pollTimer timersOn.toPart .B = none ∧
    (pollTimer busy.toPart .A).isSome = true ∧ (pollTimer timersOn.toPart .A).isSome = true ∧
    craneNode timersOn.store .A = some 29 ∧ nodeOf timersOn.toPart 29 = some (.fresh (.crane .A)) := by decide +kernel

/-- FL's queue: a LOST node, an entry of the address and class, sixteen and fifteen places taken; and a crane whose commands
are withdrawn while no supervisor holds one refused. -/
theorem witness_RoundAndPollTimers_queue :
    let p := (works .run).toPart
    let e : Entry := ⟨29, .lift, .cs .A⟩
    let filled := fun n : Nat => (List.range n).map fun k => (⟨k + 1, .setValve 5, .cc⟩ : Entry)
    let same := fun d : Entry => d.addr = e.addr ∧ directedClass d.cmd = directedClass e.cmd
    (nodeOf (standing 29 (.crane .A) .lost 3 p) e.addr).map (·.standing) = some .lost ∧
    nodeOf p e.addr = some (.fresh (.crane .A)) ∧ (Node.fresh (.crane .A)).standing ≠ .lost ∧
    (same ⟨29, .takeUp, .cs .A⟩ ∧ ∀ d ∈ filled 2 ++ [⟨29, .goto 5, .cs .A⟩, ⟨30, .lift, .cs .B⟩], ¬ same d) ∧
    ((filled 16).filter fun d => d.cmd != .stop).length = 16 ∧ ((filled 15).filter fun d => d.cmd != .stop).length < 16 ∧
    craneNode shop .A = some 29 ∧
    ∀ d : CraneId, (craneOf p d).kept = none ∧ (craneOf p d).command = none := by
  refine ⟨by decide +kernel, by decide +kernel, by decide +kernel, by decide +kernel, by decide +kernel, by decide +kernel,
    by decide +kernel, fun d => by cases d <;> decide +kernel⟩

/-- Every kind of read answers with the fields `answerOf` spells: of section 2.11's pour while it cures, of section 7.9's slot
and chain, of a crane at work and of a line at work. -/
theorem test_answers :
    let is (c : Instr) (s : State) : Bool := reply c s == some (.ok, answerOf s c)
    let s := upon (stocked .watch) fun p => onLine 6 (.zone 3 2) 2 (moving .toSource 1932 (.goto 1900) p)
    let chain := upon (works .watch) chained
    let kinds := [.readPlant 1 0 0, .readPlant 1 1 2, .readPlant 1 2 20, .readPlant 1 3 1, .readPlant 1 4 2,
      .readPlant 1 5 0x41, .readPlant 1 6 1, .readZone 1 0 1, .readPour 1 1, .readPiece 1 5001, .readSlot 1 20,
      .readMoves 1 0, .readMoves 1 1, .readCrane 1 0x41, .readNodes 1 0, .readNodes 1 3, .readStatus 1]
    kinds.all (fun c => is c s) = true ∧ is (.readBed 1 2) (measuring .watch) = true ∧
    is (.readZone 1 2 1) (measuring .watch) = true ∧ is (.readPiece 1 7001) (measuring .watch) = true ∧
    is (.readMoves 1 1) chain = true := by decide +kernel

/-- Each read named at the edge of what it answers for, and one past it. -/
theorem witness_ReadsAnswer :
    let s := upon (stocked .watch) (putPour 24 closed5)
    ready s ∧ referencesHold s ∧ referencesHold (measuring .run) ∧ requestHead (.readPlant 1 0 0) = some (0x40, 1) ∧ requestHead (.readStatus 1) = some (0x49, 1) ∧ 0x40 ≤ 0x49 ∧
    readable s (.readPlant 1 6 16) ∧ ¬ readable s (.readPlant 1 6 17) ∧ readable s (.readBed 1 6) ∧ ¬ readable s (.readBed 1 0) ∧
    readable s (.readZone 1 0 4) ∧ ¬ readable s (.readZone 1 0 5) ∧ readable s (.readZone 1 3 2) ∧
    ¬ readable s (.readZone 1 3 3) ∧ readable s (.readPour 1 24) ∧ ¬ readable s (.readPour 1 23) ∧
    readable s (.readPiece 1 5001) ∧ ¬ readable s (.readPiece 1 65535) ∧ readable s (.readSlot 1 48) ∧
    ¬ readable s (.readSlot 1 49) ∧ readable s (.readMoves 1 4) ∧ ¬ readable s (.readMoves 1 5) ∧
    readable s (.readCrane 1 0x42) ∧ ¬ readable s (.readCrane 1 0x43) ∧ readable s (.readNodes 1 3) ∧
    ¬ readable s (.readNodes 1 4) ∧ readable s (.readStatus 1) := by
  dsimp only [readable]
  constructorm* _ ∧ _
  all_goals decide +kernel

/-- The longest request the catalogue allows: POUR ORDER with sixteen pieces. -/
theorem witness_FrameIsRequest :
    let c : Instr := .pourOrder 255 2 hc 9999 (List.replicate 16 ⟨65535, 4000, 60000, 1500⟩)
    c.wf = true ∧ requestHead c = some (0x11, 255) ∧ (works .watch).cl.rx = .hunting := by decide +kernel

/-- Two places held. -/
def crowded : State := { (works .watch) with cl := { (works .watch).cl with places := [(0x49, 1), (0x49, 2)] } }

theorem witness_ReceiverDiscards :
    (works .watch).mc.power = true ∧ ({ (works .watch).cl with rx := .collecting [0] }).rx = .collecting [0] ∧
    (works .watch).cl.rx = .hunting ∧ ({ (works .watch).cl with rx := .collecting [] }).rx = .collecting [] ∧ 240 < 241 ∧
    (List.replicate 240 0).length ≤ 240 ∧ crc16 [0, 0x49, 1] ≠ 0 * 256 + 0 ∧ 2 ≤ crowded.cl.places.length ∧ requestHead (.readStatus 1) = some (0x49, 1) ∧
    ready (works .watch) ∧ decodeRequest 0x30 1 [] = .unknownKind ∧ decodeRequest 0x49 1 [0] = .badLength ∧
    0x0B ∉ [0x01, 0x02, 0x03, 0x04, 0x05, 0x06, 0x07, 0x08, 0x09, 0x0A, 0x0E, 0x0F, 0x10, 0x11, 0x12, 0x13, 0x14, 0x15,
      0x16, 0x20, 0x21, 0x22, 0x23, 0x24, 0x25, 0x26, 0x28, 0x29, 0x2A, 0x2C, 0x2D, 0x2E, 0x40, 0x41, 0x42, 0x43, 0x44,
      0x45, 0x46, 0x47, 0x48, 0x49] := by decide +kernel

/-- Nothing on the line; a notice, a reply and the reply to a change of the line rate, each with a reply, with only a notice
and with nothing behind it. -/
theorem witness_FrameSentFrees :
    let r : Reply := ⟨0x49, 1, .ok, [], .nothing⟩
    let k := fun f rs ns => ({ (works .watch).cl with sending := some f, replies := rs, notices := ns } : CommandLink)
    (works .watch).mc.power = true ∧ (works .watch).cl.sending = none ∧
    ([.notice (.bedEmpty 1 1) 0 115200, .reply r 0 115200, .reply { r with after := .newRate 19200 } 0 115200].all fun f =>
      (k f [r] []).sending == some f && (k f [r] []).replies == r :: [] &&
      (k f [] [.bedEmpty 2 2]).replies == [] && (k f [] [.bedEmpty 2 2]).notices == .bedEmpty 2 2 :: [] &&
      (k f [] []).replies == [] && (k f [] []).notices == []) = true ∧
    r.after = .nothing ∧ ({ r with after := .newRate 19200 } : Reply).after = .newRate 19200 := by decide +kernel

/-- A command of each kind that finds the line free: a request, an expiry, and the end of an attempt. -/
theorem witness_FrameSentFrees_line :
    let s := polledZone .alive
    s.mc.power = true ∧ s.cl.sending = none ∧ ready s ∧ (requestHead (.readStatus 1)).isSome = true ∧
    s.fl.line.isSome = true := by decide +kernel

/-- R178: with 24 notices queued behind a frame, POUR ABORTED is dropped and counted, and the overflow flag set. -/
theorem test_notice_dropped :
    let full := upon (pouring .run) fun p => { p with cl := { p.cl with
      sending := some (.notice (.bedEmpty 1 1) 0 115200), notices := (List.range 24).map fun k => .bedEmpty k 1 } }
    let t := after (.gapTimerExpiry 2) full
    full.cl.notices.length = 24 ∧ t.cl.notices = full.cl.notices ∧ t.cl.overflow = true ∧
    t.cl.dropped = full.cl.dropped + 1 ∧ (after .frameSent t).cl.overflow = false := by decide +kernel

/-- The least and the greatest value SET PLANT can carry. -/
theorem witness_RequestRoundTrip :
    ((Instr.setPlant 0 0 (-2147483648)).wf = true ∧ requestHead (.setPlant 0 0 (-2147483648)) = some (0x09, 0)) ∧
    ((Instr.setPlant 255 255 2147483647).wf = true ∧ requestHead (.setPlant 255 255 2147483647) = some (0x09, 255)) ∧
    ((⟨0, false, false⟩ : FieldChar).data < 256 ∧ (⟨255, true, true⟩ : FieldChar).data < 256 ∧ 7 < 8) ∧
    ((⟨0, false⟩ : RxChar).data < 256 ∧ (⟨255, true⟩ : RxChar).data < 256) ∧
    (State.reset.cl.sending.bind fun f => f.bytes[0]?) = some 0xA5 ∧
    (requestChars 29 (.goto 1900))[4]? = some ⟨0x3E, false, false⟩ := by
  decide +kernel

/-- A state with one request answered and 24 notices queued, which the end of the reply takes on. -/
theorem witness_LinkSoundKept :
    let s : State := { (works .watch) with
      cl := { (works .watch).cl with
        places := [(0x49, 1)], sending := some (.reply ⟨0x49, 1, .ok, [], .nothing⟩ 0 115200),
        notices := List.replicate 24 (.bedEmpty 1 1) }
      pending := [.frameSent] }
    linkSound s.cl ∧ step s = .next { after .frameSent s with pending := [] } := by
  refine ⟨by decide +kernel, rfl⟩

theorem shop_inRange : shop.inRange := by
  unfold Store.inRange
  constructorm* _ ∧ _ <;> decide +kernel

theorem witness_StoreKept : { works .setup with pending := [.setBoiler 1 9999] }.store.inRange ∧
    step { works .setup with pending := [.setBoiler 1 9999] } = .next (after (.setBoiler 1 9999) (works .setup)) :=
  ⟨shop_inRange, rfl⟩

/-- [1350, 1650] and [1850, 2150], and a reply that A is out of service. -/
theorem witness_CranesApartKept :
    (upon (works .watch) located).store.inRange ∧ cranesApart (upon (works .watch) located).toPart ∧
    step { upon (works .watch) located with pending := [.craneOut 1 0x41] } =
      .next (after (.craneOut 1 0x41) (upon (works .watch) located)) :=
  ⟨shop_inRange, by decide +kernel, rfl⟩

theorem witness_MovesSoundKept : movesSound (upon (works .watch) chained).toPart ∧
    step { upon (works .watch) chained with pending := [.cancelMove 1 18] } =
      .next (after (.cancelMove 1 18) (upon (works .watch) chained)) := ⟨by decide +kernel, rfl⟩

theorem witness_CuringSoundKept : (measuring .run).store.inRange ∧ curingSound (measuring .run).toPart ∧
    step { measuring .run with pending := [.curingIntervalExpiry] } = .next (after .curingIntervalExpiry (measuring .run)) :=
  ⟨shop_inRange, by decide +kernel, rfl⟩

end Sys2Proof.Tests
end

section
/-!
PROOFS. A formed temperature is a valid reading or the mean of two, so it stays in the valid range (R43 to R47).
-/

namespace Sys2Proof.Proofs

open Sys2Proof.Machine

/-! ### The mean (R47) -/

theorem meanDown_half (a b : Int) : 2 * meanDown a b ≤ a + b ∧ a + b < 2 * meanDown a b + 2 := by
  unfold meanDown
  omega

/-- A mean lies in every interval that holds both values: rounding downward does not leave it. -/
theorem meanDown_mem_Icc {lo hi a b : Int} (ha : a ∈ Set.Icc lo hi) (hb : b ∈ Set.Icc lo hi) :
    meanDown a b ∈ Set.Icc lo hi := by
  obtain ⟨hla, hah⟩ := ha
  obtain ⟨hlb, hbh⟩ := hb
  obtain ⟨hle, hlt⟩ := meanDown_half a b
  exact ⟨by omega, by omega⟩

/-! ### Valid readings (R43, R44) -/

theorem mem_Icc_of_validity_eq_valid {v : Int} {age limit : Nat} {lost : Bool}
    (h : validity (some v) age lost limit = .valid) : v ∈ Set.Icc (-400) 1250 := by
  by_cases out : v < -400 ∨ 1250 < v
  · simp only [validity, if_pos out] at h
    split_ifs at h
  · exact ⟨by omega, by omega⟩

theorem validReading_eq_some {lost : Bool} {limit n : Nat} {pr : Probe} {e : Nat × Int}
    (h : validReading lost limit n pr = some e) :
    e.1 = n ∧ pr.value = some e.2 ∧ validity (some e.2) pr.age lost limit = .valid := by
  unfold validReading at h
  split at h
  next v hv hvalid =>
    cases h
    exact ⟨rfl, hv, hv ▸ hvalid⟩
  next => cases h

theorem mem_Icc_of_mem_validReadings {lost : Bool} {limit : Nat} {r : ZoneRecord} {e : Nat × Int}
    (he : e ∈ validReadings lost limit r) : e.2 ∈ Set.Icc (-400) 1250 := by
  have from_probe {n : Nat} {pr : Probe} (h : validReading lost limit n pr = some e) :
      e.2 ∈ Set.Icc (-400) 1250 := by
    obtain ⟨-, -, hvalid⟩ := validReading_eq_some h
    exact mem_Icc_of_validity_eq_valid hvalid
  simp only [validReadings, List.mem_append, Option.mem_toList] at he
  obtain (h | h) | h := he <;> exact from_probe h

/-! ### The agreement rule (R45, R46) -/

theorem insertReading_eq_orderedInsert (e : Nat × Int) (l : List (Nat × Int)) :
    insertReading e l = l.orderedInsert (fun a b => a.2 ≤ b.2) e := by
  induction l with
  | nil => rfl
  | cons d l ih => simp only [insertReading, List.orderedInsert_cons, ih]

theorem sortReadings_eq_insertionSort (l : List (Nat × Int)) :
    sortReadings l = l.insertionSort (fun a b => a.2 ≤ b.2) := by
  induction l with
  | nil => rfl
  | cons e l ih => rw [sortReadings, ih, insertReading_eq_orderedInsert, List.insertionSort_cons]

theorem mem_sortReadings {e : Nat × Int} {l : List (Nat × Int)} : e ∈ sortReadings l ↔ e ∈ l := by
  rw [sortReadings_eq_insertionSort, List.mem_insertionSort]

/-- What a measured outcome is: the middle reading of a MEDIAN, the mean of two readings otherwise. -/
theorem agree_eq_measured {band t : Int} {l : List (Nat × Int)} {basis : Basis}
    (h : agree band l = .measured t basis) :
    (basis = .median ∧ ∃ e ∈ l, e.2 = t) ∨
      (basis ≠ .median ∧ ∃ d ∈ l, ∃ e ∈ l, t = meanDown d.2 e.2) := by
  simp only [← mem_sortReadings (l := l)]
  unfold agree at h
  split at h
  next a m c hsort =>
    rw [hsort]
    split_ifs at h <;> cases h
    · exact .inl ⟨rfl, m, by simp, rfl⟩
    · exact .inr ⟨nofun, a, by simp, m, by simp, rfl⟩
    · exact .inr ⟨nofun, m, by simp, c, by simp, rfl⟩
  next a c hsort =>
    rw [hsort]
    split_ifs at h
    cases h
    exact .inr ⟨nofun, a, by simp, c, by simp, rfl⟩
  next => cases h

/-- What is formed of valid readings stays in their range, since a reading and a mean of two both do. -/
theorem mem_Icc_of_agree_validReadings {lost : Bool} {limit : Nat} {r : ZoneRecord} {band t : Int}
    {basis : Basis} (h : agree band (validReadings lost limit r) = .measured t basis) :
    t ∈ Set.Icc (-400) 1250 := by
  obtain ⟨-, e, he, rfl⟩ | ⟨-, d, hd, e, he, rfl⟩ := agree_eq_measured h
  · exact mem_Icc_of_mem_validReadings he
  · exact meanDown_mem_Icc (mem_Icc_of_mem_validReadings hd) (mem_Icc_of_mem_validReadings he)

/-- Settles O33: the mean by its two bounds, the formed temperature by what a measured outcome is. -/
theorem meanInRange : Obligations.MeanInRange := by
  unfold Obligations.MeanInRange
  refine ⟨meanDown_half, ?odd, ?oddNegative, ?range, ?formed⟩
  case odd | oddNegative =>
    intro a b hsum
    have := meanDown_half a b
    omega
  case range =>
    intro a b hla hah hlb hbh
    exact ⟨by omega, meanDown_mem_Icc ⟨hla, hah⟩ ⟨hlb, hbh⟩⟩
  case formed =>
    intro lost limit r band t basis h
    refine ⟨mem_Icc_of_agree_validReadings h, fun hmedian => ?_⟩
    obtain ⟨-, reading⟩ | ⟨hne, -⟩ := agree_eq_measured h
    · exact reading
    · exact absurd hmedian hne

end Sys2Proof.Proofs
end

section
/-!
PROOFS. The Heat Allocator: the requests handed over, their order of service, the grants of a capacity, the starved beds
and the notices an allocation leaves (R73, R79 to R84).
-/

namespace Sys2Proof.Proofs

open Sys2Proof.Machine

/-! ### Records by number -/

/-- Where the numbers rise no record hides another of its number. -/
theorem find_eq_some_iff_mem {α : Type} {m : Map α} (h : Map.rising m = true) {k : Nat} {v : α} :
    Map.find m k = some v ↔ (k, v) ∈ m := by
  refine ⟨Map.mem_of_find, fun hmem => ?_⟩
  rw [Map.rising_iff] at h
  induction m with
  | nil => cases hmem
  | cons e m ih =>
    obtain ⟨below, hm⟩ := List.pairwise_cons.mp h
    obtain rfl | htail := List.mem_cons.mp hmem
    · exact if_pos rfl
    · have hne : e.1 ≠ k := Nat.ne_of_lt (below k (List.mem_map_of_mem htail))
      rw [Map.find, if_neg hne]
      exact ih hm htail

theorem keys_nodup {α : Type} {m : Map α} (h : Map.rising m = true) : (Map.keys m).Nodup :=
  ((Map.rising_iff m).mp h).imp Nat.ne_of_lt

/-! ### The order of service (R79) -/

theorem servedFirst_iff (a b : Handed) : servedFirst a b = true ↔
    classRank a.cls < classRank b.cls ∨ (classRank a.cls = classRank b.cls ∧ (a.seq < b.seq ∨ (a.seq = b.seq ∧
      (a.bed < b.bed ∨ (a.bed = b.bed ∧ a.zone ≤ b.zone))))) := by
  simp only [servedFirst, Bool.or_eq_true, Bool.and_eq_true, decide_eq_true_eq]

theorem servedFirst_total (a b : Handed) : servedFirst a b = true ∨ servedFirst b a = true := by
  simp only [servedFirst_iff]
  omega

theorem servedFirst_trans (a b c : Handed) (hab : servedFirst a b = true) (hbc : servedFirst b c = true) :
    servedFirst a c = true := by
  simp only [servedFirst_iff] at *
  omega

theorem insertHanded_eq_orderedInsert (h : Handed) (l : List Handed) :
    insertHanded h l = l.orderedInsert (fun a b => servedFirst a b = true) h := by
  induction l with
  | nil => rfl
  | cons k l ih => simp only [insertHanded, List.orderedInsert_cons, ih]

theorem serviceOrder_eq_insertionSort (l : List Handed) :
    serviceOrder l = l.insertionSort (fun a b => servedFirst a b = true) := by
  induction l with
  | nil => rfl
  | cons h l ih => rw [serviceOrder, ih, insertHanded_eq_orderedInsert, List.insertionSort_cons]

theorem serviceOrder_perm (l : List Handed) : (serviceOrder l).Perm l := by
  rw [serviceOrder_eq_insertionSort]
  exact List.perm_insertionSort _ l

theorem serviceOrder_pairwise (l : List Handed) : (serviceOrder l).Pairwise fun a b => servedFirst a b = true := by
  have : Std.Total fun a b => servedFirst a b = true := ⟨servedFirst_total⟩
  have : IsTrans Handed fun a b => servedFirst a b = true := ⟨servedFirst_trans⟩
  rw [serviceOrder_eq_insertionSort]
  exact List.pairwise_insertionSort _ l

/-- A class's rank is its place in the order FROST, HOLD, RAMP, COOL, and a zone of no class comes after them. -/
theorem classRank_eq_idxOf (c : HeatClass) : classRank c = [HeatClass.frost, .hold, .ramp, .cool].idxOf c := by
  cases c <;> rfl

/-! ### The grants of a capacity (R79, R80) -/

theorem grantAll_cons (cap : Nat) (h : Handed) (l : List Handed) :
    grantAll cap (h :: l) = (h, min h.request cap) :: grantAll (cap - h.request) l := by
  have hleft : cap - min h.request cap = cap - h.request := by omega
  rw [grantAll, hleft]

/-- What the first zones leave of the capacity is what the later ones share. -/
theorem grantAll_append (cap : Nat) (a b : List Handed) :
    grantAll cap (a ++ b) = grantAll cap a ++ grantAll (cap - (a.map (·.request)).sum) b := by
  induction a generalizing cap with
  | nil => simp [grantAll]
  | cons h a ih => simp [grantAll_cons, ih, Nat.sub_sub]

theorem grantAll_of_covered {cap : Nat} {l : List Handed} (hcap : (l.map (·.request)).sum ≤ cap) :
    grantAll cap l = l.map fun h => (h, h.request) := by
  induction l generalizing cap with
  | nil => rfl
  | cons h l ih =>
    simp only [List.map_cons, List.sum_cons] at hcap
    have hrest : (l.map (·.request)).sum ≤ cap - h.request := by omega
    have hwhole : min h.request cap = h.request := by omega
    rw [grantAll_cons, ih hrest, hwhole, List.map_cons]

theorem grantAll_zero (l : List Handed) : grantAll 0 l = l.map fun h => (h, 0) := by
  induction l with
  | nil => rfl
  | cons h l ih => simp [grantAll_cons, ih]

/-- The first zone whose request exceeds what remains gets what remains, and every later zone nothing. -/
theorem grantAll_of_exceeded {cap : Nat} {a b : List Handed} {h : Handed} (hcap : (a.map (·.request)).sum ≤ cap)
    (hover : cap < (a.map (·.request)).sum + h.request) :
    grantAll cap (a ++ h :: b) =
      a.map (fun k => (k, k.request)) ++ (h, cap - (a.map (·.request)).sum) :: b.map (fun k => (k, 0)) := by
  have hrest : min h.request (cap - (a.map (·.request)).sum) = cap - (a.map (·.request)).sum := by omega
  have hnone : cap - (a.map (·.request)).sum - h.request = 0 := by omega
  rw [grantAll_append, grantAll_of_covered hcap, grantAll_cons, hrest, hnone, grantAll_zero]

theorem map_fst_grantAll (cap : Nat) (l : List Handed) : (grantAll cap l).map Prod.fst = l := by
  induction l generalizing cap with
  | nil => rfl
  | cons h l ih => rw [grantAll_cons, List.map_cons, ih]

/-- Every zone handed over is granted something, if only 0, and no other zone is. -/
theorem mem_handed_iff_granted {cap : Nat} {l : List Handed} {h : Handed} :
    h ∈ l ↔ ∃ n, (h, n) ∈ grantAll cap (serviceOrder l) := by
  have hfst : h ∈ (grantAll cap (serviceOrder l)).map Prod.fst ↔ h ∈ l := by
    rw [map_fst_grantAll, (serviceOrder_perm l).mem_iff]
  rw [← hfst]
  simp

theorem length_grantAll_serviceOrder (cap : Nat) (l : List Handed) :
    (grantAll cap (serviceOrder l)).length = l.length := by
  rw [← List.length_map Prod.fst, map_fst_grantAll, (serviceOrder_perm l).length_eq]

theorem partialOf_nil : partialOf [] = none := rfl

theorem partialOf_cons (h : Handed) (n : Nat) (gs : List (Handed × Nat)) :
    partialOf ((h, n) :: gs) = if n < h.request ∧ 0 < n then some (h.bed, h.zone) else partialOf gs := by
  by_cases hpart : n < h.request ∧ 0 < n <;> simp [partialOf, isShort, hpart]

/-- No zone granted its whole request or nothing is the partial zone. -/
theorem partialOf_append_of_whole {gs rest : List (Handed × Nat)} (hgs : ∀ e ∈ gs, e.2 = e.1.request ∨ e.2 = 0) :
    partialOf (gs ++ rest) = partialOf rest := by
  induction gs with
  | nil => rfl
  | cons e gs ih =>
    obtain ⟨he, hgs⟩ := List.forall_mem_cons.mp hgs
    have hpart : ¬ (e.2 < e.1.request ∧ 0 < e.2) := by omega
    rw [List.cons_append, partialOf_cons, if_neg hpart, ih hgs]

theorem partialOf_of_whole {gs : List (Handed × Nat)} (hgs : ∀ e ∈ gs, e.2 = e.1.request ∨ e.2 = 0) :
    partialOf gs = none := by
  rw [← List.append_nil gs, partialOf_append_of_whole hgs, partialOf_nil]

theorem partialOf_grantAll_of_covered {cap : Nat} {l : List Handed} (hcap : (l.map (·.request)).sum ≤ cap) :
    partialOf (grantAll cap l) = none := by
  rw [grantAll_of_covered hcap]
  exact partialOf_of_whole (by simp)

theorem partialOf_grantAll_of_exceeded {cap : Nat} {a b : List Handed} {h : Handed}
    (hcap : (a.map (·.request)).sum ≤ cap) (hover : cap < (a.map (·.request)).sum + h.request) :
    partialOf (grantAll cap (a ++ h :: b)) =
      if (a.map (·.request)).sum = cap then none else some (h.bed, h.zone) := by
  have hlater : partialOf (b.map fun k => (k, 0)) = none := partialOf_of_whole (by simp)
  rw [grantAll_of_exceeded hcap hover, partialOf_append_of_whole (by simp), partialOf_cons, hlater]
  by_cases hused : (a.map (·.request)).sum = cap
  · rw [if_pos hused, if_neg (by omega)]
  · rw [if_neg hused, if_pos (by omega)]

/-- The grant read for a zone is one of its grants, or 0 where it has none. -/
theorem grantOf_cases (gs : List (Handed × Nat)) (bed zone : Nat) :
    (∃ h, (h, grantOf gs bed zone) ∈ gs ∧ h.bed = bed ∧ h.zone = zone) ∨
      (grantOf gs bed zone = 0 ∧ ∀ e ∈ gs, ¬ (e.1.bed = bed ∧ e.1.zone = zone)) := by
  unfold grantOf
  split
  next e hfound =>
    have hzone := List.find?_some hfound
    simp only [Bool.and_eq_true, beq_iff_eq] at hzone
    exact .inl ⟨e.1, List.mem_of_find?_eq_some hfound, hzone⟩
  next hnone => exact .inr ⟨rfl, by simpa using hnone⟩

/-! ### The requests handed over (R73) -/

theorem mem_handedBy {g : Store} {bed : Nat} {ctx : Context} {h : Handed} : h ∈ handedBy g bed ctx ↔
    h.bed = bed ∧ ∃ r, (h.zone, r) ∈ ctx.zones ∧ 0 < r.request ∧ h.cls = r.cls ∧ h.seq = ctx.seq ∧
      h.request = r.request ∧ h.rating = ratingOf g h.bed h.zone := by
  simp only [handedBy, List.mem_map, List.mem_filter, decide_eq_true_eq]
  constructor
  · rintro ⟨⟨zone, r⟩, ⟨hmem, hreq⟩, rfl⟩
    exact ⟨rfl, r, hmem, hreq, rfl, rfl, rfl, rfl⟩
  · obtain ⟨b, zone, cls, seq, request, rating⟩ := h
    dsimp only
    rintro ⟨rfl, r, hmem, hreq, rfl, rfl, rfl, rfl⟩
    exact ⟨(zone, r), ⟨hmem, hreq⟩, rfl⟩

theorem mem_handedOver {g : Store} {p : Part} (hp : curingSound p) {h : Handed} : h ∈ handedOver g p ↔
    ∃ ctx r, contextOf p h.bed = some ctx ∧ Map.find ctx.zones h.zone = some r ∧ 0 < r.request ∧ h.cls = r.cls ∧
      h.seq = ctx.seq ∧ h.request = r.request ∧ h.rating = ratingOf g h.bed h.zone := by
  obtain ⟨hcontexts, hzones⟩ := hp
  simp only [handedOver, List.mem_flatMap, mem_handedBy, contextOf]
  constructor
  · rintro ⟨⟨bed, ctx⟩, hctx, rfl, r, hr, hrest⟩
    exact ⟨ctx, r, (find_eq_some_iff_mem hcontexts).mpr hctx,
      (find_eq_some_iff_mem (hzones _ hctx).1).mpr hr, hrest⟩
  · rintro ⟨ctx, r, hctx, hr, hrest⟩
    exact ⟨(h.bed, ctx), Map.mem_of_find hctx, rfl, r, Map.mem_of_find hr, hrest⟩

/-- A context's zone is granted one of the grants of its request, and 0 where it makes none. -/
theorem grantOf_handedOver {g : Store} {p : Part} (hp : curingSound p) {cap bed zone : Nat} {ctx : Context}
    {r : ZoneCuring} (hctx : contextOf p bed = some ctx) (hr : Map.find ctx.zones zone = some r) :
    let gs := grantAll cap (serviceOrder (handedOver g p))
    (r.request = 0 → grantOf gs bed zone = 0) ∧
      (0 < r.request → ∃ h, (h, grantOf gs bed zone) ∈ gs ∧ h.bed = bed ∧ h.zone = zone) := by
  intro gs
  obtain ⟨h, hgrant, rfl, rfl⟩ | ⟨hzero, hnone⟩ := grantOf_cases gs bed zone
  · refine ⟨fun hreq => ?_, fun _ => ⟨h, hgrant, rfl, rfl⟩⟩
    obtain ⟨ctx', r', hctx', hr', hpos, -⟩ := (mem_handedOver hp).mp (mem_handed_iff_granted.mpr ⟨_, hgrant⟩)
    cases hctx.symm.trans hctx'
    cases hr.symm.trans hr'
    omega
  · refine ⟨fun _ => hzero, fun hpos => ?_⟩
    have hmem : { bed, zone, cls := r.cls, seq := ctx.seq, request := r.request, rating := ratingOf g bed zone } ∈
        handedOver g p := (mem_handedOver hp).mpr ⟨ctx, r, hctx, hr, hpos, rfl, rfl, rfl, rfl⟩
    obtain ⟨n, hn⟩ := mem_handed_iff_granted.mp hmem
    exact absurd ⟨rfl, rfl⟩ (hnone _ hn)

/-! ### A deviation's report (R34) -/

/-- BS applies a deviation of a pour only where it is the bed's current pour, and CLOSED. -/
def deviationHeard (p : Part) (bed pour : Nat) : Bool :=
  (bedOf p bed).pour == some pour && (pourOf p pour).map (·.state) == some .closed

theorem deviationHeard_iff {p : Part} {bed pour : Nat} : deviationHeard p bed pour = true ↔
    (bedOf p bed).pour = some pour ∧ (pourOf p pour).map (·.state) = some .closed := by
  simp only [deviationHeard, Bool.and_eq_true, beq_iff_eq]

theorem reportDeviation_eq (g : Store) (bed pour : Nat) (d : Deviation) (p : Part) :
    reportDeviation g bed pour d p = if deviationHeard p bed pour then recordDeviation g bed pour d p else p := by
  simp only [reportDeviation, deviationHeard_iff]

theorem recordDeviation_notices {g : Store} {bed pour : Nat} {d : Deviation} {p : Part} {r : Pour}
    (hpour : pourOf p pour = some r) (room : p.cl.notices.length < 24) :
    ∃ k, (recordDeviation g bed pour d p).cl.notices = p.cl.notices ++ [.deviation bed pour d k] := by
  refine ⟨(listDeviation (decide (g.plant.deviationMode = 1)) d r.deviations).1, ?_⟩
  unfold recordDeviation
  split
  next hnone => simp [hnone] at hpour
  next r' hr' =>
    cases hpour.symm.trans hr'
    split <;> rw [raise_room (by simpa using room)] <;> simp

/-- A report with room in the queue is told of once where BS applies it, and of nothing else. -/
theorem reportDeviation_notices {g : Store} {bed pour : Nat} {d : Deviation} {p : Part}
    (room : p.cl.notices.length < 24) :
    ∃ ns, (reportDeviation g bed pour d p).cl.notices = p.cl.notices ++ ns ∧
      ns.map deviationTold = if deviationHeard p bed pour then [some (bed, pour, d)] else [] := by
  rw [reportDeviation_eq]
  by_cases heard : deviationHeard p bed pour = true
  · obtain ⟨-, hclosed⟩ := deviationHeard_iff.mp heard
    obtain ⟨r, hr, -⟩ := Option.map_eq_some_iff.mp hclosed
    obtain ⟨k, hk⟩ := recordDeviation_notices (g := g) (bed := bed) (d := d) hr room
    exact ⟨[.deviation bed pour d k], by rw [if_pos heard, hk], by rw [if_pos heard]; rfl⟩
  · exact ⟨[], by rw [if_neg heard, List.append_nil], by rw [if_neg heard]; rfl⟩

theorem recordDeviation_bed (g : Store) (bed pour : Nat) (d : Deviation) (p : Part) (b : Nat) :
    bedOf (recordDeviation g bed pour d p) b = bedOf p b := by
  unfold recordDeviation
  split
  · rfl
  · split <;> simp [bedOf, putPour]

theorem recordDeviation_pourState (g : Store) (bed pour : Nat) (d : Deviation) (p : Part) (n : Nat) :
    (pourOf (recordDeviation g bed pour d p) n).map (·.state) = (pourOf p n).map (·.state) := by
  unfold recordDeviation
  split
  · rfl
  next r hr =>
    rw [pourOf] at hr
    by_cases hn : n = pour
    · subst hn
      split <;> simp [pourOf, putPour, hr]
    · split <;> simp [pourOf, putPour, hn]

/-- What a report writes to a pour changes nothing of which reports are heard. -/
theorem deviationHeard_reportDeviation (g : Store) (bed pour : Nat) (d : Deviation) (p : Part) (b n : Nat) :
    deviationHeard (reportDeviation g bed pour d p) b n = deviationHeard p b n := by
  rw [reportDeviation_eq]
  split
  · rw [deviationHeard, recordDeviation_bed, recordDeviation_pourState, deviationHeard]
  · rfl

/-! ### Starved beds (R81, R82) -/

/-- The entry CC reports of a bed whose run of starved allocations has reached the starve limit. -/
def starvedEntry (ctx : Context) : Deviation :=
  { kind := .starved, zone := none, value := (ctx.starvedCount : Int) + 1, minutes := min 65535 (ctx.curingTime / 60) }

/-- Whether a starved allocation brings a bed's run to the starve limit. -/
def starvedDue (g : Store) (gs : List (Handed × Nat)) (bed : Nat) (ctx : Context) : Bool :=
  bedStarved gs bed && decide (g.plant.starveLimit ≤ (ctx.starvedCount : Int) + 1)

/-- What an allocation tells of a bed's starving. -/
def starvedReport (g : Store) (gs : List (Handed × Nat)) (p : Part) (bed : Nat) : Option (Nat × Nat × Deviation) :=
  (contextOf p bed).bind fun ctx =>
    if starvedDue g gs bed ctx && deviationHeard p bed ctx.pour then some (bed, ctx.pour, starvedEntry ctx)
    else none

theorem judgeStarved_of_none {g : Store} {gs : List (Handed × Nat)} {p : Part} {bed : Nat}
    (hctx : contextOf p bed = none) : judgeStarved g gs p bed = p := by
  rw [judgeStarved, hctx]

/-- A judged context keeps its zones, and a run that reaches the starve limit is reported. -/
theorem judgeStarved_of_some {g : Store} {gs : List (Handed × Nat)} {p : Part} {bed : Nat} {ctx : Context}
    (hctx : contextOf p bed = some ctx) :
    ∃ after : Context, after.zones = ctx.zones ∧ judgeStarved g gs p bed =
      if starvedDue g gs bed ctx then
        reportDeviation g bed ctx.pour (starvedEntry ctx) (putContext bed after p)
      else putContext bed after p := by
  simp only [judgeStarved, hctx, starvedDue, Bool.and_eq_true, decide_eq_true_eq, Nat.cast_add, Nat.cast_one]
  by_cases hstarved : bedStarved gs bed = true
  · by_cases hlimit : g.plant.starveLimit ≤ (ctx.starvedCount : Int) + 1
    · exact ⟨{ ctx with starved := true, starvedCount := 0 }, rfl,
        by simp [hstarved, hlimit, starvedEntry, curingMinutes]⟩
    · exact ⟨{ ctx with starved := true, starvedCount := ctx.starvedCount + 1 }, rfl, by simp [hstarved, hlimit]⟩
  · exact ⟨{ ctx with starved := false, starvedCount := 0 }, rfl, by simp [hstarved]⟩

@[simp] theorem contextOf_putContext_same (bed : Nat) (ctx : Context) (p : Part) :
    contextOf (putContext bed ctx p) bed = some ctx := Map.find_put_same _ _ _

@[simp] theorem contextOf_putContext_other {bed b : Nat} (ctx : Context) (p : Part) (hb : b ≠ bed) :
    contextOf (putContext bed ctx p) b = contextOf p b := Map.find_put_other _ _ _ _ hb

@[simp] theorem putContext_alloc (bed : Nat) (ctx : Context) (p : Part) :
    (putContext bed ctx p).cc.alloc = p.cc.alloc := rfl

theorem contextOf_congr {p q : Part} (h : q.cc = p.cc) (bed : Nat) : contextOf q bed = contextOf p bed := by
  rw [contextOf, contextOf, h]

/-- Judging a bed leaves every context's zones as they stand, and the whole context of every other bed. -/
theorem contextOf_judgeStarved (g : Store) (gs : List (Handed × Nat)) (p : Part) (bed b : Nat) :
    (b ≠ bed → contextOf (judgeStarved g gs p bed) b = contextOf p b) ∧
      (contextOf (judgeStarved g gs p bed) b).map (·.zones) = (contextOf p b).map (·.zones) := by
  cases hctx : contextOf p bed with
  | none => simp [judgeStarved_of_none hctx]
  | some ctx =>
    obtain ⟨after, hzones, heq⟩ := judgeStarved_of_some (g := g) (gs := gs) hctx
    have hput : contextOf (judgeStarved g gs p bed) b = contextOf (putContext bed after p) b :=
      contextOf_congr (by rw [heq]; split <;> simp) b
    rw [hput]
    by_cases hb : b = bed
    · subst hb
      simp [hctx, hzones]
    · simp [hb]

theorem deviationHeard_judgeStarved (g : Store) (gs : List (Handed × Nat)) (p : Part) (bed b n : Nat) :
    deviationHeard (judgeStarved g gs p bed) b n = deviationHeard p b n := by
  cases hctx : contextOf p bed with
  | none => rw [judgeStarved_of_none hctx]
  | some ctx =>
    obtain ⟨after, -, heq⟩ := judgeStarved_of_some (g := g) (gs := gs) hctx
    rw [heq]
    split
    · exact deviationHeard_reportDeviation _ _ _ _ _ _ _
    · rfl

/-- What is told of one bed does not depend on the judging of another. -/
theorem starvedReport_judgeStarved {g : Store} {gs : List (Handed × Nat)} {p : Part} {bed b : Nat} (hb : b ≠ bed) :
    starvedReport g gs (judgeStarved g gs p bed) b = starvedReport g gs p b := by
  simp only [starvedReport, (contextOf_judgeStarved g gs p bed b).1 hb, deviationHeard_judgeStarved]

theorem judgeStarved_notices {g : Store} {gs : List (Handed × Nat)} {p : Part} {bed : Nat}
    (room : p.cl.notices.length < 24) :
    ∃ ns, (judgeStarved g gs p bed).cl.notices = p.cl.notices ++ ns ∧
      ns.map deviationTold = (starvedReport g gs p bed).toList.map some := by
  cases hctx : contextOf p bed with
  | none => exact ⟨[], by simp [judgeStarved_of_none hctx], by simp [starvedReport, hctx]⟩
  | some ctx =>
    obtain ⟨after, -, heq⟩ := judgeStarved_of_some (g := g) (gs := gs) hctx
    rw [heq]
    by_cases due : starvedDue g gs bed ctx = true
    · obtain ⟨ns, hns, htold⟩ := reportDeviation_notices (g := g) (bed := bed) (pour := ctx.pour)
        (d := starvedEntry ctx) (p := putContext bed after p) room
      have hsame : deviationHeard (putContext bed after p) bed ctx.pour = deviationHeard p bed ctx.pour := rfl
      refine ⟨ns, by rw [if_pos due, hns, putContext_cl], ?_⟩
      rw [htold, hsame]
      cases heard : deviationHeard p bed ctx.pour <;> simp [starvedReport, hctx, due, heard]
    · exact ⟨[], by simp [due], by simp [starvedReport, hctx, due]⟩

/-- Judging beds one after another leaves every context's zones as they stand. -/
theorem zones_foldl_judgeStarved (g : Store) (gs : List (Handed × Nat)) (beds : List Nat) (p : Part) (b : Nat) :
    (contextOf (beds.foldl (judgeStarved g gs) p) b).map (·.zones) = (contextOf p b).map (·.zones) := by
  induction beds generalizing p with
  | nil => rfl
  | cons bed beds ih => rw [List.foldl_cons, ih, (contextOf_judgeStarved g gs p bed b).2]

theorem alloc_foldl_judgeStarved (g : Store) (gs : List (Handed × Nat)) (beds : List Nat) (p : Part) :
    (beds.foldl (judgeStarved g gs) p).cc.alloc = p.cc.alloc := by
  induction beds generalizing p with
  | nil => rfl
  | cons bed beds ih =>
    rw [List.foldl_cons, ih]
    cases hctx : contextOf p bed with
    | none => rw [judgeStarved_of_none hctx]
    | some ctx =>
      obtain ⟨after, -, heq⟩ := judgeStarved_of_some (g := g) (gs := gs) hctx
      rw [heq]
      split <;> simp

/-- With room for a notice of each, the beds judged are told of in turn, each as the part stood before the first. -/
theorem foldl_judgeStarved_notices {g : Store} {gs : List (Handed × Nat)} {beds : List Nat} {p : Part}
    (room : p.cl.notices.length + beds.length ≤ 24) :
    ∃ ns, (beds.foldl (judgeStarved g gs) p).cl.notices = p.cl.notices ++ ns ∧ ns.length ≤ beds.length ∧
      (beds.Nodup → ns.map deviationTold = (beds.filterMap (starvedReport g gs p)).map some) := by
  induction beds generalizing p with
  | nil => exact ⟨[], by simp⟩
  | cons bed beds ih =>
    rw [List.length_cons] at room
    obtain ⟨first, hfirst, htoldFirst⟩ := judgeStarved_notices (g := g) (gs := gs) (p := p) (bed := bed) (by omega)
    have honce : first.length ≤ 1 := by
      have hlen := congrArg List.length htoldFirst
      rw [List.length_map, List.length_map] at hlen
      exact hlen.trans_le (Option.length_toList_le)
    obtain ⟨rest, hrest, hlen, htold⟩ := ih (p := judgeStarved g gs p bed) (by rw [hfirst, List.length_append]; omega)
    refine ⟨first ++ rest, ?_, ?_, fun hnodup => ?_⟩
    · rw [List.foldl_cons, hrest, hfirst, List.append_assoc]
    · rw [List.length_append, List.length_cons]
      omega
    · obtain ⟨hbed, hbeds⟩ := List.nodup_cons.mp hnodup
      have hsame : beds.filterMap (starvedReport g gs (judgeStarved g gs p bed)) =
          beds.filterMap (starvedReport g gs p) :=
        List.filterMap_congr fun b hb => starvedReport_judgeStarved (ne_of_mem_of_not_mem hb hbed)
      rw [List.map_append, htoldFirst, htold hbeds, hsame]
      cases hrep : starvedReport g gs p bed <;> simp [hrep]

/-! ### The allocation, put together -/

@[simp] theorem setAlloc_alloc (a : Alloc) (p : Part) : (setAlloc a p).cc.alloc = a := rfl
@[simp] theorem setAlloc_contexts (a : Alloc) (p : Part) : (setAlloc a p).cc.contexts = p.cc.contexts := rfl
@[simp] theorem setWanted_alloc (g : Store) (p : Part) : (setWanted g p).cc.alloc = p.cc.alloc := rfl
@[simp] theorem setWanted_contexts (g : Store) (p : Part) : (setWanted g p).cc.contexts = p.cc.contexts := rfl

/-- The grants of the present requests. -/
def grantsOf (g : Store) (p : Part) : List (Handed × Nat) :=
  grantAll (100 * g.boiler) (serviceOrder (handedOver g p))

/-- The part with the grants written and the starved beds judged. -/
def bedsJudged (g : Store) (p : Part) : Part :=
  (Map.keys p.cc.contexts).foldl (judgeStarved g (grantsOf g p)) (writeGrants (grantsOf g p) p)

theorem contextOf_writeGrants (gs : List (Handed × Nat)) (p : Part) (bed : Nat) :
    contextOf (writeGrants gs p) bed = (contextOf p bed).map fun ctx =>
      { ctx with zones := Map.mapRecords (fun z r => { r with grant := grantOf gs bed z }) ctx.zones } := by
  rw [contextOf, writeGrants, mapContexts, Map.find_mapRecords, contextOf]

theorem starvedReport_writeGrants (g : Store) (gs hs : List (Handed × Nat)) (p : Part) (bed : Nat) :
    starvedReport g gs (writeGrants hs p) bed = starvedReport g gs p bed := by
  rw [starvedReport, contextOf_writeGrants, Option.bind_map]
  rfl

theorem bedsJudged_alloc (g : Store) (p : Part) : (bedsJudged g p).cc.alloc = p.cc.alloc :=
  alloc_foldl_judgeStarved _ _ _ _

theorem allocate_eq (g : Store) (p : Part) :
    allocate g p = setWanted g (heatNotice g (grantsOf g p) p.cc.alloc.heatShort
      (setAlloc (allocRecord (100 * g.boiler) (grantsOf g p)) (bedsJudged g p))) := by
  rw [← bedsJudged_alloc g p]
  simp only [allocate, bedsJudged, grantsOf, writeGrants, mapContexts, Map.keys_mapRecords]

theorem allocate_alloc (g : Store) (p : Part) :
    (allocate g p).cc.alloc = allocRecord (100 * g.boiler) (grantsOf g p) := by
  simp [allocate_eq]

theorem contextOf_allocate (g : Store) (p : Part) (bed : Nat) :
    contextOf (allocate g p) bed = contextOf (bedsJudged g p) bed := by
  simp [contextOf, allocate_eq]

/-- Each zone's record takes its grant. -/
theorem zone_allocate {g : Store} {p : Part} {bed zone : Nat} {ctx : Context} {r : ZoneCuring}
    (hctx : contextOf p bed = some ctx) (hr : Map.find ctx.zones zone = some r) :
    ∃ after, contextOf (allocate g p) bed = some after ∧
      Map.find after.zones zone = some { r with grant := grantOf (grantsOf g p) bed zone } := by
  have hzones := zones_foldl_judgeStarved g (grantsOf g p) (Map.keys p.cc.contexts) (writeGrants (grantsOf g p) p) bed
  rw [contextOf_writeGrants, hctx] at hzones
  obtain ⟨after, hafter, heq⟩ := Option.map_eq_some_iff.mp hzones
  refine ⟨after, (contextOf_allocate g p bed).trans hafter, ?_⟩
  rw [heq, Map.find_mapRecords, hr]
  rfl

/-- What an allocation tells of the heat short flag, where it has changed (R83). -/
def heatTold (g : Store) (gs : List (Handed × Nat)) (before : Bool) (a : Alloc) : List Notice :=
  match (gs.filter isShort).head?, before with
  | some e, false => [.heatShort g.boiler a.requested a.granted a.short e.1.bed e.1.zone e.1.cls]
  | none, true => [.heatOk g.boiler a.requested]
  | _, _ => []

theorem heatNotice_notices {g : Store} {gs : List (Handed × Nat)} {before : Bool} {p : Part}
    (room : p.cl.notices.length < 24) :
    (heatNotice g gs before p).cl.notices = p.cl.notices ++ heatTold g gs before p.cc.alloc := by
  unfold heatNotice heatTold
  rw [List.head?_filter]
  cases gs.find? isShort <;> cases before <;> simp [raise_room room]

/-- With room for all of them: the starved beds' notices in bed order, then the heat short flag's. -/
theorem allocate_notices {g : Store} {p : Part} (room : p.cl.notices.length + p.cc.contexts.length + 1 ≤ 24) :
    ∃ starved, (allocate g p).cl.notices =
        p.cl.notices ++ starved ++ heatTold g (grantsOf g p) p.cc.alloc.heatShort (allocate g p).cc.alloc ∧
      (Map.rising p.cc.contexts = true → starved.map deviationTold =
        ((Map.keys p.cc.contexts).filterMap (starvedReport g (grantsOf g p) p)).map some) := by
  have hlen : (Map.keys p.cc.contexts).length = p.cc.contexts.length := List.length_map _
  obtain ⟨starved, hnotices, hfew, htold⟩ := foldl_judgeStarved_notices (g := g) (gs := grantsOf g p)
    (beds := Map.keys p.cc.contexts) (p := writeGrants (grantsOf g p) p) (by simp only [writeGrants_keeps]; omega)
  simp only [writeGrants_keeps] at hnotices
  refine ⟨starved, ?_, fun hrising => ?_⟩
  · have hjudged : (bedsJudged g p).cl.notices = p.cl.notices ++ starved := hnotices
    have hroom : (bedsJudged g p).cl.notices.length < 24 := by
      rw [hjudged, List.length_append]
      omega
    have hheat := heatNotice_notices (g := g) (gs := grantsOf g p) (before := p.cc.alloc.heatShort)
      (p := setAlloc (allocRecord (100 * g.boiler) (grantsOf g p)) (bedsJudged g p)) hroom
    rw [setAlloc_cl, setAlloc_alloc, hjudged] at hheat
    simpa [allocate_alloc, allocate_eq] using hheat
  · simpa only [starvedReport_writeGrants] using htold (keys_nodup hrising)

/-- The reports of an allocation, read off the contexts: the beds with a zone short, at the starve limit, whose pour BS
holds as current and CLOSED. -/
theorem filterMap_starvedReport {g : Store} {gs : List (Handed × Nat)} {p : Part}
    (hrising : Map.rising p.cc.contexts = true) :
    (Map.keys p.cc.contexts).filterMap (starvedReport g gs p) =
      (p.cc.contexts.filter fun e => starvedDue g gs e.1 e.2 && deviationHeard p e.1 e.2.pour).map fun e =>
        (e.1, e.2.pour, starvedEntry e.2) := by
  rw [Map.keys, List.filterMap_map, ← List.filterMap_eq_map, List.filterMap_filter]
  refine List.filterMap_congr fun e he => ?_
  have hctx : contextOf p e.1 = some e.2 := (find_eq_some_iff_mem hrising).mpr he
  simp [starvedReport, hctx]

/-- Whether a bed is starved is whether it stands among the zones granted less than their request. -/
theorem bedStarved_eq_any_short (gs : List (Handed × Nat)) (bed : Nat) :
    bedStarved gs bed = (gs.filter isShort).any fun k => k.1.bed == bed := by
  rw [bedStarved, List.any_filter]
  exact congrArg gs.any (funext fun e => Bool.and_comm _ _)

/-! ### The obligation -/

/-- The wanted opening of a zone granted less than its request lies below its demand (R84). -/
theorem wantedOpening_of_zone {g : Store} {p : Part} {bed zone : Nat} {ctx : Context} {r : ZoneCuring}
    (hctx : contextOf p bed = some ctx) (hr : Map.find ctx.zones zone = some r) :
    wantedOpening g p bed zone = r.grant / ratingOf g bed zone ∧
      (r.request = r.demand * ratingOf g bed zone → r.grant < r.request → wantedOpening g p bed zone < r.demand) := by
  have hwanted : wantedOpening g p bed zone = r.grant / ratingOf g bed zone := by simp [wantedOpening, hctx, hr]
  refine ⟨hwanted, fun hreq hshort => ?_⟩
  rw [hwanted]
  exact Nat.div_lt_of_lt_mul (by rwa [Nat.mul_comm, ← hreq])

/-- Settles O31: the grants by their recursion over the zones in order of service, the notices by one judged bed after
another. -/
theorem allocationInOrder : Obligations.AllocationInOrder := by
  unfold Obligations.AllocationInOrder
  refine ⟨?covered, ?exceeded, ?order, fun g p bed zone ctx r => wantedOpening_of_zone, fun g p => ?allocation⟩
  case covered =>
    exact fun cap l hcap => ⟨grantAll_of_covered hcap, partialOf_grantAll_of_covered hcap⟩
  case exceeded =>
    exact fun cap a b h hcap hover =>
      ⟨grantAll_of_exceeded hcap hover, partialOf_grantAll_of_exceeded hcap hover⟩
  case order =>
    refine fun l => ⟨serviceOrder_perm l, (serviceOrder_pairwise l).imp fun {a b} hab => ?_⟩
    simpa only [servedFirst_iff, classRank_eq_idxOf] using hab
  case allocation =>
    intro gs short rec_
    have hrec : rec_ = allocRecord (100 * g.boiler) gs := allocate_alloc g p
    refine ⟨congrArg Alloc.capacity hrec, congrArg Alloc.requested hrec, congrArg Alloc.granted hrec, ?served,
      congrArg Alloc.short hrec, congrArg Alloc.partialZone hrec, congrArg Alloc.last hrec, ?flag, ?zones, ?notices⟩
    case served => exact (congrArg Alloc.served hrec).trans (length_grantAll_serviceOrder _ _)
    case flag => simp [hrec, allocRecord, short, isShort]
    case zones =>
      refine fun hp => ⟨fun h => mem_handedOver hp, fun bed ctx zone r hctx hr => ?_⟩
      obtain ⟨after, hafter, hzone⟩ := zone_allocate hctx hr
      exact ⟨after, _, hafter, hzone, grantOf_handedOver hp hctx hr⟩
    case notices =>
      intro room
      obtain ⟨starved, hnotices, htold⟩ := allocate_notices (g := g) room
      refine ⟨starved, hnotices, fun hrising => ?_⟩
      rw [htold hrising, filterMap_starvedReport hrising, List.map_map]
      refine congrArg _ (List.filter_congr fun e _ => ?_)
      have hshort : bedStarved (grantsOf g p) e.1 = short.any fun k => k.1.bed == e.1 := bedStarved_eq_any_short _ _
      simp only [starvedDue, deviationHeard, hshort, Bool.and_assoc]

end Sys2Proof.Proofs
end

section
/-!
PROOFS. RETRY MOVE, and the end of every request that changes no condition of a piece and triggers the dispatch scan:
one scan in RUN, which moves no piece, clears no dig lock and raises no notice (R121, R133).
-/

namespace Sys2Proof.Proofs

open Sys2Proof.Machine

/-! ### What a scan leaves of a slot -/

/-- What a slot holds beside its engagement: its stack and its dig lock. -/
def stackAndLock (p : Part) (n : Nat) : List Nat × Option Nat := ((slotOf p n).stack, (slotOf p n).lock)

theorem stackAndLock_congr {p q : Part} (h : q.sm.slots = p.sm.slots) (n : Nat) :
    stackAndLock q n = stackAndLock p n := by
  rw [stackAndLock, stackAndLock, slotOf, slotOf, h]

theorem stackAndLock_engageSlot (move : Nat) (role : Role) (slot : Nat) (p : Part) (n : Nat) :
    stackAndLock (engageSlot move role slot p) n = stackAndLock p n := by
  by_cases hn : n = slot
  · subst hn
    simp [stackAndLock, engageSlot, slotOf, putSlot]
  · simp [stackAndLock, engageSlot, slotOf, putSlot, hn]

theorem stackAndLock_engage (move : Nat) (source dest : Option Nat) (p : Part) (n : Nat) :
    stackAndLock (engage move source dest p) n = stackAndLock p n := by
  have engaged (free : Bool) {q : Part} (hq : stackAndLock q n = stackAndLock p n) :
      stackAndLock (if free then stockChange [] q else p) n = stackAndLock p n := by
    cases free
    · rfl
    · exact hq
  cases source <;> cases dest <;> exact engaged _ (by simp only [stackAndLock_engageSlot])

theorem stackAndLock_dispatch (g : Store) (c : CraneId) (m : Move) (d : Dest) (p : Part) (n : Nat) :
    stackAndLock (dispatch g c m d p) n = stackAndLock p n := by
  rw [← stackAndLock_engage m.number m.source.slotNumber d.slotNumber p n]
  exact stackAndLock_congr (by simp [dispatch]) n

theorem stackAndLock_visit (g : Store) (w : Walk) (move n : Nat) :
    stackAndLock (visit g w move).part n = stackAndLock w.part n := by
  unfold visit
  split
  · rfl
  · split
    · rfl
    · split
      · dsimp only
        split
        · exact stackAndLock_dispatch _ _ _ _ _ _
        · rfl
      · rfl

theorem stackAndLock_walk (g : Store) (moves : List Nat) (w : Walk) (n : Nat) :
    stackAndLock (moves.foldl (visit g) w).part n = stackAndLock w.part n := by
  induction moves generalizing w with
  | nil => rfl
  | cons move moves ih => rw [List.foldl_cons, ih, stackAndLock_visit]

theorem stackAndLock_giveWay (g : Store) (first : Option Nat) (p : Part) (n : Nat) :
    stackAndLock (giveWay g first p) n = stackAndLock p n :=
  stackAndLock_congr (by simp) n

/-- A scan engages slots, and touches no stack and no dig lock. -/
theorem stackAndLock_scan (g : Store) (p : Part) (n : Nat) : stackAndLock (scan g p) n = stackAndLock p n := by
  dsimp only [scan]
  split
  · exact stackAndLock_walk _ _ _ _
  · exact (stackAndLock_giveWay _ _ _ _).trans (stackAndLock_walk _ _ _ _)

/-! ### A request that triggers the scan -/

/-- An event that changed no condition of a piece and triggered the scan ends with one scan in RUN (R121). -/
theorem endOfEvent_triggered {g : Store} {p : Part} (hchanged : p.evt.changed = []) (hscan : p.evt.scan = true) :
    endOfEvent g p = { (if p.mc.mode = .run then scan g p else p) with evt := .none } := by
  simp [endOfEvent, hchanged, hscan]

theorem afterScan_of_not_run {s : State} {u : Part} (h : s.mc.mode ≠ .run) : afterScan s u = u := if_neg h

theorem afterScan_keeps (s : State) (u : Part) :
    (afterScan s u).mc = u.mc ∧ (afterScan s u).bs = u.bs ∧ (afterScan s u).cc = u.cc ∧ (afterScan s u).tu = u.tu ∧
    (afterScan s u).cl = u.cl ∧ (afterScan s u).sm.pieces = u.sm.pieces ∧
    (afterScan s u).sm.timer = u.sm.timer ∧ ∀ n, stackAndLock (afterScan s u) n = stackAndLock u n := by
  unfold afterScan
  split
  · simp [stackAndLock_scan]
  · simp

/-- Records that a scan ends the event of have settled: the scan is all that followed. -/
theorem settles_of_scanned {s t : State} {u : Part} (hmc : u.mc = s.mc) (h : scanned s t u) : settles s t u := by
  obtain ⟨cl, evt, hafter⟩ := h
  have hstill : still u → becomes s t s.store u := fun hu => by
    rw [afterScan_of_not_run (by rw [← hmc]; exact hu.1)] at hafter
    exact hafter
  obtain ⟨kmc, kbs, kcc, ktu, -, kpieces, ktimer, kslots⟩ := afterScan_keeps s { u with cl := cl, evt := evt }
  obtain ⟨hstore, tmc, tbs, tcc, ttu, tsm, -, -, -, -, hpending⟩ := hafter
  refine ⟨hstore, tmc.trans kmc, tbs.trans kbs, tcc.trans kcc, ttu.trans ktu, ?_, ?_, hpending, fun n => ?_, hstill⟩
  · rw [tsm, kpieces]
  · rw [tsm, ktimer]
  · have hslot : stackAndLock t.toPart n = stackAndLock u n :=
      (stackAndLock_congr (by rw [tsm]) n).trans (kslots n)
    exact Prod.mk.inj hslot

/-- Serving the outgoing line and ending the event change no record of any other block. -/
theorem becomes_sendNext (s : State) (v : Part) :
    becomes s { s with toPart := sendNext { v with evt := .none } } s.store v :=
  ⟨rfl, rfl, rfl, rfl, rfl, rfl, rfl, rfl, rfl, rfl, rfl⟩

/-- The decision of an owner that took a request with the records `u`, touched nothing of CL and triggered the scan. -/
def scanDecision (kind tag : Nat) (s : State) (u : Part) (fields : List Field) : Decision :=
  { store := s.store, part := triggerScan { u with cl := (atOwner kind tag s).cl, evt := .none }, status := .ok,
    fields := fields, after := .nothing }

/-- The part after that decision with its reply queued, before the event ends. -/
def scanReplied (kind tag : Nat) (s : State) (u : Part) (fields : List Field) : Part :=
  queueReply (replyOf kind tag (scanDecision kind tag s u fields)) (scanDecision kind tag s u fields).part

theorem endOfEvent_scanReplied {s : State} {u : Part} (kind tag : Nat) (fields : List Field) (hmc : u.mc = s.mc) :
    endOfEvent s.store (scanReplied kind tag s u fields) =
      { afterScan s (scanReplied kind tag s u fields) with evt := .none } := by
  rw [endOfEvent_triggered rfl rfl, afterScan]
  simp [scanReplied, scanDecision, hmc]

/-- A request so decided is answered OK, no notice is raised, and one scan of the records follows in RUN (R121, R177). -/
theorem receive_scanDecision {s : State} (h : ready s) {kind tag : Nat} {decide : Store → Part → Decision} {u : Part}
    {fields : List Field} (hd : decide s.store (atOwner kind tag s) = scanDecision kind tag s u fields)
    (hmc : u.mc = s.mc) :
    let t := receive kind tag decide s
    settles s t u ∧ scanned s t u ∧ answered s t kind tag .ok fields .nothing ∧ told s t [] := by
  intro t
  have ht : t = { s with toPart := sendNext { afterScan s (scanReplied kind tag s u fields) with evt := .none } } := by
    rw [← endOfEvent_scanReplied kind tag fields hmc]
    simp only [t, receive_ready h, hd]
    rfl
  have hcl : t.cl = nextFrame (scanReplied kind tag s u fields).cl := by
    obtain ⟨-, -, -, -, kcl, -⟩ := afterScan_keeps s (scanReplied kind tag s u fields)
    rw [ht, sendNext_cl, kcl]
  have hscanned : scanned s t u := ⟨_, _, ht ▸ becomes_sendNext s (afterScan s (scanReplied kind tag s u fields))⟩
  exact ⟨settles_of_scanned hmc hscanned, hscanned, answered_of_link h hd rfl, told_nothing hcl rfl rfl rfl rfl⟩

/-! ### RETRY MOVE -/

theorem isId_eq_true_iff {last n : Nat} : isId last n = true ↔ 1 ≤ n ∧ n ≤ last := by simp [isId]

/-- A number outside the range is refused before the queue is looked at (section 7.6). -/
theorem forMove_of_not_inRange {n : Nat} {p : Part} {k : Move → Judgement Taken} (h : ¬ (1 ≤ n ∧ n ≤ 255)) :
    forMove n p k = .error .range := by
  rw [← isId_eq_true_iff, Bool.not_eq_true] at h
  simp [forMove, h]

theorem forMove_of_inRange {n : Nat} {p : Part} {k : Move → Judgement Taken} (h1 : 1 ≤ n) (h2 : n ≤ 255) :
    forMove n p k = must (moveOf p n) .unknown k := by
  simp [forMove, isId_eq_true_iff.mpr ⟨h1, h2⟩]

theorem moveOf_eq_none_iff {p : Part} {n : Nat} : moveOf p n = none ↔ ∀ m ∈ p.mp.queue, m.number ≠ n := by
  simp [moveOf]

theorem number_of_moveOf {p : Part} {n : Nat} {m : Move} (h : moveOf p n = some m) : m.number = n := by
  simpa using List.find?_some h

theorem moveOf_atOwner (kind tag : Nat) (s : State) (n : Nat) :
    moveOf (atOwner kind tag s) n = moveOf s.toPart n := rfl

theorem exec_retryMove (tag n : Nat) (s : State) :
    exec (.retryMove tag n) s = .next (receive 0x2A tag (byPart (retryMove n)) s) := by
  rfl

/-- What RETRY MOVE may be made of: a move SUSPENDED that no crane has (R133). -/
theorem retryMove_of_moveOf {n : Nat} {g : Store} {p : Part} {m : Move} (h1 : 1 ≤ n) (h2 : n ≤ 255)
    (hm : moveOf p n = some m) :
    (m.state ≠ .suspended ∨ m.crane.isSome → retryMove n g p = .error .state) ∧
    (m.state = .suspended → m.crane = none → retryMove n g p =
      .ok { part := triggerScan (putMove { m with state := .queued, reason := none } p) }) := by
  rw [retryMove, forMove_of_inRange h1 h2, hm, must_some]
  constructor
  · rintro (hstate | hcrane)
    · simp [beq_false_of_ne hstate]
    · simp [Option.isNone_eq_false_iff.mpr hcrane]
  · intro hstate hcrane
    simp [hstate, hcrane]

theorem refusedWith_retryMove {s : State} (h : ready s) {tag n : Nat} {st : Status}
    (hr : retryMove n s.store (atOwner 0x2A tag s) = .error st) :
    runsTo (.retryMove tag n) s fun t => refusedWith s t 0x2A tag st :=
  ⟨_, exec_retryMove tag n s, refused h (byPart_refuses hr)⟩

/-- Settles O42: each check of RETRY MOVE in turn, then the one scan that follows a move taken back to QUEUED. -/
theorem retryMoveResult : Obligations.RetryMoveResult := by
  unfold Obligations.RetryMoveResult
  refine fun s tag n h => ⟨fun hrange => ?range, fun h1 h2 habsent => ?unknown, fun m h1 h2 hm => ?found⟩
  case range => exact refusedWith_retryMove h (forMove_of_not_inRange hrange)
  case unknown =>
    have hnone : moveOf (atOwner 0x2A tag s) n = none := moveOf_eq_none_iff.mpr habsent
    refine refusedWith_retryMove h ?_
    rw [retryMove, forMove_of_inRange h1 h2, hnone, must_none]
  case found =>
    have hm' : moveOf (atOwner 0x2A tag s) n = some m := (moveOf_atOwner _ _ _ _).trans hm
    obtain ⟨hstate, htaken⟩ := retryMove_of_moveOf (g := s.store) h1 h2 hm'
    refine ⟨fun hbad => refusedWith_retryMove h (hstate hbad), fun hsuspended hfree => ?_⟩
    obtain rfl := number_of_moveOf hm
    refine ⟨_, exec_retryMove tag m.number s, receive_scanDecision h ?_ rfl⟩
    rw [byPart, htaken hsuspended hfree]
    rfl

end Sys2Proof.Proofs
end

section
/-!
PROOFS. What an event can do to three records at once: MP's record changes by a few moves of its own (R117 to R120), CL's
by notices raised (R178), and CC keeps one context a bed with one record a zone (section 4.1). Every shared operation is
followed through once; what every step keeps is then read off (chapters 1, 4, 7 and 10).
-/

namespace Sys2Proof.Proofs

open Sys2Proof.Machine

/-! ### Notices raised -/

/-- `raise`, said of CL's record alone (R178). -/
def raiseLink (k : CommandLink) (n : Notice) : CommandLink :=
  if k.notices.length < 24 then { k with notices := k.notices ++ [n] }
  else { k with overflow := true, dropped := satSucc 65535 k.dropped }

theorem raise_cl (n : Notice) (p : Part) : (raise n p).cl = raiseLink p.cl n := by
  by_cases h : p.cl.notices.length < 24 <;> simp [raise, raiseLink, Config.noticePlaces, h]

/-- CL's record after some notices were raised, and nothing else. -/
def Raised (k l : CommandLink) : Prop := ∃ ns : List Notice, l = ns.foldl raiseLink k

theorem Raised.refl (k : CommandLink) : Raised k k := ⟨[], rfl⟩

theorem Raised.trans {k l m : CommandLink} : Raised k l → Raised l m → Raised k m := by
  rintro ⟨ns, rfl⟩ ⟨ms, rfl⟩
  exact ⟨ns ++ ms, List.foldl_append.symm⟩

theorem linkCore_raiseLink (k : CommandLink) (n : Notice) : linkCore (raiseLink k n) = linkCore k := by
  unfold raiseLink
  split <;> rfl

theorem Raised.linkCore_eq {k l : CommandLink} : Raised k l → linkCore l = linkCore k := by
  rintro ⟨ns, rfl⟩
  induction ns generalizing k with
  | nil => rfl
  | cons n ns ih => exact ih.trans (linkCore_raiseLink k n)

theorem raiseLink_notices_le {k : CommandLink} (n : Notice) (h : k.notices.length ≤ 24) :
    (raiseLink k n).notices.length ≤ 24 := by
  unfold raiseLink
  split
  · simp only [List.length_append, List.length_singleton]
    omega
  · exact h

theorem Raised.notices_le {k l : CommandLink} (hl : Raised k l) (h : k.notices.length ≤ 24) : l.notices.length ≤ 24 := by
  obtain ⟨ns, rfl⟩ := hl
  induction ns generalizing k with
  | nil => exact h
  | cons n ns ih => exact ih (raiseLink_notices_le n h)

/-! ### Changes of MP's record -/

/-- MP's record with a new move queued under the next number (R117). -/
def MovePlanner.joined (m : MovePlanner) (atHead : Bool) (x : Move) : MovePlanner :=
  { m with
    queue := if atHead then { x with number := seekNumber m.queue 255 m.counter } :: m.queue
      else m.queue ++ [{ x with number := seekNumber m.queue 255 m.counter }]
    counter := nextNumber (seekNumber m.queue 255 m.counter) }

/-- The few ways in which MP's record changes: moves leave the queue, are written again under their number or change
places; a new move joins with the next number where there is room; the reservations change without leaving their order; the
backlog is written; a start clears everything. -/
inductive PlannerChange (g : Store) : MovePlanner → MovePlanner → Prop
  | requeue (m : MovePlanner) (q : List Move) (h : (q.map (·.number)).Subperm (m.queue.map (·.number))) :
      PlannerChange g m { m with queue := q }
  | join (m : MovePlanner) (atHead : Bool) (x : Move) (room : m.queue.length < 32) :
      PlannerChange g m (MovePlanner.joined m atHead x)
  | reserve (m : MovePlanner) (a b : Option Reservation)
      (h : g.inRange → ordered m.resA m.resB = true → ordered a b = true) :
      PlannerChange g m { m with resA := a, resB := b }
  | backlog (m : MovePlanner) (l : List Nat) : PlannerChange g m { m with backlog := l }
  | cleared (m : MovePlanner) :
      PlannerChange g m { queue := [], counter := 1, backlog := [], resA := none, resB := none }

/-- What an event may have done to the records of MP, CL and CC between two states of the part. -/
structure Acts (g : Store) (p q : Part) : Prop where
  planner : Relation.ReflTransGen (PlannerChange g) p.mp q.mp
  link : Raised p.cl q.cl
  curing : g.inRange → curingSound p → curingSound q

namespace Acts

variable {g : Store} {o p q : Part}

theorem refl (p : Part) : Acts g p p := ⟨.refl, .refl _, fun _ h => h⟩

theorem trans (h : Acts g o p) (k : Acts g p q) : Acts g o q :=
  ⟨h.planner.trans k.planner, h.link.trans k.link, fun hg hp => k.curing hg (h.curing hg hp)⟩

/-- What leaves the three records as they stand. -/
theorem same (h : Acts g o p) (hmp : q.mp = p.mp := by simp) (hcl : q.cl = p.cl := by simp)
    (hcc : q.cc.contexts = p.cc.contexts := by simp) : Acts g o q :=
  h.trans ⟨hmp ▸ .refl, hcl ▸ .refl _, fun _ hp => by simpa only [curingSound, hcc] using hp⟩

/-- What changes MP's record alone. -/
theorem plan (h : Acts g o p) (hmp : PlannerChange g p.mp q.mp) (hcl : q.cl = p.cl := by simp)
    (hcc : q.cc.contexts = p.cc.contexts := by simp) : Acts g o q :=
  h.trans ⟨.single hmp, hcl ▸ .refl _, fun _ hp => by simpa only [curingSound, hcc] using hp⟩

/-- What changes the contexts alone. -/
theorem cure (h : Acts g o p) (hcc : g.inRange → curingSound p → curingSound q) (hmp : q.mp = p.mp := by simp)
    (hcl : q.cl = p.cl := by simp) : Acts g o q :=
  h.trans ⟨hmp ▸ .refl, hcl ▸ .refl _, hcc⟩

theorem foldl {α : Type} {f : Part → α → Part} (hf : ∀ (p : Part) (a : α), Acts g p (f p a)) (l : List α) (p : Part) :
    Acts g p (l.foldl f p) := by
  induction l generalizing p with
  | nil => exact refl p
  | cons a l ih => exact (hf p a).trans (ih _)

theorem then_raise (h : Acts g o p) (n : Notice) : Acts g o (raise n p) :=
  h.trans ⟨(raise_mp n : (raise n p).mp = p.mp) ▸ .refl, ⟨[n], raise_cl n p⟩,
    fun _ hp => by simpa [curingSound] using hp⟩

end Acts

variable {g : Store} {o p : Part}

/-! ### MP's own operations -/

theorem moveNumbers_putMove (m : Move) (p : Part) : (putMove m p).mp.queue.map (·.number) = p.mp.queue.map (·.number) := by
  simp only [putMove, List.map_map]
  refine List.map_congr_left fun k _ => ?_
  by_cases hk : k.number = m.number <;> simp [hk]

/-- A queue that holds no number but those of the queue before it, none twice as often. -/
theorem Acts.then_requeue (h : Acts g o p) {q : Part}
    (hq : (q.mp.queue.map (·.number)).Subperm (p.mp.queue.map (·.number)))
    (hmp : q.mp = { p.mp with queue := q.mp.queue }) (hcl : q.cl = p.cl := by simp)
    (hcc : q.cc.contexts = p.cc.contexts := by simp) : Acts g o q :=
  h.plan (hmp ▸ .requeue p.mp q.mp.queue hq) hcl hcc

theorem Acts.then_putMove (h : Acts g o p) (m : Move) : Acts g o (putMove m p) :=
  h.then_requeue (moveNumbers_putMove m p ▸ .refl _) rfl

theorem Acts.then_setBacklog (h : Acts g o p) (l : List Nat) : Acts g o (setBacklog l p) := h.plan (.backlog p.mp l)

theorem removeMove_mp (n : Nat) (p : Part) :
    (removeMove n p).mp = p.mp ∨ (removeMove n p).mp = { p.mp with queue := p.mp.queue.filter fun k => k.number != n } := by
  unfold removeMove
  split
  · exact .inl rfl
  · refine .inr ?_
    dsimp only
    split <;> simp [setQueue]

theorem Acts.then_removeMove (h : Acts g o p) (n : Nat) : Acts g o (removeMove n p) := by
  obtain hmp | hmp := removeMove_mp n p
  · exact h.same hmp
  · refine h.then_requeue ?_ (by rw [hmp])
    rw [hmp]
    exact (List.filter_sublist.map _).subperm

theorem Acts.then_removeMoves (h : Acts g o p) (l : List Nat) : Acts g o (l.foldl (fun p n => removeMove n p) p) :=
  h.trans (.foldl (fun p n => (Acts.refl p).then_removeMove n) l p)

theorem joinQueue_mp (atHead : Bool) (m : Move) (p : Part) :
    (joinQueue atHead m p).mp = MovePlanner.joined p.mp atHead m := by
  unfold joinQueue
  dsimp only
  split <;> simp [MovePlanner.joined, newNumber]

theorem joined_length (m : MovePlanner) (atHead : Bool) (x : Move) :
    (MovePlanner.joined m atHead x).queue.length = m.queue.length + 1 := by
  cases atHead <;> simp [MovePlanner.joined]

theorem Acts.then_joinQueue (h : Acts g o p) (room : p.mp.queue.length < 32) (atHead : Bool) (m : Move) :
    Acts g o (joinQueue atHead m p) :=
  h.plan (joinQueue_mp atHead m p ▸ .join p.mp atHead m room)

theorem Acts.then_queueStrip (h : Acts g o p) (room : p.mp.queue.length < 32) (mark : Nat) :
    Acts g o (queueStrip mark p) := by
  unfold queueStrip
  split
  · split
    · exact h.then_joinQueue room _ _
    · exact h
  · exact h

theorem queueStrip_length_le (mark : Nat) (p : Part) :
    (queueStrip mark p).mp.queue.length ≤ p.mp.queue.length + 1 := by
  unfold queueStrip
  split
  · split
    · rw [joinQueue_mp, joined_length]
    · exact Nat.le_succ _
  · exact Nat.le_succ _

theorem freeEntries_eq (p : Part) : freeEntries p = 32 - p.mp.queue.length := rfl

theorem Acts.then_queueStrips (h : Acts g o p) {marks : List Nat} (room : marks.length ≤ freeEntries p) :
    Acts g o (queueStrips marks p) := by
  induction marks generalizing p with
  | nil => exact h
  | cons mark marks ih =>
    simp only [List.length_cons, freeEntries_eq] at room ih
    have hlen := queueStrip_length_le mark p
    have next : Acts g o (queueStrips marks (queueStrip mark p)) := ih (h.then_queueStrip (by omega) mark) (by omega)
    exact next

theorem Acts.then_fillFrom (h : Acts g o p) (l : List Nat) : Acts g o (fillFrom l p) := by
  induction l generalizing p with
  | nil => exact h.then_setBacklog _
  | cons mark l ih =>
    unfold fillFrom
    split
    next room =>
      refine ih ?_
      split
      · exact h.then_queueStrip room mark
      · exact h
    next => exact h.then_setBacklog _

theorem Acts.then_backlogFill (h : Acts g o p) : Acts g o (backlogFill p) := h.then_fillFrom _

/-! ### Reservations (R119, R120) -/

/-- Reservations that keep their order, told by the condition of R119 that they meet. -/
theorem Acts.then_reserve (h : Acts g o p) {q : Part}
    (hq : g.inRange → ordered p.mp.resA p.mp.resB = true → ordered q.mp.resA q.mp.resB = true)
    (hmp : q.mp = { p.mp with resA := q.mp.resA, resB := q.mp.resB }) (hcl : q.cl = p.cl := by simp)
    (hcc : q.cc.contexts = p.cc.contexts := by simp) : Acts g o q :=
  h.plan (hmp ▸ .reserve p.mp _ _ hq) hcl hcc

theorem ordered_some_left (a : Reservation) (b : Option Reservation) :
    ordered (some a) b = true ↔ ∀ r, b = some r → a.hi < r.lo := by
  cases b <;> simp [ordered, westOf]

theorem ordered_some_right (a : Option Reservation) (b : Reservation) :
    ordered a (some b) = true ↔ ∀ r, a = some r → r.hi < b.lo := by
  cases a <;> simp [ordered, westOf]

/-- The part of a reservation that a crane keeps as it comes to rest lies within it, and so on its own side. -/
theorem Acts.then_comeToRest (h : Acts g o p) (c : CraneId) (pos : Int) : Acts g o (comeToRest g c pos p) := by
  refine h.then_reserve (fun _ hab => ?_) (by cases c <;> rfl)
  cases c <;> simp only [comeToRest, triggerScan, writeReservation, reservationOf] <;> revert hab <;>
    cases p.mp.resA <;> cases p.mp.resB <;> simp [ordered, westOf, restWithin] <;> omega

/-- Crane `c`'s reservation `a` lies on its own side of the other crane's `b` (R119). -/
def onOwnSide (c : CraneId) (a b : Reservation) : Prop :=
  match c with
  | .A => a.hi < b.lo
  | .B => b.hi < a.lo

theorem Acts.then_writeReservation (h : Acts g o p) {c : CraneId} {r : Option Reservation}
    (hr : g.inRange → ordered p.mp.resA p.mp.resB = true →
      ∀ a b, r = some a → reservationOf p (otherCrane c) = some b → onOwnSide c a b) :
    Acts g o (writeReservation c r p) := by
  refine h.then_reserve (fun hg hab => ?_) (by cases c <;> rfl)
  have hr := hr hg hab
  cases c <;> cases r
  · rfl
  · exact (ordered_some_left _ _).mpr fun b hb => hr _ b rfl hb
  · simp [writeReservation, ordered]
  · exact (ordered_some_right _ _).mpr fun b hb => hr _ b rfl hb

theorem onOwnSide_of_fits {c : CraneId} {r b : Reservation} {p : Part} (hf : fits c r p = true)
    (hb : reservationOf p (otherCrane c) = some b) : onOwnSide c r b := by
  cases c
  · exact (ordered_some_left _ _).mp hf b hb
  · exact (ordered_some_right _ _).mp hf b hb

theorem Acts.then_setReservation (h : Acts g o p) {c : CraneId} {r : Reservation} (hf : fits c r p = true) :
    Acts g o (setReservation c r p) := by
  have hw : Acts g o (writeReservation c (some r) p) := h.then_writeReservation fun _ _ _ _ ha hb => by
    cases ha
    exact onOwnSide_of_fits hf hb
  unfold setReservation
  split
  · exact hw.same
  · exact hw

theorem Acts.then_askReservation (h : Acts g o p) {c : CraneId} {basis : List Int} {q : Part}
    (hq : askReservation g c basis p = some q) : Acts g o q := by
  unfold askReservation at hq
  split at hq
  next hf => cases hq; exact h.then_setReservation hf
  next => cases hq

/-! ### Triggers and engagements -/

theorem Acts.then_triggerScan (h : Acts g o p) : Acts g o (triggerScan p) := h.same

theorem Acts.then_stockChange (h : Acts g o p) (marks : List Nat) : Acts g o (stockChange marks p) := h.same

theorem Acts.then_release (h : Acts g o p) (n : Nat) : Acts g o (release n p) := h.same

/-! ### Suspension and the end of a move -/

theorem Acts.then_suspendBound (h : Acts g o p) (n : Nat) (reason : SuspendReason) :
    Acts g o (suspendBound n reason p) := by
  unfold suspendBound
  split
  · exact (h.then_putMove _).then_triggerScan
  · exact h

theorem Acts.then_suspendUnbound (h : Acts g o p) (n : Nat) (c : CraneId) (pos : Int) (reason : SuspendReason) :
    Acts g o (suspendUnbound g n c pos reason p) := by
  unfold suspendUnbound
  split
  next m _ => exact ((h.then_putMove _).then_release n).then_comeToRest c pos
  next => exact h

theorem Acts.then_moveDone (h : Acts g o p) (n : Nat) (c : CraneId) (pos : Int) : Acts g o (moveDone g n c pos p) :=
  ((h.then_removeMove n).then_comeToRest c pos).then_backlogFill

/-! ### Deviations, beds and pieces -/

theorem Acts.then_recordDeviation (h : Acts g o p) (bed pour : Nat) (d : Deviation) :
    Acts g o (recordDeviation g bed pour d p) := by
  unfold recordDeviation
  split
  · exact h
  · refine Acts.then_raise ?_ _
    split <;> exact h.same

theorem Acts.then_reportDeviation (h : Acts g o p) (bed pour : Nat) (d : Deviation) :
    Acts g o (reportDeviation g bed pour d p) := by
  unfold reportDeviation
  split
  · exact h.then_recordDeviation bed pour d
  · exact h

theorem Acts.then_closeContext (h : Acts g o p) (bed : Nat) : Acts g o (closeContext bed p) :=
  h.cure fun _ ⟨hrising, hzones⟩ => ⟨Map.del_rising hrising bed, fun e he => hzones e (Map.mem_del he)⟩

theorem Acts.then_emptyBed (h : Acts g o p) (bed : Nat) : Acts g o (emptyBed bed p) := by
  unfold emptyBed
  split
  next n _ => exact ((h.same (q := clearCurrent n p)).then_closeContext bed).same
  next => exact (h.then_closeContext bed).same

theorem Acts.then_leftBed (h : Acts g o p) (bed pour : Nat) : Acts g o (leftBed bed pour p) := by
  unfold leftBed
  split
  · exact (h.then_emptyBed bed).then_raise _
  · exact h

theorem Acts.then_liftPiece (h : Acts g o p) (c : CraneId) (mark : Nat) : Acts g o (liftPiece c mark p) := by
  unfold liftPiece
  split
  · exact h
  · split
    · exact Acts.then_leftBed (h.same (q := putPiece _ _ _)) _ _
    · exact h.same
    · exact h.same

theorem Acts.then_placeOnSlot (h : Acts g o p) (m : Move) (mark slot : Nat) : Acts g o (placeOnSlot g m mark slot p) := by
  unfold placeOnSlot
  split
  · exact h
  · exact Acts.then_raise (h.same (q := stockChange _ _)) _

theorem Acts.then_removePiece (h : Acts g o p) (mark : Nat) : Acts g o (removePiece mark p) := h.same

theorem Acts.then_placeInBay (h : Acts g o p) (m : Move) (mark bay : Nat) : Acts g o (placeInBay m mark bay p) := by
  unfold placeInBay
  split
  · exact h
  · exact ((h.then_release m.number).then_raise _).then_removePiece mark

/-! ### Stops and halts -/

theorem Acts.then_beginStep (h : Acts g o p) (c : CraneId) (step : Step) : Acts g o (beginStep g c step p) := h.same

theorem Acts.then_takeMove (h : Acts g o p) (c : CraneId) (m : Move) : Acts g o (takeMove g c m p) := h.same

theorem Acts.then_stopNotices (h : Acts g o p) (c : CraneId) (reason : StopReason) :
    Acts g o (stopNotices c reason p) := by
  unfold stopNotices
  dsimp only
  split
  · split
    · exact h.then_raise _
    · exact (h.then_raise _).then_raise _
    · exact h.then_raise _
  · exact h.then_raise _

theorem Acts.then_stopCrane (h : Acts g o p) (c : CraneId) (reason : StopReason) (sendStop : Bool) :
    Acts g o (stopCrane g c reason sendStop p) := by
  unfold stopCrane
  refine Acts.then_stopNotices ?_ c reason
  have entered : Acts g o (enterState g c
      (stoppedRecord (craneOf (if sendStop then offerPlain g c .stop
        (withdraw g c (putCrane c { craneOf p c with command := none, kept := none } p))
        else withdraw g c (putCrane c { craneOf p c with command := none, kept := none } p)) c) reason)
      (if sendStop then offerPlain g c .stop
        (withdraw g c (putCrane c { craneOf p c with command := none, kept := none } p))
        else withdraw g c (putCrane c { craneOf p c with command := none, kept := none } p))) := by
    cases sendStop <;> exact h.same
  split
  · exact entered.then_suspendBound _ _
  · exact entered

theorem Acts.then_stopIfLocated (h : Acts g o p) (c : CraneId) (reason : StopReason) (sendStop : Bool) :
    Acts g o (stopIfLocated g c reason sendStop p) := by
  unfold stopIfLocated
  split
  · exact h.then_stopCrane c reason sendStop
  · exact h

theorem Acts.then_withdrawShip (h : Acts g o p) (m : Move) : Acts g o (withdrawShip g m p) := by
  unfold withdrawShip
  split
  next c _ _ _ _ =>
    split
    · exact h
    · exact Acts.then_raise (Acts.then_suspendUnbound (h.same (q := haltMove g c p)) _ _ _ _) _
  next => exact h

/-! ### A crane's reply -/

theorem Acts.then_locateCrane (h : Acts g o p) (c : CraneId) (pos : Int) : Acts g o (locateCrane g c pos p) := by
  unfold locateCrane
  split
  next hq => exact (h.then_askReservation hq).same
  next => exact h.then_stopCrane c _ _

theorem Acts.then_overrunCheck (h : Acts g o p) (c : CraneId) (pos : Int) : Acts g o (overrunCheck g c pos p) := by
  unfold overrunCheck
  split
  · exact h
  · split
    · exact Acts.then_stopIfLocated ((h.then_stopCrane c .overrun true).same (q := offerPlain g (otherCrane c) .stop _))
        _ _ _
    · exact h

theorem Acts.then_countFault (h : Acts g o p) (c : CraneId) (fault : Bool) : Acts g o (countFault g c fault p) := by
  have counted (n : Nat) : Acts g o (putCrane c { craneOf p c with faults := n } p) := h.same
  unfold countFault
  dsimp only
  generalize (if fault then satSucc 8 (craneOf p c).faults else 0) = n
  split
  · exact (counted n).then_stopIfLocated c _ _
  · exact counted n

theorem Acts.then_acceptLoad (h : Acts g o p) (c : CraneId) (mark : Nat) : Acts g o (acceptLoad g c mark p) :=
  (Acts.then_liftPiece (h.same (q := putCrane c { craneOf p c with load := some mark } p)) c mark).then_beginStep c .lift

theorem Acts.then_refuseLoad (h : Acts g o p) (c : CraneId) (m : Move) (mark mass : Nat) (y : CraneReply)
    (reason : SuspendReason) : Acts g o (refuseLoad g c m mark mass y reason p) :=
  Acts.then_raise (Acts.then_suspendUnbound (h.same (q := beginStep g c .lower _)) _ _ _ _) _

theorem Acts.then_loadCheck (h : Acts g o p) (c : CraneId) (y : CraneReply) : Acts g o (loadCheck g c y p) := by
  unfold loadCheck
  split
  · exact h
  · split
    · exact h
    · dsimp only
      split
      · exact h.then_acceptLoad c _
      · exact h.then_refuseLoad c _ _ _ _ _
      · exact h.then_refuseLoad c _ _ _ _ _

theorem Acts.then_becomeIdle (h : Acts g o p) (c : CraneId) : Acts g o (becomeIdle g c p) := h.same

theorem Acts.then_placePiece (h : Acts g o p) (m : Move) (mark : Nat) : Acts g o (placePiece g m mark p) := by
  unfold placePiece
  split
  · exact h.then_placeOnSlot m mark _
  · exact h.then_placeInBay m mark _
  · exact h

theorem Acts.then_finishMove (h : Acts g o p) (c : CraneId) (m : Move) (mark : Nat) (pos : Int) :
    Acts g o (finishMove g c m mark pos p) :=
  (Acts.then_moveDone (Acts.then_raise ((h.then_placePiece m mark).same (q := putCrane c _ _)) _) _ _ _).then_becomeIdle c

theorem Acts.then_completeStep (h : Acts g o p) (c : CraneId) (y : CraneReply) (step : Step) :
    Acts g o (completeStep g c y step p) := by
  unfold completeStep
  split
  · exact h.same
  · exact h.then_loadCheck c y
  · exact h.same
  · exact h.same
  · split
    · split
      · exact h.then_finishMove c _ _ _
      · exact h.then_becomeIdle c
    · exact h.then_becomeIdle c
  · split
    · exact (h.then_moveDone _ c _).then_becomeIdle c
    · exact h.then_becomeIdle c

theorem Acts.then_judgeStep (h : Acts g o p) (c : CraneId) (exchange : Nat) (y : CraneReply) :
    Acts g o (judgeStep g c exchange y p) := by
  unfold judgeStep
  split
  · exact h
  · split
    · exact h.then_completeStep c y _
    · exact h

theorem Acts.then_takeCraneReply (h : Acts g o p) (c : CraneId) (exchange : Nat) (y : CraneReply) :
    Acts g o (takeCraneReply g c exchange y p) := by
  have stored : Acts g o (putCrane c (storeValues y (craneOf p c)) p) := h.same
  unfold takeCraneReply
  dsimp only
  refine Acts.then_judgeStep (Acts.then_countFault (Acts.then_overrunCheck ?_ c _) c _) c exchange y
  split
  · exact stored.then_locateCrane c _
  · exact stored

/-! ### The scan and the end of an event -/

/-- A reservation about positions within the allowed span of a crane lies on the crane's own side (R119, R123). -/
theorem onOwnSide_stretch {c : CraneId} {r : Reservation} {span : Int × Int} {a b d : Int} (hg : g.inRange)
    (hspan : allowedSpan g c (some r) = some span) (ha : within span a = true) (hb : within span b = true)
    (hd : within span d = true) : onOwnSide c (stretch g [a, b, d]) r := by
  have hclearance : 50 ≤ g.plant.clearance := by
    obtain ⟨-, hplant, -⟩ := hg
    obtain ⟨-, -, -, -, -, -, -, -, -, -, -, ⟨hlo, -⟩, -⟩ := hplant
    exact hlo
  have hrunway : 100 ≤ g.runway := hg.1.1
  simp only [within, Bool.and_eq_true, decide_eq_true_eq] at ha hb hd
  cases c <;> cases hspan <;>
    simp only [onOwnSide, stretch, leastInt, greatestInt, clampInt, Option.getD_some] at * <;> omega

theorem mem_of_bestSlot {l : List (Nat × Nat × Nat)} {a : Nat × Nat × Nat} (h : bestSlot l = some a) : a ∈ l := by
  induction l with
  | nil => cases h
  | cons e l ih =>
    unfold bestSlot at h
    split at h
    · cases h; exact List.mem_cons_self
    next b hb =>
      split at h
      · cases h; exact List.mem_cons_of_mem _ (ih hb)
      · cases h; exact List.mem_cons_self

theorem mem_slots_of_chooseSlot {q : Piece} {source : Option Nat} {x lo hi : Int} {n : Nat}
    (h : chooseSlot g p q source x lo hi = some n) : ∃ s ∈ g.slots, s.1 = n ∧ lo ≤ s.2.x ∧ s.2.x ≤ hi := by
  obtain ⟨e, he, rfl⟩ := Option.map_eq_some_iff.mp h
  obtain ⟨s, hs, rfl⟩ := List.mem_map.mp (mem_of_bestSlot he)
  simp only [List.mem_filter, Bool.and_eq_true, decide_eq_true_eq] at hs
  obtain ⟨hmem, ⟨hlo, hhi⟩, -⟩ := hs
  exact ⟨s, hmem, rfl, hlo, hhi⟩

/-- The destination of a legal move lies within the crane's span (R123). -/
theorem within_of_destWithin {c : CraneId} {m : Move} {span : Int × Int} {d : Dest} (hg : g.inRange)
    (h : destWithin g p c m span = some d) : within span (destPos g c d) = true := by
  unfold destWithin at h
  split at h
  next d' _ =>
    split at h
    next hin => cases h; exact hin
    next => cases h
  next =>
    split at h
    · cases h
    · split at h
      · cases h
      · obtain ⟨n, hn, rfl⟩ := Option.map_eq_some_iff.mp h
        obtain ⟨s, hs, rfl, hlo, hhi⟩ := mem_slots_of_chooseSlot hn
        have hfind : Map.find g.slots s.1 = some s.2 := by
          obtain ⟨-, -, -, -, -, -, -, hrising, -⟩ := hg
          exact (find_eq_some_iff_mem hrising).mpr hs
        simp [destPos, hfind, within, hlo, hhi]

theorem firstLegal_eq_some {m : Move} {cs : List CraneId} {c : CraneId} {d : Dest}
    (h : firstLegal g p m cs = some (c, d)) : legal g p c m (reservationOf p (otherCrane c)) = some d := by
  induction cs with
  | nil => cases h
  | cons b cs ih =>
    unfold firstLegal at h
    split at h
    · split at h
      next hlegal => cases h; exact hlegal
      next => exact ih h
    · exact ih h

theorem legal_eq_some {c : CraneId} {m : Move} {other : Option Reservation} {d : Dest}
    (h : legal g p c m other = some d) : ∃ span pos, allowedSpan g c other = some span ∧ (craneOf p c).pos = some pos ∧
      within span pos = true ∧ within span (sourcePos g m.source) = true ∧ destWithin g p c m span = some d := by
  unfold legal at h
  split at h
  next span pos hspan hpos =>
    split at h
    next hin =>
      rw [Bool.and_eq_true] at hin
      exact ⟨span, pos, hspan, hpos, hin.1, hin.2, h⟩
    next => cases h
  next => cases h

theorem Acts.then_dispatch (h : Acts g o p) {c : CraneId} {m : Move} {d : Dest}
    (hlegal : legal g p c m (reservationOf p (otherCrane c)) = some d) : Acts g o (dispatch g c m d p) := by
  have engaged : Acts g o (engage m.number m.source.slotNumber d.slotNumber p) := h.same
  have written := engaged.then_putMove { m with dest := some d, crane := some c, state := .dispatched }
  refine (written.then_writeReservation fun hg _ a b ha hb => ?_).then_takeMove c _
  obtain ⟨span, pos, hspan, hpos, hin, hsource, hdest⟩ := legal_eq_some hlegal
  have hother : reservationOf p (otherCrane c) = some b := by
    cases c <;> simpa [reservationOf, otherCrane] using hb
  rw [hother] at hspan
  cases ha
  rw [hpos, Option.getD_some]
  exact onOwnSide_stretch hg hspan hin hsource (within_of_destWithin hg hdest)

/-- What a walk leaves of the records, told of the part it holds. -/
theorem acts_visit (w : Walk) (n : Nat) : Acts g w.part (visit g w n).part := by
  have stays : Acts g w.part w.part := .refl _
  unfold visit
  split
  · exact stays
  · split
    · exact stays
    · split
      · dsimp only
        split
        next hlegal => exact stays.then_dispatch (firstLegal_eq_some hlegal)
        next => exact stays
      · exact stays

theorem acts_walk (l : List Nat) (w : Walk) : Acts g w.part (l.foldl (visit g) w).part := by
  induction l generalizing w with
  | nil => exact .refl _
  | cons n l ih => exact (acts_visit w n).trans (ih _)

theorem Acts.then_park (h : Acts g o p) {c : CraneId} (room : p.mp.queue.length < 32)
    (hfits : fits c (stretch g [(craneOf p c).pos.getD 0, destPos g c .home]) p = true) : Acts g o (park g c p) := by
  refine ((h.then_joinQueue room true _).then_writeReservation fun _ _ a b ha hb => ?_).then_takeMove c _
  cases ha
  refine onOwnSide_of_fits hfits ?_
  cases c <;> simpa [reservationOf, otherCrane] using hb

theorem Acts.then_giveWay (h : Acts g o p) (first : Option Nat) : Acts g o (giveWay g first p) := by
  unfold giveWay
  split
  · exact h
  · split
    · exact h
    · split
      next hidle =>
        split
        next c hfound =>
          have hfits := List.find?_some hfound
          simp only [parkHelps, Bool.and_eq_true] at hfits
          simp only [Bool.and_eq_true, decide_eq_true_eq] at hidle
          obtain ⟨-, hroom⟩ := hidle
          rw [freeEntries_eq] at hroom
          exact h.then_park (by omega) hfits.2
        next => exact h
      next => exact h

theorem Acts.then_scan (h : Acts g o p) : Acts g o (scan g p) := by
  have walked := h.trans (acts_walk (g := g) (p.mp.queue.map (·.number)) { part := p, dispatched := false, first := none })
  unfold scan
  dsimp only
  split
  · exact walked
  · exact walked.then_giveWay _

theorem Acts.then_reviewShip (h : Acts g o p) (mark : Nat) : Acts g o (reviewShip g p mark) := by
  unfold reviewShip
  split
  · exact h
  · split
    · exact h
    · split
      · exact h
      · split
        · exact h.then_withdrawShip _
        · exact h

theorem Acts.then_endOfEvent (h : Acts g o p) : Acts g o (endOfEvent g p) := by
  have withdrawn := h.trans (.foldl (fun p mark => (Acts.refl p).then_reviewShip mark) p.evt.changed p)
  unfold endOfEvent
  dsimp only
  split
  · exact withdrawn.then_scan.same
  · exact withdrawn.same

/-! ### The contexts -/

/-- A context's zone records: one a zone, zones 1 to 4 at most (section 4.1). -/
def zonesSound (m : Map ZoneCuring) : Prop := Map.rising m = true ∧ ∀ z ∈ m, 1 ≤ z.1 ∧ z.1 ≤ 4

theorem zonesSound_of_keys {m n : Map ZoneCuring} (h : zonesSound m) (hkeys : Map.keys n = Map.keys m) : zonesSound n := by
  refine ⟨by rw [Map.rising_iff, hkeys, ← Map.rising_iff]; exact h.1, fun z hz => ?_⟩
  have hkey : z.1 ∈ Map.keys m := hkeys ▸ List.mem_map_of_mem hz
  obtain ⟨e, he, hez⟩ := List.mem_map.mp hkey
  exact hez ▸ h.2 e he

theorem zonesSound_put {m : Map ZoneCuring} (h : zonesSound m) {zone : Nat} {r : ZoneCuring}
    (hr : Map.find m zone = some r) (r' : ZoneCuring) : zonesSound (Map.put m zone r') := by
  refine ⟨Map.put_rising h.1 zone r', fun z hmem => ?_⟩
  obtain rfl | hold := Map.mem_put hmem
  · exact h.2 (zone, r) (Map.mem_of_find hr)
  · exact h.2 z hold

theorem mem_numbered {α : Type} {k : Nat} {l : List α} {e : Nat × α} (h : e ∈ numbered k l) :
    k ≤ e.1 ∧ e.1 < k + l.length := by
  induction l generalizing k with
  | nil => cases h
  | cons a l ih =>
    obtain rfl | htail := List.mem_cons.mp h
    · simp
    · have := ih htail
      simp only [List.length_cons]
      omega

theorem numbered_rising {α : Type} (k : Nat) (l : List α) : Map.rising (numbered k l) = true := by
  rw [Map.rising_iff]
  induction l generalizing k with
  | nil => exact .nil
  | cons a l ih =>
    refine List.pairwise_cons.mpr ⟨fun j hj => ?_, ih (k + 1)⟩
    obtain ⟨e, he, rfl⟩ := List.mem_map.mp hj
    have := mem_numbered he
    omega

/-- A configured bed has four zones at most (R3). -/
theorem zonesOf_length_le (hg : g.inRange) (bed : Nat) : (zonesOf g bed).length ≤ 4 := by
  obtain ⟨-, -, -, -, -, hbeds, -⟩ := hg
  unfold zonesOf
  split
  next cfg hcfg => exact (hbeds _ (Map.mem_of_find hcfg)).1
  next => exact Nat.zero_le 4

theorem zonesSound_opened (hg : g.inRange) (bed : Nat) :
    zonesSound ((numbered 1 (zonesOf g bed)).map fun z => (z.1, ZoneCuring.opened)) := by
  constructor
  · have hkeys := (Map.rising_iff _).mp (numbered_rising 1 (zonesOf g bed))
    rw [Map.rising_iff]
    simpa [Map.keys, Function.comp_def] using hkeys
  · intro z hz
    obtain ⟨e, he, rfl⟩ := List.mem_map.mp hz
    have hrange := mem_numbered he
    have hlen := zonesOf_length_le hg bed
    exact ⟨hrange.1, by omega⟩

theorem zonesSound_of_contextOf {bed : Nat} {ctx : Context} (hp : curingSound p) (h : contextOf p bed = some ctx) :
    zonesSound ctx.zones := hp.2 _ (Map.mem_of_find h)

theorem Acts.then_putContext (h : Acts g o p) (bed : Nat) {ctx : Context}
    (hctx : g.inRange → curingSound p → zonesSound ctx.zones) : Acts g o (putContext bed ctx p) := by
  refine h.cure fun hg hp => ⟨Map.put_rising hp.1 bed ctx, fun e he => ?_⟩
  obtain rfl | hold := Map.mem_put he
  · exact hctx hg hp
  · exact hp.2 e hold

theorem Acts.then_mapContexts (h : Acts g o p) {f : Nat → Context → Context}
    (hf : ∀ bed ctx, Map.keys (f bed ctx).zones = Map.keys ctx.zones) : Acts g o (mapContexts f p) := by
  refine h.cure fun _ hp => ⟨Map.mapRecords_rising hp.1 f, fun e he => ?_⟩
  obtain ⟨d, hd, rfl⟩ := List.mem_map.mp he
  exact zonesSound_of_keys (hp.2 d hd) (hf d.1 d.2)

theorem Acts.then_setAlloc (h : Acts g o p) (a : Alloc) : Acts g o (setAlloc a p) := h.same rfl rfl rfl

theorem Acts.then_openContext (h : Acts g o p) (bed pour : Nat) : Acts g o (openContext g bed pour p) := by
  unfold openContext
  split
  · exact h
  · exact h.then_putContext bed fun hg _ => zonesSound_opened hg bed

theorem Acts.then_updateZone (h : Acts g o p) (bed zone : Nat) (f : ZoneCuring → ZoneCuring) :
    Acts g o (updateZone bed zone f p) := by
  unfold updateZone
  split
  · exact h
  next ctx hctx =>
    split
    · exact h
    next r hr =>
      exact h.then_putContext bed fun _ hp =>
        zonesSound_put (zonesSound_of_contextOf hp hctx) hr _

/-! ### Valves -/

theorem Acts.then_offerValve (h : Acts g o p) (bed zone opening : Nat) : Acts g o (offerValve g bed zone opening p) := by
  unfold offerValve
  split
  · exact h
  · have sent (e : Entry) : Acts g o (offer g e p).2 := h.same
    dsimp only
    split
    · exact (sent _).same rfl rfl rfl
    · exact (sent _).same rfl rfl rfl
    · exact sent _

theorem Acts.then_stage8 (h : Acts g o p) : Acts g o (stage8 g p) := by
  have served : Acts g o (offerValves g p) := h.trans <| .foldl (fun p k => by
    unfold stage8Zone
    dsimp only
    split
    · exact (Acts.refl p).then_offerValve _ _ _
    · exact .refl p) _ p
  unfold stage8
  split
  · exact h
  · exact served

theorem Acts.then_enterSetup (h : Acts g o p) : Acts g o (enterSetup g p) := by
  refine (h.same (q := { p with cc := { p.cc with valves := Map.mapRecords (fun _ v => { v with wanted := 0 }) p.cc.valves } })
    rfl rfl rfl).trans (.foldl (fun p k => ?_) _ _)
  unfold setupZone
  dsimp only
  split
  · exact (Acts.refl p).then_offerValve _ _ _
  · exact .refl p

/-! ### The curing interval -/

theorem acts_formZone (limit : Nat) (acc : Part × Map Resolved) (bz : Nat × Nat) :
    Acts g acc.1 (formZone g limit acc bz).1 := by
  unfold formZone
  dsimp only
  split
  · exact .refl _
  · split
    · exact .refl _
    · exact Acts.then_updateZone ((Acts.refl acc.1).same (q := storeZoneResult _ _ _ _)) _ _ _

theorem Acts.then_stage1 (h : Acts g o p) (limit : Nat) : Acts g o (stage1 g limit p).1 := by
  have formed (l : List (Nat × Nat)) (acc : Part × Map Resolved) : Acts g acc.1 (l.foldl (formZone g limit) acc).1 := by
    induction l generalizing acc with
    | nil => exact .refl _
    | cons bz l ih => exact (acts_formZone limit acc bz).trans (ih _)
  exact h.trans (formed (curedZones p) (p, []))

theorem Acts.then_stage2 (h : Acts g o p) (rs : Map Resolved) (dt : Nat) : Acts g o (stage2 g rs dt p) :=
  h.then_mapContexts fun _ _ => by simp [creditContext]

theorem Acts.then_stage3 (h : Acts g o p) (rs : Map Resolved) : Acts g o (stage3 g rs p) := by
  refine h.trans (.foldl (fun p bz => ?_) _ p)
  unfold checkZone
  split
  · exact .refl p
  · split
    · exact .refl p
    · exact ((Acts.refl p).then_updateZone _ _ _).trans
        (.foldl (fun p d => (Acts.refl p).then_reportDeviation _ _ d) _ _)

theorem Acts.then_takePhaseReport (h : Acts g o p) (bed pour : Nat) (r : PhaseReport) :
    Acts g o (takePhaseReport bed pour p r) := by
  unfold takePhaseReport
  split
  · split
    · exact h.then_raise _
    · exact Acts.then_raise (h.same (q := putBed _ _ p)) _
  · exact h

/-- Stage 4 changes a context's zone records at the end of COOL only, and then each one in its place (R70). -/
theorem keys_advance (q : Product) (fresh : Int) (temps measured : List Int) (dt : Nat) (ctx : Context) :
    Map.keys (advance q fresh temps measured dt ctx).1.zones = Map.keys ctx.zones := by
  have repaired (m : Int) : (repairSetpoint q m ctx).1.zones = ctx.zones := by
    unfold repairSetpoint
    dsimp only
    split <;> (try split) <;> rfl
  have stepped (c : Context) : Map.keys (phaseStep q fresh temps dt c).1.zones = Map.keys c.zones := by
    unfold phaseStep
    split
    · simp only [presetStep, enterRamp]
      split <;> (try split) <;> rfl
    · split
      · rfl
      · simp only [rampStep]
        split <;> (try split) <;> rfl
    · split
      · rfl
      · simp only [coolStep]
        split <;> simp
    · rfl
  have released (c : Context) : (releaseCheck q c).1.zones = c.zones := by
    unfold releaseCheck
    split <;> rfl
  unfold advance
  dsimp only
  rw [released, stepped]
  split
  · rw [repaired]
  · rfl

theorem Acts.then_stage4 (h : Acts g o p) (rs : Map Resolved) (dt : Nat) : Acts g o (stage4 g rs dt p) := by
  refine h.trans (.foldl (fun p bed => ?_) _ p)
  unfold advanceBed
  split
  · exact .refl p
  next ctx hctx =>
    split
    · exact .refl p
    · exact ((Acts.refl p).then_putContext bed fun _ hp =>
        zonesSound_of_keys (zonesSound_of_contextOf hp hctx) (keys_advance _ _ _ _ _ ctx)).trans
          (.foldl (fun p r => (Acts.refl p).then_takePhaseReport _ _ r) _ _)

theorem Acts.then_stage6 (h : Acts g o p) (rs : Map Resolved) : Acts g o (stage6 g rs p) :=
  h.then_mapContexts fun _ _ => by simp [demandContext]

theorem acts_judgeStarved (gs : List (Handed × Nat)) (p : Part) (bed : Nat) : Acts g p (judgeStarved g gs p bed) := by
  unfold judgeStarved
  split
  · exact .refl p
  next ctx hctx =>
    have written (starved : Bool) (n : Nat) :
        Acts g p (putContext bed { ctx with starved := starved, starvedCount := n } p) :=
      (Acts.refl p).then_putContext bed fun _ hp => (zonesSound_of_contextOf hp hctx : zonesSound ctx.zones)
    split
    · dsimp only
      split
      · exact (written true 0).then_reportDeviation _ _ _
      · exact written true _
    · exact written false 0

theorem Acts.then_heatNotice (h : Acts g o p) (gs : List (Handed × Nat)) (before : Bool) :
    Acts g o (heatNotice g gs before p) := by
  unfold heatNotice
  dsimp only
  split <;> split
  · exact h
  · exact h.then_raise _
  · exact h.then_raise _
  · exact h

theorem Acts.then_allocate (h : Acts g o p) : Acts g o (allocate g p) := by
  rw [allocate_eq]
  have granted : Acts g o (writeGrants (grantsOf g p) p) := h.then_mapContexts fun _ _ => by simp
  have judged : Acts g o (bedsJudged g p) := granted.trans (.foldl (acts_judgeStarved (grantsOf g p)) _ _)
  exact ((judged.then_setAlloc _).then_heatNotice _ _).same rfl rfl rfl

theorem Acts.then_stage7 (h : Acts g o p) : Acts g o (stage7 g p) := by
  unfold stage7
  split
  · exact h.then_allocate
  · exact h.then_setAlloc _
  · exact (h.then_mapContexts fun _ _ => by simp).then_setAlloc _

theorem Acts.then_serveContexts (h : Acts g o p) (dt : Nat) : Acts g o (serveContexts g dt p) :=
  ((((((h.then_stage1 _).then_stage2 _ dt).then_stage3 _).then_stage4 _ dt).then_stage6 _).then_stage7.then_stage8).then_mapContexts
    fun _ _ => rfl

theorem Acts.then_curingExpiry (h : Acts g o p) : Acts g o (curingExpiry g p) :=
  Acts.then_serveContexts (h.same (q := restartCuring g p) rfl rfl rfl) _

/-! ### The field line -/

theorem Acts.then_reportBack (h : Acts g o p) (owner : Owner) : Acts g o (reportBack g owner p) := by
  unfold reportBack
  split
  · exact h.then_offerValve _ _ _
  · exact h
  · exact h.same

theorem Acts.then_putNode (h : Acts g o p) (addr : Nat) (nd : Node) : Acts g o (putNode addr nd p) := h.same

theorem Acts.then_revive (h : Acts g o p) (addr : Nat) (owner : Owner) : Acts g o (revive g addr owner p) := by
  unfold revive
  split
  · exact h
  · split
    · exact ((h.then_putNode addr _).then_raise _).then_reportBack owner
    · exact h.then_putNode addr _
    · exact h

theorem Acts.then_handOn (h : Acts g o p) (ex : Exchange) (bytes : List Nat) : Acts g o (handOn g ex bytes p) := by
  unfold handOn
  split
  · exact h.same
  · exact h.same
  · split
    · exact h.then_takeCraneReply _ _ _
    · exact h

theorem Acts.then_goodReply (h : Acts g o p) (ex : Exchange) (bytes : List Nat) : Acts g o (goodReply g ex bytes p) := by
  unfold goodReply
  split
  · exact h
  · refine (Acts.then_handOn (Acts.then_revive (p := storeReply ex.addr bytes p) ?_ ex.addr ex.owner) ex bytes).same
    exact h.same

theorem Acts.then_reportMiss (h : Acts g o p) (ex : Exchange) : Acts g o (reportMiss g ex p) := by
  unfold reportMiss
  split
  · exact h
  · split
    · exact h.same rfl rfl rfl
    · exact h.same
    · exact h

theorem Acts.then_loseNode (h : Acts g o p) (addr : Nat) (nd : Node) : Acts g o (loseNode g addr nd p) := by
  have dropped : Acts g o (dropEntries g addr (putNode addr { nd with standing := .lost } p)) := h.same
  unfold loseNode reportLoss
  split
  · exact (dropped.then_raise _).then_stopIfLocated _ _ _
  · exact dropped.then_raise _

theorem Acts.then_judgeStanding (h : Acts g o p) (addr : Nat) : Acts g o (judgeStanding g addr p) := by
  unfold judgeStanding
  split
  · exact h
  · split
    · exact h.then_loseNode addr _
    · exact h

theorem Acts.then_miss (h : Acts g o p) (ex : Exchange) : Acts g o (miss g ex p) := by
  unfold miss
  split
  · exact h
  · refine (Acts.then_judgeStanding (Acts.then_reportMiss (p := countMiss ex.addr p) ?_ ex) ex.addr).same
    exact h.same

theorem Acts.then_attemptFailed (h : Acts g o p) (ex : Exchange) (cause : AttemptFailure) :
    Acts g o (attemptFailed g ex cause p) := by
  have recorded : Acts g o (recordCause ex cause p) := h.same
  unfold attemptFailed
  split
  · exact recorded.same
  · exact recorded.then_miss ex

theorem Acts.then_replyEnded (h : Acts g o p) (chars : List FieldChar) (ex : Exchange) :
    Acts g o (replyEnded g chars ex p) := by
  unfold replyEnded
  split
  · exact h.then_attemptFailed ex _
  · exact h.then_goodReply ex _

/-! ### Modes, starts and pours -/

theorem Acts.then_stopForMode (h : Acts g o p) (c : CraneId) : Acts g o (stopForMode g c p) := by
  unfold stopForMode
  split
  · exact h.then_stopCrane c _ _
  · exact h

theorem Acts.then_tellMode (h : Acts g o p) (before : Mode) : Acts g o (tellMode g before p) := by
  unfold tellMode
  split
  · exact h.then_enterSetup
  · split
    · exact (h.then_stopForMode _).then_stopForMode _
    · exact h
  · exact h.then_triggerScan

theorem Acts.then_abortPour (h : Acts g o p) (bed : Nat) (cause : CloseCause) : Acts g o (abortPour bed cause p) := by
  unfold abortPour
  split
  · exact h
  · split
    · exact h
    · refine Acts.then_raise ?_ _
      exact h.same

theorem Acts.then_repairBed (h : Acts g o p) (bed : Nat) : Acts g o (repairBed g p bed) := by
  unfold repairBed
  split
  · exact h.then_abortPour bed _
  · unfold powerGap
    split
    · exact h
    · exact h.then_recordDeviation _ _ _
  · exact h

theorem Acts.then_repair (h : Acts g o p) : Acts g o (repair g p) := by
  have repaired (q : Part) (hq : Acts g o q) : Acts g o (mapContexts (fun _ ctx => repairContext ctx) q) :=
    hq.then_mapContexts fun _ _ => by simp [repairContext]
  have pieces := h.same (q := { p with sm := { p.sm with pieces := Map.mapRecords (fun _ q => repairPiece q) p.sm.pieces } })
    rfl rfl rfl
  exact ((repaired _ pieces).trans (.foldl (fun p bed => (Acts.refl p).then_repairBed bed) _ _)).then_fillFrom _

theorem Acts.then_closePour (h : Acts g o p) (bed pour : Nat) (cause : CloseCause) :
    Acts g o (closePour g bed pour cause p) := by
  have seals {q : Part} (hq : Acts g o q) (note : VolumeNote) : Acts g o (sealPour g bed pour cause note q) := by
    unfold sealPour
    split
    · exact hq
    · refine Acts.then_raise (Acts.then_openContext ?_ bed pour) _
      exact hq.same
  unfold closePour
  split
  · exact h
  · refine seals ?_ _
    split
    · exact h.then_recordDeviation _ _ _
    · exact h

theorem Acts.then_gapTimeout (h : Acts g o p) (bed : Nat) : Acts g o (gapTimeout bed p) := by
  unfold gapTimeout
  split
  · exact h.then_abortPour bed _
  · exact h

theorem Acts.then_clearStripping (h : Acts g o p) (bed pour : Nat) : Acts g o (clearStripping bed pour p) := by
  have listed := (h.then_removeMoves ((p.mp.queue.filter (stripsBed bed)).map (·.number))).then_setBacklog
    (((((p.mp.queue.filter (stripsBed bed)).map (·.number)).foldl (fun p n => removeMove n p) p).mp.backlog.filter
      fun m => !liesOnBed (((p.mp.queue.filter (stripsBed bed)).map (·.number)).foldl (fun p n => removeMove n p) p) bed m))
  exact ((listed.same (q := removePieces (piecesOnBed p bed pour) _)).then_emptyBed bed).then_backlogFill

/-! ### The yard interval -/

theorem acts_promotePiece (p : Part) (mark : Nat) : Acts g p (promotePiece g p mark) := by
  unfold promotePiece
  split
  · exact .refl p
  · split
    · split
      · exact Acts.then_raise ((Acts.refl p).same (q := setCondition _ _ p)) _
      · exact .refl p
    · exact .refl p

theorem Acts.then_yardExpiry (h : Acts g o p) : Acts g o (yardExpiry g p) := by
  unfold yardExpiry serveYard
  dsimp only
  refine Acts.trans ?_ (.foldl (fun p slot => .foldl acts_promotePiece _ p) _ _)
  exact h.same

/-! ### Cranes and moves -/

theorem Acts.then_moveResumed (h : Acts g o p) (m : Move) : Acts g o (moveResumed m p) := h.then_putMove _

theorem Acts.then_withdrawLapsed (h : Acts g o p) (c : CraneId) : Acts g o (withdrawLapsed g c p) := by
  unfold withdrawLapsed
  split
  · split
    · exact (h.then_suspendUnbound _ c _ _).then_raise _
    · exact h
  · exact h

theorem Acts.then_goOn (h : Acts g o p) (c : CraneId) (m : Option Move) : Acts g o (goOn g c m p) := by
  have ended : Acts g o (putCrane c (unstopped (craneOf p c)) p) := h.same
  unfold goOn
  dsimp only
  split
  · exact (ended.then_beginStep c _).then_moveResumed _
  · split
    · exact ended.then_beginStep c _
    · exact (h.then_withdrawLapsed c).same

theorem Acts.then_stepTimeout (h : Acts g o p) (c : CraneId) : Acts g o (stepTimeout g c p) := by
  unfold stepTimeout
  split
  · exact h.then_stopIfLocated c _ _
  · exact h

theorem joinQueue_length (atHead : Bool) (m : Move) (p : Part) :
    (joinQueue atHead m p).mp.queue.length = p.mp.queue.length + 1 := by rw [joinQueue_mp, joined_length]

theorem Acts.then_joinQueues (h : Acts g o p) {l : List Move} (room : p.mp.queue.length + l.length ≤ 32) :
    Acts g o (l.foldl (fun p m => joinQueue false m p) p) := by
  induction l generalizing p with
  | nil => exact h
  | cons m l ih =>
    simp only [List.length_cons] at room
    exact ih (h.then_joinQueue (by omega) false m) (by rw [joinQueue_length]; omega)

theorem length_numbered {α : Type} (k : Nat) (l : List α) : (numbered k l).length = l.length := by
  induction l generalizing k with
  | nil => rfl
  | cons a l ih => simp [numbered, ih]

theorem Acts.then_digChain (h : Acts g o p) (slot bay mark : Nat) (kind : MoveKind) {digs : List Nat}
    (room : p.mp.queue.length + (digs.length + 1) ≤ 32) : Acts g o (digChain slot bay mark kind digs p) := by
  have queued := h.then_joinQueues (l := chainMoves slot bay mark kind digs
    (lastNumber p.mp.queue digs.length p.mp.counter)) (by simpa [chainMoves, length_numbered] using room)
  exact queued.same (q := digChain slot bay mark kind digs p) rfl rfl rfl

theorem Acts.then_leaveChain (h : Acts g o p) (chain : Option Nat) : Acts g o (leaveChain chain p) := by
  refine h.then_requeue ?_ rfl
  have hnumbers : (leaveChain chain p).mp.queue.map (·.number) = p.mp.queue.map (·.number) := by
    simp only [leaveChain, setQueue, List.map_map]
    refine List.map_congr_left fun k _ => ?_
    dsimp only [Function.comp_apply]
    split <;> rfl
  exact hnumbers ▸ .refl _

theorem Acts.then_removeChain (h : Acts g o p) (m : Move) : Acts g o (removeChain m p) :=
  ((h.then_removeMoves _).then_leaveChain _).then_backlogFill

theorem Acts.then_letGo (h : Acts g o p) (m : Move) (c : CraneId) : Acts g o (letGo g m c p) := by
  unfold letGo
  split
  · exact Acts.then_comeToRest (h.same (q := haltMove g c p)) c _
  · exact h.same

theorem inChainOrder_perm (l : List Move) : (inChainOrder l).Perm l := by
  have inserted (m : Move) (l : List Move) : (insertRank m l).Perm (m :: l) := by
    induction l with
    | nil => rfl
    | cons k l ih =>
      unfold insertRank
      split
      · rfl
      · exact (ih.cons k).trans (.swap m k l)
  induction l with
  | nil => rfl
  | cons m l ih => exact (inserted m _).trans (ih.cons m)

/-- EXPEDITE moves moves within the queue. -/
theorem Acts.then_expedited (h : Acts g o p) (m : Move) :
    Acts g o (setQueue (inChainOrder (p.mp.queue.filter (goesAlong m)) ++ p.mp.queue.filter fun k => !goesAlong m k) p) := by
  refine h.then_requeue ?_ rfl
  exact (((inChainOrder_perm _).append_right _).trans (List.filter_append_perm _ _)).map _ |>.subperm

/-! ### Requests taken -/

theorem need_eq_ok {α : Type} {c : Bool} {st : Status} {k : Judgement α} {a : α} :
    need c st k = .ok a ↔ c = true ∧ k = .ok a := by
  cases c <;> simp [need]

theorem must_eq_ok {α β : Type} {x : Option α} {st : Status} {k : α → Judgement β} {b : β} :
    must x st k = .ok b ↔ ∃ a, x = some a ∧ k a = .ok b := by
  cases x <;> simp [must]

theorem forBed_eq_ok {bed : Nat} {k : Judgement Taken} {t : Taken} :
    forBed g bed p k = .ok t ↔ outsideSetup p = true ∧ isBed g bed = true ∧ k = .ok t := by
  simp only [forBed, need_eq_ok]

theorem acts_byPart {f : Store → Part → Judgement Taken} (hf : ∀ t, f g p = .ok t → Acts g p t.part) :
    Acts g p (byPart f g p).part := by
  unfold byPart
  split
  next t ht => exact hf t ht
  next => exact .refl p

theorem acts_byStore {f : Store → Part → Judgement (Store × Taken)} (hf : ∀ h t, f g p = .ok (h, t) → Acts g p t.part) :
    Acts g p (byStore f g p).part := by
  unfold byStore
  split
  next h t ht => exact hf h t ht
  next => exact .refl p

/-! ### The settings requests -/

theorem Acts.then_recomputeReservations (h : Acts g o p) {k : Store} (hk : keepsOrder k p = true) :
    Acts g o (recomputeReservations k p) :=
  h.then_reserve (fun _ _ => hk) rfl

theorem acts_setRunway {length : Nat} {k : Store} {t : Taken} (h : setRunway length g p = .ok (k, t)) :
    Acts g p t.part := by
  simp only [setRunway, need_eq_ok] at h
  obtain ⟨-, -, -, horder, ht⟩ := h
  cases ht
  exact (Acts.refl p).then_recomputeReservations horder

theorem Acts.then_followBed (h : Acts g o p) (k : Store) (bed : Nat) (before : List ZoneCfg) :
    Acts g o (followBed k bed before p) := by
  have rebuilt : Acts g o (rebuildBed bed before (zonesOf k bed) p) := h.same rfl rfl rfl
  exact rebuilt.same (q := syncNodes k _)

theorem acts_setBed {bed xStart xEnd : Nat} {zones : List ZoneSpec} {k : Store} {t : Taken}
    (h : setBed bed xStart xEnd zones g p = .ok (k, t)) : Acts g p t.part := by
  simp only [setBed, need_eq_ok] at h
  obtain ⟨-, -, -, h⟩ := h
  split at h
  · cases h
    exact (Acts.refl p).then_followBed _ _ _
  · simp only [need_eq_ok] at h
    obtain ⟨-, -, -, -, -, ht⟩ := h
    cases ht
    exact (Acts.refl p).then_followBed _ _ _

theorem acts_setCrane {crane node home : Nat} {k : Store} {t : Taken} (h : setCrane crane node home g p = .ok (k, t)) :
    Acts g p t.part := by
  simp only [setCrane, need_eq_ok, must_eq_ok] at h
  obtain ⟨-, -, c, -, -, -, -, -, ht⟩ := h
  cases ht
  have forgotten : Acts g p (forgetCrane g c p) :=
    Acts.then_writeReservation ((Acts.refl p).same (q := enterState g c .atReset p)) (fun _ _ _ _ ha => nomatch ha)
  dsimp only
  split
  · exact (Acts.refl p).same
  · exact forgotten.same (q := syncNodes _ _)

theorem acts_setPlant {number : Nat} {value : Int} {k : Store} {t : Taken}
    (h : setPlant number value g p = .ok (k, t)) : Acts g p t.part := by
  simp only [setPlant, need_eq_ok, must_eq_ok] at h
  obtain ⟨-, -, taken, -, horder, ht⟩ := h
  cases ht
  dsimp only
  split
  next hnumber =>
    simp only [hnumber, bne_self_eq_false, Bool.false_or, Bool.and_eq_true] at horder
    exact (Acts.refl p).then_recomputeReservations (hnumber ▸ horder.2)
  next => exact .refl p

/-- What the ranges of a store allow, they allow under every store that asks as much. -/
theorem PlannerChange.of_store {k : Store} (hk : k.inRange → g.inRange) {m n : MovePlanner}
    (h : PlannerChange g m n) : PlannerChange k m n := by
  cases h with
  | requeue q hq => exact .requeue m q hq
  | join atHead x room => exact .join m atHead x room
  | reserve a b hab => exact .reserve m a b fun hr => hab (hk hr)
  | backlog l => exact .backlog m l
  | cleared => exact .cleared m

theorem Acts.of_store {k : Store} (h : Acts g o p) (hk : k.inRange → g.inRange) : Acts k o p :=
  ⟨Relation.ReflTransGen.mono (fun _ _ => .of_store hk) _ _ h.planner, h.link, fun hr => h.curing (hk hr)⟩

theorem acts_setMode {mode : Nat} {k : Store} {t : Taken} (h : setMode mode g p = .ok (k, t)) : Acts g p t.part := by
  simp only [setMode, must_eq_ok] at h
  obtain ⟨m, -, h⟩ := h
  split at h
  · cases h
    exact .refl p
  · rw [need_eq_ok] at h
    obtain ⟨-, ht⟩ := h
    cases ht
    exact (Acts.then_tellMode ((Acts.refl p).same (q := setModeOf m p)) p.mc.mode).of_store id

/-! ### The other requests -/

theorem acts_batch {bed volume : Nat} {t : Taken} (h : batch bed volume g p = .ok t) : Acts g p t.part := by
  simp only [batch, forBed_eq_ok, need_eq_ok, must_eq_ok] at h
  obtain ⟨-, -, -, -, pour, -, r, -, h⟩ := h
  have added : Acts g p (addBatch g bed pour volume r p) := (Acts.refl p).same
  split at h <;> cases h
  · exact added.then_closePour _ _ _
  · exact added

theorem acts_pourEnd {bed : Nat} {t : Taken} (h : pourEnd bed g p = .ok t) : Acts g p t.part := by
  simp only [pourEnd, forBed_eq_ok, need_eq_ok, must_eq_ok] at h
  obtain ⟨-, -, -, pour, -, r, -, h⟩ := h
  split at h <;> cases h
  · exact (Acts.refl p).same (q := cancelPour _ _ _)
  · exact (Acts.refl p).then_closePour _ _ _

theorem acts_zoneOut {bed zone : Nat} {t : Taken} (h : zoneOut bed zone g p = .ok t) : Acts g p t.part := by
  simp only [zoneOut, forBed_eq_ok, need_eq_ok, must_eq_ok] at h
  obtain ⟨-, -, -, -, -, pour, -, ht⟩ := h
  cases ht
  exact ((Acts.refl p).then_updateZone bed zone _).then_recordDeviation _ _ _

theorem acts_detension {bed : Nat} {t : Taken} (h : detension bed g p = .ok t) : Acts g p t.part := by
  simp only [detension, forBed_eq_ok, need_eq_ok, must_eq_ok, decide_eq_true_eq] at h
  obtain ⟨-, -, -, pour, -, hroom, ht⟩ := h
  cases ht
  exact Acts.then_queueStrips ((Acts.refl p).same (q := putBed _ _ p)) hroom

theorem acts_clearBed {bed : Nat} {t : Taken} (h : clearBed bed g p = .ok t) : Acts g p t.part := by
  simp only [clearBed, forBed_eq_ok] at h
  obtain ⟨-, -, h⟩ := h
  split at h
  · cases h
    exact (Acts.refl p).same (q := putBed _ _ p)
  · cases h
    exact (Acts.refl p).same (q := clearRejected _ _ p)
  · rw [need_eq_ok] at h
    obtain ⟨-, ht⟩ := h
    cases ht
    exact (Acts.refl p).then_clearStripping _ _
  · cases h

theorem acts_fetch {cond : Condition} {kind : MoveKind} {mark bay : Nat} {t : Taken}
    (h : fetch cond kind mark bay g p = .ok t) : Acts g p t.part := by
  simp only [fetch, need_eq_ok, must_eq_ok, decide_eq_true_eq] at h
  obtain ⟨-, -, q, -, slot, -, -, -, -, -, hroom, ht⟩ := h
  cases ht
  rw [freeEntries_eq] at hroom
  exact (Acts.refl p).then_digChain _ _ _ _ (by omega)

theorem acts_cancelMove {n : Nat} {t : Taken} (h : cancelMove n g p = .ok t) : Acts g p t.part := by
  simp only [cancelMove, forMove, need_eq_ok, must_eq_ok] at h
  obtain ⟨-, m, -, h⟩ := h
  split at h
  · cases h
    exact (Acts.refl p).then_removeChain m
  · rw [need_eq_ok] at h
    obtain ⟨-, ht⟩ := h
    cases ht
    exact ((Acts.refl p).then_letGo m _).then_removeChain m

theorem acts_resumeCrane {crane : Nat} {t : Taken} (h : resumeCrane crane g p = .ok t) : Acts g p t.part := by
  simp only [resumeCrane, forCrane, need_eq_ok, must_eq_ok] at h
  obtain ⟨-, c, -, -, -, -, -, -, -, q, hq, ht⟩ := h
  cases ht
  exact ((Acts.refl p).then_askReservation hq).then_goOn c _

theorem acts_craneOut {crane : Nat} {t : Taken} (h : craneOut crane g p = .ok t) : Acts g p t.part := by
  simp only [craneOut, forCrane, need_eq_ok, must_eq_ok] at h
  obtain ⟨-, c, -, -, -, -, q, hq, ht⟩ := h
  cases ht
  exact ((Acts.refl p).then_askReservation hq).same (q := putCrane _ _ q)

theorem acts_setSlot {slot x massLimit tierLimit area : Nat} {k : Store} {t : Taken} (h : setSlot slot x massLimit tierLimit area g p = .ok (k, t)) :
    Acts g p t.part := by
  simp only [setSlot, need_eq_ok] at h
  obtain ⟨-, -, -, -, ht⟩ := h
  cases ht
  exact .refl p

theorem acts_setArea {area node : Nat} {k : Store} {t : Taken} (h : setArea area node g p = .ok (k, t)) :
    Acts g p t.part := by
  simp only [setArea, need_eq_ok] at h
  obtain ⟨-, -, -, ht⟩ := h
  cases ht
  exact (Acts.refl p).same

theorem acts_setBay {bay x : Nat} {k : Store} {t : Taken} (h : setBay bay x g p = .ok (k, t)) :
    Acts g p t.part := by
  simp only [setBay, need_eq_ok] at h
  obtain ⟨-, -, -, ht⟩ := h
  cases ht
  exact .refl p

theorem acts_setProduct {index : Nat} {q : ProductSpec} {k : Store} {t : Taken} (h : setProduct index q g p = .ok (k, t)) :
    Acts g p t.part := by
  simp only [setProduct, need_eq_ok] at h
  obtain ⟨-, -, -, -, -, ht⟩ := h
  cases ht
  exact .refl p

theorem acts_clearProduct {index : Nat} {k : Store} {t : Taken} (h : clearProduct index g p = .ok (k, t)) :
    Acts g p t.part := by
  simp only [clearProduct, need_eq_ok] at h
  obtain ⟨-, -, -, ht⟩ := h
  cases ht
  exact .refl p

theorem acts_prepare {bed : Nat} {code : List Nat} {t : Taken} (h : prepare bed code g p = .ok t) :
    Acts g p t.part := by
  simp only [prepare, forBed_eq_ok, need_eq_ok, must_eq_ok] at h
  obtain ⟨-, -, -, e, -, ht⟩ := h
  cases ht
  exact (Acts.refl p).same (q := putBed _ _ p)

theorem acts_pourOrder {bed planned : Nat} {code : List Nat} {pieces : List PieceSpec} {t : Taken} (h : pourOrder bed code planned pieces g p = .ok t) :
    Acts g p t.part := by
  simp only [pourOrder, forBed_eq_ok, need_eq_ok, must_eq_ok] at h
  obtain ⟨-, -, -, -, -, -, -, -, -, pour, -, prod, -, ht⟩ := h
  cases ht
  exact (Acts.refl p).same

theorem acts_holdPiece {mark : Nat} {t : Taken} (h : holdPiece mark g p = .ok t) :
    Acts g p t.part := by
  simp only [holdPiece, forPiece, need_eq_ok, must_eq_ok] at h
  obtain ⟨-, q, -, -, -, -, ht⟩ := h
  cases ht
  exact (Acts.refl p).same

theorem acts_rejectPiece {mark : Nat} {t : Taken} (h : rejectPiece mark g p = .ok t) :
    Acts g p t.part := by
  simp only [rejectPiece, forPiece, need_eq_ok, must_eq_ok] at h
  obtain ⟨-, q, -, -, -, -, ht⟩ := h
  cases ht
  exact (Acts.refl p).same

theorem acts_releasePiece {mark : Nat} {t : Taken} (h : releasePiece mark g p = .ok t) :
    Acts g p t.part := by
  simp only [releasePiece, forPiece, need_eq_ok, must_eq_ok] at h
  obtain ⟨-, q, -, -, ht⟩ := h
  cases ht
  exact (Acts.refl p).same (q := stockChange _ _)

theorem acts_locate {mark slot : Nat} {t : Taken} (h : locate mark slot g p = .ok t) :
    Acts g p t.part := by
  simp only [locate, need_eq_ok, must_eq_ok] at h
  obtain ⟨-, q, -, -, -, ht⟩ := h
  cases ht
  exact (Acts.refl p).same

theorem acts_removeRequest {mark : Nat} {t : Taken} (h : removeRequest mark g p = .ok t) :
    Acts g p t.part := by
  simp only [removeRequest, forPiece, need_eq_ok, must_eq_ok] at h
  obtain ⟨-, q, -, -, ht⟩ := h
  cases ht
  exact (Acts.refl p).same

theorem acts_expedite {n : Nat} {t : Taken} (h : expedite n g p = .ok t) :
    Acts g p t.part := by
  simp only [expedite, forMove, need_eq_ok, must_eq_ok] at h
  obtain ⟨-, m, -, -, ht⟩ := h
  cases ht
  exact ((Acts.refl p).then_expedited m).then_triggerScan

theorem acts_retryMove {n : Nat} {t : Taken} (h : retryMove n g p = .ok t) :
    Acts g p t.part := by
  simp only [retryMove, forMove, need_eq_ok, must_eq_ok] at h
  obtain ⟨-, m, -, -, ht⟩ := h
  cases ht
  exact ((Acts.refl p).then_putMove _).then_triggerScan

theorem acts_craneIn {crane : Nat} {t : Taken} (h : craneIn crane g p = .ok t) :
    Acts g p t.part := by
  simp only [craneIn, forCrane, need_eq_ok, must_eq_ok] at h
  obtain ⟨-, c, -, -, -, ht⟩ := h
  cases ht
  exact (Acts.refl p).same (q := triggerScan _)

theorem acts_setBoiler {capacity : Nat} {k : Store} {t : Taken} (h : setBoiler capacity g p = .ok (k, t)) :
    Acts g p t.part := by
  cases h
  exact .refl p

/-- Every request but RESTART, which writes CL's own record, acts on the part as an event may. -/
theorem acts_service {i : Instr} {f : Store → Part → Decision} (h : service i = some f) (hi : ∀ tag, i ≠ .restart tag) :
    Acts g p (f g p).part := by
  cases i <;> cases h
  case setRunway => exact acts_byStore fun _ _ => acts_setRunway
  case setBed => exact acts_byStore fun _ _ => acts_setBed
  case setSlot => exact acts_byStore fun _ _ => acts_setSlot
  case setArea => exact acts_byStore fun _ _ => acts_setArea
  case setBay => exact acts_byStore fun _ _ => acts_setBay
  case setCrane => exact acts_byStore fun _ _ => acts_setCrane
  case setProduct => exact acts_byStore fun _ _ => acts_setProduct
  case clearProduct => exact acts_byStore fun _ _ => acts_clearProduct
  case setPlant => exact acts_byStore fun _ _ => acts_setPlant
  case setBoiler => exact acts_byStore fun _ _ => acts_setBoiler
  case setMode => exact acts_byStore fun _ _ => acts_setMode
  case prepare => exact acts_byPart fun _ => acts_prepare
  case pourOrder => exact acts_byPart fun _ => acts_pourOrder
  case batch => exact acts_byPart fun _ => acts_batch
  case pourEnd => exact acts_byPart fun _ => acts_pourEnd
  case zoneOut => exact acts_byPart fun _ => acts_zoneOut
  case detension => exact acts_byPart fun _ => acts_detension
  case clearBed => exact acts_byPart fun _ => acts_clearBed
  case ship => exact acts_byPart fun _ => acts_fetch
  case scrap => exact acts_byPart fun _ => acts_fetch
  case holdPiece => exact acts_byPart fun _ => acts_holdPiece
  case releasePiece => exact acts_byPart fun _ => acts_releasePiece
  case rejectPiece => exact acts_byPart fun _ => acts_rejectPiece
  case locate => exact acts_byPart fun _ => acts_locate
  case removePiece => exact acts_byPart fun _ => acts_removeRequest
  case expedite => exact acts_byPart fun _ => acts_expedite
  case cancelMove => exact acts_byPart fun _ => acts_cancelMove
  case retryMove => exact acts_byPart fun _ => acts_retryMove
  case resumeCrane => exact acts_byPart fun _ => acts_resumeCrane
  case craneOut => exact acts_byPart fun _ => acts_craneOut
  case craneIn => exact acts_byPart fun _ => acts_craneIn
  case restart tag => exact absurd rfl (hi tag)
  all_goals exact (byRead_part _ g p).symm ▸ Acts.refl p

/-! ### What a request writes in the store (chapter 1) -/

theorem byStore_inRange {f : Store → Part → Judgement (Store × Taken)} (hg : g.inRange)
    (hf : ∀ k t, f g p = .ok (k, t) → k.inRange) : (byStore f g p).store.inRange := by
  unfold byStore
  split
  next k t hk => exact hf k t hk
  next => exact hg

theorem clampInt_mem {lo hi : Int} (h : lo ≤ hi) (v : Int) : lo ≤ clampInt lo hi v ∧ clampInt lo hi v ≤ hi := by
  unfold clampInt
  omega

theorem clampNat_mem {lo hi : Nat} (h : lo ≤ hi) (v : Nat) : lo ≤ clampNat lo hi v ∧ clampNat lo hi v ≤ hi := by
  unfold clampNat
  omega

/-- The values that setting `n` holds: those of its range, its codes, or the listed rates (section 1.3). -/
def inSettingRange (n : Nat) (w : Int) : Prop :=
  match clampRange n with
  | some (lo, hi) => lo ≤ w ∧ w ≤ hi
  | none => match greatestCode n with
    | some top => 0 ≤ w ∧ w ≤ top
    | none => w = 38400 ∨ w = 57600 ∨ w = 115200

theorem clampRange_le {n : Nat} {lo hi : Int} (h : clampRange n = some (lo, hi)) : lo ≤ hi := by
  unfold clampRange at h
  split at h <;> cases h <;> decide

theorem nearestRate_listed (v : Int) : nearestRate v = 38400 ∨ nearestRate v = 57600 ∨ nearestRate v = 115200 := by
  unfold nearestRate
  split <;> split <;> simp

/-- What a setting takes for a requested value is a value that it holds (R11). -/
theorem inSettingRange_of_taken {n : Nat} {v w : Int} (h : settingTaken n v = some w) : inSettingRange n w := by
  unfold settingTaken at h
  unfold inSettingRange
  split at h
  next lo hi hclamp =>
    cases h
    simpa only [hclamp] using clampInt_mem (clampRange_le hclamp) v
  next hclamp =>
    split at h
    next top hcode =>
      split at h
      next hv => cases h; simpa only [hclamp, hcode] using hv
      next => cases h
    next hcode =>
      cases h
      simpa only [hclamp, hcode] using nearestRate_listed v

theorem inRange_setRunway {length : Nat} {k : Store} {t : Taken} (hg : g.inRange)
    (h : setRunway length g p = .ok (k, t)) : k.inRange := by
  simp only [setRunway, need_eq_ok] at h
  obtain ⟨-, -, -, -, ht⟩ := h
  cases ht
  exact ⟨clampInt_mem (by decide) _, hg.2⟩

theorem inRange_setBed {bed xStart xEnd : Nat} {zones : List ZoneSpec} {k : Store} {t : Taken} (hg : g.inRange)
    (h : setBed bed xStart xEnd zones g p = .ok (k, t)) : k.inRange := by
  obtain ⟨hrunway, hplant, hboiler, hproducts, hslots, hbeds, hrising, hrest⟩ := hg
  simp only [setBed, need_eq_ok, Bool.and_eq_true, decide_eq_true_eq] at h
  obtain ⟨-, ⟨⟨-, hlen⟩, -⟩, -, h⟩ := h
  split at h
  · cases h
    exact ⟨hrunway, hplant, hboiler, hproducts, hslots, fun e he => hbeds e (Map.mem_del he), Map.del_rising hrising bed,
      hrest⟩
  · simp only [need_eq_ok] at h
    obtain ⟨-, -, -, -, -, ht⟩ := h
    cases ht
    refine ⟨hrunway, hplant, hboiler, hproducts, hslots, fun e he => ?_, Map.put_rising hrising _ _, hrest⟩
    obtain rfl | hold := Map.mem_put he
    · refine ⟨by simpa using hlen, fun z hz => ?_⟩
      obtain ⟨spec, -, rfl⟩ := List.mem_map.mp hz
      exact Nat.min_le_left _ _
    · exact hbeds e hold

theorem inRange_setSlot {slot x massLimit tierLimit area : Nat} {k : Store} {t : Taken} (hg : g.inRange)
    (h : setSlot slot x massLimit tierLimit area g p = .ok (k, t)) : k.inRange := by
  obtain ⟨hrunway, hplant, hboiler, hproducts, hslots, hbeds, hbedsRising, hrising, hrest⟩ := hg
  simp only [setSlot, need_eq_ok] at h
  obtain ⟨-, -, -, -, ht⟩ := h
  cases ht
  refine ⟨hrunway, hplant, hboiler, hproducts, fun e he => ?_, hbeds, hbedsRising, Map.put_rising hrising _ _, hrest⟩
  obtain rfl | hold := Map.mem_put he
  · exact ⟨Nat.min_le_left _ _, clampNat_mem (by decide) _⟩
  · exact hslots e hold

theorem inRange_setArea {area node : Nat} {k : Store} {t : Taken} (hg : g.inRange)
    (h : setArea area node g p = .ok (k, t)) : k.inRange := by
  obtain ⟨hrunway, hplant, hboiler, hproducts, hslots, hbeds, hbedsRising, hslotsRising, hrising, hrest⟩ := hg
  simp only [setArea, need_eq_ok] at h
  obtain ⟨-, -, -, ht⟩ := h
  cases ht
  refine ⟨hrunway, hplant, hboiler, hproducts, hslots, hbeds, hbedsRising, hslotsRising, ?_, hrest⟩
  dsimp only
  split
  · exact Map.del_rising hrising _
  · exact Map.put_rising hrising _ _

theorem inRange_setBay {bay x : Nat} {k : Store} {t : Taken} (hg : g.inRange) (h : setBay bay x g p = .ok (k, t)) :
    k.inRange := by
  obtain ⟨hrunway, hplant, hboiler, hproducts, hslots, hbeds, hbedsRising, hslotsRising, hareas, hrising, hrest⟩ := hg
  simp only [setBay, need_eq_ok] at h
  obtain ⟨-, -, -, ht⟩ := h
  cases ht
  exact ⟨hrunway, hplant, hboiler, hproducts, hslots, hbeds, hbedsRising, hslotsRising, hareas, Map.put_rising hrising _ _,
    hrest⟩

theorem inRange_setCrane {crane node home : Nat} {k : Store} {t : Taken} (hg : g.inRange)
    (h : setCrane crane node home g p = .ok (k, t)) : k.inRange := by
  simp only [setCrane, need_eq_ok, must_eq_ok] at h
  obtain ⟨-, -, c, -, -, -, -, -, ht⟩ := h
  cases ht
  cases c <;> exact hg

theorem productTaken_inRange (q : ProductSpec) : (productTaken q).inRange := by
  have hstrip := clampNat_mem (lo := 100) (hi := 2000) (by decide) q.strip
  have hhold := clampNat_mem (lo := 300) (hi := 750) (by decide) q.hold
  have hcool := clampNat_mem (lo := 100) (hi := 400) (by decide) q.coolEnd
  refine ⟨hstrip, ?ship, Nat.min_le_left _ _, clampNat_mem (by decide) _, ?hold, clampNat_mem (by decide) _, ?cool,
    clampNat_mem (by decide) _⟩ <;> simp only [productTaken]
  case ship => omega
  case hold => omega
  case cool => omega

theorem inRange_setProduct {index : Nat} {q : ProductSpec} {k : Store} {t : Taken} (hg : g.inRange)
    (h : setProduct index q g p = .ok (k, t)) : k.inRange := by
  obtain ⟨hrunway, hplant, hboiler, hproducts, hslots, hbeds, h1, h2, h3, h4, hrising⟩ := hg
  simp only [setProduct, need_eq_ok] at h
  obtain ⟨-, -, -, -, -, ht⟩ := h
  cases ht
  refine ⟨hrunway, hplant, hboiler, fun e he => ?_, hslots, hbeds, h1, h2, h3, h4, Map.put_rising hrising _ _⟩
  obtain rfl | hold := Map.mem_put he
  · exact productTaken_inRange q
  · exact hproducts e hold

theorem inRange_clearProduct {index : Nat} {k : Store} {t : Taken} (hg : g.inRange)
    (h : clearProduct index g p = .ok (k, t)) : k.inRange := by
  obtain ⟨hrunway, hplant, hboiler, hproducts, hslots, hbeds, h1, h2, h3, h4, hrising⟩ := hg
  simp only [clearProduct, need_eq_ok] at h
  obtain ⟨-, -, -, ht⟩ := h
  cases ht
  exact ⟨hrunway, hplant, hboiler, fun e he => hproducts e (Map.mem_del he), hslots, hbeds, h1, h2, h3, h4,
    Map.del_rising hrising _⟩

/-- Setting `n` with a value that it takes keeps every setting in its range. -/
theorem change_inRange {r : Settings} (hr : r.inRange) {n : Nat} (hn : isId 27 n = true) {w : Int}
    (h : inSettingRange n w) : (r.change n w).inRange := by
  obtain ⟨hlo, hhi⟩ := isId_eq_true_iff.mp hn
  interval_cases n <;> simp only [inSettingRange, clampRange, greatestCode] at h <;>
    simp only [Settings.change, Settings.inRange] at hr ⊢ <;> simp only [hr, h, and_self]

theorem inRange_setPlant {number : Nat} {value : Int} {k : Store} {t : Taken} (hg : g.inRange)
    (h : setPlant number value g p = .ok (k, t)) : k.inRange := by
  simp only [setPlant, need_eq_ok, must_eq_ok] at h
  obtain ⟨-, hn, taken, htaken, -, ht⟩ := h
  cases ht
  exact ⟨hg.1, change_inRange hg.2.1 hn (inSettingRange_of_taken htaken), hg.2.2⟩

theorem inRange_setBoiler {capacity : Nat} {k : Store} {t : Taken} (hg : g.inRange)
    (h : setBoiler capacity g p = .ok (k, t)) : k.inRange := by
  cases h
  exact ⟨hg.1, hg.2.1, Nat.min_le_left _ _, hg.2.2.2⟩

theorem inRange_setMode {mode : Nat} {k : Store} {t : Taken} (hg : g.inRange) (h : setMode mode g p = .ok (k, t)) :
    k.inRange := by
  simp only [setMode, must_eq_ok] at h
  obtain ⟨m, -, h⟩ := h
  split at h
  · cases h
    exact hg
  · rw [need_eq_ok] at h
    obtain ⟨-, ht⟩ := h
    cases ht
    exact hg

theorem inRange_service {i : Instr} {f : Store → Part → Decision} (h : service i = some f) (hg : g.inRange) :
    (f g p).store.inRange := by
  cases i <;> cases h
  case setRunway => exact byStore_inRange hg fun _ _ => inRange_setRunway hg
  case setBed => exact byStore_inRange hg fun _ _ => inRange_setBed hg
  case setSlot => exact byStore_inRange hg fun _ _ => inRange_setSlot hg
  case setArea => exact byStore_inRange hg fun _ _ => inRange_setArea hg
  case setBay => exact byStore_inRange hg fun _ _ => inRange_setBay hg
  case setCrane => exact byStore_inRange hg fun _ _ => inRange_setCrane hg
  case setProduct => exact byStore_inRange hg fun _ _ => inRange_setProduct hg
  case clearProduct => exact byStore_inRange hg fun _ _ => inRange_clearProduct hg
  case setPlant => exact byStore_inRange hg fun _ _ => inRange_setPlant hg
  case setBoiler => exact byStore_inRange hg fun _ _ => inRange_setBoiler hg
  case setMode => exact byStore_inRange hg fun _ _ => inRange_setMode hg
  all_goals simpa only [byPart_store, byRead_store] using hg

/-! ### The Command Link's places and queues -/

/-- What `linkSound` speaks of is the same in two records of CL. -/
def sameQueues (k l : CommandLink) : Prop :=
  l.places = k.places ∧ l.sending = k.sending ∧ l.replies = k.replies ∧ l.notices = k.notices

theorem sameQueues.keeps_sound {k l : CommandLink} (h : sameQueues k l) (hk : linkSound k) : linkSound l := by
  obtain ⟨hplaces, hsending, hreplies, hnotices⟩ := h
  simpa only [linkSound, unsent, hplaces, hsending, hreplies, hnotices] using hk

theorem unsent_linkCore (k : CommandLink) : unsent (linkCore k) = unsent k := rfl

theorem Raised.unsent_eq {k l : CommandLink} (h : Raised k l) : unsent l = unsent k := by
  rw [← unsent_linkCore l, h.linkCore_eq, unsent_linkCore]

theorem linkCore_places (k : CommandLink) : (linkCore k).places = k.places := rfl

theorem Raised.places_eq {k l : CommandLink} (h : Raised k l) : l.places = k.places := by
  rw [← linkCore_places l, h.linkCore_eq, linkCore_places]

theorem Raised.keeps_sound {k l : CommandLink} (h : Raised k l) (hk : linkSound k) : linkSound l := by
  obtain ⟨hplaces, hlen, hnotices⟩ := hk
  exact ⟨by rw [h.places_eq, h.unsent_eq, hplaces], by rwa [h.places_eq], h.notices_le hnotices⟩

theorem nextFrame_notices_le (k : CommandLink) : (nextFrame k).notices.length ≤ k.notices.length := by
  rcases nextFrame_cases k with h | ⟨r, rest, _, _, h⟩ | ⟨n, rest, _, _, hn, h⟩ <;> rw [h]
  · rfl
  · simp [beginNotice, hn]

theorem nextFrame_sound {k : CommandLink} (hk : linkSound k) : linkSound (nextFrame k) := by
  obtain ⟨hplaces, hlen, hnotices⟩ := hk
  exact ⟨by rw [(nextFrame_keeps k).2.2.1, (nextFrame_keeps k).1, hplaces], by rwa [(nextFrame_keeps k).2.2.1],
    (nextFrame_notices_le k).trans hnotices⟩

/-- One reply more, and its place: a request that found a place free (R175). -/
theorem linkSound_answered {k l : CommandLink} {r : Reply} (hk : linkSound k) (room : k.places.length < 2)
    (hplaces : l.places = k.places ++ [(r.kind, r.tag)]) (hunsent : unsent l = unsent k ++ [r])
    (hnotices : l.notices.length ≤ 24) : linkSound l := by
  refine ⟨?_, ?_, hnotices⟩
  · rw [hplaces, hunsent, hk.1, List.map_append, List.map_singleton]
  · rw [hplaces, List.length_append, List.length_singleton]
    omega

theorem unsent_queueReply (r : Reply) (p : Part) : unsent (queueReply r p).cl = unsent p.cl ++ [r] := by
  simp only [unsent, queueReply, List.append_assoc]

/-- The end of a frame frees the place of its reply, where it is one (R175, R179). -/
theorem lineEnds_sound {k : CommandLink} {f : Frame} (hk : linkSound k) (hf : k.sending = some f) :
    linkSound (lineEnds (match f with | .reply _ _ _ => true | .notice _ _ _ => false) k) := by
  obtain ⟨hplaces, hlen, hnotices⟩ := hk
  cases f with
  | notice n flags rate =>
    simp only [unsent, hf, List.nil_append] at hplaces
    exact ⟨by simpa [lineEnds, unsent] using hplaces, hlen, hnotices⟩
  | reply r flags rate =>
    simp only [unsent, hf, List.singleton_append, List.map_cons] at hplaces
    refine ⟨by simp [lineEnds, unsent, hplaces], ?_, hnotices⟩
    simp only [lineEnds, hplaces, List.drop_one, List.tail_cons, if_true]
    simp only [hplaces, List.length_cons] at hlen
    omega

theorem fresh_sound (rate : Nat) : linkSound (.fresh rate) := ⟨rfl, Nat.zero_le 2, Nat.zero_le 24⟩

theorem raiseStarted_sound {n : Notice} {p : Part} (hp : linkSound p.cl) : linkSound (raiseStarted n p).cl := by
  obtain ⟨hplaces, hlen, hnotices⟩ := hp
  unfold raiseStarted
  split
  · next room => exact ⟨hplaces, hlen, by simpa [Config.noticePlaces] using room⟩
  · next full =>
    refine ⟨hplaces, hlen, ?_⟩
    simp only [Config.noticePlaces] at full
    simp only [List.length_cons, List.length_dropLast]
    omega

/-! ### What a step does to the store, to MP's record, to the contexts and to CL's queues -/

/-- Two states of which the second may follow the first: its store keeps the ranges, its move planner changes as events change
it, and its contexts and CL's queues are as sound. -/
structure Follows (s t : State) : Prop where
  store : s.store.inRange → t.store.inRange
  planner : Relation.ReflTransGen (PlannerChange s.store) s.mp t.mp
  curing : s.store.inRange → curingSound s.toPart → curingSound t.toPart
  link : linkSound s.cl → linkSound t.cl

namespace Follows

variable {s t u : State}

theorem refl (s : State) : Follows s s := ⟨id, .refl, fun _ h => h, id⟩

theorem trans (h : Follows s t) (k : Follows t u) : Follows s u :=
  ⟨fun hs => k.store (h.store hs), h.planner.trans (Relation.ReflTransGen.mono (fun _ _ => .of_store h.store) _ _ k.planner),
    fun hs hc => k.curing (h.store hs) (h.curing hs hc), k.link ∘ h.link⟩

theorem foldl {α : Type} {f : State → α → State} (hf : ∀ s a, Follows s (f s a)) (l : List α) (s : State) :
    Follows s (l.foldl f s) := by
  induction l generalizing s with
  | nil => exact refl s
  | cons a l ih => exact (hf s a).trans (ih _)

/-- The records of the other blocks may change at will. -/
theorem same (h : Follows s t) (hstore : u.store = t.store) (hmp : u.mp = t.mp)
    (hcc : u.cc.contexts = t.cc.contexts) (hcl : linkSound t.cl → linkSound u.cl) : Follows s u :=
  ⟨fun hs => hstore ▸ h.store hs, hmp ▸ h.planner,
    fun hs hc => by simpa only [curingSound, hcc] using h.curing hs hc, hcl ∘ h.link⟩

/-- An event acts on the part under the store of the state it begins in. -/
theorem of_acts {p q : Part} (h : Acts s.store p q) (hp : p.mp = s.mp) (hpc : p.cc.contexts = s.cc.contexts)
    (hpl : p.cl = s.cl) (hstore : t.store = s.store) (hmp : t.mp = q.mp) (hcc : t.cc.contexts = q.cc.contexts)
    (hcl : linkSound q.cl → linkSound t.cl) : Follows s t := by
  refine ⟨fun hs => hstore ▸ hs, hmp ▸ hp ▸ h.planner, fun hs hc => ?_, fun hl => hcl (h.link.keeps_sound (hpl ▸ hl))⟩
  have hcp : curingSound p := by simpa only [curingSound, hpc] using hc
  simpa only [curingSound, hcc] using h.curing hs hcp

end Follows

theorem follows_event {f : Part → Part} (s : State) (hf : ∀ p, Acts s.store p (f p)) : Follows s (event f s) := by
  unfold event
  split
  · exact .of_acts (hf { s.toPart with evt := .none }).then_endOfEvent rfl rfl rfl rfl rfl rfl nextFrame_sound
  · exact .refl s

theorem follows_attemptEnd {f : Exchange → Part → Part} (s : State) (hf : ∀ ex p, Acts s.store p (f ex p)) :
    Follows s (attemptEnd f s) := by
  unfold attemptEnd
  split
  next ex _ _ =>
    refine .of_acts (hf ex { s.toPart with evt := .none }).then_endOfEvent rfl rfl rfl rfl ?_ ?_ fun hl => ?_
    · simp
    · simp
    · simpa only [sendNext_cl, releaseLine_keeps] using nextFrame_sound hl
  next => exact .refl s

/-- An owner's decision that acts on the part and leaves CL's queues to notices. -/
def decides (g : Store) (p : Part) (d : Decision) : Prop :=
  (g.inRange → d.store.inRange) ∧
    ∃ q, Acts g p q ∧ d.part.mp = q.mp ∧ d.part.cc = q.cc ∧ sameQueues q.cl d.part.cl

theorem follows_receive {kind tag : Nat} {f : Store → Part → Decision} (s : State)
    (hf : ∀ p, decides s.store p (f s.store p)) : Follows s (receive kind tag f s) := by
  by_cases hready : ready s
  · obtain ⟨hstore, q, hq, hmp, hcc, hplaces, hsending, hreplies, hnotices⟩ := hf (atOwner kind tag s)
    let d := f s.store (atOwner kind tag s)
    have hunsent : unsent d.part.cl = unsent s.cl := by
      simp only [unsent, d, hsending, hreplies]
      exact hq.link.unsent_eq
    have decided : Follows s { s with store := d.store, toPart := queueReply (replyOf kind tag d) d.part } := by
      refine ⟨hstore, hmp ▸ hq.planner, fun hs hc => ?_, fun hl => linkSound_answered (r := replyOf kind tag d) hl hready.2.1
        (hplaces.trans hq.link.places_eq) ?_ (hnotices ▸ hq.link.notices_le hl.2.2)⟩
      · have hsound := hq.curing hs hc
        simpa only [curingSound, queueReply, d, hcc] using hsound
      · exact (unsent_queueReply _ _).trans (hunsent ▸ rfl)
    rw [receive_ready hready]
    exact decided.trans (.of_acts (p := queueReply (replyOf kind tag d) d.part) (Acts.refl _).then_endOfEvent rfl rfl rfl rfl
      (sendNext_keeps _).2.2.2.2.2.1 (congrArg CuringController.contexts (sendNext_keeps _).2.2.1) nextFrame_sound)
  · unfold receive
    split
    · exact .refl s
    · next hpower =>
      split
      · exact (Follows.refl s).same rfl rfl rfl id
      · next room =>
        split
        · exact .refl s
        · next open' =>
          exact absurd ⟨by simpa using hpower, by simpa [Config.bufferPlaces] using room, by simpa using open'⟩ hready

theorem decides_service {i : Instr} {f : Store → Part → Decision} (h : service i = some f) (p : Part) :
    decides g p (f g p) := by
  refine ⟨inRange_service h, ?_⟩
  by_cases hi : ∃ tag, i = .restart tag
  · obtain ⟨tag, rfl⟩ := hi
    cases h
    exact ⟨p, .refl p, rfl, rfl, rfl, rfl, rfl, rfl⟩
  · exact ⟨_, acts_service h fun tag htag => hi ⟨tag, htag⟩, rfl, rfl, rfl, rfl, rfl, rfl⟩

theorem decides_answerTo (r : Reading) (p : Part) : decides g p (answerTo r g p) := by
  have declines (st : Status) : decides g p (declined st g p) :=
    ⟨id, p, .refl p, rfl, rfl, rfl, rfl, rfl, rfl⟩
  cases r with
  | unknownKind => exact declines _
  | badLength => exact declines _
  | request i =>
    cases hi : service i with
    | none => simpa only [answerTo, hi, Option.getD_none] using declines .unknown
    | some f => simpa only [answerTo, hi, Option.getD_some] using decides_service hi p

theorem follows_goodFrame (kind tag : Nat) (payload : List Nat) (s : State) :
    Follows s (goodFrame kind tag payload s) := follows_receive s fun p => decides_answerTo _ p

/-- The receiver and the counts of CL may change at will. -/
theorem Follows.of_link {s : State} {k : CommandLink} (h : linkSound s.cl → linkSound k) : Follows s { s with cl := k } :=
  (Follows.refl s).same rfl rfl rfl h

theorem discard_sameQueues (why : Discard) (k : CommandLink) : sameQueues k (discard why k) := by
  cases why <;> exact ⟨rfl, rfl, rfl, rfl⟩

theorem follows_discardFrame (why : Discard) (s : State) : Follows s (discardFrame why s) :=
  .of_link (discard_sameQueues why s.cl).keeps_sound

theorem follows_setReceiver (r : Receiver) (s : State) : Follows s (setReceiver r s) := .of_link id

theorem follows_takeChar (s : State) (ch : RxChar) : Follows s (takeChar s ch) := by
  unfold takeChar
  split
  · split
    · exact follows_setReceiver _ s
    · exact .refl s
  · split
    · exact follows_discardFrame _ s
    · split
      · exact follows_setReceiver _ s
      · exact follows_discardFrame _ s
      · exact (follows_setReceiver _ s).trans (follows_goodFrame _ _ _ _)

theorem follows_gapPassed (s : State) : Follows s (gapPassed s) := by
  unfold gapPassed
  split
  · exact .refl s
  · exact follows_discardFrame _ s

/-! ### Starts and supplies -/

/-- The records as a start has reset and repaired them (R185 to R187). -/
def startSettled (g : Store) (kept : Bool) (p : Part) : Part :=
  if kept then repair g (resetVolatile g p) else clearJobs (resetVolatile g p)

/-- The same with the mode that the start chooses (R188). -/
def startChosen (g : Store) (cause : StartCause) (kept : Bool) (p : Part) : Part :=
  { startSettled g kept p with
    mc := { power := true, backupHeld := true, mode := startMode g, startCause := cause, retained := kept } }

/-- The records once the blocks have been told of that mode (R183, R188). -/
def startTold (g : Store) (cause : StartCause) (kept : Bool) (p : Part) : Part :=
  endOfEvent g (tellMode g (startMode g) (startChosen g cause kept p))

theorem startWith_eq (g : Store) (cause : StartCause) (kept : Bool) (p : Part) :
    startWith g cause kept p = beginWork g (raiseStarted
      (.started cause kept (startMode g) (if kept then poursOpen (resetVolatile g p) else 0)) (startTold g cause kept p)) := by
  rfl

theorem follows_start (cause : StartCause) (indication : Bool) (s : State) : Follows s (start cause indication s) := by
  let kept := retentionValid s.store indication
  have reset : Follows s { s with toPart := resetVolatile s.store s.toPart } :=
    ⟨id, .single (.cleared s.mp), fun _ hc => hc, fun _ => fresh_sound _⟩
  have settled : Follows s { s with toPart := startSettled s.store kept s.toPart } := by
    refine reset.trans ?_
    unfold startSettled
    split
    · exact .of_acts (Acts.refl _).then_repair rfl rfl rfl rfl rfl rfl id
    · exact ⟨id, .refl, fun _ _ => ⟨rfl, nofun⟩, id⟩
  have told : Follows s { s with toPart := startTold s.store cause kept s.toPart } :=
    settled.trans (.of_acts (p := startChosen s.store cause kept s.toPart)
      ((Acts.refl _).then_tellMode _).then_endOfEvent rfl rfl rfl rfl rfl rfl id)
  refine told.same rfl ?_ ?_ fun hl => ?_
  · simp only [start, startWith_eq, beginWork_keeps, raiseStarted_keeps, kept]
  · simp only [start, startWith_eq, beginWork_keeps, raiseStarted_keeps, kept]
  · simpa only [start, startWith_eq, beginWork, sendNext_cl, lineFree_keeps] using nextFrame_sound (raiseStarted_sound hl)

theorem follows_frameEnded {f : Frame} {s : State} (hf : s.cl.sending = some f) : Follows s (frameEnded f s) := by
  have ended : linkSound s.cl → _ := fun hl => lineEnds_sound hl hf
  unfold frameEnded
  cases f with
  | notice n flags rate => exact .of_link (nextFrame_sound ∘ ended)
  | reply r flags rate =>
    dsimp only
    split
    · exact .of_link (nextFrame_sound ∘ ended)
    · exact .of_link fun hl => nextFrame_sound (k := changeRate _ (lineEnds true s.cl)) (ended hl)
    · exact follows_start _ _ s

theorem follows_losePower (s : State) : Follows s { s with toPart := losePower s.store s.toPart } :=
  ⟨id, .single (.cleared s.mp), fun _ hc => hc, fun _ => fresh_sound _⟩

theorem follows_loseRetained (s : State) : Follows s { s with toPart := loseRetained s.toPart } :=
  ⟨id, .refl, fun _ _ => ⟨rfl, nofun⟩, id⟩

theorem follows_execEvent {i : Instr} {s t : State} (hi : requestHead i = none) (h : exec i s = .next t) :
    Follows s t := by
  cases i <;> cases hi <;> cases h
  case powerUp => exact follows_start _ _ s
  case resetPin =>
    split
    · exact follows_start _ _ s
    · exact .refl s
  case frameReceived chars =>
    split
    · exact .foldl follows_takeChar chars s
    · exact .refl s
  case interCharacterGap char =>
    split
    · exact (follows_gapPassed s).trans (follows_takeChar _ char)
    · exact .refl s
  case unknownKind => exact follows_goodFrame _ _ _ s
  case frameSent =>
    split
    next f _ hf => exact follows_frameEnded hf
    next => exact .refl s
  case gapTimerExpiry bed => exact follows_event s fun p => (Acts.refl p).then_gapTimeout bed
  case curingIntervalExpiry => exact follows_event s fun p => (Acts.refl p).then_curingExpiry
  case yardIntervalExpiry => exact follows_event s fun p => (Acts.refl p).then_yardExpiry
  case stepTimerExpiry c => exact follows_event s fun p => (Acts.refl p).then_stepTimeout c
  case replyTimerExpiry => exact follows_attemptEnd s fun ex p => (Acts.refl p).then_attemptFailed ex _
  case replyComplete chars =>
    split
    · exact .refl s
    · exact follows_attemptEnd s fun ex p => (Acts.refl p).then_replyEnded chars ex
  case roundTimerExpiry => exact follows_event s fun p => (Acts.refl p).same
  case cranePollTimerExpiry c => exact follows_event s fun p => (Acts.refl p).same
  case mainPowerFails =>
    split
    · exact follows_losePower s
    · exact .refl s
  case backupSupplyBelowThreshold =>
    split
    · exact .refl s
    · exact follows_loseRetained s

theorem follows_exec {i : Instr} {s t : State} (h : exec i s = .next t) : Follows s t := by
  rcases hi : requestHead i with _ | ⟨kind, tag⟩
  · exact follows_execEvent hi h
  · obtain ⟨f, hf, hexec⟩ := exec_request hi
    rw [hexec] at h
    cases h
    exact follows_receive s (decides_service hf)

theorem follows_step {s t : State} (h : step s = .next t) : Follows s t := by
  unfold step at h
  split at h
  · cases h
    unfold tick
    split
    · exact (Follows.refl s).same rfl rfl rfl id
    · exact .refl s
  next i rest _ =>
    exact ((Follows.refl s).same (u := { s with pending := rest }) rfl rfl rfl id).trans (follows_exec h)

/-! ### The number of a new move -/

/-- The numbers tried from `n` on: 255 is followed by 1 (R117). -/
def triedNumber (n d : Nat) : Nat := (n - 1 + d) % 255 + 1

theorem triedNumber_zero {n : Nat} (h : 1 ≤ n) (h' : n ≤ 255) : triedNumber n 0 = n := by
  unfold triedNumber
  omega

theorem triedNumber_nextNumber {n : Nat} (h : 1 ≤ n) (h' : n ≤ 255) (d : Nat) :
    triedNumber (nextNumber n) d = triedNumber n (d + 1) := by
  unfold triedNumber nextNumber
  split <;> omega

theorem nextNumber_mem {n : Nat} (h : 1 ≤ n) : 1 ≤ nextNumber n ∧ nextNumber n ≤ 255 := by
  unfold nextNumber
  split <;> omega

/-- What seeking finds within `k` tries: the first free number tried, where one of them is free. -/
theorem seekNumber_found (q : List Move) : ∀ (k : Nat) {n : Nat}, 1 ≤ n → n ≤ 255 →
    (∃ d < k, triedNumber n d ∉ q.map (·.number)) →
    ∃ d < k, seekNumber q k n = triedNumber n d ∧ triedNumber n d ∉ q.map (·.number) ∧
      ∀ j < d, triedNumber n j ∈ q.map (·.number)
  | 0, _, _, _, h => by obtain ⟨_, h, _⟩ := h; exact absurd h (Nat.not_lt_zero _)
  | k + 1, n, h1, h2, ⟨d, hd, hfree⟩ => by
    by_cases hn : n ∈ q.map (·.number)
    · have hd0 : d ≠ 0 := by
        rintro rfl
        exact hfree ((triedNumber_zero h1 h2).symm ▸ hn)
      obtain ⟨e, rfl⟩ := Nat.exists_eq_succ_of_ne_zero hd0
      have hnext := nextNumber_mem h1
      obtain ⟨f, hf, hseek, hnew, hlive⟩ := seekNumber_found q k hnext.1 hnext.2
        ⟨e, by omega, by rwa [triedNumber_nextNumber h1 h2]⟩
      have hany : (q.any fun m => m.number == n) = true := by simpa using hn
      refine ⟨f + 1, by omega, ?_, ?_, fun j hj => ?_⟩
      · rw [seekNumber, if_pos hany, hseek, triedNumber_nextNumber h1 h2]
      · rwa [← triedNumber_nextNumber h1 h2]
      · cases j with
        | zero => rwa [triedNumber_zero h1 h2]
        | succ j =>
          rw [← triedNumber_nextNumber h1 h2]
          exact hlive j (by omega)
    · have hany : ¬ (q.any fun m => m.number == n) = true := by simpa using hn
      refine ⟨0, by omega, ?_, ?_, fun j hj => absurd hj (Nat.not_lt_zero _)⟩
      · rw [seekNumber, if_neg hany, triedNumber_zero h1 h2]
      · rwa [triedNumber_zero h1 h2]

/-- Of 255 numbers one is free, where the queue is shorter. -/
theorem exists_free_number {q : List Move} (h : q.length < 255) (n : Nat) :
    ∃ d < 255, triedNumber n d ∉ q.map (·.number) := by
  by_contra hall
  push Not at hall
  have hsub : (List.range 255).map (triedNumber n) ⊆ q.map (·.number) := by
    intro x hx
    obtain ⟨d, hd, rfl⟩ := List.mem_map.mp hx
    exact hall d (List.mem_range.mp hd)
  have hnodup : ((List.range 255).map (triedNumber n)).Nodup := by
    refine List.Nodup.map_on (fun a ha b hb hab => ?_) List.nodup_range
    rw [List.mem_range] at ha hb
    unfold triedNumber at hab
    omega
  have hlen := (hnodup.subperm hsub).length_le
  simp only [List.length_map, List.length_range] at hlen
  omega

/-- The number that seeking finds in a queue of fewer than 255 moves: the first free one from `n` on (R117). -/
theorem seekNumber_spec {q : List Move} (h : q.length < 255) {n : Nat} (h1 : 1 ≤ n) (h2 : n ≤ 255) :
    ∃ d < 255, seekNumber q 255 n = triedNumber n d ∧ triedNumber n d ∉ q.map (·.number) ∧
      ∀ j < d, triedNumber n j ∈ q.map (·.number) :=
  seekNumber_found q 255 h1 h2 (exists_free_number h n)

/-! ### What every step keeps -/

/-- `movesSound`, said of MP's record alone. -/
def plannerSound (m : MovePlanner) : Prop :=
  m.queue.length ≤ 32 ∧ (m.queue.map (·.number)).Nodup ∧ (∀ n ∈ m.queue.map (·.number), 1 ≤ n ∧ n ≤ 255) ∧
  1 ≤ m.counter ∧ m.counter ≤ 255

theorem plannerSound_iff (p : Part) : plannerSound p.mp ↔ movesSound p := by
  simp [plannerSound, movesSound]

theorem PlannerChange.keeps_sound {g : Store} {m m' : MovePlanner} (h : PlannerChange g m m') (hm : plannerSound m) :
    plannerSound m' := by
  obtain ⟨hlen, hnodup, hrange, hcounter⟩ := hm
  cases h with
  | requeue q hsub =>
    have hle := hsub.length_le
    simp only [List.length_map] at hle
    obtain ⟨l, hperm, hl⟩ := hsub
    exact ⟨hle.trans hlen, hperm.nodup_iff.mp (hl.nodup hnodup),
      fun n hn => hrange n (hl.subset (hperm.mem_iff.mpr hn)), hcounter⟩
  | join atHead x room =>
    obtain ⟨d, _, hseek, hnew, _⟩ := seekNumber_spec (q := m.queue) (by omega) hcounter.1 hcounter.2
    have hnumber : 1 ≤ seekNumber m.queue 255 m.counter ∧ seekNumber m.queue 255 m.counter ≤ 255 := by
      rw [hseek]
      unfold triedNumber
      omega
    have hfresh : seekNumber m.queue 255 m.counter ∉ m.queue.map (·.number) := hseek ▸ hnew
    have hperm : List.Perm (((MovePlanner.joined m atHead x).queue).map (·.number))
        (seekNumber m.queue 255 m.counter :: m.queue.map (·.number)) := by
      cases atHead
      · simp [MovePlanner.joined]
      · simp [MovePlanner.joined]
    refine ⟨?_, hperm.nodup_iff.mpr (List.nodup_cons.mpr ⟨hfresh, hnodup⟩), fun n hn => ?_, nextNumber_mem hnumber.1⟩
    · have := hperm.length_eq
      simp only [List.length_map, List.length_cons] at this
      omega
    · rcases List.mem_cons.mp (hperm.mem_iff.mp hn) with rfl | hn
      · exact hnumber
      · exact hrange n hn
  | reserve => exact ⟨hlen, hnodup, hrange, hcounter⟩
  | backlog => exact ⟨hlen, hnodup, hrange, hcounter⟩
  | cleared => exact ⟨by simp, by simp, by simp, by decide⟩

theorem PlannerChange.keeps_ordered {g : Store} (hg : g.inRange) {m m' : MovePlanner} (h : PlannerChange g m m')
    (hm : ordered m.resA m.resB = true) : ordered m'.resA m'.resB = true := by
  cases h with
  | reserve a b h => exact h hg hm
  | cleared => rfl
  | requeue | join | backlog => exact hm

/-- What every change of MP's record keeps, a step keeps. -/
theorem Follows.planner_keeps {s t : State} {P : MovePlanner → Prop} (h : Follows s t)
    (hP : ∀ m m', PlannerChange s.store m m' → P m → P m') (hs : P s.mp) : P t.mp := by
  have kept : ∀ m, Relation.ReflTransGen (PlannerChange s.store) s.mp m → P m := fun m changes => by
    induction changes with
    | refl => exact hs
    | tail _ change ih => exact hP _ _ change ih
  exact kept _ h.planner

/-- Settles O57: `follows_step` has it, for every request that writes the store keeps the ranges (`inRange_service`). -/
theorem storeKept : Obligations.StoreKept := fun _ _ hs h => (follows_step h).store hs

/-- Settles O58: every change of MP's record that a step makes keeps the reservations in their order. -/
theorem cranesApartKept : Obligations.CranesApartKept := fun _ _ hs hapart h =>
  (follows_step h).planner_keeps (P := fun m => ordered m.resA m.resB = true) (fun _ _ change => change.keeps_ordered hs)
    hapart

/-- Settles O59: every change of MP's record that a step makes keeps the queue sound. -/
theorem movesSoundKept : Obligations.MovesSoundKept := fun s t hsound h =>
  (plannerSound_iff t.toPart).mp ((follows_step h).planner_keeps (fun _ _ change => change.keeps_sound)
    ((plannerSound_iff s.toPart).mpr hsound))

/-- Settles O60: `follows_step` has it, for every operation that writes the contexts keeps them sound (`Acts.curing`). -/
theorem curingSoundKept : Obligations.CuringSoundKept := fun _ _ hs hc h => (follows_step h).curing hs hc

/-- Settles O56: `follows_step` has it; a request that finds a place free takes one place and one reply, and the end of a
reply's frame frees one. -/
theorem linkSoundKept : Obligations.LinkSoundKept := fun _ _ hs h => (follows_step h).link hs

end Sys2Proof.Proofs
end

section
/-!
PROOFS. Single steps: the queue's front, 1 ms of elapsed time, reset and the first power-up (notes/assumptions/1.md, 3.md
and 4.md; R38, R166, R184 to R189).
-/

namespace Sys2Proof.Proofs

open Sys2Proof.Machine

/-! ### The queue -/

theorem step_of_pending {c : Instr} {s : State} {rest : List Instr} (h : s.pending = c :: rest) :
    step s = exec c { s with pending := rest } := by
  simp only [step, h]

theorem step_of_idle {s : State} (h : s.pending = []) : step s = .next (tick s) := by
  simp only [step, h]

/-- Settles O1, by the definition of a step. -/
theorem stepRunsFront : Obligations.StepRunsFront := fun _ _ _ => step_of_pending

/-! ### Elapsed time -/

theorem tick_of_power {s : State} (h : s.mc.power = true) : tick s = { s with toPart := tickPart s.toPart } := if_pos h

theorem tick_of_no_power {s : State} (h : s.mc.power = false) : tick s = s := by simp [tick, h]

theorem tickProbe_eq (r : Probe) :
    tickProbe r = { r with age := if r.value.isSome then min 3600000 (r.age + 1) else r.age } := by
  unfold tickProbe
  split <;> rfl

theorem tickNode_eq (r : Node) :
    tickNode r = { r with age := if r.lastReply.isSome then min 3600000 (r.age + 1) else r.age } := by
  unfold tickNode
  split <;> rfl

theorem tickPart_beds (p : Part) : (tickPart p).bs.beds = Map.mapRecords (fun _ r => tickBed r) p.bs.beds := rfl
theorem tickPart_zones (p : Part) : (tickPart p).tu.zones = Map.mapRecords (fun _ r => tickZone r) p.tu.zones := rfl
theorem tickPart_areas (p : Part) : (tickPart p).tu.areas = Map.mapRecords (fun _ r => tickArea r) p.tu.areas := rfl
theorem tickPart_nodes (p : Part) : (tickPart p).fl.nodes = Map.mapRecords (fun _ r => tickNode r) p.fl.nodes := rfl

/-- Settles O2: every record kept by number keeps its numbers and is ticked in place. -/
theorem idleStepPassesTime : Obligations.IdleStepPassesTime := by
  intro s hidle falls older probe crane
  refine ⟨fun hoff => ?_, fun hon => ⟨_, step_of_idle hidle, ?_⟩⟩
  · rw [step_of_idle hidle, tick_of_no_power hoff]
  rw [tick_of_power hon]
  refine ⟨rfl, ?_⟩
  simp only [tickPart_beds, tickPart_zones, tickPart_areas, tickPart_nodes, Map.keys_mapRecords, Map.find_mapRecords,
    tickZone, tickProbe_eq, tickNode_eq]
  exact ⟨trivial, trivial, trivial, trivial, fun _ => rfl, fun _ => rfl, fun _ => rfl, fun _ => rfl⟩

/-! ### Reset -/

/-- Settles O3, by evaluation of the fixed state. -/
theorem resetValues : Obligations.ResetValues := by
  have settings : (List.range 28).map State.reset.store.plant.value = _ := rfl
  have plant : State.reset.store.plant.inRange := by
    simp [Settings.inRange, State.reset, Store.fresh]
  have inRange : State.reset.store.inRange :=
    ⟨by decide, plant, by decide, nofun, nofun, nofun, rfl, rfl, rfl, rfl, rfl⟩
  have moves : movesSound State.reset.toPart := by decide +kernel
  have curing : curingSound State.reset.toPart := by decide +kernel
  have link : linkSound State.reset.cl := by decide +kernel
  exact ⟨rfl, rfl, rfl, rfl, rfl, rfl, rfl, rfl, rfl, rfl, settings, rfl, inRange, rfl, moves, curing, link⟩

/-- Of the records before it, a start with retention not valid keeps the count of ties alone. -/
theorem startWith_not_kept {g : Store} {cause : StartCause} {p q : Part} (h : p.fl.ties = q.fl.ties) :
    startWith g cause false p = startWith g cause false q := by
  have hcleared : clearJobs (resetVolatile g p) = { clearJobs (resetVolatile g q) with mc := p.mc } := by
    unfold clearJobs resetVolatile
    rw [h]
    rfl
  simp only [startWith, Bool.false_eq_true, if_false, hcleared]

/-- Settles O4: the start reads nothing of the lost records but the count of ties, so it is the start of one fixed part. -/
theorem freshPowerUpIsReset : Obligations.FreshPowerUpIsReset := by
  intro s hstore hlost hties
  have hstart : startWith Store.fresh .powerUp false Part.reset = Part.reset := by decide +kernel
  have hsame : startWith Store.fresh .powerUp false s.toPart = Part.reset := (startWith_not_kept hties).trans hstart
  show Host.Outcome.next (start .powerUp s.mc.backupHeld s) = _
  rw [start, hstore, hlost, show retentionValid Store.fresh false = false from rfl, hsame, State.reset, ← hstore]

end Sys2Proof.Proofs
end

section
/-!
PROOFS. The settings requests that change the store alone, or the reservations with it, and the two modes of refusal that
every request of a kind shares (chapter 1; R12, R18, R105, R180).
-/

namespace Sys2Proof.Proofs

open Sys2Proof.Machine

/-! ### Requests refused, and requests taken quietly -/

theorem need_of_true {α : Type} {c : Bool} {st : Status} {k : Judgement α} (h : c = true) : need c st k = k := by
  rw [h, need_true]

theorem need_of_false {α : Type} {c : Bool} {st : Status} {k : Judgement α} (h : ¬ c = true) :
    need c st k = .error st := by
  rw [Bool.not_eq_true] at h
  rw [h, need_false]

/-- Checks one behind the other that refuse with one status are one check. -/
theorem need_need {α : Type} (c d : Bool) (st : Status) (k : Judgement α) :
    need c st (need d st k) = need (c && d) st k := by
  cases c <;> rfl

theorem refusedWith_byStore {s : State} {c : Instr} {kind tag : Nat} {f : Store → Part → Judgement (Store × Taken)}
    {st : Status} (h : ready s) (hc : exec c s = .next (receive kind tag (byStore f) s))
    (hf : f s.store (atOwner kind tag s) = .error st) : runsTo c s fun t => refusedWith s t kind tag st :=
  ⟨_, hc, refused h (byStore_refuses hf)⟩

theorem refusedWith_byPart {s : State} {c : Instr} {kind tag : Nat} {f : Store → Part → Judgement Taken}
    {st : Status} (h : ready s) (hc : exec c s = .next (receive kind tag (byPart f) s))
    (hf : f s.store (atOwner kind tag s) = .error st) : runsTo c s fun t => refusedWith s t kind tag st :=
  ⟨_, hc, refused h (byPart_refuses hf)⟩

/-- A settings request taken that changes the store, and of the part nothing that triggers or tells anything. -/
theorem quiet_byStore {s : State} {c : Instr} {kind tag : Nat} {f : Store → Part → Judgement (Store × Taken)}
    {g : Store} {taken : Taken} (h : ready s) (hc : exec c s = .next (receive kind tag (byStore f) s))
    (hf : f s.store (atOwner kind tag s) = .ok (g, taken)) (he : taken.part.evt = .none)
    (hl : taken.part.cl = (atOwner kind tag s).cl) :
    runsTo c s fun t => becomes s t g taken.part ∧ told s t [] ∧
      answered s t kind tag (takenStatus taken.clamped) taken.fields taken.after := by
  have hd : byStore f s.store (atOwner kind tag s) =
      { store := g, part := taken.part, status := takenStatus taken.clamped, fields := taken.fields,
        after := taken.after } := by simp [byStore, hf]
  exact ⟨_, hc, quiet h hd he hl⟩

/-- A request taken that changes nothing that triggers or tells anything. -/
theorem quiet_byPart {s : State} {c : Instr} {kind tag : Nat} {f : Store → Part → Judgement Taken}
    {taken : Taken} (h : ready s) (hc : exec c s = .next (receive kind tag (byPart f) s))
    (hf : f s.store (atOwner kind tag s) = .ok taken) (he : taken.part.evt = .none)
    (hl : taken.part.cl = (atOwner kind tag s).cl) :
    runsTo c s fun t => becomes s t s.store taken.part ∧ told s t [] ∧
      answered s t kind tag (takenStatus taken.clamped) taken.fields taken.after := by
  have hd : byPart f s.store (atOwner kind tag s) =
      { store := s.store, part := taken.part, status := takenStatus taken.clamped, fields := taken.fields,
        after := taken.after } := by simp [byPart, hf]
  exact ⟨_, hc, quiet h hd he hl⟩

theorem runsTo_mono {c : Instr} {s : State} {φ ψ : State → Prop} (h : runsTo c s φ) (himp : ∀ t, φ t → ψ t) :
    runsTo c s ψ := by
  obtain ⟨t, hexec, hφ⟩ := h
  exact ⟨t, hexec, himp t hφ⟩

/-- CLAMPED where a value changed, OK where none did (R177). -/
theorem takenStatus_of_iff {c : Bool} {P : Prop} [Decidable P] (h : c = true ↔ ¬ P) :
    takenStatus c = if P then .ok else .clamped := by
  by_cases hP : P
  · have : c = false := by simpa [hP] using h
    simp [takenStatus, hP, this]
  · simp [takenStatus, hP, h.mpr hP]

theorem inSetup_atOwner {s : State} (h : s.mc.mode = .setup) (kind tag : Nat) : inSetup (atOwner kind tag s) = true := by
  simp [inSetup, atOwner, h]

theorem outsideSetup_atOwner {s : State} (h : s.mc.mode ≠ .setup) (kind tag : Nat) :
    outsideSetup (atOwner kind tag s) = true := by
  simp [outsideSetup, atOwner, h]

/-! ### SET RUNWAY -/

theorem setRunway_of_setup {length : Nat} {g : Store} {p : Part} (h : inSetup p = true) :
    setRunway length g p =
      need ((configuredPositions g).all (fun x => decide (x ≤ clampInt 100 4000 length)) &&
        (basisPoints p).all (fun x => decide (x ≤ clampInt 100 4000 length)) &&
        keepsOrder { g with runway := clampInt 100 4000 length } p) .range
        (.ok ({ g with runway := clampInt 100 4000 length },
          { part := recomputeReservations { g with runway := clampInt 100 4000 length } p,
            clamped := decide (clampInt 100 4000 length ≠ length) })) := by
  rw [setRunway, need_of_true h, need_need, need_need]

/-- Settles O13: the three RANGE checks are one, and what is taken recomputes the reservations and nothing else. -/
theorem setRunwayResult : Obligations.SetRunwayResult := by
  intro s tag length hready hsetup taken h fitting
  have hjudged := setRunway_of_setup (length := length) (g := s.store) (inSetup_atOwner hsetup 0x01 tag)
  have hfits : ((configuredPositions s.store).all (fun x => decide (x ≤ taken)) &&
      (basisPoints (atOwner 0x01 tag s)).all (fun x => decide (x ≤ taken)) &&
      keepsOrder h (atOwner 0x01 tag s)) = true ↔ fitting := by
    simp only [Bool.and_eq_true, List.all_eq_true, decide_eq_true_eq, and_assoc]
    rfl
  refine ⟨fun hfit => ?_, fun hfit => refusedWith_byStore hready rfl ?_⟩
  · refine runsTo_mono (quiet_byStore hready rfl (hjudged.trans (need_of_true (hfits.mpr hfit))) rfl rfl)
      fun t ⟨hbecomes, htold, hanswered⟩ => ⟨hbecomes, ?_, htold⟩
    rwa [takenStatus_of_iff (P := taken = length) decide_eq_true_iff] at hanswered
  · rw [hjudged, need_of_false (mt hfits.mp hfit)]

/-! ### SET SLOT and SET BAY -/

theorem setSlot_of_setup {slot x massLimit tierLimit area : Nat} {g : Store} {p : Part} (h : inSetup p = true) :
    let cfg : SlotCfg := { x := x, massLimit := min 120000 massLimit, tierLimit := clampNat 1 8 tierLimit, area := area }
    setSlot slot x massLimit tierLimit area g p =
      need (isId 48 slot && isId 4 area && onRunway g x && slotMayTake g p slot cfg) .range
        (.ok ({ g with slots := Map.put g.slots slot cfg },
          { part := p,
            clamped := decide (cfg.massLimit ≠ massLimit) || decide (cfg.tierLimit ≠ tierLimit) })) := by
  rw [setSlot, need_of_true h, need_need, need_need]

theorem clampNat_eq (lo hi n : Nat) : clampNat lo hi n = max lo (min hi n) := rfl

/-- A slot that holds pieces takes only a record that keeps its place and still carries the stack (R5). -/
theorem slotMayTake_eq_true_iff {g : Store} {p : Part} {slot : Nat} {cfg : SlotCfg} :
    slotMayTake g p slot cfg = true ↔ (slotOf p slot).stack = [] ∨
      ((∃ old, Map.find g.slots slot = some old ∧ old.x = cfg.x ∧ old.area = cfg.area) ∧
        (slotOf p slot).stack.length ≤ cfg.tierLimit ∧ stackMass p (slotOf p slot).stack ≤ cfg.massLimit) := by
  unfold slotMayTake
  cases Map.find g.slots slot <;> simp [and_assoc]

theorem setBay_of_setup {bay x : Nat} {g : Store} {p : Part} (h : inSetup p = true) :
    setBay bay x g p = need (isId 2 bay && onRunway g x) .range
      (.ok ({ g with bays := Map.put g.bays bay (x : Int) }, { part := p })) := by
  rw [setBay, need_of_true h, need_need]

theorem onRunway_eq_true_iff {g : Store} {x : Nat} : onRunway g x = true ↔ (x : Int) ≤ g.runway := by
  simp [onRunway]

/-- Settles O15: the RANGE checks of each request are one. -/
theorem setSlotAndBayResult : Obligations.SetSlotAndBayResult := by
  intro s tag hready hsetup
  refine ⟨?slot, fun bay x => ?bay⟩
  case slot =>
    intro slot x massLimit tierLimit area cfg stack fitting
    have hjudged := setSlot_of_setup (slot := slot) (x := x) (massLimit := massLimit) (tierLimit := tierLimit)
      (area := area) (g := s.store) (inSetup_atOwner hsetup 0x03 tag)
    have hfits : (isId 48 slot && isId 4 area && onRunway s.store x &&
        slotMayTake s.store (atOwner 0x03 tag s) slot cfg) = true ↔ fitting := by
      simp only [Bool.and_eq_true, isId_eq_true_iff, onRunway_eq_true_iff, slotMayTake_eq_true_iff, fitting, and_assoc]
      rfl
    refine ⟨fun hfit => ?_, fun hfit => refusedWith_byStore hready rfl ?_⟩
    · refine runsTo_mono (quiet_byStore hready rfl (hjudged.trans (need_of_true (hfits.mpr hfit))) rfl rfl)
        fun t ⟨hbecomes, htold, hanswered⟩ => ⟨hbecomes, htold, ?_⟩
      rwa [takenStatus_of_iff (P := cfg.massLimit = massLimit ∧ cfg.tierLimit = tierLimit)
        (by
        simp only [Bool.or_eq_true, decide_eq_true_eq, ← not_and_or]
        rfl)] at hanswered
    · exact hjudged.trans (need_of_false (mt hfits.mp hfit))
  case bay =>
    have hjudged := setBay_of_setup (bay := bay) (x := x) (g := s.store) (inSetup_atOwner hsetup 0x05 tag)
    have hfits : (isId 2 bay && onRunway s.store x) = true ↔ (1 ≤ bay ∧ bay ≤ 2) ∧ (x : Int) ≤ s.store.runway := by
      rw [Bool.and_eq_true, isId_eq_true_iff, onRunway_eq_true_iff]
    exact ⟨fun hfit => quiet_byStore hready rfl (hjudged.trans (need_of_true (hfits.mpr hfit))) rfl rfl,
      fun hfit => refusedWith_byStore hready rfl (hjudged.trans (need_of_false (mt hfits.mp hfit)))⟩

/-! ### SET BOILER -/

/-- Settles O20: the request has no check. -/
theorem setBoilerResult : Obligations.SetBoilerResult := by
  intro s tag capacity hready
  refine runsTo_mono (quiet_byStore hready rfl rfl rfl rfl) fun t ⟨hbecomes, htold, hanswered⟩ => ⟨hbecomes, htold, ?_⟩
  rwa [takenStatus_of_iff (P := capacity ≤ 9999) (by simp)] at hanswered

/-! ### SET PRODUCT and CLEAR PRODUCT -/

theorem setProduct_of_setup {index : Nat} {q : ProductSpec} {g : Store} {p : Part} (h : inSetup p = true)
    (hindex : 1 ≤ index ∧ index ≤ 16) :
    setProduct index q g p =
      need ((product g index).isNone || !referenced p index) .state (need (isProductCode q.code) .range
        (need (!g.products.any fun e => e.2.code == q.code && e.1 != index) .duplicate
          (.ok ({ g with products := Map.put g.products index (productTaken q) },
            { part := p, clamped := productChanged q })))) := by
  rw [setProduct, need_of_true h, need_of_true (isId_eq_true_iff.mpr hindex)]

theorem clearProduct_of_setup {index : Nat} {g : Store} {p : Part} (h : inSetup p = true)
    (hindex : 1 ≤ index ∧ index ≤ 16) :
    clearProduct index g p = need ((product g index).isSome && !referenced p index) .state
      (.ok ({ g with products := Map.del g.products index }, { part := p })) := by
  rw [clearProduct, need_of_true h, need_of_true (isId_eq_true_iff.mpr hindex)]

/-- Fields that are the request's clamped and brought into agreement are what the request defines (R9). -/
theorem productTaken_eq {q : ProductSpec} {d : Product} (hcode : d.code = q.code)
    (hstrip : d.strip = max 100 (min 2000 q.strip)) (hship : d.ship = min 2000 (max d.strip q.ship))
    (hpreset : d.preset = min 600 q.preset) (hramp : d.rampRate = max 50 (min 350 q.rampRate))
    (hhold : d.hold = (max 300 (min 750 q.hold) : Nat)) (hcool : d.coolRate = max 50 (min 350 q.coolRate))
    (hend : d.coolEnd = min ((max 100 (min 400 q.coolEnd) : Nat) : Int) (d.hold - 1))
    (hgain : d.gain = max 1 (min 50 q.gain)) : productTaken q = d := by
  cases d
  simp_all [productTaken, clampNat]

theorem productChanged_eq_true_iff {q : ProductSpec} {d : Product} (h : productTaken q = d) :
    productChanged q = true ↔ ¬ (d.strip = q.strip ∧ d.ship = q.ship ∧ d.preset = q.preset ∧
      d.rampRate = q.rampRate ∧ d.hold = q.hold ∧ d.coolRate = q.coolRate ∧ d.coolEnd = q.coolEnd ∧ d.gain = q.gain) := by
  subst h
  simp only [productChanged, Bool.or_eq_true, decide_eq_true_eq, not_and_or, or_assoc, ne_eq]

theorem any_code_eq_true_iff {g : Store} {code : List Nat} {index : Nat} :
    (g.products.any fun e => e.2.code == code && e.1 != index) = true ↔
      ∃ e ∈ g.products, e.2.code = code ∧ e.1 ≠ index := by
  simp

/-- Settles O18: the checks of both requests in the order of R12. -/
theorem productResult : Obligations.ProductResult := by
  intro s tag index q hready hsetup
  have hset := fun kind => inSetup_atOwner hsetup kind tag
  refine ⟨fun hindex => ⟨?_, ?_⟩, fun h1 h16 => ⟨fun hdefined href => ⟨?_, ?_⟩, fun hunused => ?_, fun hdefined href => ?_,
    fun hfree => ⟨fun hcode => ?_, fun hcode hother => ?_, fun hcode hother d => ?_⟩⟩⟩
  · refine refusedWith_byStore hready rfl ?_
    rw [setProduct, need_of_true (hset _), need_of_false (mt isId_eq_true_iff.mp hindex)]
  · refine refusedWith_byStore hready rfl ?_
    rw [clearProduct, need_of_true (hset _), need_of_false (mt isId_eq_true_iff.mp hindex)]
  · refine refusedWith_byStore hready rfl ?_
    have href' : referenced (atOwner 0x07 tag s) index = true := href
    rw [setProduct_of_setup (hset _) ⟨h1, h16⟩, need_of_false (by simp [href', Option.isNone_eq_false_iff.mpr hdefined])]
  · refine refusedWith_byStore hready rfl ?_
    have href' : referenced (atOwner 0x08 tag s) index = true := href
    rw [clearProduct_of_setup (hset _) ⟨h1, h16⟩, need_of_false (by simp [href'])]
  · refine refusedWith_byStore hready rfl ?_
    rw [clearProduct_of_setup (hset _) ⟨h1, h16⟩, need_of_false (by simp [hunused])]
  · have href' : referenced (atOwner 0x08 tag s) index = false := href
    refine quiet_byStore hready rfl ((clearProduct_of_setup (hset _) ⟨h1, h16⟩).trans (need_of_true ?_)) rfl rfl
    simp [hdefined, href']
  all_goals
    have hfree' : ((product s.store index).isNone || !referenced s.toPart index) = true := by
      simpa only [Bool.or_eq_true, Option.isNone_iff_eq_none, Bool.not_eq_true'] using hfree
    have hjudged := (setProduct_of_setup (q := q) (g := s.store) (hset 0x07) ⟨h1, h16⟩).trans (need_of_true hfree')
  · exact refusedWith_byStore hready rfl (hjudged.trans (need_of_false (by simp [hcode])))
  · refine refusedWith_byStore hready rfl ?_
    rw [hjudged, need_of_true hcode, need_of_false (by simpa using hother)]
  · intro dcode dstrip dship dpreset dramp dhold dcool dend dgain
    have hd := productTaken_eq dcode dstrip dship dpreset dramp dhold dcool dend dgain
    have hnew : (!s.store.products.any fun e => e.2.code == q.code && e.1 != index) = true := by
      simpa using hother
    refine runsTo_mono (quiet_byStore hready rfl (hjudged.trans ((need_of_true hcode).trans (need_of_true hnew))) rfl rfl)
      fun t ⟨hbecomes, htold, hanswered⟩ => ⟨hd ▸ hbecomes, htold, ?_⟩
    rwa [takenStatus_of_iff (productChanged_eq_true_iff hd)] at hanswered

/-! ### SET PLANT -/

theorem clampRange_of_mem : ∀ e ∈ settingRanges, e.1 ≤ 21 ∨ e.1 = 23 ∨ e.1 = 24 → clampRange e.1 = some e.2 := by
  decide

theorem codes_of_mem : ∀ e ∈ settingRanges, 25 ≤ e.1 → clampRange e.1 = none ∧ greatestCode e.1 = some e.2.2 ∧
    e.2.1 = 0 := by
  decide

theorem clampInt_eq (lo hi v : Int) (h : lo ≤ hi) :
    clampInt lo hi v = if v < lo then lo else if hi < v then hi else v := by
  unfold clampInt
  split_ifs <;> omega

/-- The nearest listed rate, the lower of two at one distance (R11). -/
theorem nearestRate_nearest (v r : Int) (h : r = 38400 ∨ r = 57600 ∨ r = 115200) :
    distance v (nearestRate v) < distance v r ∨ (distance v (nearestRate v) = distance v r ∧ nearestRate v ≤ r) := by
  unfold nearestRate distance
  rcases h with rfl | rfl | rfl <;> split_ifs <;> omega

theorem value_change_same {g : Settings} {n : Nat} {v : Int} (h1 : 1 ≤ n) (h27 : n ≤ 27) :
    (g.change n v).value n = some v := by
  interval_cases n <;> rfl

theorem value_change_other {g : Settings} {n k : Nat} {v : Int} (hk : k ≠ n) : (g.change n v).value k = g.value k := by
  unfold Settings.change
  split <;> (unfold Settings.value; split <;> trivial)

theorem setPlant_of_setup {number : Nat} {value taken : Int} {g : Store} {p : Part} (h : inSetup p = true)
    (hnumber : 1 ≤ number ∧ number ≤ 27) (htaken : settingTaken number value = some taken) :
    let k := { g with plant := g.plant.change number taken }
    setPlant number value g p = need (number != 12 || (homesApart g taken && keepsOrder k p)) .range
      (.ok (k, { part := if number = 12 then recomputeReservations k p else p
                 clamped := decide (taken ≠ value)
                 after := rateChange g number taken })) := by
  rw [setPlant, need_of_true h, need_of_true (isId_eq_true_iff.mpr hnumber), htaken, must_some]

theorem ite_evt {c : Prop} [Decidable c] {p q : Part} (hp : p.evt = .none) (hq : q.evt = .none) :
    (if c then p else q).evt = .none := by
  split
  · exact hp
  · exact hq

/-- Settles O19: what a value becomes setting by setting, then the checks of the request in order. -/
theorem setPlantResult : Obligations.SetPlantResult := by
  refine ⟨fun e he v => ⟨fun hrange => ?_, fun hcode => ?_⟩, fun v => rfl, rfl, rfl,
    fun v => ⟨nearestRate_listed v, nearestRate_nearest v⟩, fun s tag number value hready hsetup => ⟨fun hbad => ?_,
    fun h1 h27 taken htaken => ⟨fun hunfit => ?_, fun hfit => ?_⟩⟩⟩
  · rw [settingTaken, clampRange_of_mem e he hrange]
    exact congrArg some (clampInt_eq _ _ _ (clampRange_le (clampRange_of_mem e he hrange)))
  · obtain ⟨hclamp, hgreatest, hlo⟩ := codes_of_mem e he hcode
    simp only [settingTaken, hclamp, hgreatest, hlo]
  · refine refusedWith_byStore hready rfl ?_
    rw [setPlant, need_of_true (inSetup_atOwner hsetup _ _)]
    by_cases hnumber : isId 27 number = true
    · rw [need_of_true hnumber, hbad.resolve_left (not_not.mpr (isId_eq_true_iff.mp hnumber)), must_none]
    · rw [need_of_false hnumber]
  all_goals
    have hjudged := setPlant_of_setup (g := s.store) (inSetup_atOwner hsetup 0x09 tag) ⟨h1, h27⟩ htaken
    have hfits (b c : Bool) : (number != 12 || (b && c)) = true ↔ (number = 12 → b = true ∧ c = true) := by
      rw [Bool.or_eq_true, Bool.and_eq_true, bne_iff_ne, ← imp_iff_not_or]
  · exact refusedWith_byStore hready rfl (hjudged.trans (need_of_false (mt (hfits _ _).mp hunfit)))
  · refine runsTo_mono (quiet_byStore hready rfl (hjudged.trans (need_of_true ((hfits _ _).mpr hfit))) ?_ ?_)
      fun t ⟨hbecomes, htold, hanswered⟩ =>
        ⟨?_, htold, value_change_same h1 h27, fun k => value_change_other, ?_⟩
    · exact ite_evt rfl rfl
    · exact (apply_ite Part.cl _ _ _).trans (ite_self _)
    · by_cases h12 : number = 12
      · simp only [h12, if_true] at hbecomes ⊢
        exact hbecomes
      · simp only [h12, if_false] at hbecomes ⊢
        exact hbecomes
    · rwa [takenStatus_of_iff (P := taken = value) decide_eq_true_iff] at hanswered

/-! ### RESTART -/

/-- Settles O11: RESTART sets one bit of CL, and CL that has it set drops what it receives. -/
theorem restartIsLast : Obligations.RestartIsLast := by
  intro s tag
  refine ⟨fun hready => ?_, fun c head hc hpower hrestarting hroom => ?_⟩
  · have ht := receive_quiet hready (kind := 0x0F) (tag := tag) (decide := byPart restart) rfl rfl
    refine ⟨_, (rfl : exec (.restart tag) s = _), ?_⟩
    rw [ht]
    refine ⟨becomes_sendNext s _, ?_, ?_, told_nothing rfl rfl rfl rfl rfl, ?_, ?_⟩
    · exact (nextFrame_keeps _).2.2.2.2.2.2.2.2.2.2.2
    · simp only [sameReceiver, sendNext_cl, nextFrame_keeps]
      exact ⟨rfl, rfl, rfl, rfl, rfl, rfl, rfl, (nextFrame_flags _).1⟩
    · exact (nextFrame_keeps _).2.2.1
    · exact (nextFrame_keeps _).1.trans (unsent_queueReply _ _)
  · obtain ⟨f, -, hexec⟩ := exec_request hc
    rw [hexec]
    simp [receive, hpower, hrestarting, Config.bufferPlaces, Nat.not_le.mpr hroom]

/-! ### The checks that a kind's requests share -/

/-- Outside SETUP the settings requests but SET BOILER are refused (R12). -/
theorem service_of_not_inSetup {c : Instr} {kind tag : Nat} {f : Store → Part → Decision} {g : Store} {p : Part}
    (hc : requestHead c = some (kind, tag)) (hf : service c = some f) (hkind : kind ≤ 0x09) (hp : inSetup p = false) :
    f g p = refusal g p .mode := by
  cases c <;> cases hc <;> cases hf <;> first
    | exact absurd hkind (by decide)
    | exact byStore_refuses (by simp only [setRunway, setBed, setSlot, setArea, setBay, setCrane, setProduct, clearProduct,
        setPlant, hp, need_false])

/-- In SETUP the bed, transport and crane requests are refused (R18, R105, section 8.8). -/
theorem service_of_not_outsideSetup {c : Instr} {kind tag : Nat} {f : Store → Part → Decision} {g : Store} {p : Part}
    (hc : requestHead c = some (kind, tag)) (hf : service c = some f)
    (hkind : 0x10 ≤ kind ∧ kind ≤ 0x21 ∨ 0x2C ≤ kind ∧ kind ≤ 0x2E) (hp : outsideSetup p = false) :
    f g p = refusal g p .mode := by
  cases c <;> cases hc <;> cases hf <;> first
    | exact absurd hkind (by decide)
    | exact byPart_refuses (by simp only [prepare, pourOrder, batch, pourEnd, zoneOut, detension, clearBed, fetch,
        resumeCrane, craneOut, craneIn, forBed, forCrane, hp, need_false])

/-- Outside SETUP a bed request that names no configured bed is refused (R2, R18). -/
theorem service_of_not_isBed {c : Instr} {bed : Nat} {f : Store → Part → Decision} {g : Store} {p : Part}
    (hc : bedNamed c = some bed) (hf : service c = some f) (hp : outsideSetup p = true) (hbed : isBed g bed = false) :
    f g p = refusal g p .range := by
  cases c <;> cases hc <;> cases hf <;>
    exact byPart_refuses (by simp only [prepare, pourOrder, batch, pourEnd, zoneOut, detension, clearBed, forBed, hp, hbed,
      need_true, need_false])

theorem isBed_eq_true_iff {g : Store} {bed : Nat} :
    isBed g bed = true ↔ 1 ≤ bed ∧ bed ≤ 6 ∧ (Map.find g.beds bed).isSome := by
  rw [isBed, Bool.and_eq_true, isId_eq_true_iff, and_assoc]

/-- Settles O12: the first checks of every request of a kind. -/
theorem modeRefusals : Obligations.ModeRefusals := by
  intro s c kind tag hready hc
  obtain ⟨f, hf, hexec⟩ := exec_request hc
  have refuses {st : Status} (hd : f s.store (atOwner kind tag s) = refusal s.store (atOwner kind tag s) st) :
      runsTo c s fun t => refusedWith s t kind tag st := ⟨_, hexec s, refused hready hd⟩
  refine ⟨?_, fun bed hbed hmode hclosed => refuses (service_of_not_isBed hbed hf (outsideSetup_atOwner hmode _ _) ?_)⟩
  · rintro (⟨hkind, hmode⟩ | ⟨hkind, hmode⟩)
    · exact refuses (service_of_not_inSetup hc hf hkind (by simpa [inSetup, atOwner] using hmode))
    · exact refuses (service_of_not_outsideSetup hc hf hkind (by simpa [outsideSetup, atOwner] using hmode))
  · rw [← Bool.not_eq_true, isBed_eq_true_iff]
    exact fun hopen => hclosed ⟨hmode, hopen⟩

/-! ### PREPARE -/

/-- The checks of R18 are passed. -/
theorem forBed_of_open {s : State} {bed : Nat} (h : bedOpen s bed) (kind tag : Nat) (k : Judgement Taken) :
    forBed s.store bed (atOwner kind tag s) k = k := by
  obtain ⟨hmode, hbed⟩ := h
  rw [forBed, need_of_true (outsideSetup_atOwner hmode _ _), need_of_true (isBed_eq_true_iff.mpr hbed)]

theorem prepare_of_open {s : State} {bed : Nat} (h : bedOpen s bed) (tag : Nat) (code : List Nat) :
    prepare bed code s.store (atOwner 0x10 tag s) =
      need ((bedOf s.toPart bed).state == .empty || (bedOf s.toPart bed).state == .prepared) .state
        (must (productByCode s.store code) .unknown fun e =>
          .ok { part := putBed bed { bedOf s.toPart bed with state := .prepared, product := some e.1 } (atOwner 0x10 tag s) }) :=
  forBed_of_open h _ _ _

/-- Settles O21: the two checks behind those of R18. -/
theorem prepareResult : Obligations.PrepareResult := by
  intro s tag bed code hready hopen taking
  have hjudged := prepare_of_open hopen tag code
  have htaking : ((bedOf s.toPart bed).state == .empty || (bedOf s.toPart bed).state == .prepared) = true ↔ taking := by
    rw [Bool.or_eq_true, beq_iff_eq, beq_iff_eq]
  refine ⟨fun hstate => refusedWith_byPart hready rfl (hjudged.trans (need_of_false (mt htaking.mp hstate))),
    fun hstate hcode => refusedWith_byPart hready rfl ?_, fun hstate i q hcode => ?_⟩
  · rw [hjudged, need_of_true (htaking.mpr hstate), hcode, must_none]
  · rw [hcode, must_some, need_of_true (htaking.mpr hstate)] at hjudged
    exact runsTo_mono (quiet_byPart hready rfl hjudged rfl rfl) fun t ⟨hbecomes, htold, hanswered⟩ =>
      ⟨hbecomes, hanswered, htold⟩

end Sys2Proof.Proofs
end

section
/-!
PROOFS. How an event ends that other blocks follow: the notices it raised, the SHIP moves it withdraws and the scan it
triggers (R114, R121, R128, R178). Said once, for events and for requests.
-/

namespace Sys2Proof.Proofs

open Sys2Proof.Machine

/-! ### What withdrawals and the scan leave of a slot -/

theorem stackAndLock_release (n : Nat) (p : Part) (k : Nat) : stackAndLock (release n p) k = stackAndLock p k := by
  unfold release
  split
  · simp only [stackAndLock, slotOf, stockChange, mapSlots, Map.find_mapRecords]
    cases Map.find p.sm.slots k with
    | none => rfl
    | some r =>
      simp only [Option.map_some, Option.getD_some, freeOf]
      split
      · split <;> rfl
      · rfl
  · rfl

theorem stackAndLock_comeToRest (g : Store) (c : CraneId) (pos : Int) (p : Part) (k : Nat) :
    stackAndLock (comeToRest g c pos p) k = stackAndLock p k := stackAndLock_congr (by simp) k

theorem stackAndLock_haltMove (g : Store) (c : CraneId) (p : Part) (k : Nat) :
    stackAndLock (haltMove g c p) k = stackAndLock p k := stackAndLock_congr (by simp) k

theorem stackAndLock_raise (n : Notice) (p : Part) (k : Nat) : stackAndLock (raise n p) k = stackAndLock p k :=
  stackAndLock_congr (by simp) k

theorem stackAndLock_suspendUnbound (g : Store) (n : Nat) (c : CraneId) (pos : Int) (reason : SuspendReason) (p : Part)
    (k : Nat) : stackAndLock (suspendUnbound g n c pos reason p) k = stackAndLock p k := by
  unfold suspendUnbound
  split
  · exact (stackAndLock_comeToRest _ _ _ _ k).trans (stackAndLock_release _ _ k)
  · rfl

theorem stackAndLock_withdrawShip (g : Store) (m : Move) (p : Part) (k : Nat) :
    stackAndLock (withdrawShip g m p) k = stackAndLock p k := by
  unfold withdrawShip
  split
  · split
    · rfl
    · rw [stackAndLock_raise, stackAndLock_suspendUnbound, stackAndLock_haltMove]
  · rfl

theorem stackAndLock_reviewShip (g : Store) (p : Part) (mark k : Nat) :
    stackAndLock (reviewShip g p mark) k = stackAndLock p k := by
  unfold reviewShip
  split
  · rfl
  · split
    · rfl
    · split
      · rfl
      · split
        · exact stackAndLock_withdrawShip _ _ _ _
        · rfl

theorem stackAndLock_endOfEvent (g : Store) (p : Part) (k : Nat) :
    stackAndLock (endOfEvent g p) k = stackAndLock p k := by
  have withdrawn : ∀ (l : List Nat) (q : Part), stackAndLock (l.foldl (reviewShip g) q) k = stackAndLock q k := by
    intro l
    induction l with
    | nil => exact fun _ => rfl
    | cons a l ih => exact fun q => (ih _).trans (stackAndLock_reviewShip g q a k)
  have ended (q : Part) : stackAndLock { q with evt := .none } k = stackAndLock q k := rfl
  rw [endOfEvent, ended]
  split
  · exact (stackAndLock_scan _ _ _).trans (withdrawn _ _)
  · exact withdrawn _ _

/-! ### Notices raised in order -/

theorem Raised.sending_eq {k l : CommandLink} (h : Raised k l) : l.sending = k.sending := by
  have hcore : (linkCore l).sending = (linkCore k).sending := by rw [h.linkCore_eq]
  exact hcore

theorem raiseLinks_sending (k : CommandLink) (ns : List Notice) : (ns.foldl raiseLink k).sending = k.sending :=
  Raised.sending_eq ⟨ns, rfl⟩

/-- What raising notices leaves in the queue and the two counts (R178). -/
theorem raiseLinks_queue (k : CommandLink) (ns : List Notice) :
    (ns.foldl raiseLink k).notices = k.notices ++ ns.take (24 - k.notices.length) ∧
    (ns.foldl raiseLink k).dropped = (if ns.length ≤ 24 - k.notices.length then k.dropped
      else min 65535 (k.dropped + (ns.length - (24 - k.notices.length)))) ∧
    (ns.foldl raiseLink k).overflow = (k.overflow || decide (24 - k.notices.length < ns.length)) := by
  induction ns generalizing k with
  | nil => simp
  | cons n ns ih =>
    obtain ⟨hnotices, hdropped, hoverflow⟩ := ih (raiseLink k n)
    rw [List.foldl_cons, hnotices, hdropped, hoverflow]
    by_cases hroom : k.notices.length < 24
    · obtain ⟨room, hroom'⟩ : ∃ room, 24 - k.notices.length = room + 1 := ⟨23 - k.notices.length, by omega⟩
      have hlink : raiseLink k n = { k with notices := k.notices ++ [n] } := if_pos hroom
      have hlen : 24 - (k.notices.length + 1) = room := by omega
      simp [hlink, hroom', hlen]
    · have hroom' : 24 - k.notices.length = 0 := by omega
      have hlink : raiseLink k n = { k with overflow := true, dropped := satSucc 65535 k.dropped } := if_neg hroom
      refine ⟨by simp [hlink, hroom'], ?_, by simp [hlink, hroom']⟩
      simp only [hlink, hroom', satSucc, List.length_cons]
      split_ifs <;> omega

/-- Two records of CL have the same frame on the line and the same notice queue and counts. -/
def sameNotices (k l : CommandLink) : Prop :=
  k.sending = l.sending ∧ k.notices = l.notices ∧ k.dropped = l.dropped ∧ k.overflow = l.overflow

theorem sameNotices.trans {k l m : CommandLink} (h : sameNotices k l) (h' : sameNotices l m) : sameNotices k m :=
  ⟨h.1.trans h'.1, h.2.1.trans h'.2.1, h.2.2.1.trans h'.2.2.1, h.2.2.2.trans h'.2.2.2⟩

theorem sameNotices.raise {k l : CommandLink} (h : sameNotices k l) (ns : List Notice) :
    sameNotices (ns.foldl raiseLink k) (ns.foldl raiseLink l) := by
  obtain ⟨hsending, hnotices, hdropped, hoverflow⟩ := h
  obtain ⟨hk, hk', hk''⟩ := raiseLinks_queue k ns
  obtain ⟨hl, hl', hl''⟩ := raiseLinks_queue l ns
  refine ⟨?_, ?_, ?_, ?_⟩
  · rw [raiseLinks_sending, raiseLinks_sending, hsending]
  · rw [hk, hl, hnotices]
  · rw [hk', hl', hnotices, hdropped]
  · rw [hk'', hl'', hnotices, hoverflow]

/-- The notices of an event whose CL record is left to `nextFrame` with those notices queued. -/
theorem told_of_raised {s t : State} {k : CommandLink} {ns : List Notice} (ht : t.cl = nextFrame k)
    (hk : sameNotices k (ns.foldl raiseLink s.cl)) : told s t ns := by
  obtain ⟨hsending, hnotices, hdropped, hoverflow⟩ := hk
  obtain ⟨hqueue, hdrop, hover⟩ := raiseLinks_queue s.cl ns
  rw [raiseLinks_sending] at hsending
  have hunheard : unheard k = unheard s.cl ++ ns.take (24 - s.cl.notices.length) := by
    rw [unheard, hsending, hnotices, hqueue, unheard, List.append_assoc]
  refine ⟨?_, ?_, ?_⟩
  · rw [ht, (nextFrame_keeps k).2.1, hunheard]
  · simp only [ht, nextFrame_keeps, hdropped, hdrop]
  · rw [ht, ← hover, ← hoverflow, ← hsending]
    rcases nextFrame_cases k with h | ⟨r, rest, hs, _, h⟩ | ⟨n, rest, hs, _, _, h⟩ <;> rw [h]
    · split
      · next hnone hsome => exact absurd (hnone.symm.trans hsome) (by simp)
      · rfl
    · simp [beginReply, hs]
    · simp [beginNotice, hs]

/-- Those told of first are told of, whatever is told of behind them. -/
theorem toldFirst_of_told {s t : State} {ns ms : List Notice} (h : told s t (ns ++ ms)) : toldFirst s t ns := by
  obtain ⟨hunheard, hdropped, hoverflow⟩ := h
  refine ⟨?_, ?_, fun hroom hline => ?_⟩
  · rw [hunheard, List.take_append]
    exact ⟨_, List.append_assoc _ _ _⟩
  · rw [hdropped, List.length_append]
    split_ifs <;> omega
  · have hmore : 24 - s.cl.notices.length < (ns ++ ms).length := by
      rw [List.length_append]
      omega
    obtain ⟨f, hf⟩ := Option.isSome_iff_exists.mp hline
    simpa only [hf, hmore, decide_true, Bool.or_true] using hoverflow

/-! ### The end of an event -/

/-- The part with these replies queued. -/
def withReplies (replies : List Reply) (p : Part) : Part := { p with cl := { p.cl with replies := replies } }

theorem withReplies_sameNotices (replies : List Reply) (p : Part) : sameNotices (withReplies replies p).cl p.cl :=
  ⟨rfl, rfl, rfl, rfl⟩

/-- The one scan that a trigger brings about in RUN (R121). -/
def scanIfDue (g : Store) (p : Part) : Part := if p.evt.scan && p.mc.mode == .run then scan g p else p

/-- `t` is how the event of `s` ends that left the part `p`: SHIP moves withdrawn, the scan if a trigger arose, a reply
queued where one was drawn, and the outgoing line served. -/
def endedFrom (s t : State) (p : Part) : Prop :=
  ∃ replies, t = { s with toPart := sendNext (endOfEvent s.store (withReplies replies p)) }

theorem event_ended {s : State} (h : s.mc.power = true) (f : Part → Part) :
    endedFrom s (event f s) (f { s.toPart with evt := .none }) := by
  refine ⟨(f { s.toPart with evt := .none }).cl.replies, ?_⟩
  rw [event, if_pos h]
  rfl

theorem receive_ended {s : State} (h : ready s) {kind tag : Nat} {decide : Store → Part → Decision} {d : Decision}
    (hd : decide s.store (atOwner kind tag s) = d) (hstore : d.store = s.store) :
    endedFrom s (receive kind tag decide s) d.part := by
  refine ⟨d.part.cl.replies ++ [replyOf kind tag d], ?_⟩
  rw [receive_ready h, hd, finish, hstore]
  rfl

/-- A piece whose change of condition withdraws no SHIP move: it is SHIPPABLE, or no move is its own (R128). -/
abbrev safeFromReview (q : Piece) : Prop := q.condition = .shippable ∨ q.move = none

/-- The end of an event withdraws nothing: no SHIP move is to be withdrawn, or the event changed no condition but to
SHIPPABLE (R114) or of a piece with no move. -/
def noWithdrawal (p : Part) : Prop :=
  spared p ∨ ∀ mark ∈ p.evt.changed, ∀ q, pieceOf p mark = some q → safeFromReview q

theorem noWithdrawal_of_unchanged {p : Part} (h : p.evt.changed = []) : noWithdrawal p :=
  .inr (by simp [h])

theorem reviewShip_of_safe {g : Store} {p : Part} {mark : Nat} (h : ∀ q, pieceOf p mark = some q → safeFromReview q) :
    reviewShip g p mark = p := by
  unfold reviewShip
  split
  · rfl
  · next q hq =>
    split
    · rfl
    · next n hn =>
      split
      · rfl
      · rcases h q hq with hship | hnone
        · exact if_neg fun h => h.2 hship
        · rw [hnone] at hn
          cases hn

theorem endOfEvent_of_safe {g : Store} {p : Part}
    (h : ∀ mark ∈ p.evt.changed, ∀ q, pieceOf p mark = some q → safeFromReview q) :
    endOfEvent g p = { (if p.evt.scan && p.mc.mode == .run then scan g p else p) with evt := .none } := by
  have hreviewed (l : List Nat) (hl : ∀ mark ∈ l, ∀ q, pieceOf p mark = some q → safeFromReview q) :
      l.foldl (reviewShip g) p = p := by
    induction l with
    | nil => rfl
    | cons mark l ih =>
      rw [List.foldl_cons, reviewShip_of_safe (hl mark List.mem_cons_self),
        ih fun m hm => hl m (List.mem_cons_of_mem _ hm)]
  rw [endOfEvent, hreviewed _ h]

/-- Of all but CL and the event's record, `p` differs from `q` in its beds, pours, contexts and pieces at most. -/
def onlyCasting (q p : Part) : Prop :=
  p.mc = q.mc ∧ p.tu = q.tu ∧ p.mp = q.mp ∧ p.csA = q.csA ∧ p.csB = q.csB ∧ p.fl = q.fl ∧ p.sm.slots = q.sm.slots ∧
  p.sm.timer = q.sm.timer

theorem onlyCasting.eq_part {q p : Part} (h : onlyCasting q p) :
    p = { q with bs := p.bs, cc := p.cc, sm := { q.sm with pieces := p.sm.pieces }, cl := p.cl, evt := p.evt } := by
  obtain ⟨hmc, htu, hmp, hcsA, hcsB, hfl, hslots, htimer⟩ := h
  have hsm : p.sm = { q.sm with pieces := p.sm.pieces } := by simp only [← hslots, ← htimer]
  rw [← hsm, ← hmc, ← htu, ← hmp, ← hcsA, ← hcsB, ← hfl]

namespace endedFrom

variable {s t : State} {p : Part}

theorem store_eq (h : endedFrom s t p) : t.store = s.store := by
  obtain ⟨replies, rfl⟩ := h
  rfl

theorem pending_eq (h : endedFrom s t p) : t.pending = s.pending := by
  obtain ⟨replies, rfl⟩ := h
  rfl

/-- What the end of an event touches neither by a withdrawal nor by a scan. -/
theorem keeps (h : endedFrom s t p) :
    t.mc = p.mc ∧ t.bs = p.bs ∧ t.cc = p.cc ∧ t.tu = p.tu ∧ t.sm.pieces = p.sm.pieces ∧ t.sm.timer = p.sm.timer ∧
    t.mp.backlog = p.mp.backlog := by
  obtain ⟨replies, rfl⟩ := h
  simp [withReplies]

theorem sameStacks (h : endedFrom s t p) (hslots : p.sm.slots = s.sm.slots) : sameStacks s t := by
  obtain ⟨replies, rfl⟩ := h
  intro n
  exact Prod.mk.inj ((stackAndLock_endOfEvent s.store _ n).trans (stackAndLock_congr hslots n))

/-- The notices: those of the event, and behind them those of withdrawn SHIP moves. -/
theorem told_more (h : endedFrom s t p) {ns : List Notice} {k : CommandLink} (hp : p.cl = ns.foldl raiseLink k)
    (hk : sameNotices k s.cl) : ∃ ms, told s t (ns ++ ms) := by
  obtain ⟨replies, rfl⟩ := h
  obtain ⟨ms, hms⟩ := ((Acts.refl (g := s.store) (withReplies replies p)).then_endOfEvent).link
  refine ⟨ms, told_of_raised rfl ?_⟩
  rw [hms, List.foldl_append]
  exact sameNotices.raise ((withReplies_sameNotices replies p).trans (hp ▸ hk.raise ns)) ms

theorem toldFirst (h : endedFrom s t p) {ns : List Notice} {k : CommandLink} (hp : p.cl = ns.foldl raiseLink k)
    (hk : sameNotices k s.cl) : toldFirst s t ns := by
  obtain ⟨ms, hms⟩ := h.told_more hp hk
  exact toldFirst_of_told hms

/-- Where nothing is to be withdrawn, no notice follows, and one scan where a trigger arose in RUN. -/
theorem of_noWithdrawal (h : endedFrom s t p) (hplain : noWithdrawal p) : ∃ replies,
    t = { s with toPart := sendNext { scanIfDue s.store (withReplies replies p) with evt := .none } } := by
  obtain ⟨replies, rfl⟩ := h
  refine ⟨replies, ?_⟩
  rcases hplain with hspared | hchanged
  · have hspared' : spared (withReplies replies p) := hspared
    rw [endOfEvent_spared hspared', scanIfDue]
  · have hchanged' : ∀ mark ∈ (withReplies replies p).evt.changed, ∀ q, pieceOf (withReplies replies p) mark = some q →
        safeFromReview q := hchanged
    rw [endOfEvent_of_safe hchanged', scanIfDue]

theorem told (h : endedFrom s t p) (hplain : noWithdrawal p) {ns : List Notice} {k : CommandLink}
    (hp : p.cl = ns.foldl raiseLink k) (hk : sameNotices k s.cl) : told s t ns := by
  obtain ⟨replies, rfl⟩ := h.of_noWithdrawal hplain
  have hcl : (scanIfDue s.store (withReplies replies p)).cl = (withReplies replies p).cl := by
    unfold scanIfDue
    split <;> simp
  exact told_of_raised (congrArg nextFrame hcl) ((withReplies_sameNotices replies p).trans (hp ▸ hk.raise ns))

theorem becomes (h : endedFrom s t p) (hplain : noWithdrawal p) (hscan : p.evt.scan = false) : becomes s t s.store p := by
  obtain ⟨replies, rfl⟩ := h.of_noWithdrawal hplain
  have hquiet : scanIfDue s.store (withReplies replies p) = withReplies replies p := by simp [scanIfDue, withReplies, hscan]
  rw [hquiet]
  exact ⟨rfl, rfl, rfl, rfl, rfl, rfl, rfl, rfl, rfl, rfl, rfl⟩

theorem scanned (h : endedFrom s t p) (hplain : noWithdrawal p) (hscan : p.evt.scan = true) (hmc : p.mc = s.mc) :
    scanned s t p := by
  obtain ⟨replies, rfl⟩ := h.of_noWithdrawal hplain
  refine ⟨(withReplies replies p).cl, p.evt, ?_⟩
  have hafter : afterScan s (withReplies replies p) = scanIfDue s.store (withReplies replies p) := by
    simp [afterScan, scanIfDue, withReplies, hscan, hmc]
  exact hafter ▸ becomes_sendNext s _

/-- An event that changed beds, pours, contexts and pieces, and triggers the scan exactly where a piece changed. -/
theorem endsAs (h : endedFrom s t p)
    (hp : onlyCasting s.toPart p)
    (hscan : p.evt.scan = true ↔ p.sm.pieces ≠ s.sm.pieces) {ns : List Notice} {k : CommandLink}
    (hcl : p.cl = ns.foldl raiseLink k) (hk : sameNotices k s.cl) :
    endsAs s t (changedOnly s t) ns := by
  obtain ⟨-, hbs, hcc, -, hpieces, -⟩ := h.keeps
  have hu : { changedOnly s t with cl := p.cl, evt := p.evt } = p := by
    rw [changedOnly, hbs, hcc, hpieces]
    exact hp.eq_part.symm
  intro hspared
  have hspared' : spared p := by
    rw [← hu]
    exact hspared
  have hmc : p.mc = s.mc := hp.1
  have hchanged : (changedOnly s t).sm.pieces = p.sm.pieces := hpieces
  refine ⟨fun hsame => ?_, fun hdiff => ?_, h.told (.inl hspared') hcl hk⟩
  · have hquiet : p.evt.scan = false := by
      rw [← Bool.not_eq_true, hscan, not_not, ← hchanged]
      exact hsame
    have := h.becomes (.inl hspared') hquiet
    rw [← hu] at this
    exact this
  · have := h.scanned (.inl hspared') (hscan.mpr (hchanged ▸ hdiff)) hmc
    rw [← hu] at this
    exact this

end endedFrom

end Sys2Proof.Proofs
end

section
/-!
PROOFS. The bed and pour events that change conditions of pieces: the gap timer's expiry, ZONE OUT, the close and the
cancellation of a pour, BATCH below the plan (chapter 2; R93, R102, R114).
-/

namespace Sys2Proof.Proofs

open Sys2Proof.Machine

/-! ### Changes of condition -/

/-- From `p` to `q` either neither pieces nor triggers changed, or the pieces did and the scan was triggered. -/
def turned (p q : Part) : Prop :=
  (q.evt = p.evt ∧ q.sm.pieces = p.sm.pieces) ∨ (q.evt.scan = true ∧ q.sm.pieces ≠ p.sm.pieces)

theorem pieceOf_congr {p q : Part} (h : q.sm.pieces = p.sm.pieces) (mark : Nat) : pieceOf q mark = pieceOf p mark := by
  rw [pieceOf, pieceOf, h]

/-- What neither pieces nor triggers see may be done before and after. -/
theorem turned.congr {o p q r : Part} (h : turned p q) (hevt : o.evt = p.evt) (hpieces : o.sm.pieces = p.sm.pieces)
    (hevt' : r.evt = q.evt) (hpieces' : r.sm.pieces = q.sm.pieces) : turned o r := by
  simpa only [turned, hevt, hevt', hpieces, hpieces'] using h

/-- In an event that began with no trigger, the scan is triggered exactly where a piece changed. -/
theorem turned.scan_iff {p q : Part} (h : turned p q) (hp : p.evt = .none) :
    q.evt.scan = true ↔ q.sm.pieces ≠ p.sm.pieces := by
  rcases h with ⟨hevt, hpieces⟩ | ⟨hscan, hne⟩
  · rw [hevt, hp, hpieces]
    simp [Changes.none]
  · exact iff_of_true hscan hne

theorem setCondition_of_some {mark : Nat} {c : Condition} {p : Part} {q : Piece} (h : pieceOf p mark = some q) :
    setCondition mark c p = stockChange [mark] (putPiece mark { q with condition := c } p) := by
  simp only [setCondition, h]

theorem pieceOf_putPiece (mark k : Nat) (q : Piece) (p : Part) :
    pieceOf (putPiece mark q p) k = if k = mark then some q else pieceOf p k := by
  by_cases h : k = mark
  · subst h
    simp [pieceOf, putPiece]
  · simp [pieceOf, putPiece, h]

/-- One step of `changePour`. -/
def turnPiece (which : Condition → Bool) (c : Condition) (p : Part) (mark : Nat) : Part :=
  match pieceOf p mark with
  | some q => if which q.condition then setCondition mark c p else p
  | none => p

theorem changePour_eq (pour : Nat) (which : Condition → Bool) (c : Condition) (p : Part) :
    changePour pour which c p = (piecesOfPour p pour).foldl (turnPiece which c) p := by
  unfold changePour
  congr 1

/-- The piece that a step leaves under each mark. -/
theorem pieceOf_turnPiece (which : Condition → Bool) (c : Condition) (p : Part) (mark k : Nat) :
    pieceOf (turnPiece which c p mark) k =
      (pieceOf p k).map fun q => if k = mark ∧ which q.condition then { q with condition := c } else q := by
  unfold turnPiece
  cases hq : pieceOf p mark with
  | none =>
    by_cases hk : k = mark
    · subst hk
      simp [hq]
    · simp [hk]
  | some q =>
    by_cases hw : which q.condition = true
    · have hput : pieceOf (setCondition mark c p) k = pieceOf (putPiece mark { q with condition := c } p) k := by
        rw [setCondition_of_some hq]
        rfl
      simp only [hw, if_true, hput, pieceOf_putPiece]
      by_cases hk : k = mark
      · subst hk
        simp [hq, hw]
      · simp [hk]
    · by_cases hk : k = mark
      · subst hk
        simp [hq, hw]
      · simp [hw, hk]

theorem pieceOf_turnPieces {which : Condition → Bool} {c : Condition} (marks : List Nat) (p : Part) (k : Nat) :
    pieceOf (marks.foldl (turnPiece which c) p) k =
      (pieceOf p k).map fun q => if k ∈ marks ∧ which q.condition then { q with condition := c } else q := by
  induction marks generalizing p with
  | nil => simp
  | cons mark marks ih =>
    rw [List.foldl_cons, ih, pieceOf_turnPiece, Option.map_map]
    refine congrArg (fun f => (pieceOf p k).map f) (funext fun q => ?_)
    simp only [Function.comp_apply, List.mem_cons]
    by_cases hk : k = mark <;> by_cases hw : which q.condition = true <;> by_cases hm : k ∈ marks <;>
      simp [hk, hw, hm]

theorem turnPiece_of_which {which : Condition → Bool} {c : Condition} {p : Part} {mark : Nat} {q : Piece}
    (hq : pieceOf p mark = some q) (hw : which q.condition = true) :
    turnPiece which c p mark = setCondition mark c p := by
  simp only [turnPiece, hq, hw, if_true]

theorem turnPiece_of_not_which {which : Condition → Bool} {c : Condition} {p : Part} {mark : Nat}
    (h : ∀ q, pieceOf p mark = some q → which q.condition = false) : turnPiece which c p mark = p := by
  unfold turnPiece
  split
  next q hq => rw [h q hq, if_neg Bool.false_ne_true]
  next => rfl

theorem scan_turnPiece {which : Condition → Bool} {c : Condition} {p : Part} {mark : Nat} (h : p.evt.scan = true) :
    (turnPiece which c p mark).evt.scan = true := by
  unfold turnPiece
  split
  · split
    · unfold setCondition
      split
      · rfl
      · exact h
    · exact h
  · exact h

theorem scan_turnPieces {which : Condition → Bool} {c : Condition} (marks : List Nat) {p : Part} (h : p.evt.scan = true) :
    (marks.foldl (turnPiece which c) p).evt.scan = true := by
  induction marks generalizing p with
  | nil => exact h
  | cons mark marks ih => exact ih (scan_turnPiece h)

/-- Turning pieces either changes nothing at all, or turns one that had such a condition and triggers the scan. -/
theorem turnPieces_cases (which : Condition → Bool) (c : Condition) (marks : List Nat) (p : Part) :
    marks.foldl (turnPiece which c) p = p ∨ ((marks.foldl (turnPiece which c) p).evt.scan = true ∧
      ∃ mark q, mark ∈ marks ∧ pieceOf p mark = some q ∧ which q.condition = true) := by
  induction marks with
  | nil => exact .inl rfl
  | cons mark marks ih =>
    rw [List.foldl_cons]
    by_cases hstep : ∃ q, pieceOf p mark = some q ∧ which q.condition = true
    · obtain ⟨q, hq, hw⟩ := hstep
      refine .inr ⟨scan_turnPieces marks ?_, mark, q, List.mem_cons_self, hq, hw⟩
      rw [turnPiece_of_which hq hw, setCondition_of_some hq]
      rfl
    · have hsame : turnPiece which c p mark = p :=
        turnPiece_of_not_which fun q hq => Bool.eq_false_iff.mpr fun hw => hstep ⟨q, hq, hw⟩
      rw [hsame]
      rcases ih with heq | ⟨hscan, m, q, hm, hq, hw⟩
      · exact .inl heq
      · exact .inr ⟨hscan, m, q, List.mem_cons_of_mem _ hm, hq, hw⟩

theorem mem_piecesOfPour {p : Part} {pour : Nat} {r : Pour} (hr : pourOf p pour = some r) {mark : Nat} :
    mark ∈ piecesOfPour p pour ↔ mark ∈ r.order ∧ ∃ q, pieceOf p mark = some q ∧ q.pour = pour := by
  unfold piecesOfPour
  rw [hr]
  simp only [List.mem_filter, and_congr_right_iff]
  intro _
  split <;> simp_all

/-- R93: the pieces of a pour that have a condition take another. -/
theorem pieceOf_changePour {pour : Nat} {which : Condition → Bool} {c : Condition} {p : Part} {r : Pour}
    (hr : pourOf p pour = some r) (k : Nat) :
    pieceOf (changePour pour which c p) k = (pieceOf p k).map fun q =>
      if q.pour = pour ∧ k ∈ r.order ∧ which q.condition then { q with condition := c } else q := by
  rw [changePour_eq, pieceOf_turnPieces]
  cases hq : pieceOf p k with
  | none => rfl
  | some q =>
    have hmem : k ∈ piecesOfPour p pour ↔ q.pour = pour ∧ k ∈ r.order := by
      rw [mem_piecesOfPour hr, hq]
      simp [and_comm]
    simp only [Option.map_some, hmem, and_assoc]

theorem turned_changePour {pour : Nat} {which : Condition → Bool} {c : Condition} (hc : which c = false) {p : Part}
    {r : Pour} (hr : pourOf p pour = some r) : turned p (changePour pour which c p) := by
  have hpiece := fun k => pieceOf_changePour (which := which) (c := c) hr k
  rw [changePour_eq] at hpiece ⊢
  rcases turnPieces_cases which c (piecesOfPour p pour) p with heq | ⟨hscan, mark, q, hm, hq, hw⟩
  · rw [heq]
    exact .inl ⟨rfl, rfl⟩
  · obtain ⟨horder, q', hq', hpour⟩ := (mem_piecesOfPour hr).mp hm
    obtain rfl := Option.some.inj (hq.symm.trans hq')
    have hafter := hpiece mark
    rw [hq, Option.map_some, if_pos ⟨hpour, horder, hw⟩] at hafter
    refine .inr ⟨hscan, fun hsame => ?_⟩
    rw [pieceOf_congr hsame, hq] at hafter
    have hcondition : q.condition = c := congrArg Piece.condition (Option.some.inj hafter)
    rw [hcondition, hc] at hw
    exact Bool.false_ne_true hw

/-- The pieces kept with a condition: its records, shadowed ones counted too. -/
def countIn (c : Condition) (m : Map Piece) : Nat := m.countP fun e => e.2.condition == c

/-- Writing a piece over one that has not the condition loses none that has. -/
theorem countIn_put {c : Condition} {m : Map Piece} {k : Nat} {q : Piece} (v : Piece) (h : Map.find m k = some q)
    (hq : q.condition ≠ c) : countIn c m ≤ countIn c (Map.put m k v) := by
  induction m with
  | nil => cases h
  | cons e m ih =>
    obtain ⟨j, w⟩ := e
    unfold Map.put
    split
    · exact List.Sublist.countP_le (List.sublist_cons_self _ _)
    · split
      · next hj =>
        subst hj
        simp only [Map.find, if_true, Option.some.injEq] at h
        subst h
        simp [countIn, List.countP_cons, hq]
      · next hj =>
        have hrest : Map.find m k = some q := by simpa [Map.find, hj] using h
        have hle := ih hrest
        simp only [countIn, List.countP_cons] at hle ⊢
        omega

theorem countIn_turnPieces {which : Condition → Bool} {c d : Condition} (hd : which d = false) (marks : List Nat)
    (p : Part) : countIn d p.sm.pieces ≤ countIn d (marks.foldl (turnPiece which c) p).sm.pieces := by
  induction marks generalizing p with
  | nil => exact Nat.le_refl _
  | cons mark marks ih =>
    refine Nat.le_trans ?_ (ih _)
    by_cases hstep : ∃ q, pieceOf p mark = some q ∧ which q.condition = true
    · obtain ⟨q, hq, hw⟩ := hstep
      rw [turnPiece_of_which hq hw, setCondition_of_some hq]
      exact countIn_put _ hq fun heq => by simp [heq, hd] at hw
    · rw [turnPiece_of_not_which fun q hq => Bool.eq_false_iff.mpr fun hw => hstep ⟨q, hq, hw⟩]

/-! ### Deviations -/

/-- A pour with a deviation recorded (R34). -/
def notedPour (g : Store) (d : Deviation) (r : Pour) : Pour :=
  { r with review := r.review || d.kind.isReview
           deviations := (listDeviation (decide (g.plant.deviationMode = 1)) d r.deviations).2
           overflow := r.overflow || (listDeviation (decide (g.plant.deviationMode = 1)) d r.deviations).1 != .appended }

/-- The notice of a deviation recorded. -/
def deviationNotice (g : Store) (bed pour : Nat) (d : Deviation) (r : Pour) : Notice :=
  .deviation bed pour d (listDeviation (decide (g.plant.deviationMode = 1)) d r.deviations).1

theorem recordDeviation_of_some {g : Store} {bed pour : Nat} {d : Deviation} {p : Part} {r : Pour}
    (hr : pourOf p pour = some r) :
    recordDeviation g bed pour d p = raise (deviationNotice g bed pour d r)
      (if d.kind.isReview && !r.review then reviewHold pour (putPour pour (notedPour g d r) p)
        else putPour pour (notedPour g d r) p) := by
  have hbne (x : Recorded) : decide (x ≠ .appended) = (x != .appended) := by cases x <;> rfl
  simp only [recordDeviation, hr, hbne]
  rfl

/-- A piece as a review of the pour leaves it (R102). -/
def heldIfCaught (pour : Nat) (q : Piece) : Piece := if caughtByReview pour q then { q with condition := .held } else q

theorem pieceOf_reviewHold (pour : Nat) (p : Part) (k : Nat) :
    pieceOf (reviewHold pour p) k = (pieceOf p k).map (heldIfCaught pour) := by
  unfold reviewHold
  dsimp only
  split
  · next hnone =>
    cases hq : pieceOf p k with
    | none => rfl
    | some q =>
      rw [List.isEmpty_iff, List.map_eq_nil_iff, List.filter_eq_nil_iff] at hnone
      simp [heldIfCaught, Bool.eq_false_iff.mpr (hnone _ (Map.mem_of_find hq))]
  · simp only [pieceOf, stockChange, Map.find_mapRecords]
    rfl

theorem caughtByReview_eq_true_iff {pour : Nat} {q : Piece} :
    caughtByReview pour q = true ↔
      q.pour = pour ∧ q.released = false ∧ (q.condition = .curing ∨ q.condition = .shippable) := by
  simp [caughtByReview, and_assoc]

/-- A second predicate that holds where the first does, and of one member more, counts more. -/
theorem countP_lt_of_mem {α : Type} {l : List α} {P Q : α → Bool} {e : α} (he : e ∈ l) (hle : ∀ x, P x = true → Q x = true)
    (hQ : Q e = true) (hP : P e ≠ true) : l.countP P < l.countP Q := by
  obtain ⟨a, b, rfl⟩ := List.append_of_mem he
  have ha := List.countP_mono_left (l := a) fun x _ => hle x
  have hb := List.countP_mono_left (l := b) fun x _ => hle x
  simp only [List.countP_append, List.countP_cons, hQ, hP, if_true, Bool.false_eq_true, if_false]
  omega

/-- A review that catches a piece makes one more HELD and triggers the scan; one that catches none does nothing. -/
theorem reviewHold_cases (pour : Nat) (p : Part) :
    reviewHold pour p = p ∨ ((reviewHold pour p).evt.scan = true ∧
      countIn .held p.sm.pieces < countIn .held (reviewHold pour p).sm.pieces) := by
  unfold reviewHold
  dsimp only
  split
  · exact .inl rfl
  · next hsome =>
    refine .inr ⟨rfl, ?_⟩
    obtain ⟨e, he, hcaught⟩ : ∃ e ∈ p.sm.pieces, caughtByReview pour e.2 = true := by
      by_contra hall
      push Not at hall
      exact hsome (by simpa using hall)
    have hkept (x : Piece) (hx : x.condition = .held) : (heldIfCaught pour x).condition = .held := by
      unfold heldIfCaught
      split
      · rfl
      · exact hx
    have hnew : (heldIfCaught pour e.2).condition = .held := by rw [heldIfCaught, if_pos hcaught]
    have hold : e.2.condition ≠ .held := by
      obtain ⟨-, -, hcondition⟩ := caughtByReview_eq_true_iff.mp hcaught
      rcases hcondition with h | h <;> simp [h]
    show countIn .held p.sm.pieces < countIn .held (Map.mapRecords (fun _ q => heldIfCaught pour q) p.sm.pieces)
    simp only [countIn, Map.mapRecords, List.countP_map]
    exact countP_lt_of_mem he (by simpa using hkept) (by simpa using hnew) (by simpa using hold)

theorem turned_reviewHold (pour : Nat) (p : Part) : turned p (reviewHold pour p) := by
  rcases reviewHold_cases pour p with heq | ⟨hscan, hlt⟩
  · rw [heq]
    exact .inl ⟨rfl, rfl⟩
  · exact .inr ⟨hscan, fun hsame => by rw [hsame] at hlt; exact Nat.lt_irrefl _ hlt⟩

theorem pieceOf_putPour (n : Nat) (r : Pour) (p : Part) (k : Nat) : pieceOf (putPour n r p) k = pieceOf p k := rfl
theorem pieceOf_putBed (bed : Nat) (r : Bed) (p : Part) (k : Nat) : pieceOf (putBed bed r p) k = pieceOf p k := rfl
theorem pieceOf_raise (n : Notice) (p : Part) (k : Nat) : pieceOf (raise n p) k = pieceOf p k :=
  pieceOf_congr (by simp) k

theorem pourOf_congr {p q : Part} (h : q.bs = p.bs) (n : Nat) : pourOf q n = pourOf p n := by rw [pourOf, pourOf, h]

theorem bedOf_congr {p q : Part} (h : q.bs = p.bs) (bed : Nat) : bedOf q bed = bedOf p bed := by rw [bedOf, bedOf, h]

theorem pourOf_putPour_same (n : Nat) (r : Pour) (p : Part) : pourOf (putPour n r p) n = some r := by
  simp [pourOf, putPour]

theorem pourOf_putPour_other {n k : Nat} (r : Pour) (p : Part) (h : k ≠ n) : pourOf (putPour n r p) k = pourOf p k := by
  simp [pourOf, putPour, h]

section recorded

variable {g : Store} {bed pour : Nat} {d : Deviation} {p : Part} {r : Pour}

theorem recordDeviation_bs (hr : pourOf p pour = some r) :
    (recordDeviation g bed pour d p).bs = (putPour pour (notedPour g d r) p).bs := by
  rw [recordDeviation_of_some hr]
  split <;> simp

theorem recordDeviation_cl (hr : pourOf p pour = some r) :
    (recordDeviation g bed pour d p).cl = raiseLink p.cl (deviationNotice g bed pour d r) := by
  rw [recordDeviation_of_some hr, raise_cl]
  split <;> simp

/-- A review is held where the deviation is one for it and the pour was not under review before (R34, R102). -/
theorem pieceOf_recordDeviation (hr : pourOf p pour = some r) (k : Nat) :
    pieceOf (recordDeviation g bed pour d p) k =
      if d.kind.isReview && !r.review then (pieceOf p k).map (heldIfCaught pour) else pieceOf p k := by
  rw [recordDeviation_of_some hr, pieceOf_raise]
  split
  · exact pieceOf_reviewHold _ _ _
  · rfl

theorem recordDeviation_cases (hr : pourOf p pour = some r) :
    ((recordDeviation g bed pour d p).evt = p.evt ∧ (recordDeviation g bed pour d p).sm.pieces = p.sm.pieces) ∨
      ((recordDeviation g bed pour d p).evt.scan = true ∧
        countIn .held p.sm.pieces < countIn .held (recordDeviation g bed pour d p).sm.pieces) := by
  rw [recordDeviation_of_some hr]
  simp only [raise_evt, raise_sm]
  split
  · rcases reviewHold_cases pour (putPour pour (notedPour g d r) p) with heq | hmore
    · rw [heq]
      exact .inl ⟨rfl, rfl⟩
    · exact .inr hmore
  · exact .inl ⟨rfl, rfl⟩

theorem turned_recordDeviation (hr : pourOf p pour = some r) : turned p (recordDeviation g bed pour d p) := by
  rcases recordDeviation_cases (g := g) (bed := bed) (d := d) hr with hsame | ⟨hscan, hlt⟩
  · exact .inl hsame
  · exact .inr ⟨hscan, fun hsame => by rw [hsame] at hlt; exact Nat.lt_irrefl _ hlt⟩

end recorded

/-! ### Events that change beds, pours, contexts and pieces -/

/-- An event taken from `q` to `p` changes nothing outside the casting, its notices are `ns`, and it triggers the scan exactly
where a piece changed. -/
structure Casts (q p : Part) (ns : List Notice) : Prop where
  only : onlyCasting q p
  turned : turned q p
  raised : p.cl = ns.foldl raiseLink q.cl

/-- All that a casting event leaves in the state it ends in, for whoever began it. -/
theorem endedFrom.casting {s t : State} {q p : Part} {ns : List Notice} (h : endedFrom s t p) (hc : Casts q p ns)
    (hq : q = { s.toPart with cl := q.cl, evt := .none }) (hk : sameNotices q.cl s.cl) :
    t.store = s.store ∧ t.mc = s.mc ∧ t.cc = p.cc ∧ t.tu = s.tu ∧ t.sm.timer = s.sm.timer ∧ Machine.sameStacks s t ∧
    t.pending = s.pending ∧ t.bs = p.bs ∧ (∀ mark, pieceOf t.toPart mark = pieceOf p mark) ∧
    Machine.toldFirst s t ns ∧ Machine.endsAs s t (changedOnly s t) ns := by
  have honly : onlyCasting s.toPart p := by
    have := hc.only
    rw [hq] at this
    exact this
  have hevt : q.evt = .none := by rw [hq]
  have hpieces : q.sm.pieces = s.sm.pieces := by rw [hq]
  have hscan : p.evt.scan = true ↔ p.sm.pieces ≠ s.sm.pieces := hpieces ▸ hc.turned.scan_iff hevt
  obtain ⟨hmc, hbs, hcc, htu, hpiece, htimer, -⟩ := h.keeps
  have ⟨kmc, ktu, _, _, _, _, kslots, ktimer⟩ := honly
  exact ⟨h.store_eq, hmc.trans kmc, hcc, htu.trans ktu, htimer.trans ktimer, h.sameStacks kslots, h.pending_eq, hbs,
    pieceOf_congr hpiece, h.toldFirst hc.raised hk, h.endsAs honly hscan hc.raised hk⟩

/-- A request taken ends as its owner left the part, and is answered. -/
theorem ended_byPart {s : State} {c : Instr} {kind tag : Nat} {f : Store → Part → Judgement Taken} {taken : Taken}
    (h : ready s) (hc : exec c s = .next (receive kind tag (byPart f) s))
    (hf : f s.store (atOwner kind tag s) = .ok taken) (hl : linkCore taken.part.cl = linkCore (atOwner kind tag s).cl) :
    runsTo c s fun t => endedFrom s t taken.part ∧
      answered s t kind tag (takenStatus taken.clamped) taken.fields taken.after := by
  have hd : byPart f s.store (atOwner kind tag s) =
      { store := s.store, part := taken.part, status := takenStatus taken.clamped, fields := taken.fields,
        after := taken.after } := by simp [byPart, hf]
  exact ⟨_, hc, receive_ended h hd rfl, answered_of_link h hd hl⟩

theorem Casts.linkCore_eq {q p : Part} {ns : List Notice} (h : Casts q p ns) : linkCore p.cl = linkCore q.cl := by
  rw [h.raised]
  exact Raised.linkCore_eq ⟨ns, rfl⟩

theorem sameNotices_atOwner (kind tag : Nat) (s : State) : sameNotices (atOwner kind tag s).cl s.cl :=
  ⟨rfl, rfl, rfl, rfl⟩

/-! ### The gap timer's expiry -/

/-- The bed and the pour as an abort writes them (R23, R187). -/
def abortedRecords (bed n : Nat) (cause : CloseCause) (r : Pour) (p : Part) : Part :=
  putBed bed { bedOf p bed with state := .rejected, gap := none }
    (putPour n { r with state := .aborted, cause := some cause } p)

theorem pourOf_abortedRecords (bed n : Nat) (cause : CloseCause) (r : Pour) (p : Part) :
    pourOf (abortedRecords bed n cause r p) n = some { r with state := .aborted, cause := some cause } :=
  pourOf_putPour_same _ _ _

theorem abortPour_of_some {bed n : Nat} {cause : CloseCause} {p : Part} {r : Pour} (hn : (bedOf p bed).pour = some n)
    (hr : pourOf p n = some r) :
    abortPour bed cause p = raise (.pourAborted bed n r.delivered r.batches cause)
      (changePour n (fun c => c != .rejected) .rejected (abortedRecords bed n cause r p)) := by
  simp only [abortPour, abortedRecords, hn, hr]

theorem gapTimeout_of_not {bed : Nat} {p : Part} (h : (bedOf p bed).state ≠ .pouring ∨ (bedOf p bed).gap = none) :
    gapTimeout bed p = p := by
  unfold gapTimeout
  split
  · next hstate hgap =>
    rcases h with h | h
    · exact absurd hstate h
    · exact absurd (h.symm.trans hgap) (by simp)
  · rfl

section aborted

variable {bed n : Nat} {cause : CloseCause} {p : Part} {r : Pour}

theorem casts_abortPour (hn : (bedOf p bed).pour = some n) (hr : pourOf p n = some r) :
    Casts p (abortPour bed cause p) [.pourAborted bed n r.delivered r.batches cause] := by
  rw [abortPour_of_some hn hr]
  refine ⟨?_, ?_, ?_⟩
  · simp [onlyCasting, abortedRecords]
  · exact (turned_changePour rfl (pourOf_abortedRecords bed n cause r p)).congr rfl rfl (raise_evt _) (by rw [raise_sm])
  · rw [raise_cl]
    simp [abortedRecords]

theorem abortPour_bs (hn : (bedOf p bed).pour = some n) (hr : pourOf p n = some r) :
    (abortPour bed cause p).bs = { p.bs with
      beds := Map.put p.bs.beds bed { bedOf p bed with state := .rejected, gap := none }
      pours := Map.put p.bs.pours n { r with state := .aborted, cause := some cause } } := by
  rw [abortPour_of_some hn hr]
  simp [abortedRecords, putBed, putPour]

theorem pieceOf_abortPour (hn : (bedOf p bed).pour = some n) (hr : pourOf p n = some r) (mark : Nat) :
    pieceOf (abortPour bed cause p) mark = (pieceOf p mark).map fun q =>
      if q.pour = n ∧ mark ∈ r.order then { q with condition := .rejected } else q := by
  rw [abortPour_of_some hn hr, pieceOf_raise, pieceOf_changePour (pourOf_abortedRecords bed n cause r p)]
  refine congrArg (fun f => (pieceOf p mark).map f) (funext fun q => ?_)
  by_cases hrejected : q.condition = .rejected
  · have hsame : { q with condition := .rejected } = q := by rw [← hrejected]
    simp [hrejected, hsame]
  · simp [hrejected]

end aborted

/-- Settles O26: the abort of the bed's pour, or nothing. -/
theorem gapExpiryAborts : Obligations.GapExpiryAborts := by
  intro s bed hpower
  have hended := event_ended hpower (gapTimeout bed)
  have hexec : exec (.gapTimerExpiry bed) s = .next (event (gapTimeout bed) s) := rfl
  refine ⟨fun hidle => ⟨_, hexec, ?_⟩, fun n r timer hstate hgap hn hr => ⟨_, hexec, ?_⟩⟩
  · have hsame : gapTimeout bed { s.toPart with evt := .none } = { s.toPart with evt := .none } :=
      gapTimeout_of_not (p := { s.toPart with evt := .none }) hidle
    have heq : event (gapTimeout bed) s = { s with toPart := sendNext { s.toPart with evt := .none } } := by
      rw [event, if_pos hpower, hsame, finish, endOfEvent_quiet rfl]
    refine ⟨heq ▸ becomes_sendNext s s.toPart, noReply_of_link (by rw [hsame]), ?_⟩
    rw [heq]
    exact told_nothing rfl rfl rfl rfl rfl
  · have hdue : gapTimeout bed { s.toPart with evt := .none } = abortPour bed .gap { s.toPart with evt := .none } := by
      have hstate' : (bedOf { s.toPart with evt := .none } bed).state = .pouring := hstate
      have hgap' : (bedOf { s.toPart with evt := .none } bed).gap = some timer := hgap
      simp only [gapTimeout, hstate', hgap']
    have hcasts := casts_abortPour (bed := bed) (cause := .gap) (p := { s.toPart with evt := .none }) hn hr
    rw [hdue] at hended
    obtain ⟨hstore, hmc, hcc, htu, htimer, hstacks, hpending, hbs, hpiece, htold, hends⟩ :=
      hended.casting hcasts rfl ⟨rfl, rfl, rfl, rfl⟩
    refine ⟨hstore, hmc, ?_, htu, htimer, hstacks, hpending, noReply_of_link ?_, ?_, fun mark q hq => ?_, htold, hends⟩
    · rw [hcc]
      simp
    · rw [hdue]
      exact hcasts.linkCore_eq
    · exact hbs.trans (abortPour_bs (p := { s.toPart with evt := .none }) hn hr)
    · have hq' : pieceOf { s.toPart with evt := .none } mark = some q := hq
      rw [hpiece, pieceOf_abortPour (p := { s.toPart with evt := .none }) hn hr, hq']
      rfl

/-! ### BATCH below the plan -/

theorem batch_of_open {s : State} {bed : Nat} (h : bedOpen s bed) (tag volume : Nat) :
    batch bed volume s.store (atOwner 0x12 tag s) =
      need ((bedOf s.toPart bed).state == .pouring) .state
        (need (decide (1 ≤ volume) && decide ((volume : Int) ≤ s.store.plant.maximumBatch)) .range
          (must (bedOf s.toPart bed).pour .state fun pour => must (pourOf s.toPart pour) .state fun r =>
            if r.planned ≤ r.delivered + volume then
              .ok { part := closePour s.store bed pour .volume (addBatch s.store bed pour volume r (atOwner 0x12 tag s)),
                    fields := [.u16 (r.delivered + volume), .u8 1] }
            else .ok { part := addBatch s.store bed pour volume r (atOwner 0x12 tag s),
                       fields := [.u16 (r.delivered + volume), .u8 0] })) :=
  forBed_of_open h _ _ _

theorem batch_of_pouring {s : State} {bed : Nat} (h : bedOpen s bed) (tag : Nat) {volume n : Nat} {r : Pour}
    (hstate : (bedOf s.toPart bed).state = .pouring) (h1 : 1 ≤ volume)
    (hmax : (volume : Int) ≤ s.store.plant.maximumBatch) (hn : (bedOf s.toPart bed).pour = some n)
    (hr : pourOf s.toPart n = some r) :
    batch bed volume s.store (atOwner 0x12 tag s) =
      if r.planned ≤ r.delivered + volume then
        .ok { part := closePour s.store bed n .volume (addBatch s.store bed n volume r (atOwner 0x12 tag s)),
              fields := [.u16 (r.delivered + volume), .u8 1] }
      else .ok { part := addBatch s.store bed n volume r (atOwner 0x12 tag s),
                 fields := [.u16 (r.delivered + volume), .u8 0] } := by
  rw [batch_of_open h, need_of_true (by simp [hstate]), need_of_true (by simp [h1, hmax]), hn, must_some, hr, must_some]

/-- Settles O23: the two checks of R22, and the batch added. -/
theorem batchResult : Obligations.BatchResult := by
  intro s tag bed volume n r hready hopen
  have hjudged := batch_of_open hopen tag volume
  refine ⟨fun hstate => refusedWith_byPart hready rfl (hjudged.trans (need_of_false (by simpa using hstate))),
    fun hstate hrange => refusedWith_byPart hready rfl ?_, fun hstate h1 hmax hn hr hbelow => ?_⟩
  · rw [hjudged, need_of_true (by simp [hstate]), need_of_false (by simpa using hrange)]
  · have htaken := batch_of_pouring hopen tag hstate h1 hmax hn hr
    rw [if_neg (Nat.not_le.mpr hbelow)] at htaken
    exact runsTo_mono (quiet_byPart hready rfl htaken rfl rfl) fun t ⟨hbecomes, htold, hanswered⟩ =>
      ⟨hbecomes, hanswered, htold⟩

/-! ### ZONE OUT -/

theorem mayExclude_eq_true_iff {p : Part} {bed zone : Nat} :
    mayExclude p bed zone = true ↔ ∃ ctx r, contextOf p bed = some ctx ∧ Map.find ctx.zones zone = some r ∧
      r.excluded = false ∧ 1 < (ctx.zones.filter fun e => !e.2.excluded).length := by
  unfold mayExclude included
  cases contextOf p bed with
  | none => simp
  | some ctx => cases hz : Map.find ctx.zones zone <;> simp [hz]

theorem zoneOut_of_open {s : State} {bed : Nat} (h : bedOpen s bed) (tag zone : Nat) :
    zoneOut bed zone s.store (atOwner 0x14 tag s) =
      need (zoneCfg s.store bed zone).isSome .range
        (need ((bedOf s.toPart bed).state == .curing && mayExclude s.toPart bed zone) .state
          (must (bedOf s.toPart bed).pour .state fun pour =>
            .ok { part := recordDeviation s.store bed pour
                    { kind := .zoneExcluded, zone := some zone, value := 0, minutes := minutesOf s.toPart bed }
                    (excludeZone bed zone (atOwner 0x14 tag s)) })) := by
  rw [← need_need]
  exact forBed_of_open h _ _ _

theorem excludeZone_of_some {bed zone : Nat} {p : Part} {ctx : Context} {z : ZoneCuring}
    (hctx : contextOf p bed = some ctx) (hz : Map.find ctx.zones zone = some z) :
    excludeZone bed zone p =
      putContext bed { ctx with zones := Map.put ctx.zones zone { z with excluded := true } } p := by
  simp only [excludeZone, updateZone, hctx, hz]

theorem casts_recordDeviation {g : Store} {bed pour : Nat} {d : Deviation} {p : Part} {r : Pour}
    (hr : pourOf p pour = some r) : Casts p (recordDeviation g bed pour d p) [deviationNotice g bed pour d r] :=
  ⟨by simp [onlyCasting], turned_recordDeviation hr, recordDeviation_cl hr⟩

/-- A casting event that first writes beds, pours and contexts. -/
theorem Casts.of_written {o q p : Part} {ns : List Notice} (h : Casts q p ns) (honly : onlyCasting o q)
    (hpieces : q.sm.pieces = o.sm.pieces) (hevt : q.evt = o.evt) (hcl : q.cl = o.cl) : Casts o p ns := by
  refine ⟨?_, h.turned.congr hevt.symm hpieces.symm rfl rfl, hcl ▸ h.raised⟩
  obtain ⟨h1, h2, h3, h4, h5, h6, h7, h8⟩ := h.only
  obtain ⟨k1, k2, k3, k4, k5, k6, k7, k8⟩ := honly
  exact ⟨h1.trans k1, h2.trans k2, h3.trans k3, h4.trans k4, h5.trans k5, h6.trans k6, h7.trans k7, h8.trans k8⟩

/-- A casting request that is taken: the frame of it, its notices and its reply. -/
theorem casting_byPart {s : State} {c : Instr} {kind tag : Nat} {f : Store → Part → Judgement Taken} {taken : Taken}
    {ns : List Notice} (h : ready s) (hc : exec c s = .next (receive kind tag (byPart f) s))
    (hf : f s.store (atOwner kind tag s) = .ok taken) (hcasts : Casts (atOwner kind tag s) taken.part ns) :
    runsTo c s fun t =>
      t.store = s.store ∧ t.mc = s.mc ∧ t.cc = taken.part.cc ∧ t.tu = s.tu ∧ t.sm.timer = s.sm.timer ∧ sameStacks s t ∧
      t.pending = s.pending ∧ t.bs = taken.part.bs ∧ (∀ mark, pieceOf t.toPart mark = pieceOf taken.part mark) ∧
      toldFirst s t ns ∧ endsAs s t (changedOnly s t) ns ∧
      answered s t kind tag (takenStatus taken.clamped) taken.fields taken.after := by
  refine runsTo_mono (ended_byPart h hc hf hcasts.linkCore_eq) fun t ⟨hended, hanswered⟩ => ?_
  obtain ⟨hstore, hmc, hcc, htu, htimer, hstacks, hpending, hbs, hpiece, htold, hends⟩ :=
    hended.casting hcasts rfl (sameNotices_atOwner kind tag s)
  exact ⟨hstore, hmc, hcc, htu, htimer, hstacks, hpending, hbs, hpiece, htold, hends, hanswered⟩

/-- Settles O27: the checks of R28, then the zone excluded and the deviation recorded. -/
theorem zoneOutExcludes : Obligations.ZoneOutExcludes := by
  intro s tag bed zone hready hopen left
  have hjudged := zoneOut_of_open hopen tag zone
  have refusedState (hzone : (zoneCfg s.store bed zone).isSome)
      (h : ¬ ((bedOf s.toPart bed).state == .curing && mayExclude s.toPart bed zone) = true) :
      runsTo (.zoneOut tag bed zone) s fun t => refusedWith s t 0x14 tag .state :=
    refusedWith_byPart hready rfl (hjudged.trans ((need_of_true hzone).trans (need_of_false h)))
  refine ⟨fun hzone => refusedWith_byPart hready rfl (hjudged.trans (need_of_false (by simp [hzone]))),
    fun hzone hstate => refusedState hzone (by simp [hstate]), fun ctx hzone hctx hlast => refusedState hzone ?_,
    fun hzone hctx => refusedState hzone ?_, ?_⟩
  · rw [Bool.and_eq_true, mayExclude_eq_true_iff]
    rintro ⟨-, ctx', r, hctx', hr, hincluded, hmore⟩
    obtain rfl := Option.some.inj (hctx.symm.trans hctx')
    rcases hlast r hr with hexcluded | hfew
    · exact Bool.false_ne_true (hincluded.symm.trans hexcluded)
    · exact absurd hmore (Nat.not_lt.mpr hfew)
  · rw [Bool.and_eq_true, mayExclude_eq_true_iff]
    rintro ⟨-, ctx', r, hctx', -⟩
    exact Option.some_ne_none _ (hctx'.symm.trans hctx)
  · intro n r ctx z hzone hstate hn hr hctx hz hincluded hmore d listed without noted
    have hmay : mayExclude s.toPart bed zone = true := mayExclude_eq_true_iff.mpr ⟨ctx, z, hctx, hz, hincluded, hmore⟩
    have hminutes : minutesOf s.toPart bed = curingMinutes ctx := by simp only [minutesOf, hctx]
    have hexcluded := excludeZone_of_some (p := atOwner 0x14 tag s) hctx hz
    rw [need_of_true hzone, need_of_true (by simp [hstate, hmay]), hn, must_some, hminutes, hexcluded] at hjudged
    have hpour : pourOf (putContext bed without (atOwner 0x14 tag s)) n = some r := hr
    have hcasts := (casts_recordDeviation (g := s.store) (bed := bed) (d := d) hpour).of_written
      (o := atOwner 0x14 tag s) ⟨rfl, rfl, rfl, rfl, rfl, rfl, rfl, rfl⟩ rfl rfl rfl
    refine runsTo_mono (casting_byPart hready rfl hjudged hcasts)
      fun t ⟨hstore, hmc, hcc, htu, htimer, hstacks, hpending, hbs, hpiece, htold, hends, hanswered⟩ =>
        ⟨hstore, hmc, htu, htimer, hstacks, hpending, hanswered, ?_, ?_, fun mark q hq => ?_, htold, hends⟩
    · rw [hcc, (recordDeviation_keeps _ _ _ _ _).2.1]
      rfl
    · rw [hbs, recordDeviation_bs hpour]
      have hnoted : notedPour s.store d r = noted := by
        simp only [notedPour, noted, show d.kind.isReview = true from rfl, Bool.or_true]
        rfl
      rw [hnoted]
      rfl
    · have hq' : pieceOf (putContext bed without (atOwner 0x14 tag s)) mark = some q := hq
      rw [hpiece, pieceOf_recordDeviation hpour, hq', show d.kind.isReview = true from rfl]
      cases hreview : r.review
      · simp [heldIfCaught, caughtByReview_eq_true_iff]
      · simp

/-! ### The close of a pour -/

theorem put_put {α : Type} (m : Map α) (k : Nat) (v w : α) : Map.put (Map.put m k v) k w = Map.put m k w := by
  induction m with
  | nil => simp [Map.put]
  | cons e m ih =>
    obtain ⟨j, u⟩ := e
    by_cases hlt : k < j
    · simp [Map.put, hlt]
    · by_cases heq : j = k
      · subst heq
        simp [Map.put]
      · simp [Map.put, hlt, heq, ih]

/-- A review before a change of conditions that spares HELD pieces: the pieces, and so the trigger, stay changed. -/
theorem turned_then_changePour {o p : Part} {pour : Nat} {which : Condition → Bool} {c : Condition} {r : Pour}
    (h : (p.evt = o.evt ∧ p.sm.pieces = o.sm.pieces) ∨
      (p.evt.scan = true ∧ countIn .held o.sm.pieces < countIn .held p.sm.pieces))
    (hc : which c = false) (hheld : which .held = false) (hr : pourOf p pour = some r) :
    turned o (changePour pour which c p) := by
  rcases h with ⟨hevt, hpieces⟩ | ⟨hscan, hlt⟩
  · exact (turned_changePour hc hr).congr hevt.symm hpieces.symm rfl rfl
  · rw [changePour_eq]
    have hle := countIn_turnPieces (c := c) hheld (piecesOfPour p pour) p
    refine .inr ⟨scan_turnPieces _ hscan, fun hsame => ?_⟩
    rw [hsame] at hle
    exact Nat.lt_irrefl _ (Nat.lt_of_lt_of_le hlt hle)

/-- A pour with what its close writes in it (R25, steps 2 and 3). -/
def sealedPour (cause : CloseCause) (seq : Nat) (r : Pour) : Pour :=
  { r with state := .closed, cause := some cause, seq := some seq }

/-- The part as a close leaves its pours and pieces (R25, steps 2 to 4). -/
def curedPart (cause : CloseCause) (n : Nat) (r : Pour) (p : Part) : Part :=
  changePour n (fun c => c == .cast) .curing (putPour n (sealedPour cause p.bs.seq r) (takeSequence p))

/-- The context that the close of a pour opens (R51). -/
def openedContext (g : Store) (bed n seq : Nat) (r : Pour) : Context :=
  { pour := n, seq := seq, product := r.product, phase := .preset, sp := none, remainder := 0, presetElapsed := 0,
    curingTime := 0, starved := false, starvedCount := 0, fresh := true, repairPending := false,
    zones := (numbered 1 (zonesOf g bed)).map fun z => (z.1, ZoneCuring.opened) }

/-- The notice of a close. -/
def closedNotice (g : Store) (bed n : Nat) (cause : CloseCause) (note : VolumeNote) (seq : Nat) (r : Pour) : Notice :=
  .pourClosed bed n (codeOf g r.product) r.planned r.delivered r.batches cause note seq

section sealing

variable {g : Store} {bed n : Nat} {cause : CloseCause} {note : VolumeNote} {p : Part} {r : Pour}

theorem curedPart_bs : (curedPart cause n r p).bs = { p.bs with
    seq := satAdd32 p.bs.seq 1, pours := Map.put p.bs.pours n (sealedPour cause p.bs.seq r) } := by
  rw [curedPart, (changePour_keeps _ _ _ _).2.1]
  rfl

theorem pourOf_curedPart : pourOf (curedPart cause n r p) n = some (sealedPour cause p.bs.seq r) := by
  simp [pourOf, curedPart_bs]

theorem sealPour_of_some (hr : pourOf p n = some r) :
    sealPour g bed n cause note p = raise (closedNotice g bed n cause note p.bs.seq r)
      (putContext bed (openedContext g bed n p.bs.seq r)
        (putBed bed { bedOf p bed with state := .curing, gap := none } (curedPart cause n r p))) := by
  have hbed : bedOf (curedPart cause n r p) bed = bedOf p bed := by rw [bedOf, bedOf, curedPart_bs]
  have hopen : openContext g bed n (putBed bed { bedOf p bed with state := .curing, gap := none } (curedPart cause n r p)) =
      putContext bed (openedContext g bed n p.bs.seq r)
        (putBed bed { bedOf p bed with state := .curing, gap := none } (curedPart cause n r p)) := by
    have hpour : pourOf (putBed bed { bedOf p bed with state := .curing, gap := none } (curedPart cause n r p)) n =
      some (sealedPour cause p.bs.seq r) := pourOf_curedPart
    simp only [openContext, hpour]
    rfl
  rw [← hopen, ← hbed]
  simp only [sealPour, hr]
  rfl

theorem sealPour_bs (hr : pourOf p n = some r) : (sealPour g bed n cause note p).bs =
    { beds := Map.put p.bs.beds bed { bedOf p bed with state := .curing, gap := none }, seq := satAdd32 p.bs.seq 1,
      pours := Map.put p.bs.pours n (sealedPour cause p.bs.seq r) } := by
  rw [sealPour_of_some hr, raise_bs, putContext_bs, putBed, curedPart_bs]

theorem sealPour_cc (hr : pourOf p n = some r) : (sealPour g bed n cause note p).cc =
    { p.cc with contexts := Map.put p.cc.contexts bed (openedContext g bed n p.bs.seq r) } := by
  rw [sealPour_of_some hr, raise_cc]
  simp [putContext, curedPart, takeSequence]

theorem sealPour_cl (hr : pourOf p n = some r) :
    (sealPour g bed n cause note p).cl = raiseLink p.cl (closedNotice g bed n cause note p.bs.seq r) := by
  rw [sealPour_of_some hr, raise_cl]
  simp [curedPart, takeSequence]

theorem pieceOf_sealPour (hr : pourOf p n = some r) (mark : Nat) :
    pieceOf (sealPour g bed n cause note p) mark = (pieceOf p mark).map fun q =>
      if q.pour = n ∧ mark ∈ r.order ∧ q.condition = .cast then { q with condition := .curing } else q := by
  have hpour : pourOf (putPour n (sealedPour cause p.bs.seq r) (takeSequence p)) n = some (sealedPour cause p.bs.seq r) :=
    pourOf_putPour_same _ _ _
  have hcured := pieceOf_changePour (which := fun c => c == .cast) (c := .curing) hpour mark
  rw [sealPour_of_some hr, pieceOf_raise]
  simp only [beq_iff_eq] at hcured
  exact hcured

theorem onlyCasting_sealPour : onlyCasting p (sealPour g bed n cause note p) := by
  simp [onlyCasting]

theorem turned_sealPour {o : Part} (hr : pourOf p n = some r)
    (h : (p.evt = o.evt ∧ p.sm.pieces = o.sm.pieces) ∨
      (p.evt.scan = true ∧ countIn .held o.sm.pieces < countIn .held p.sm.pieces)) :
    turned o (sealPour g bed n cause note p) := by
  have hturned : turned o (curedPart cause n r p) := turned_then_changePour h rfl rfl (pourOf_putPour_same _ _ _)
  rw [sealPour_of_some hr]
  exact hturned.congr rfl rfl (raise_evt _) (congrArg StockMap.pieces (raise_sm _))

end sealing

/-- The volume check of a pour (R25). -/
def noteOf (g : Store) (r : Pour) : VolumeNote := volumeNote g.plant.volumeTolerance r.delivered r.planned

/-- The deviation that the volume check finds (R25). -/
def volumeFound (g : Store) (r : Pour) : Option Deviation := volumeDeviation (noteOf g r) r.delivered r.planned

theorem closePour_of_found {g : Store} {bed n : Nat} {cause : CloseCause} {p : Part} {r : Pour} {d : Deviation}
    (hr : pourOf p n = some r) (hd : volumeFound g r = some d) :
    closePour g bed n cause p = sealPour g bed n cause (noteOf g r) (recordDeviation g bed n d p) := by
  have hd' : volumeDeviation (volumeNote g.plant.volumeTolerance r.delivered r.planned) r.delivered r.planned = some d := hd
  simp only [closePour, hr, hd', noteOf]

theorem closePour_of_none {g : Store} {bed n : Nat} {cause : CloseCause} {p : Part} {r : Pour}
    (hr : pourOf p n = some r) (hd : volumeFound g r = none) :
    closePour g bed n cause p = sealPour g bed n cause (noteOf g r) p := by
  have hd' : volumeDeviation (volumeNote g.plant.volumeTolerance r.delivered r.planned) r.delivered r.planned = none := hd
  simp only [closePour, hr, hd', noteOf]

/-- A pour with what its volume check found recorded (R25, step 1). -/
def checkedPour (g : Store) (r : Pour) : Pour := (volumeFound g r).elim r fun d => notedPour g d r

/-- The notices of a close, in order. -/
def closingNotices (g : Store) (bed n : Nat) (cause : CloseCause) (seq : Nat) (r : Pour) : List Notice :=
  ((volumeFound g r).map fun d => deviationNotice g bed n d r).toList ++ [closedNotice g bed n cause (noteOf g r) seq r]

section closing

variable {g : Store} {bed n : Nat} {cause : CloseCause} {p : Part} {r : Pour}

theorem pourOf_recordDeviation {d : Deviation} (hr : pourOf p n = some r) :
    pourOf (recordDeviation g bed n d p) n = some (notedPour g d r) :=
  (pourOf_congr (recordDeviation_bs hr) n).trans (pourOf_putPour_same _ _ _)

theorem closePour_bs (hr : pourOf p n = some r) :
    (closePour g bed n cause p).bs.beds = Map.put p.bs.beds bed { bedOf p bed with state := .curing, gap := none } ∧
    (closePour g bed n cause p).bs.seq = satAdd32 p.bs.seq 1 ∧
    pourOf (closePour g bed n cause p) n = some (sealedPour cause p.bs.seq (checkedPour g r)) ∧
    ∀ k, k ≠ n → pourOf (closePour g bed n cause p) k = pourOf p k := by
  cases hd : volumeFound g r with
  | none =>
    have hbs := sealPour_bs (g := g) (bed := bed) (cause := cause) (note := noteOf g r) hr
    rw [closePour_of_none hr hd, checkedPour, hd]
    simp only [pourOf, hbs, Map.find_put_same, Option.elim_none, true_and]
    exact fun k hk => Map.find_put_other _ _ _ _ hk
  | some d =>
    have hnoted := recordDeviation_bs (g := g) (bed := bed) (d := d) hr
    have hbs := sealPour_bs (g := g) (bed := bed) (cause := cause) (note := noteOf g r)
      (pourOf_recordDeviation (g := g) (bed := bed) (d := d) hr)
    rw [closePour_of_found hr hd, checkedPour, hd]
    simp only [pourOf, hbs, hnoted, bedOf, putPour, Map.find_put_same, Option.elim_some, true_and]
    exact fun k hk => by rw [Map.find_put_other _ _ _ _ hk, Map.find_put_other _ _ _ _ hk]

theorem closePour_cc (hr : pourOf p n = some r) : (closePour g bed n cause p).cc =
    { p.cc with contexts := Map.put p.cc.contexts bed (openedContext g bed n p.bs.seq r) } := by
  cases hd : volumeFound g r with
  | none => rw [closePour_of_none hr hd, sealPour_cc hr]
  | some d =>
    rw [closePour_of_found hr hd, sealPour_cc (pourOf_recordDeviation hr), recordDeviation_bs hr]
    simp only [recordDeviation_keeps]
    rfl

theorem casts_closePour (hr : pourOf p n = some r) :
    Casts p (closePour g bed n cause p) (closingNotices g bed n cause p.bs.seq r) := by
  refine ⟨by simp [onlyCasting], ?_, ?_⟩
  · cases hd : volumeFound g r with
    | none =>
      rw [closePour_of_none hr hd]
      exact turned_sealPour hr (.inl ⟨rfl, rfl⟩)
    | some d =>
      rw [closePour_of_found hr hd]
      exact turned_sealPour (pourOf_recordDeviation hr) (recordDeviation_cases hr)
  · cases hd : volumeFound g r with
    | none =>
      rw [closePour_of_none hr hd, sealPour_cl hr, closingNotices, hd]
      rfl
    | some d =>
      rw [closePour_of_found hr hd, sealPour_cl (pourOf_recordDeviation hr), recordDeviation_cl hr, closingNotices, hd,
        recordDeviation_bs hr]
      rfl

/-- Of the pour's pieces the CAST ones become CURING; the others of other pours stay as they are (R25, step 4). -/
theorem pieceOf_closePour (hr : pourOf p n = some r) {mark : Nat} {q : Piece} (hq : pieceOf p mark = some q) :
    (q.pour ≠ n → pieceOf (closePour g bed n cause p) mark = some q) ∧
    (q.pour = n → mark ∈ r.order → q.condition = .cast →
      pieceOf (closePour g bed n cause p) mark = some { q with condition := .curing }) := by
  cases hd : volumeFound g r with
  | none =>
    rw [closePour_of_none hr hd, pieceOf_sealPour hr, hq]
    exact ⟨fun hpour => by simp [hpour], fun hpour horder hcast => by simp [hpour, horder, hcast]⟩
  | some d =>
    have hspared (h : caughtByReview n q = false) : pieceOf (recordDeviation g bed n d p) mark = some q := by
      rw [pieceOf_recordDeviation hr, hq]
      simp [heldIfCaught, h]
    rw [closePour_of_found hr hd, pieceOf_sealPour (pourOf_recordDeviation hr)]
    refine ⟨fun hpour => ?_, fun hpour horder hcast => ?_⟩
    · rw [hspared (by simp [caughtByReview, hpour])]
      simp [hpour]
    · rw [hspared (by simp [caughtByReview, hcast])]
      simp [hpour, hcast, notedPour, horder]

end closing

/-- A pour closed by its volume is not SHORT, and one below its plan not OVER (R25). -/
theorem noteOf_plan {g : Store} {r : Pour} (ht : 0 ≤ g.plant.volumeTolerance) :
    (r.planned ≤ r.delivered → noteOf g r ≠ .short) ∧ (r.delivered < r.planned → noteOf g r ≠ .over) := by
  refine ⟨fun hle => ?_, fun hlt => ?_⟩
  · have hle' : (r.planned : Int) ≤ r.delivered := by exact_mod_cast hle
    have hnot : ¬ (r.delivered : Int) * 100 < (r.planned : Int) * (100 - g.plant.volumeTolerance) := by nlinarith
    unfold noteOf volumeNote
    rw [if_neg hnot]
    split <;> simp
  · have hlt' : (r.delivered : Int) < r.planned := by exact_mod_cast hlt
    have hnot : ¬ (r.planned : Int) * (100 + g.plant.volumeTolerance) < (r.delivered : Int) * 100 := by nlinarith
    unfold noteOf volumeNote
    rw [if_neg hnot]
    split <;> simp

theorem volumeFound_eq (g : Store) (r : Pour) : volumeFound g r = if noteOf g r = .neither then none else
    some { kind := if noteOf g r = .short then .short else .over, zone := none,
           value := (r.delivered : Int) - r.planned, minutes := 0 } := by
  unfold volumeFound
  cases noteOf g r <;> rfl

/-- A pour as BATCH or POUR END finds it when it closes: with the last batch added, where there is one. -/
def withBatch (delivered batches : Nat) (r : Pour) : Pour := { r with delivered := delivered, batches := batches }

theorem pourEnd_of_pouring {s : State} {bed : Nat} (h : bedOpen s bed) (tag : Nat) {n : Nat} {r : Pour}
    (hstate : (bedOf s.toPart bed).state = .pouring) (hn : (bedOf s.toPart bed).pour = some n)
    (hr : pourOf s.toPart n = some r) :
    pourEnd bed s.store (atOwner 0x13 tag s) =
      if r.delivered = 0 then .ok { part := cancelPour bed n (atOwner 0x13 tag s), fields := [.u8 0] }
      else .ok { part := closePour s.store bed n .ended (atOwner 0x13 tag s), fields := [.u8 1] } := by
  have hjudged : pourEnd bed s.store (atOwner 0x13 tag s) = need ((bedOf s.toPart bed).state == .pouring) .state
      (must (bedOf s.toPart bed).pour .state fun pour => must (pourOf s.toPart pour) .state fun r =>
        if r.delivered = 0 then .ok { part := cancelPour bed pour (atOwner 0x13 tag s), fields := [.u8 0] }
        else .ok { part := closePour s.store bed pour .ended (atOwner 0x13 tag s), fields := [.u8 1] }) :=
    forBed_of_open h _ _ _
  rw [hjudged, need_of_true (by simp [hstate]), hn, must_some, hr, must_some]

/-- The records `q` that a close starts from: those the request found, but for the bed's gap timer and the pour's last batch. -/
structure ReadyToClose (p : Part) (bed n : Nat) (r : Pour) (q : Part) : Prop where
  only : onlyCasting p q
  pieces : q.sm.pieces = p.sm.pieces
  evt : q.evt = p.evt
  cl : q.cl = p.cl
  cc : q.cc = p.cc
  seq : q.bs.seq = p.bs.seq
  pour : pourOf q n = some r
  others : ∀ k, k ≠ n → pourOf q k = pourOf p k
  beds : Map.put q.bs.beds bed { bedOf q bed with state := .curing, gap := none } =
    Map.put p.bs.beds bed { bedOf p bed with state := .curing, gap := none }

theorem ReadyToClose.refl {p : Part} {bed n : Nat} {r : Pour} (hr : pourOf p n = some r) : ReadyToClose p bed n r p :=
  ⟨⟨rfl, rfl, rfl, rfl, rfl, rfl, rfl, rfl⟩, rfl, rfl, rfl, rfl, rfl, hr, fun _ _ => rfl, rfl⟩

theorem readyToClose_addBatch (g : Store) (bed n volume : Nat) (r : Pour) (p : Part) :
    ReadyToClose p bed n (withBatch (r.delivered + volume) (min 255 (r.batches + 1)) r) (addBatch g bed n volume r p) := by
  refine ⟨⟨rfl, rfl, rfl, rfl, rfl, rfl, rfl, rfl⟩, rfl, rfl, rfl, rfl, rfl, pourOf_putPour_same _ _ _,
    fun k hk => pourOf_putPour_other _ _ hk, ?_⟩
  simp only [addBatch, putBed, bedOf, Map.find_put_same, Option.getD_some, put_put]
  rfl

/-- What a request leaves that closes a pour (R25, R51). -/
theorem runsTo_closePour {s : State} {c : Instr} {kind tag bed n : Nat} {f : Store → Part → Judgement Taken}
    {cause : CloseCause} {fields : List Field} {r : Pour} {q : Part} (h : ready s)
    (hc : exec c s = .next (receive kind tag (byPart f) s)) (hq : ReadyToClose (atOwner kind tag s) bed n r q)
    (hf : f s.store (atOwner kind tag s) = .ok { part := closePour s.store bed n cause q, fields := fields }) :
    runsTo c s fun t =>
      t.store = s.store ∧ t.mc = s.mc ∧ t.tu = s.tu ∧ t.sm.timer = s.sm.timer ∧ sameStacks s t ∧
      t.pending = s.pending ∧ answered s t kind tag .ok fields .nothing ∧
      t.bs.seq = min 4294967295 (s.bs.seq + 1) ∧
      t.bs.beds = Map.put s.bs.beds bed { bedOf s.toPart bed with state := .curing, gap := none } ∧
      (∀ k, k ≠ n → pourOf t.toPart k = pourOf s.toPart k) ∧
      pourOf t.toPart n = some (sealedPour cause s.bs.seq (checkedPour s.store r)) ∧
      t.cc = { s.cc with contexts := Map.put s.cc.contexts bed (openedContext s.store bed n s.bs.seq r) } ∧
      (∀ mark q, pieceOf s.toPart mark = some q →
        (q.pour ≠ n → pieceOf t.toPart mark = some q) ∧
        (q.pour = n → mark ∈ r.order → q.condition = .cast →
          pieceOf t.toPart mark = some { q with condition := .curing })) ∧
      toldFirst s t (closingNotices s.store bed n cause s.bs.seq r) ∧
      endsAs s t (changedOnly s t) (closingNotices s.store bed n cause s.bs.seq r) := by
  have hcasts := (casts_closePour (g := s.store) (bed := bed) (cause := cause) hq.pour).of_written hq.only hq.pieces hq.evt hq.cl
  obtain ⟨hbeds, hseq, hsame, hother⟩ := closePour_bs (g := s.store) (bed := bed) (cause := cause) hq.pour
  have hcc := closePour_cc (g := s.store) (bed := bed) (cause := cause) hq.pour
  have hseq' : q.bs.seq = s.bs.seq := hq.seq
  rw [hseq'] at hcasts hseq hsame hcc
  refine runsTo_mono (casting_byPart h hc hf hcasts) fun t
    ⟨tstore, tmc, tcc, ttu, ttimer, tstacks, tpending, tbs, tpiece, ttold, tends, tanswered⟩ =>
      ⟨tstore, tmc, ttu, ttimer, tstacks, tpending, tanswered, ?_, ?_, fun k hk => ?_, ?_, ?_, fun mark x hx => ?_, ttold, tends⟩
  · rw [tbs, hseq]
    rfl
  · rw [tbs, hbeds, hq.beds]
    rfl
  · exact (pourOf_congr tbs k).trans ((hother k hk).trans (hq.others k hk))
  · exact (pourOf_congr tbs n).trans hsame
  · rw [tcc, hcc, hq.cc]
    rfl
  · have hx' : pieceOf q mark = some x := (pieceOf_congr hq.pieces mark).trans hx
    rw [tpiece]
    exact pieceOf_closePour hq.pour hx'

/-- How the volume check's deviation is listed (R34). -/
def volumeListed (g : Store) (r : Pour) : Option (Deviation × Recorded × List Deviation) :=
  (volumeFound g r).map fun d => (d, listDeviation (decide (g.plant.deviationMode = 1)) d r.deviations)

theorem sealedPour_checkedPour (g : Store) (cause : CloseCause) (seq : Nat) (r : Pour) :
    sealedPour cause seq (checkedPour g r) = { r with
      state := .closed, cause := some cause, seq := some seq
      review := r.review || noteOf g r == .short
      deviations := (volumeListed g r).elim r.deviations fun d => d.2.2
      overflow := r.overflow || (volumeListed g r).elim false fun d => d.2.1 != .appended } := by
  rw [checkedPour, volumeListed, volumeFound_eq]
  cases noteOf g r <;> simp [sealedPour, notedPour, DeviationKind.isReview]

theorem closingNotices_eq (g : Store) (bed n : Nat) (cause : CloseCause) (seq : Nat) (r : Pour) :
    closingNotices g bed n cause seq r = ((volumeListed g r).map fun d => Notice.deviation bed n d.1 d.2.1).toList ++
      [closedNotice g bed n cause (noteOf g r) seq r] := by
  rw [closingNotices, volumeListed, Option.map_map]
  rfl

/-- BATCH and POUR END close the same pour, but for what a last batch has added. -/
theorem runsTo_pourCloses {s : State} {c : Instr} {tag bed kind delivered batches n : Nat} {cause : CloseCause}
    {fields : List Field} {r : Pour} (hopen : bedOpen s bed)
    (hstate : (bedOf s.toPart bed).state = .pouring) (hn : (bedOf s.toPart bed).pour = some n)
    (hr : pourOf s.toPart n = some r)
    (hcase : (c = .pourEnd tag bed ∧ r.delivered ≠ 0 ∧ delivered = r.delivered ∧ batches = r.batches ∧ cause = .ended ∧
        fields = [.u8 1] ∧ kind = 0x13) ∨
      (∃ volume, c = .batch tag bed volume ∧ 1 ≤ volume ∧ (volume : Int) ≤ s.store.plant.maximumBatch ∧
        r.planned ≤ r.delivered + volume ∧ delivered = r.delivered + volume ∧ batches = min 255 (r.batches + 1) ∧
        cause = .volume ∧ fields = [.u16 delivered, .u8 1] ∧ kind = 0x12)) :
    ∃ f q, exec c s = .next (receive kind tag (byPart f) s) ∧
      ReadyToClose (atOwner kind tag s) bed n (withBatch delivered batches r) q ∧
      f s.store (atOwner kind tag s) = .ok { part := closePour s.store bed n cause q, fields := fields } := by
  rcases hcase with ⟨rfl, hsome, rfl, rfl, rfl, rfl, rfl⟩ | ⟨volume, rfl, h1, hmax, hplan, rfl, rfl, rfl, rfl, rfl⟩
  · refine ⟨_, _, rfl, .refl hr, ?_⟩
    rw [pourEnd_of_pouring hopen tag hstate hn hr, if_neg hsome]
  · refine ⟨_, _, rfl, readyToClose_addBatch s.store bed n volume r _, ?_⟩
    rw [batch_of_pouring hopen tag hstate h1 hmax hn hr, if_pos hplan]

/-- Settles O24: one close for both requests (`runsTo_closePour`), its notes read off the volume check. -/
theorem pourCloses : Obligations.PourCloses := by
  intro s c tag bed kind delivered batches n cause fields r hready hopen hstate hn hr hcase tolerance note found listed opened
  have hplan := noteOf_plan (g := s.store) (r := withBatch delivered batches r)
  refine ⟨fun ht => ⟨fun hvolume => (hplan ht).1 ?_, fun hended hbelow => (hplan ht).2 ?_⟩, ?_⟩
  · rcases hcase with ⟨-, -, -, -, hended, -⟩ | ⟨volume, -, -, -, hreached, hdelivered, -⟩
    · exact absurd (hvolume.symm.trans hended) (by decide)
    · exact hdelivered ▸ hreached
  · rcases hcase with ⟨-, -, hdelivered, -⟩ | ⟨volume, -, -, -, -, -, -, hvolume, -⟩
    · exact hdelivered ▸ hbelow
    · exact absurd (hended.symm.trans hvolume) (by decide)
  · obtain ⟨f, q, hexec, hq, hf⟩ := runsTo_pourCloses hopen hstate hn hr hcase
    have hclose := runsTo_closePour hready hexec hq hf
    rw [sealedPour_checkedPour, closingNotices_eq] at hclose
    have hlisted : listed = volumeListed s.store (withBatch delivered batches r) := by
      rw [volumeListed, volumeFound_eq]
      rfl
    rw [← hlisted] at hclose
    refine runsTo_mono hclose fun t ⟨hstore, hmc, htu, htimer, hstacks, hpending, hanswered, hseq, hbeds, hothers, hpour,
      hcc, hpieces, htold, hends⟩ => ⟨hstore, hmc, htu, htimer, hstacks, hpending, hanswered, hseq, hbeds, hothers, ?_, hcc,
        hpieces, htold, hends⟩
    rw [hpour]
    cases listed <;> rfl

end Sys2Proof.Proofs
end

section
/-!
PROOFS. POUR ORDER; the removal of pieces and what it leaves of a pour; POUR END with nothing delivered (chapter 2; R20,
R21, R24, R32).
-/

namespace Sys2Proof.Proofs

open Sys2Proof.Machine

/-! ### POUR ORDER -/

theorem distinct_eq_true_iff (l : List Nat) : distinct l = true ↔ l.Nodup := by
  induction l with
  | nil => simp [distinct]
  | cons a l ih => simp [distinct, ih]

/-- What POUR ORDER asks of its fields and its list (R20). -/
def orderRanges (cfg : BedCfg) (planned : Nat) (pieces : List PieceSpec) : Prop :=
  (10 ≤ planned ∧ planned ≤ 9999) ∧ (1 ≤ pieces.length ∧ pieces.length ≤ 16) ∧ ∀ e ∈ pieces,
    (1 ≤ e.mark ∧ e.mark ≤ 65535) ∧ (50 ≤ e.length ∧ e.length ≤ 4000) ∧ (100 ≤ e.mass ∧ e.mass ≤ 60000) ∧
    cfg.xStart ≤ e.x ∧ (e.x : Int) ≤ cfg.xEnd

/-- The three RANGE checks of POUR ORDER as one. -/
def orderFits (g : Store) (bed planned : Nat) (pieces : List PieceSpec) : Bool :=
  (decide (10 ≤ planned) && decide (planned ≤ 9999) && isId 16 pieces.length) && pieces.all entryFits &&
    pieces.all (entryOnBed g bed)

theorem orderFits_eq_true_iff {g : Store} {bed planned : Nat} {pieces : List PieceSpec} {cfg : BedCfg}
    (hcfg : Map.find g.beds bed = some cfg) :
    orderFits g bed planned pieces = true ↔ orderRanges cfg planned pieces := by
  simp only [orderFits, orderRanges, entryFits, entryOnBed, hcfg, Bool.and_eq_true, decide_eq_true_eq, isId_eq_true_iff,
    List.all_eq_true, ← forall₂_and, and_assoc]

/-- The marks of an order are new and distinct. -/
def marksFree (p : Part) (pieces : List PieceSpec) : Bool :=
  distinct (pieces.map (·.mark)) && pieces.all fun e => (pieceOf p e.mark).isNone

theorem marksFree_eq_true_iff {p : Part} {pieces : List PieceSpec} :
    marksFree p pieces = true ↔ (pieces.map (·.mark)).Nodup ∧ ∀ e ∈ pieces, pieceOf p e.mark = none := by
  simp only [marksFree, Bool.and_eq_true, distinct_eq_true_iff, List.all_eq_true, Option.isNone_iff_eq_none]

/-- The free pour record with the lowest number is the one found (R21). -/
theorem freePourNumber_eq_some {p : Part} {n : Nat} (h1 : 1 ≤ n) (h24 : n ≤ 24) (hn : pourOf p n = none)
    (hlow : ∀ k, 1 ≤ k → k < n → (pourOf p k).isSome) : freePourNumber p = some n := by
  rw [freePourNumber, List.find?_eq_some_iff_getElem]
  refine ⟨by simp [hn], n - 1, by simp [Config.pourRecords]; omega, by simp; omega, fun j hj => ?_⟩
  have := hlow (j + 1) (by omega) (by omega)
  simpa using this

theorem freePourNumber_eq_none {p : Part} (h : ∀ k, 1 ≤ k → k ≤ 24 → (pourOf p k).isSome) : freePourNumber p = none := by
  rw [freePourNumber, List.find?_eq_none]
  intro k hk
  obtain ⟨j, hj, rfl⟩ := List.mem_map.mp hk
  have := h (j + 1) (by omega) (by rw [List.mem_range] at hj; simp [Config.pourRecords] at hj; omega)
  simp [Option.isSome_iff_ne_none.mp this]

theorem pourOrder_of_open {s : State} {bed : Nat} (h : bedOpen s bed) (tag planned : Nat) (code : List Nat)
    (pieces : List PieceSpec) :
    pourOrder bed code planned pieces s.store (atOwner 0x11 tag s) =
      need ((bedOf s.toPart bed).state == .prepared) .state
        (need (hasCode s.store (bedOf s.toPart bed).product code) .mismatch
          (need (orderFits s.store bed planned pieces) .range
            (need (marksFree s.toPart pieces) .duplicate
              (need (decide (s.sm.pieces.length + pieces.length ≤ 480)) .full
                (must (freePourNumber s.toPart) .full fun pour => must (bedOf s.toPart bed).product .state fun prod =>
                  .ok { part := openPour s.store bed prod pour planned pieces (atOwner 0x11 tag s),
                        fields := [.u8 pour] }))))) := by
  rw [orderFits, ← need_need, ← need_need]
  exact forBed_of_open h _ _ _

theorem hasCode_eq_true_iff {g : Store} {index : Option Nat} {code : List Nat} :
    hasCode g index code = true ↔ ∃ i q, index = some i ∧ product g i = some q ∧ q.code = code := by
  unfold hasCode
  cases index with
  | none => simp
  | some i => cases hq : product g i <;> simp [hq]

/-- A piece as POUR ORDER creates it (R21, R93). -/
def orderedPiece (g : Store) (bed prod pour : Nat) (e : PieceSpec) : Piece :=
  { product := prod, pour := pour, length := e.length, mass := e.mass, place := .bed bed e.x,
    zone := zoneFrom e.x 1 (zonesOf g bed), condition := .cast, acc := 0, stripAcc := none, move := none,
    released := false }

theorem foldl_createPiece (g : Store) (bed prod pour : Nat) (pieces : List PieceSpec) (p : Part) :
    pieces.foldl (createPiece g bed prod pour) p = { p with sm := { p.sm with
      pieces := pieces.foldl (fun m e => Map.put m e.mark (orderedPiece g bed prod pour e)) p.sm.pieces } } := by
  induction pieces generalizing p with
  | nil => rfl
  | cons e pieces ih =>
    rw [List.foldl_cons, ih]
    rfl

/-- Settles O22: the checks of R20 in their order, and the pour opened. -/
theorem pourOrderResult : Obligations.PourOrderResult := by
  intro s tag bed planned code pieces cfg hready hopen hcfg ranges marks lowest
  have hjudged := pourOrder_of_open hopen tag planned code pieces
  have hranges : orderFits s.store bed planned pieces = true ↔ ranges := orderFits_eq_true_iff hcfg
  have hmarks : marksFree s.toPart pieces = true ↔ marks := marksFree_eq_true_iff
  refine ⟨fun hstate => refusedWith_byPart hready rfl (hjudged.trans (need_of_false (by simpa using hstate))),
    fun hstate hcode => refusedWith_byPart hready rfl ?_, fun i q hstate hi hq hcode => ?_⟩
  · rw [hjudged, need_of_true (by simp [hstate]), need_of_false]
    rw [hasCode_eq_true_iff]
    rintro ⟨i, q, hi, hq, hsame⟩
    exact hcode i q hi hq hsame
  · rw [need_of_true (by simp [hstate]), need_of_true (hasCode_eq_true_iff.mpr ⟨i, q, hi, hq, hcode⟩)] at hjudged
    refine ⟨fun hbad => refusedWith_byPart hready rfl (hjudged.trans (need_of_false (mt hranges.mp hbad))),
      fun hfit hbad => refusedWith_byPart hready rfl ?_, fun hfit hfree hfull => refusedWith_byPart hready rfl ?_,
      fun hfit hfree hroom n hn => ?_⟩
    · rw [hjudged, need_of_true (hranges.mpr hfit), need_of_false (mt hmarks.mp hbad)]
    · rw [hjudged, need_of_true (hranges.mpr hfit), need_of_true (hmarks.mpr hfree)]
      rcases hfull with hpieces | hpours
      · rw [need_of_false (by simpa using hpieces)]
      · rw [freePourNumber_eq_none hpours, must_none]
        cases decide (s.sm.pieces.length + pieces.length ≤ 480) <;> rfl
    · obtain ⟨⟨h1, h24⟩, hnone, hlow⟩ := hn
      rw [need_of_true (hranges.mpr hfit), need_of_true (hmarks.mpr hfree), need_of_true (by simpa using hroom),
        freePourNumber_eq_some h1 h24 hnone hlow, must_some, hi, must_some] at hjudged
      have hzones : zonesOf s.store bed = cfg.zones := by simp only [zonesOf, hcfg]
      rw [openPour, foldl_createPiece] at hjudged
      refine runsTo_mono (quiet_byPart hready rfl hjudged rfl rfl) fun t ⟨hbecomes, htold, hanswered⟩ =>
        ⟨?_, hanswered, htold⟩
      simp only [orderedPiece, hzones] at hbecomes
      exact hbecomes

/-! ### Removal of pieces -/

/-- A slot's contents without a piece's mark. -/
def withoutMark (mark : Nat) (q : Piece) (p : Part) : Part :=
  match q.place with
  | .slot n _ => putSlot n { slotOf p n with stack := (slotOf p n).stack.erase mark } p
  | _ => p

theorem removePiece_of_none {mark : Nat} {p : Part} (h : pieceOf p mark = none) : removePiece mark p = p := by
  simp only [removePiece, h]

theorem removePiece_of_some {mark : Nat} {p : Part} {q : Piece} (h : pieceOf p mark = some q) :
    removePiece mark p = stockChange [] (pieceGone q.pour (dropPiece mark (withoutMark mark q p))) := by
  simp only [removePiece, h]
  rfl

theorem withoutMark_keeps (mark : Nat) (q : Piece) (p : Part) :
    (withoutMark mark q p).bs = p.bs ∧ (withoutMark mark q p).sm.pieces = p.sm.pieces ∧
    (withoutMark mark q p).evt = p.evt := by
  unfold withoutMark
  split <;> exact ⟨rfl, rfl, rfl⟩

theorem pieceOf_removePiece (mark : Nat) (p : Part) (k : Nat) :
    pieceOf (removePiece mark p) k = if k = mark then none else pieceOf p k := by
  cases hq : pieceOf p mark with
  | none =>
    rw [removePiece_of_none hq]
    by_cases hk : k = mark
    · rw [if_pos hk, hk, hq]
    · rw [if_neg hk]
  | some q =>
    have hpieces : (removePiece mark p).sm.pieces = Map.del p.sm.pieces mark := by
      rw [removePiece_of_some hq]
      simp [dropPiece, withoutMark_keeps]
    rw [pieceOf, hpieces]
    by_cases hk : k = mark
    · rw [if_pos hk, hk, Map.find_del_same]
    · rw [if_neg hk, Map.find_del_other _ _ _ hk, pieceOf]

theorem removePieces_cons (mark : Nat) (marks : List Nat) (p : Part) :
    removePieces (mark :: marks) p = removePieces marks (removePiece mark p) := rfl

theorem pieceOf_removePieces (marks : List Nat) (p : Part) (k : Nat) :
    pieceOf (removePieces marks p) k = if k ∈ marks then none else pieceOf p k := by
  induction marks generalizing p with
  | nil => rfl
  | cons mark marks ih =>
    rw [removePieces_cons, ih, pieceOf_removePiece]
    by_cases hk : k = mark <;> simp [hk]

theorem evt_removePiece (mark : Nat) (p : Part) :
    (removePiece mark p).evt = if (pieceOf p mark).isSome then { p.evt with scan := true } else p.evt := by
  cases hq : pieceOf p mark with
  | none => rw [removePiece_of_none hq]; rfl
  | some q =>
    rw [removePiece_of_some hq]
    simp [dropPiece, withoutMark_keeps, stockChange]

/-- A removal changes no condition, and triggers the scan exactly where a piece goes. -/
theorem evt_removePieces (marks : List Nat) (p : Part) :
    (removePieces marks p).evt.changed = p.evt.changed ∧
    ((removePieces marks p).evt.scan = (p.evt.scan || marks.any fun m => (pieceOf p m).isSome)) := by
  induction marks generalizing p with
  | nil => simp [removePieces]
  | cons mark marks ih =>
    obtain ⟨hchanged, hscan⟩ := ih (removePiece mark p)
    rw [removePieces_cons, hchanged, hscan, evt_removePiece]
    cases hq : pieceOf p mark with
    | none => simp [hq, removePiece_of_none hq]
    | some q => simp [hq]

/-- A removal touches a slot's engagement and lock not at all, and its stack only where a removed piece lay there. -/
theorem slotOf_removePiece (mark : Nat) (p : Part) (k : Nat) :
    (slotOf (removePiece mark p) k).engaged = (slotOf p k).engaged ∧
    (slotOf (removePiece mark p) k).lock = (slotOf p k).lock ∧
    ((∀ q j, pieceOf p mark = some q → q.place ≠ .slot k j) →
      (slotOf (removePiece mark p) k).stack = (slotOf p k).stack) := by
  cases hq : pieceOf p mark with
  | none => rw [removePiece_of_none hq]; exact ⟨rfl, rfl, fun _ => rfl⟩
  | some q =>
    have hslot : slotOf (removePiece mark p) k = slotOf (withoutMark mark q p) k := by
      rw [removePiece_of_some hq]
      simp [slotOf, dropPiece]
    rw [hslot]
    unfold withoutMark
    split
    · next n j hplace =>
      by_cases hk : k = n
      · subst hk
        simp only [slotOf, putSlot, Map.find_put_same, Option.getD_some, true_and]
        exact fun hother => absurd hplace (hother q j rfl)
      · simp [slotOf, putSlot, hk]
    · exact ⟨rfl, rfl, fun _ => rfl⟩

theorem slotOf_removePieces (marks : List Nat) (p : Part) (k : Nat) :
    (slotOf (removePieces marks p) k).engaged = (slotOf p k).engaged ∧
    (slotOf (removePieces marks p) k).lock = (slotOf p k).lock ∧
    ((∀ mark ∈ marks, ∀ q j, pieceOf p mark = some q → q.place ≠ .slot k j) →
      (slotOf (removePieces marks p) k).stack = (slotOf p k).stack) := by
  induction marks generalizing p with
  | nil => exact ⟨rfl, rfl, fun _ => rfl⟩
  | cons mark marks ih =>
    obtain ⟨hengaged, hlock, hstack⟩ := ih (removePiece mark p)
    obtain ⟨hengaged', hlock', hstack'⟩ := slotOf_removePiece mark p k
    rw [removePieces_cons]
    refine ⟨hengaged.trans hengaged', hlock.trans hlock', fun hother => ?_⟩
    rw [hstack, hstack' (hother mark List.mem_cons_self)]
    intro m hm q j hq
    rw [pieceOf_removePiece] at hq
    split at hq
    · cases hq
    · exact hother m (List.mem_cons_of_mem _ hm) q j hq

/-! ### What removals leave of a pour -/

/-- A pour's record after one of its pieces is gone (R32). -/
def pourLess (r : Pour) : Option Pour :=
  if r.count - 1 = 0 ∧ r.current = false then none else some { r with count := r.count - 1 }

theorem settlePour_bs (n : Nat) (r : Pour) (p : Part) :
    (settlePour n r p).bs = { p.bs with
      pours := if r.count = 0 ∧ r.current = false then Map.del p.bs.pours n else Map.put p.bs.pours n r } := by
  unfold settlePour
  split <;> rfl

theorem pourOf_settlePour_same (n : Nat) (r : Pour) (p : Part) :
    pourOf (settlePour n r p) n = if r.count = 0 ∧ r.current = false then none else some r := by
  rw [pourOf, settlePour_bs]
  dsimp only
  split <;> simp

theorem pourOf_settlePour_other {n k : Nat} (r : Pour) (p : Part) (h : k ≠ n) :
    pourOf (settlePour n r p) k = pourOf p k := by
  rw [pourOf, settlePour_bs]
  dsimp only
  split <;> simp [h, pourOf]

theorem pourOf_pieceGone (n : Nat) (p : Part) (k : Nat) :
    pourOf (pieceGone n p) k = if k = n then (pourOf p n).bind pourLess else pourOf p k := by
  unfold pieceGone
  split
  · next r hr =>
    by_cases hk : k = n
    · rw [hk, pourOf_settlePour_same, if_pos rfl, hr]
      rfl
    · rw [pourOf_settlePour_other _ _ hk, if_neg hk]
  · next hr =>
    by_cases hk : k = n
    · rw [hk, if_pos rfl, hr]
      rfl
    · rw [if_neg hk]

theorem pourOf_removePiece {mark : Nat} {p : Part} {q : Piece} (hq : pieceOf p mark = some q) (k : Nat) :
    pourOf (removePiece mark p) k = if k = q.pour then (pourOf p q.pour).bind pourLess else pourOf p k := by
  have hbs : (dropPiece mark (withoutMark mark q p)).bs = p.bs := (withoutMark_keeps mark q p).1
  rw [removePiece_of_some hq]
  have hgone := pourOf_pieceGone q.pour (dropPiece mark (withoutMark mark q p)) k
  simp only [pourOf_congr hbs] at hgone
  exact hgone

/-- A pour's record after `k` of its pieces are gone: freed when the count reaches 0 and it is current no more (R32). -/
def pourWithout (r : Pour) (k : Nat) : Option Pour :=
  if k ≠ 0 ∧ r.count ≤ k ∧ r.current = false then none else some { r with count := r.count - k }

theorem bind_pourWithout (r : Pour) (k : Nat) :
    ((pourLess r).bind fun x => pourWithout x k) = pourWithout r (k + 1) := by
  by_cases hgone : r.count - 1 = 0 ∧ r.current = false
  · have hall : r.count ≤ k + 1 := by omega
    simp [pourLess, pourWithout, hgone, hall]
  · have hstep : pourLess r = some { r with count := r.count - 1 } := if_neg hgone
    rw [hstep, Option.bind_some]
    unfold pourWithout
    dsimp only
    by_cases hcurrent : r.current = false
    · have hcount : r.count - 1 ≠ 0 := fun h => hgone ⟨h, hcurrent⟩
      have hiff : (k ≠ 0 ∧ r.count - 1 ≤ k) ↔ (k + 1 ≠ 0 ∧ r.count ≤ k + 1) := by omega
      simp only [hcurrent, and_true, hiff, Nat.sub_sub, Nat.add_comm 1 k]
    · have hcurrent' : r.current = true := by simpa using hcurrent
      simp [hcurrent', Nat.sub_sub, Nat.add_comm 1 k]

/-- How many pieces a removal of these marks takes out. -/
def removed (marks : List Nat) (p : Part) : Nat := (marks.toFinset.filter fun m => (pieceOf p m).isSome).card

theorem removed_cons_of_none {mark : Nat} {marks : List Nat} {p : Part} (h : pieceOf p mark = none) :
    removed (mark :: marks) p = removed marks (removePiece mark p) := by
  rw [removePiece_of_none h, removed, removed]
  congr 1
  ext m
  simp only [List.toFinset_cons, Finset.mem_filter, Finset.mem_insert]
  constructor
  · rintro ⟨rfl | hm, hsome⟩
    · simp [h] at hsome
    · exact ⟨hm, hsome⟩
  · exact fun ⟨hm, hsome⟩ => ⟨.inr hm, hsome⟩

theorem removed_cons_of_some {mark : Nat} {marks : List Nat} {p : Part} {q : Piece} (h : pieceOf p mark = some q) :
    removed (mark :: marks) p = removed marks (removePiece mark p) + 1 := by
  have hinsert : ((mark :: marks).toFinset.filter fun m => (pieceOf p m).isSome) =
      insert mark (marks.toFinset.filter fun m => (pieceOf (removePiece mark p) m).isSome) := by
    ext m
    simp only [List.toFinset_cons, Finset.mem_filter, Finset.mem_insert, pieceOf_removePiece]
    by_cases hm : m = mark
    · simp [hm, h]
    · simp [hm]
  rw [removed, hinsert, Finset.card_insert_of_notMem (by simp [pieceOf_removePiece]), removed]

/-- Removals of pieces of one pour: its count falls by those that were there, and no other pour changes. -/
theorem pourOf_removePieces {n : Nat} (marks : List Nat) (p : Part)
    (hpour : ∀ m ∈ marks, ∀ q, pieceOf p m = some q → q.pour = n) :
    pourOf (removePieces marks p) n = (pourOf p n).bind (fun r => pourWithout r (removed marks p)) ∧
    ∀ k, k ≠ n → pourOf (removePieces marks p) k = pourOf p k := by
  induction marks generalizing p with
  | nil =>
    refine ⟨?_, fun _ _ => rfl⟩
    simp only [removePieces, List.foldl_nil, removed, List.toFinset_nil, Finset.filter_empty, Finset.card_empty]
    cases pourOf p n <;> simp [pourWithout]
  | cons mark marks ih =>
    have hrest : ∀ m ∈ marks, ∀ q, pieceOf (removePiece mark p) m = some q → q.pour = n := by
      intro m hm q hq
      rw [pieceOf_removePiece] at hq
      split at hq
      · cases hq
      · exact hpour m (List.mem_cons_of_mem _ hm) q hq
    obtain ⟨hsame, hother⟩ := ih (removePiece mark p) hrest
    rw [removePieces_cons, hsame]
    cases hq : pieceOf p mark with
    | none =>
      refine ⟨by rw [removed_cons_of_none hq, removePiece_of_none hq], fun k hk => ?_⟩
      rw [hother k hk, removePiece_of_none hq]
    | some q =>
      obtain rfl := hpour mark List.mem_cons_self q hq
      refine ⟨?_, fun k hk => ?_⟩
      · rw [pourOf_removePiece hq, if_pos rfl, removed_cons_of_some hq, Option.bind_assoc]
        exact congrArg _ (funext fun r => bind_pourWithout r _)
      · rw [hother k hk, pourOf_removePiece hq, if_neg hk]

theorem removePieces_beds (marks : List Nat) (p : Part) :
    (removePieces marks p).bs.beds = p.bs.beds ∧ (removePieces marks p).bs.seq = p.bs.seq := by
  induction marks generalizing p with
  | nil => exact ⟨rfl, rfl⟩
  | cons mark marks ih =>
    rw [removePieces_cons, (ih _).1, (ih _).2]
    cases hq : pieceOf p mark with
    | none => rw [removePiece_of_none hq]; exact ⟨rfl, rfl⟩
    | some q =>
      rw [removePiece_of_some hq, stockChange_bs]
      have hbs : (dropPiece mark (withoutMark mark q p)).bs = p.bs := (withoutMark_keeps mark q p).1
      unfold pieceGone
      split
      · rw [settlePour_bs, hbs]; exact ⟨rfl, rfl⟩
      · rw [hbs]; exact ⟨rfl, rfl⟩

/-! ### POUR END with nothing delivered -/

theorem pourOf_clearCurrent (n : Nat) (p : Part) (k : Nat) :
    pourOf (clearCurrent n p) k = if k = n then
      (pourOf p n).bind (fun r => if r.count = 0 then none else some { r with current := false }) else pourOf p k := by
  unfold clearCurrent
  split
  · next r hr =>
    by_cases hk : k = n
    · rw [hk, pourOf_settlePour_same, if_pos rfl, hr]
      simp
    · rw [pourOf_settlePour_other _ _ hk, if_neg hk]
  · next hr =>
    by_cases hk : k = n
    · rw [hk, if_pos rfl, hr]
      rfl
    · rw [if_neg hk]

theorem clearCurrent_beds (n : Nat) (p : Part) :
    (clearCurrent n p).bs.beds = p.bs.beds ∧ (clearCurrent n p).bs.seq = p.bs.seq := by
  unfold clearCurrent
  split
  · rw [settlePour_bs]
    exact ⟨rfl, rfl⟩
  · exact ⟨rfl, rfl⟩

/-- A pour whose pieces go, and which is then current no more: freed where they were all it counted (R32). -/
theorem bind_pourWithout_current (r : Pour) (k : Nat) :
    ((pourWithout r k).bind fun x => if x.count = 0 then none else some { x with current := false }) =
      if r.count ≤ k then none else some { r with count := r.count - k, current := false } := by
  unfold pourWithout
  by_cases hall : r.count ≤ k
  · rw [if_pos hall]
    split
    · rfl
    · simp [Nat.sub_eq_zero_of_le hall]
  · simp [hall, Nat.sub_eq_zero_iff_le]

/-- The records once the pour's pieces are removed and it is current no more (R24, R31). -/
def pourGone (n : Nat) (marks : List Nat) (p : Part) : Part := clearCurrent n (removePieces marks p)

theorem removed_of_all {marks : List Nat} {p : Part} (h : ∀ m ∈ marks, (pieceOf p m).isSome) :
    removed marks p = marks.dedup.length := by
  rw [removed, Finset.filter_true_of_mem (by simpa using h), List.card_toFinset]

section pourGone

variable {n : Nat} {marks : List Nat} {p : Part}

theorem pourOf_pourGone (hmarks : ∀ m ∈ marks, ∃ q, pieceOf p m = some q ∧ q.pour = n) :
    (pourOf (pourGone n marks p) n = (pourOf p n).bind fun r => if r.count ≤ marks.dedup.length then none
      else some { r with count := r.count - marks.dedup.length, current := false }) ∧
    ∀ k, k ≠ n → pourOf (pourGone n marks p) k = pourOf p k := by
  have hall : ∀ m ∈ marks, (pieceOf p m).isSome := fun m hm => by
    obtain ⟨q, hq, -⟩ := hmarks m hm
    rw [hq]
    rfl
  obtain ⟨hsame, hother⟩ := pourOf_removePieces marks p fun m hm q hq => by
    obtain ⟨q', hq', hpour⟩ := hmarks m hm
    rwa [Option.some.inj (hq.symm.trans hq')]
  refine ⟨?_, fun k hk => ?_⟩
  · rw [pourGone, pourOf_clearCurrent, if_pos rfl, hsame, removed_of_all hall, Option.bind_assoc]
    exact congrArg _ (funext fun r => bind_pourWithout_current r _)
  · rw [pourGone, pourOf_clearCurrent, if_neg hk, hother k hk]

theorem pourGone_bs : (pourGone n marks p).bs.beds = p.bs.beds ∧ (pourGone n marks p).bs.seq = p.bs.seq := by
  obtain ⟨hbeds, hseq⟩ := clearCurrent_beds n (removePieces marks p)
  obtain ⟨hbeds', hseq'⟩ := removePieces_beds marks p
  exact ⟨hbeds.trans hbeds', hseq.trans hseq'⟩

theorem pieceOf_pourGone (k : Nat) : pieceOf (pourGone n marks p) k = if k ∈ marks then none else pieceOf p k :=
  (pieceOf_congr (by rw [pourGone, (clearCurrent_keeps _ _).2.2.2.1]) k).trans (pieceOf_removePieces _ _ _)

theorem slotOf_pourGone (k : Nat) :
    (slotOf (pourGone n marks p) k).engaged = (slotOf p k).engaged ∧
    (slotOf (pourGone n marks p) k).lock = (slotOf p k).lock ∧
    ((∀ mark ∈ marks, ∀ q j, pieceOf p mark = some q → q.place ≠ .slot k j) →
      (slotOf (pourGone n marks p) k).stack = (slotOf p k).stack) := by
  have hslot : slotOf (pourGone n marks p) k = slotOf (removePieces marks p) k := by
    rw [slotOf, pourGone, (clearCurrent_keeps _ _).2.2.2.1, slotOf]
  rw [hslot]
  exact slotOf_removePieces _ _ _

theorem pourGone_keeps (n : Nat) (marks : List Nat) (p : Part) :
    (pourGone n marks p).mc = p.mc ∧ (pourGone n marks p).cc = p.cc ∧ (pourGone n marks p).tu = p.tu ∧
    (pourGone n marks p).sm.timer = p.sm.timer ∧ (pourGone n marks p).mp = p.mp ∧ (pourGone n marks p).csA = p.csA ∧
    (pourGone n marks p).csB = p.csB ∧ (pourGone n marks p).fl = p.fl ∧ (pourGone n marks p).cl = p.cl := by
  simp [pourGone]

theorem evt_pourGone (hmarks : ∀ m ∈ marks, ∃ q, pieceOf p m = some q ∧ q.pour = n) (hevt : p.evt = .none) :
    (pourGone n marks p).evt.changed = [] ∧ (pourGone n marks p).evt.scan = !marks.isEmpty := by
  obtain ⟨hchanged, hscan⟩ := evt_removePieces marks p
  have hany : (marks.any fun m => (pieceOf p m).isSome) = !marks.isEmpty := by
    cases marks with
    | nil => rfl
    | cons m marks =>
      obtain ⟨q, hq, -⟩ := hmarks m List.mem_cons_self
      simp [hq]
  simp only [pourGone, (clearCurrent_keeps _ _).2.2.2.2.2.2.2.2.2, hchanged, hscan, hany, hevt, Changes.none,
    Bool.false_or, and_self]

end pourGone

theorem cancelPour_eq (bed n : Nat) (p : Part) :
    cancelPour bed n p = putBed bed { bedOf p bed with state := .prepared, pour := none, gap := none }
      (pourGone n (piecesOfPour p n) p) := by
  have hbed : bedOf (pourGone n (piecesOfPour p n) p) bed = bedOf p bed := by rw [bedOf, pourGone_bs.1, bedOf]
  rw [← hbed]
  rfl

/-- The pieces of a pour are there, and are its own. -/
theorem piecesOfPour_there (p : Part) (n : Nat) : ∀ m ∈ piecesOfPour p n, ∃ q, pieceOf p m = some q ∧ q.pour = n := by
  intro m hm
  cases hr : pourOf p n with
  | none => simp [piecesOfPour, hr] at hm
  | some r => exact ((mem_piecesOfPour hr).mp hm).2

/-- A request that removed the pieces of a list, all of one pour, which is then current no more, and wrote a bed. -/
structure GoneFrom (s t : State) (bed : Nat) (b : Bed) (n : Nat) (marks : List Nat) : Prop where
  kept : t.store = s.store ∧ t.mc = s.mc ∧ t.cc = s.cc ∧ t.tu = s.tu ∧ t.sm.timer = s.sm.timer ∧ t.pending = s.pending
  beds : t.bs.seq = s.bs.seq ∧ t.bs.beds = Map.put s.bs.beds bed b
  pieces : ∀ mark, pieceOf t.toPart mark = if mark ∈ marks then none else pieceOf s.toPart mark
  others : ∀ k, k ≠ n → pourOf t.toPart k = pourOf s.toPart k
  pour : pourOf t.toPart n = (pourOf s.toPart n).bind fun r => if r.count ≤ marks.dedup.length then none
    else some { r with count := r.count - marks.dedup.length, current := false }
  told : told s t []
  ended : ∃ u, (marks = [] → becomes s t s.store u) ∧ (marks ≠ [] → scanned s t u) ∧ u.mc = s.mc ∧ u.mp = s.mp ∧
    u.csA = s.csA ∧ u.csB = s.csB ∧ u.fl = s.fl ∧ ∀ k, (slotOf u k).engaged = (slotOf s.toPart k).engaged ∧
      (slotOf u k).lock = (slotOf s.toPart k).lock ∧
      ((∀ mark ∈ marks, ∀ q j, pieceOf s.toPart mark = some q → q.place ≠ .slot k j) →
        (slotOf u k).stack = (slotOf s.toPart k).stack)

theorem endedFrom.goneFrom {s t : State} {kind tag bed n : Nat} {b : Bed} {marks : List Nat}
    (hended : endedFrom s t (putBed bed b (pourGone n marks (atOwner kind tag s))))
    (hmarks : ∀ m ∈ marks, ∃ q, pieceOf s.toPart m = some q ∧ q.pour = n) : GoneFrom s t bed b n marks := by
  obtain ⟨hsame, hother⟩ := pourOf_pourGone (p := atOwner kind tag s) hmarks
  obtain ⟨hchanged, hscan⟩ := evt_pourGone (p := atOwner kind tag s) (n := n) hmarks rfl
  obtain ⟨tmc, tbs, tcc, ttu, tpieces, ttimer, -⟩ := hended.keeps
  have hplain : noWithdrawal (putBed bed b (pourGone n marks (atOwner kind tag s))) := noWithdrawal_of_unchanged hchanged
  obtain ⟨kmc, kcc, ktu, ksm, kmp, kA, kB, kfl, kcl⟩ := pourGone_keeps n marks (atOwner kind tag s)
  obtain ⟨hbeds, hseq⟩ := @pourGone_bs n marks (atOwner kind tag s)
  have hpours (k : Nat) : pourOf t.toPart k = pourOf (pourGone n marks (atOwner kind tag s)) k := by
    rw [pourOf, tbs]
    rfl
  exact {
    kept := ⟨hended.store_eq, tmc.trans kmc, tcc.trans kcc, ttu.trans ktu, ttimer.trans ksm, hended.pending_eq⟩
    beds := ⟨(congrArg BedSequencer.seq tbs).trans hseq,
      (congrArg BedSequencer.beds tbs).trans (congrArg (Map.put · bed _) hbeds)⟩
    pieces := fun mark => (pieceOf_congr (tpieces.trans rfl) mark).trans (pieceOf_pourGone mark)
    others := fun k hk => (hpours k).trans (hother k hk)
    pour := (hpours n).trans hsame
    told := hended.told hplain (ns := []) kcl (sameNotices_atOwner kind tag s)
    ended := ⟨_, fun hempty => hended.becomes hplain (hscan.trans (by rw [hempty]; rfl)),
      fun hsome => hended.scanned hplain (hscan.trans (by rw [List.isEmpty_eq_false_iff.mpr hsome]; rfl)) kmc,
      kmc, kmp, kA, kB, kfl, fun k => slotOf_pourGone k⟩ }

theorem dedup_eq_nil_iff {l : List Nat} : l.dedup = [] ↔ l = [] := by
  rw [List.eq_nil_iff_forall_not_mem, List.eq_nil_iff_forall_not_mem]
  simp only [List.mem_dedup]

/-- Settles O25: the pour's pieces removed, its record with the last of them, and the bed PREPARED again. -/
theorem pourEndCancels : Obligations.PourEndCancels := by
  intro s tag bed n r hready hopen
  refine ⟨fun hstate => refusedWith_byPart hready rfl ?_, fun hstate hn hr hnone => ?_⟩
  · have hjudged : pourEnd bed s.store (atOwner 0x13 tag s) = need ((bedOf s.toPart bed).state == .pouring) .state _ :=
      forBed_of_open hopen _ _ _
    exact hjudged.trans (need_of_false (by simpa using hstate))
  · have htaken := pourEnd_of_pouring hopen tag hstate hn hr
    rw [if_pos hnone, cancelPour_eq] at htaken
    refine runsTo_mono (ended_byPart hready rfl htaken (by simp [pourGone])) fun t ⟨hended, hanswered⟩ => ?_
    intro gone
    have hgone : GoneFrom s t bed _ n (piecesOfPour s.toPart n) := hended.goneFrom (piecesOfPour_there s.toPart n)
    obtain ⟨hstore, hmc, hcc, htu, htimer, hpending⟩ := hgone.kept
    obtain ⟨u, hbecomes, hscanned, umc, ump, uA, uB, ufl, uslots⟩ := hgone.ended
    refine ⟨hstore, hmc, hcc, htu, htimer, hpending, hanswered, hgone.beds.1, hgone.beds.2, ?_, hgone.others, ?_,
      hgone.told, u, fun h => hbecomes (dedup_eq_nil_iff.mp h), fun h => hscanned (mt dedup_eq_nil_iff.mpr h),
      umc, ump, uA, uB, ufl, ?_⟩
    · simpa only [gone, List.mem_dedup] using hgone.pieces
    · rw [hgone.pour, hr, Option.bind_some]
    · simpa only [gone, List.mem_dedup] using uslots

end Sys2Proof.Proofs
end

section
/-!
PROOFS. Moves that join and leave the queue (chapter 7): which numbers a run of new moves takes, what it leaves of the
pieces, what a backlog fill adds; and the requests that queue and remove moves.
-/

namespace Sys2Proof.Proofs

open Sys2Proof.Machine

/-! ### One move joins -/

/-- A piece's record but for its move field. -/
def movelessPiece (p : Part) (mark : Nat) : Option Piece := (pieceOf p mark).map fun q => { q with move := none }

theorem pieceOf_setPieceMove (mark : Nat) (n : Option Nat) (p : Part) (k : Nat) :
    pieceOf (setPieceMove mark n p) k =
      if k = mark then (pieceOf p mark).map fun q => { q with move := n } else pieceOf p k := by
  unfold setPieceMove
  split
  · next q hq => rw [pieceOf_putPiece, hq, Option.map_some]
  · next hq => by_cases hk : k = mark <;> simp [hk, hq]

theorem movelessPiece_setPieceMove (mark : Nat) (n : Option Nat) (p : Part) (k : Nat) :
    movelessPiece (setPieceMove mark n p) k = movelessPiece p k := by
  rw [movelessPiece, pieceOf_setPieceMove, movelessPiece]
  by_cases hk : k = mark
  · subst hk
    cases pieceOf p k <;> simp
  · rw [if_neg hk]

theorem pieceOf_joinQueue (atHead : Bool) (m : Move) (p : Part) (k : Nat) :
    pieceOf (joinQueue atHead m p) k =
      if m.piece = some k then (pieceOf p k).map fun q => { q with move := some (newNumber p) } else pieceOf p k := by
  unfold joinQueue
  dsimp only
  split
  · next mark hmark =>
    change pieceOf (setPieceMove mark _ _) k = _
    rw [pieceOf_setPieceMove, hmark]
    by_cases hk : k = mark
    · simp [hk, pieceOf]
    · simp [hk, Ne.symm hk, pieceOf]
  · next hmark => simp [hmark, pieceOf, triggerScan]

theorem movelessPiece_joinQueue (atHead : Bool) (m : Move) (p : Part) (k : Nat) :
    movelessPiece (joinQueue atHead m p) k = movelessPiece p k := by
  rw [movelessPiece, pieceOf_joinQueue, movelessPiece]
  split
  · cases pieceOf p k <;> rfl
  · rfl

theorem joinQueue_evt (atHead : Bool) (m : Move) (p : Part) : (joinQueue atHead m p).evt = { p.evt with scan := true } := by
  unfold joinQueue
  dsimp only
  split <;> simp [triggerScan]

/-! ### A run of moves joins at the tail -/

/-- Moves that join at the tail, in order. -/
def joinAll (ms : List Move) (p : Part) : Part := ms.foldl (fun p m => joinQueue false m p) p

/-- The moves with the numbers that they take (R117). -/
def numberedFrom : MovePlanner → List Move → List Move
  | _, [] => []
  | k, m :: ms => { m with number := seekNumber k.queue 255 k.counter } :: numberedFrom (MovePlanner.joined k false m) ms

theorem joinAll_cons (m : Move) (ms : List Move) (p : Part) : joinAll (m :: ms) p = joinAll ms (joinQueue false m p) := rfl

@[simp] theorem joinAll_keeps (ms : List Move) (p : Part) :
    (joinAll ms p).mc = p.mc ∧ (joinAll ms p).bs = p.bs ∧ (joinAll ms p).cc = p.cc ∧ (joinAll ms p).tu = p.tu ∧
    (joinAll ms p).csA = p.csA ∧ (joinAll ms p).csB = p.csB ∧ (joinAll ms p).fl = p.fl ∧ (joinAll ms p).cl = p.cl ∧
    (joinAll ms p).sm.slots = p.sm.slots ∧ (joinAll ms p).sm.timer = p.sm.timer ∧
    (joinAll ms p).mp.resA = p.mp.resA ∧ (joinAll ms p).mp.resB = p.mp.resB ∧
    (joinAll ms p).mp.backlog = p.mp.backlog := by
  induction ms generalizing p with
  | nil => simp [joinAll]
  | cons m ms ih =>
    rw [joinAll_cons]
    simp [ih]

theorem joinAll_evt (ms : List Move) (p : Part) :
    (joinAll ms p).evt = { p.evt with scan := p.evt.scan || !ms.isEmpty } := by
  induction ms generalizing p with
  | nil => simp [joinAll]
  | cons m ms ih => simp [joinAll_cons, ih, joinQueue_evt]

theorem joinAll_queue (ms : List Move) (p : Part) : (joinAll ms p).mp.queue = p.mp.queue ++ numberedFrom p.mp ms := by
  induction ms generalizing p with
  | nil => simp [joinAll, numberedFrom]
  | cons m ms ih => simp [joinAll_cons, ih, numberedFrom, joinQueue_mp, MovePlanner.joined]

theorem movelessPiece_joinAll (ms : List Move) (p : Part) (k : Nat) :
    movelessPiece (joinAll ms p) k = movelessPiece p k := by
  induction ms generalizing p with
  | nil => rfl
  | cons m ms ih => rw [joinAll_cons, ih, movelessPiece_joinQueue]

/-- Numbered moves are the moves, but for their numbers. -/
theorem numberedFrom_map {α : Type} {f : Move → α} (hf : ∀ m n, f { m with number := n } = f m) (k : MovePlanner)
    (ms : List Move) : (numberedFrom k ms).map f = ms.map f := by
  induction ms generalizing k with
  | nil => rfl
  | cons m ms ih => simp [numberedFrom, hf, ih]

theorem mem_numberedFrom {k : MovePlanner} {ms : List Move} {m : Move} (h : m ∈ numberedFrom k ms) :
    ∃ x ∈ ms, ∃ n, m = { x with number := n } := by
  induction ms generalizing k with
  | nil => cases h
  | cons x ms ih =>
    rcases List.mem_cons.mp h with rfl | h
    · exact ⟨x, List.mem_cons_self, _, rfl⟩
    · obtain ⟨y, hy, hm⟩ := ih h
      exact ⟨y, List.mem_cons_of_mem _ hy, hm⟩

theorem pieceOf_joinAll_other {ms : List Move} {k : Nat} (h : ∀ m ∈ ms, m.piece ≠ some k) (p : Part) :
    pieceOf (joinAll ms p) k = pieceOf p k := by
  induction ms generalizing p with
  | nil => rfl
  | cons m ms ih =>
    rw [joinAll_cons, ih (fun x hx => h x (List.mem_cons_of_mem _ hx)), pieceOf_joinQueue,
      if_neg (h m List.mem_cons_self)]

/-- A piece that a new move names has the number of the last of them (R117). -/
theorem pieceOf_joinAll_named {ms : List Move} {k : Nat} (h : ∃ m ∈ ms, m.piece = some k) {p : Part} {q : Piece}
    (hq : pieceOf p k = some q) :
    ∃ m ∈ numberedFrom p.mp ms, m.piece = some k ∧ pieceOf (joinAll ms p) k = some { q with move := some m.number } := by
  induction ms generalizing p q with
  | nil => obtain ⟨m, hm, -⟩ := h; cases hm
  | cons x ms ih =>
    rw [joinAll_cons]
    have hjoined := pieceOf_joinQueue false x p k
    rw [hq] at hjoined
    by_cases hlater : ∃ m ∈ ms, m.piece = some k
    · obtain ⟨q', hq', hsame⟩ : ∃ q', pieceOf (joinQueue false x p) k = some q' ∧ ∀ n, { q' with move := n } = { q with move := n } := by
        rw [hjoined]
        split
        · exact ⟨_, rfl, fun _ => rfl⟩
        · exact ⟨_, rfl, fun _ => rfl⟩
      obtain ⟨m, hm, hpiece, hthen⟩ := ih hlater hq'
      rw [joinQueue_mp] at hm
      exact ⟨m, List.mem_cons_of_mem _ hm, hpiece, hthen.trans (congrArg some (hsame _))⟩
    · obtain ⟨m, hm, hpiece⟩ := h
      obtain rfl : m = x := by
        rcases List.mem_cons.mp hm with rfl | hm
        · rfl
        · exact absurd ⟨m, hm, hpiece⟩ hlater
      refine ⟨_, List.mem_cons_self, hpiece, ?_⟩
      rw [pieceOf_joinAll_other (fun y hy hy' => hlater ⟨y, hy, hy'⟩), hjoined, if_pos hpiece]
      rfl

/-! ### The numbers taken -/

theorem nextNumber_eq {n : Nat} (h : 1 ≤ n) (h' : n ≤ 255) : nextNumber n = n % 255 + 1 := by
  unfold nextNumber
  split <;> omega

theorem takeNumbers_congr {live live' : List Nat} (h : ∀ n, n ∈ live ↔ n ∈ live') (counter after : Nat) (ns : List Nat) :
    takeNumbers live counter ns after ↔ takeNumbers live' counter ns after := by
  induction ns generalizing live live' counter with
  | nil => rfl
  | cons n ns ih =>
    simp only [takeNumbers, h]
    rw [ih (live := n :: live) (live' := n :: live') (by simp [h])]

theorem joined_sound {k : MovePlanner} (h : plannerSound k) (room : k.queue.length < 32) (m : Move) :
    plannerSound (MovePlanner.joined k false m) :=
  PlannerChange.keeps_sound (g := State.reset.store) (.join k false m room) h

theorem takeNumbers_numberedFrom (ms : List Move) {p : Part} (hsound : plannerSound p.mp)
    (room : p.mp.queue.length + ms.length ≤ 32) :
    takeNumbers (p.mp.queue.map (·.number)) p.mp.counter ((numberedFrom p.mp ms).map (·.number)) (joinAll ms p).mp.counter := by
  induction ms generalizing p with
  | nil => rfl
  | cons m ms ih =>
    simp only [List.length_cons] at room
    obtain ⟨-, -, -, hlow, hhigh⟩ := id hsound
    obtain ⟨d, hd, hseek, hnew, hlive⟩ := seekNumber_spec (q := p.mp.queue) (by omega) hlow hhigh
    refine ⟨⟨d, hd, hseek, hseek ▸ hnew, hlive⟩, ?_⟩
    have hnext := ih (p := joinQueue false m p) (by rw [joinQueue_mp]; exact joined_sound hsound (by omega) m)
      (by rw [joinQueue_length]; omega)
    have hnumber : 1 ≤ seekNumber p.mp.queue 255 p.mp.counter ∧ seekNumber p.mp.queue 255 p.mp.counter ≤ 255 := by
      rw [hseek]
      unfold triedNumber
      omega
    rw [joinQueue_mp] at hnext
    rw [← nextNumber_eq hnumber.1 hnumber.2, joinAll_cons]
    refine (takeNumbers_congr (fun n => ?_) _ _ _).mp hnext
    simp [MovePlanner.joined, or_comm]

/-- New moves queued behind those of `s`, from records that hold MP's record and the pieces of `s`. -/
theorem queuedNew_joinAll {s : State} {u : Part} {ms : List Move} {p : Part} (hp : p.mp = s.mp)
    (hpieces : p.sm.pieces = s.sm.pieces) (hmp : u.mp = (joinAll ms p).mp)
    (hu : u.sm.pieces = (joinAll ms p).sm.pieces) (room : s.mp.queue.length + ms.length ≤ 32) :
    queuedNew s u (numberedFrom p.mp ms) := by
  have hnamed : (numberedFrom p.mp ms).map (·.piece) = ms.map (·.piece) := numberedFrom_map (fun _ _ => rfl) _ _
  have hiff (k : Nat) : (∃ m ∈ numberedFrom p.mp ms, m.piece = some k) ↔ ∃ m ∈ ms, m.piece = some k := by
    rw [← List.mem_map, hnamed, List.mem_map]
  refine ⟨?_, fun hsound => ?_, fun k hk => ?_, fun k q hk hq => ?_⟩
  · rw [hmp, joinAll_queue, hp]
  · have htaken := takeNumbers_numberedFrom ms (p := p) (hp ▸ (plannerSound_iff _).mpr hsound) (hp ▸ room)
    rw [hmp]
    rwa [hp] at htaken ⊢
  · rw [pieceOf_congr hu, pieceOf_joinAll_other, pieceOf_congr hpieces]
    intro m hm hpiece
    obtain ⟨x, hx, hx'⟩ := (hiff k).mpr ⟨m, hm, hpiece⟩
    exact hk x hx hx'
  · rw [pieceOf_congr hu]
    exact pieceOf_joinAll_named ((hiff k).mp hk) (by rwa [pieceOf_congr hpieces])

/-! ### STRIP moves -/

/-- Where a piece that lies on a bed is taken from. -/
def bedSource (p : Part) (mark : Nat) : Option Source :=
  match pieceOf p mark with
  | some q => match q.place with
    | .bed b x => some (.bed b x)
    | _ => none
  | none => none

/-- The STRIP moves of the pieces of a list that lie on a bed, not yet numbered (R134). -/
def stripMoves (p : Part) (marks : List Nat) : List Move :=
  marks.filterMap fun mark => (bedSource p mark).map fun x => plainMove .strip (some mark) x none

theorem bedSource_congr {p p' : Part} {k : Nat} (h : movelessPiece p k = movelessPiece p' k) :
    bedSource p k = bedSource p' k := by
  unfold movelessPiece at h
  unfold bedSource
  cases hq : pieceOf p k <;> cases hq' : pieceOf p' k <;> simp only [hq, hq', Option.map_none, Option.map_some,
    Option.some.injEq, reduceCtorEq] at h
  · rfl
  · next q q' =>
    have hplace : q.place = q'.place := by injection h
    simp only [hplace]

theorem bedSource_eq_some_iff {p : Part} {mark : Nat} {x : Source} :
    bedSource p mark = some x ↔ ∃ q b y, pieceOf p mark = some q ∧ q.place = .bed b y ∧ x = .bed b y := by
  unfold bedSource
  cases hq : pieceOf p mark with
  | none => simp
  | some q =>
    cases hplace : q.place <;> simp [hplace, eq_comm]

theorem queueStrip_eq (mark : Nat) (p : Part) : queueStrip mark p = joinAll (stripMoves p [mark]) p := by
  unfold queueStrip stripMoves bedSource
  cases hq : pieceOf p mark with
  | none => simp [hq, joinAll]
  | some q => cases hplace : q.place <;> simp [hq, hplace, joinAll]

theorem queueStrips_eq (marks : List Nat) (p : Part) : queueStrips marks p = joinAll (stripMoves p marks) p := by
  induction marks generalizing p with
  | nil => rfl
  | cons mark marks ih =>
    have hcons : queueStrips (mark :: marks) p = queueStrips marks (queueStrip mark p) := rfl
    have hsame : stripMoves (joinAll (stripMoves p [mark]) p) marks = stripMoves p marks := by
      refine List.filterMap_congr fun k _ => ?_
      rw [bedSource_congr (movelessPiece_joinAll _ p k)]
    have hsplit : stripMoves p (mark :: marks) = stripMoves p [mark] ++ stripMoves p marks := by
      rw [stripMoves, ← List.singleton_append, List.filterMap_append]
      rfl
    rw [hcons, ih, queueStrip_eq, hsame, hsplit, joinAll, joinAll, joinAll, List.foldl_append]

theorem mem_stripMoves {p : Part} {marks : List Nat} {m : Move} :
    m ∈ stripMoves p marks ↔ ∃ mark ∈ marks, ∃ x, bedSource p mark = some x ∧ m = plainMove .strip (some mark) x none := by
  simp [stripMoves, eq_comm]

/-- Pieces that all lie on a bed have a STRIP move each, in their order. -/
theorem stripMoves_piece {p : Part} {marks : List Nat} (h : ∀ mark ∈ marks, (bedSource p mark).isSome) :
    (stripMoves p marks).map (·.piece) = marks.map some := by
  induction marks with
  | nil => rfl
  | cons mark marks ih =>
    obtain ⟨x, hx⟩ := Option.isSome_iff_exists.mp (h mark List.mem_cons_self)
    have hcons : stripMoves p (mark :: marks) = plainMove .strip (some mark) x none :: stripMoves p marks := by
      simp [stripMoves, hx]
    rw [hcons, List.map_cons, List.map_cons, ih fun k hk => h k (List.mem_cons_of_mem _ hk)]
    rfl

theorem mem_piecesOnBed {p : Part} {bed n mark : Nat} (h : mark ∈ piecesOnBed p bed n) :
    ∃ q x, pieceOf p mark = some q ∧ q.pour = n ∧ q.place = .bed bed x := by
  unfold piecesOnBed at h
  split at h
  · cases h
  · rw [List.mem_filter] at h
    obtain ⟨-, h⟩ := h
    split at h
    · next q hq =>
      rw [Bool.and_eq_true, beq_iff_eq] at h
      obtain ⟨hpour, h⟩ := h
      split at h
      · next b x hplace => exact ⟨q, x, hq, hpour, (beq_iff_eq.mp h) ▸ hplace⟩
      · cases h
    · cases h

/-! ### DETENSION -/

/-- The records once a READY bed is STRIPPING, each of its pieces with a STRIP move. -/
def detensioned (bed n tag : Nat) (s : State) : Part :=
  joinAll (stripMoves s.toPart (piecesOnBed s.toPart bed n))
    (putBed bed { bedOf s.toPart bed with state := .stripping } (atOwner 0x15 tag s))

theorem detension_of_ready {s : State} {bed n : Nat} (hopen : bedOpen s bed) (tag : Nat)
    (hstate : (bedOf s.toPart bed).state = .ready) (hn : (bedOf s.toPart bed).pour = some n) :
    detension bed s.store (atOwner 0x15 tag s) =
      need (decide ((piecesOnBed s.toPart bed n).length ≤ freeEntries s.toPart)) .full
        (.ok { part := detensioned bed n tag s, fields := [.u8 (piecesOnBed s.toPart bed n).length] }) := by
  have hjudged : detension bed s.store (atOwner 0x15 tag s) = need ((bedOf s.toPart bed).state == .ready) .state
      (must (bedOf s.toPart bed).pour .state fun pour =>
        need (decide ((piecesOnBed s.toPart bed pour).length ≤ freeEntries s.toPart)) .full
          (.ok { part := queueStrips (piecesOnBed s.toPart bed pour)
                  (putBed bed { bedOf s.toPart bed with state := .stripping } (atOwner 0x15 tag s)),
                 fields := [.u8 (piecesOnBed s.toPart bed pour).length] })) := forBed_of_open hopen _ _ _
  rw [hjudged, need_of_true (by simp [hstate]), hn, must_some, queueStrips_eq]
  rfl

theorem strip_of_mem {s : State} {bed n : Nat} {k : MovePlanner} {m : Move}
    (h : m ∈ numberedFrom k (stripMoves s.toPart (piecesOnBed s.toPart bed n))) :
    m.kind = .strip ∧ m.state = .queued ∧ m.crane = none ∧ m.dest = none ∧ m.chain = none ∧ m.reason = none ∧
      ∀ mark q, m.piece = some mark → pieceOf s.toPart mark = some q → ∃ x, q.place = .bed bed x ∧ m.source = .bed bed x := by
  obtain ⟨y, hy, number, rfl⟩ := mem_numberedFrom h
  obtain ⟨mark, hmark, x, hx, rfl⟩ := mem_stripMoves.mp hy
  refine ⟨rfl, rfl, rfl, rfl, rfl, rfl, fun mark' q hsame hq => ?_⟩
  obtain rfl : mark = mark' := Option.some.inj hsame
  obtain ⟨q', b, z, hq', hplace, rfl⟩ := bedSource_eq_some_iff.mp hx
  obtain ⟨q'', w, hq'', -, hbed⟩ := mem_piecesOnBed hmark
  obtain rfl := Option.some.inj (hq'.symm.trans hq)
  obtain rfl := Option.some.inj (hq''.symm.trans hq)
  rw [hbed] at hplace
  cases hplace
  exact ⟨z, hbed, rfl⟩

/-- Settles O28: the strip moves join the tail one by one, and the bed is STRIPPING. -/
theorem detensionQueuesStrips : Obligations.DetensionQueuesStrips := by
  intro s tag bed n hready hopen
  refine ⟨fun hstate => refusedWith_byPart hready rfl ?_, fun hstate hn => ?_⟩
  · have hjudged : detension bed s.store (atOwner 0x15 tag s) = need ((bedOf s.toPart bed).state == .ready) .state _ :=
      forBed_of_open hopen _ _ _
    exact hjudged.trans (need_of_false (by simpa using hstate))
  intro marks
  have hmarks : marks = piecesOnBed s.toPart bed n := rfl
  have hjudged := detension_of_ready hopen tag hstate hn
  refine ⟨fun hfull hsome => refusedWith_byPart hready rfl ?_, fun hroom => ?_⟩
  · have : 0 < marks.length := List.length_pos_iff.mpr hsome
    exact hjudged.trans (need_of_false (by rw [decide_eq_true_eq, ← hmarks, freeEntries_eq]; omega))
  · have hsources : ∀ mark ∈ marks, (bedSource s.toPart mark).isSome := fun mark hmark => by
      obtain ⟨q, x, hq, -, hplace⟩ := mem_piecesOnBed hmark
      rw [bedSource_eq_some_iff.mpr ⟨q, bed, x, hq, hplace, rfl⟩]
      rfl
    have hnames : (stripMoves s.toPart marks).map (·.piece) = marks.map some := stripMoves_piece hsources
    have hlength : (stripMoves s.toPart marks).length = marks.length := by simpa using congrArg List.length hnames
    rw [need_of_true (by rw [decide_eq_true_eq, ← hmarks, freeEntries_eq]; omega)] at hjudged
    have hevt : (detensioned bed n tag s).evt = { Changes.none with scan := !marks.isEmpty } := by
      rw [detensioned, joinAll_evt]
      have : (stripMoves s.toPart marks).isEmpty = marks.isEmpty := by
        rw [Bool.eq_iff_iff, List.isEmpty_iff_length_eq_zero, List.isEmpty_iff_length_eq_zero, hlength]
      rw [this]
      rfl
    refine runsTo_mono (ended_byPart hready rfl hjudged (by simp [detensioned])) fun t ⟨hended, hanswered⟩ => ?_
    have hplain : noWithdrawal (detensioned bed n tag s) := noWithdrawal_of_unchanged (by rw [hevt]; rfl)
    obtain ⟨tmc, tbs, tcc, ttu, tpieces, ttimer, tbacklog⟩ := hended.keeps
    obtain ⟨kmc, kbs, kcc, ktu, kA, kB, kfl, kcl, kslots, ktimer, kresA, kresB, kbacklog⟩ :=
      joinAll_keeps (stripMoves s.toPart marks) (putBed bed { bedOf s.toPart bed with state := .stripping } (atOwner 0x15 tag s))
    refine ⟨hended.store_eq, tmc.trans kmc, tcc.trans kcc, ttu.trans ktu, ttimer.trans ktimer, tbacklog.trans kbacklog,
      hended.pending_eq, hended.told hplain (ns := []) kcl (sameNotices_atOwner 0x15 tag s), hanswered, tbs.trans kbs,
      fun mark => ?_, fun hnone => ?_, fun hsome => ?_⟩
    · rw [pieceOf_congr tpieces]
      exact movelessPiece_joinAll _ _ mark
    · have hquiet : (detensioned bed n tag s).evt.scan = false := by rw [hevt, hnone]; rfl
      obtain ⟨-, -, -, -, -, hsm, hmp, hA, hB, hfl, -⟩ := hended.becomes hplain hquiet
      have hsame : detensioned bed n tag s = putBed bed { bedOf s.toPart bed with state := .stripping } (atOwner 0x15 tag s) := by
        have : piecesOnBed s.toPart bed n = [] := hnone
        rw [detensioned, this]
        rfl
      rw [hsame] at hsm hmp hA hB hfl
      exact ⟨hsm, hmp, hA, hB, hfl⟩
    · have hscan : (detensioned bed n tag s).evt.scan = true := by
        rw [hevt, List.isEmpty_eq_false_iff.mpr hsome]
        rfl
      refine ⟨_, hended.scanned hplain hscan kmc, kmc, kslots, kA, kB, kfl, kresA, kresB, _,
        queuedNew_joinAll (p := putBed bed { bedOf s.toPart bed with state := .stripping } (atOwner 0x15 tag s))
          rfl rfl rfl rfl (by rw [hlength]; exact hroom), ?_, fun m hm => strip_of_mem hm⟩
      exact (numberedFrom_map (fun _ _ => rfl) _ _).trans hnames

/-! ### Engagements and locks of a move end -/

theorem freeOf_slot (n : Nat) (r : Slot) :
    freeOf n r = { r with engaged := r.engaged.filter fun e => e.1 != n } := by
  unfold freeOf
  rcases r with ⟨stack, _ | ⟨m, role⟩, lock⟩
  · rfl
  · by_cases h : m = n <;> simp [Option.filter, h]

theorem unlockOf_slot (n : Nat) (r : Slot) : unlockOf n r = { r with lock := r.lock.filter fun m => m != n } := by
  unfold unlockOf
  rcases r with ⟨stack, engaged, _ | m⟩
  · rfl
  · by_cases h : m = n <;> simp [Option.filter, h]

theorem slotOf_mapSlots {f : Slot → Slot} (hf : f .clear = .clear) (p : Part) (k : Nat) :
    slotOf (mapSlots f p) k = f (slotOf p k) := by
  rw [slotOf, mapSlots, slotOf]
  simp only [Map.find_mapRecords]
  cases Map.find p.sm.slots k <;> simp [hf]

/-- A change that no record of a map takes: what a lookup then finds. -/
theorem find_of_unchanged {f : Slot → Slot} (hf : f .clear = .clear) {p : Part} (h : ∀ e ∈ p.sm.slots, f e.2 = e.2) (k : Nat) :
    slotOf p k = f (slotOf p k) := by
  unfold slotOf
  cases hfind : Map.find p.sm.slots k with
  | none => exact hf.symm
  | some r => exact (h _ (Map.mem_of_find hfind)).symm

theorem slotOf_release (n : Nat) (p : Part) (k : Nat) : slotOf (release n p) k = freeOf n (slotOf p k) := by
  unfold release
  split
  · exact slotOf_mapSlots (f := freeOf n) rfl p k
  · next h =>
    refine find_of_unchanged rfl (fun e he => ?_) k
    by_contra hne
    exact h (List.any_eq_true.mpr ⟨e, he, decide_eq_true hne⟩)

theorem slotOf_unlock (n : Nat) (p : Part) (k : Nat) : slotOf (unlock n p) k = unlockOf n (slotOf p k) := by
  unfold unlock
  split
  · exact slotOf_mapSlots (f := unlockOf n) rfl p k
  · next h =>
    refine find_of_unchanged rfl (fun e he => ?_) k
    refine if_neg fun hlock => ?_
    exact h (List.any_eq_true.mpr ⟨e, he, decide_eq_true hlock⟩)

theorem release_evt (n : Nat) (p : Part) :
    (release n p).evt.changed = p.evt.changed ∧ (p.evt.scan = true → (release n p).evt.scan = true) := by
  unfold release
  split <;> simp [stockChange, mapSlots]

theorem unlock_evt (n : Nat) (p : Part) :
    (unlock n p).evt.changed = p.evt.changed ∧ (p.evt.scan = true → (unlock n p).evt.scan = true) := by
  unfold unlock
  split <;> simp [stockChange, mapSlots]

/-! ### A move leaves -/

/-- The queue and the piece's move field without a move, before SM frees what names it. -/
def unqueued (n : Nat) (m : Move) (p : Part) : Part :=
  match m.piece with
  | some mark => setPieceMove mark none (setQueue (p.mp.queue.filter fun k => k.number != n) p)
  | none => setQueue (p.mp.queue.filter fun k => k.number != n) p

theorem removeMove_of_none {n : Nat} {p : Part} (h : moveOf p n = none) : removeMove n p = p := by
  simp only [removeMove, h]

theorem removeMove_of_some {n : Nat} {p : Part} {m : Move} (h : moveOf p n = some m) :
    removeMove n p = triggerScan (release n (unlock n (unqueued n m p))) := by
  simp only [removeMove, h]
  rfl

theorem removeMove_queue (n : Nat) (p : Part) :
    (removeMove n p).mp.queue = p.mp.queue.filter fun k => k.number != n := by
  cases h : moveOf p n with
  | none =>
    rw [removeMove_of_none h, List.filter_eq_self.mpr]
    intro m hm
    simpa using moveOf_eq_none_iff.mp h m hm
  | some m =>
    rw [removeMove_of_some h]
    cases hp : m.piece <;> simp [unqueued, hp, setQueue]

theorem movelessPiece_removeMove (n : Nat) (p : Part) (k : Nat) :
    movelessPiece (removeMove n p) k = movelessPiece p k := by
  cases h : moveOf p n with
  | none => rw [removeMove_of_none h]
  | some m =>
    have hpieces : movelessPiece (removeMove n p) k = movelessPiece (unqueued n m p) k := by
      rw [removeMove_of_some h, movelessPiece, movelessPiece]
      rw [pieceOf_congr (p := unqueued n m p) (by simp)]
    rw [hpieces, unqueued]
    split
    · exact movelessPiece_setPieceMove _ _ _ k
    · rfl

theorem slotOf_removeMove {n : Nat} {p : Part} (h : (moveOf p n).isSome) (k : Nat) :
    slotOf (removeMove n p) k = freeOf n (unlockOf n (slotOf p k)) := by
  obtain ⟨m, hm⟩ := Option.isSome_iff_exists.mp h
  have hslots : slotOf (unqueued n m p) k = slotOf p k := by
    unfold unqueued
    split <;> simp [slotOf, setQueue]
  rw [removeMove_of_some hm, ← hslots, ← slotOf_unlock, ← slotOf_release]
  rfl

theorem stack_removeMove (n : Nat) (p : Part) (k : Nat) : (slotOf (removeMove n p) k).stack = (slotOf p k).stack := by
  cases h : moveOf p n with
  | none => rw [removeMove_of_none h]
  | some m => rw [slotOf_removeMove (by simp [h]), freeOf_slot, unlockOf_slot]

theorem evt_removeMove (n : Nat) (p : Part) :
    (removeMove n p).evt.changed = p.evt.changed ∧ ((removeMove n p).evt.scan = (p.evt.scan || (moveOf p n).isSome)) := by
  cases h : moveOf p n with
  | none => simp [removeMove_of_none h]
  | some m =>
    have hevt : (unqueued n m p).evt = p.evt := by
      unfold unqueued
      split <;> simp [setQueue]
    rw [removeMove_of_some h]
    refine ⟨?_, by simp [triggerScan]⟩
    exact (release_evt _ _).1.trans ((unlock_evt _ _).1.trans (congrArg Changes.changed hevt))

/-! ### Moves leave -/

/-- Moves that leave, in order. -/
def removeMoves (ns : List Nat) (p : Part) : Part := ns.foldl (fun p n => removeMove n p) p

theorem removeMoves_cons (n : Nat) (ns : List Nat) (p : Part) :
    removeMoves (n :: ns) p = removeMoves ns (removeMove n p) := rfl

@[simp] theorem removeMoves_keeps (ns : List Nat) (p : Part) :
    (removeMoves ns p).mc = p.mc ∧ (removeMoves ns p).bs = p.bs ∧ (removeMoves ns p).cc = p.cc ∧
    (removeMoves ns p).tu = p.tu ∧ (removeMoves ns p).csA = p.csA ∧ (removeMoves ns p).csB = p.csB ∧
    (removeMoves ns p).fl = p.fl ∧ (removeMoves ns p).cl = p.cl ∧ (removeMoves ns p).sm.timer = p.sm.timer ∧
    (removeMoves ns p).mp.resA = p.mp.resA ∧ (removeMoves ns p).mp.resB = p.mp.resB ∧
    (removeMoves ns p).mp.counter = p.mp.counter ∧ (removeMoves ns p).mp.backlog = p.mp.backlog := by
  induction ns generalizing p with
  | nil => simp [removeMoves]
  | cons n ns ih =>
    rw [removeMoves_cons]
    simp [ih]

theorem removeMoves_queue (ns : List Nat) (p : Part) :
    (removeMoves ns p).mp.queue = p.mp.queue.filter fun k => k.number ∉ ns := by
  induction ns generalizing p with
  | nil => simp [removeMoves]
  | cons n ns ih =>
    rw [removeMoves_cons, ih, removeMove_queue, List.filter_filter]
    refine List.filter_congr fun k _ => ?_
    by_cases hk : k.number = n <;> simp [hk]

theorem movelessPiece_removeMoves (ns : List Nat) (p : Part) (k : Nat) :
    movelessPiece (removeMoves ns p) k = movelessPiece p k := by
  induction ns generalizing p with
  | nil => rfl
  | cons n ns ih => rw [removeMoves_cons, ih, movelessPiece_removeMove]

theorem stack_removeMoves (ns : List Nat) (p : Part) (k : Nat) :
    (slotOf (removeMoves ns p) k).stack = (slotOf p k).stack := by
  induction ns generalizing p with
  | nil => rfl
  | cons n ns ih => rw [removeMoves_cons, ih, stack_removeMove]

/-- Moves that are in the queue leave: no engagement and no dig lock names one of them, and the others stay (R117). -/
theorem slotOf_removeMoves {ns : List Nat} {p : Part} (hlive : ∀ n ∈ ns, (moveOf p n).isSome) (hnodup : ns.Nodup) (k : Nat) :
    (slotOf (removeMoves ns p) k).engaged = (slotOf p k).engaged.filter (fun e => e.1 ∉ ns) ∧
    (slotOf (removeMoves ns p) k).lock = (slotOf p k).lock.filter (fun n => n ∉ ns) := by
  induction ns generalizing p with
  | nil =>
    rw [removeMoves, List.foldl_nil]
    refine ⟨?_, ?_⟩
    · cases (slotOf p k).engaged <;> rfl
    · cases (slotOf p k).lock <;> rfl
  | cons n ns ih =>
    rw [List.nodup_cons] at hnodup
    have hlater : ∀ m ∈ ns, (moveOf (removeMove n p) m).isSome := by
      intro m hm
      have hfound := hlive m (List.mem_cons_of_mem _ hm)
      rw [Option.isSome_iff_ne_none, ne_eq, moveOf_eq_none_iff] at hfound ⊢
      push Not at hfound ⊢
      obtain ⟨x, hx, rfl⟩ := hfound
      refine ⟨x, ?_, rfl⟩
      rw [removeMove_queue, List.mem_filter]
      refine ⟨hx, ?_⟩
      rw [bne_iff_ne]
      rintro rfl
      exact hnodup.1 hm
    obtain ⟨hengaged, hlock⟩ := ih hlater hnodup.2
    rw [removeMoves_cons, hengaged, hlock, slotOf_removeMove (hlive n List.mem_cons_self), freeOf_slot, unlockOf_slot]
    simp only [Option.filter_filter]
    refine ⟨?_, ?_⟩
    · congr 1
      funext e
      by_cases he : e.1 = n <;> simp [he]
    · congr 1
      funext e
      by_cases he : e = n <;> simp [he]

theorem evt_removeMoves (ns : List Nat) (p : Part) :
    (removeMoves ns p).evt.changed = p.evt.changed ∧
    (p.evt.scan = true ∨ (∃ n ∈ ns, (moveOf p n).isSome) → (removeMoves ns p).evt.scan = true) := by
  induction ns generalizing p with
  | nil => simp [removeMoves]
  | cons n ns ih =>
    obtain ⟨hchanged, hscan⟩ := ih (removeMove n p)
    obtain ⟨hchanged', hscan'⟩ := evt_removeMove n p
    rw [removeMoves_cons]
    refine ⟨hchanged.trans hchanged', fun h => hscan ?_⟩
    rw [hscan']
    rcases h with h | ⟨m, hm, hfound⟩
    · exact .inl (by simp [h])
    · rcases List.mem_cons.mp hm with rfl | hm
      · exact .inl (by simp [hfound])
      · cases hn : moveOf p n with
        | none => exact .inr ⟨m, hm, by rwa [removeMove_of_none hn]⟩
        | some x => exact .inl (by simp)

/-! ### Backlog fill -/

/-- A STRIP move that a fill adds: for a marked piece on a STRIPPING bed (R135). -/
def fillMove (p : Part) (marks : List Nat) (k : Move) : Prop :=
  k.kind = .strip ∧ k.state = .queued ∧ k.crane = none ∧ (∃ mark ∈ marks, k.piece = some mark) ∧
    ∃ b x, k.source = .bed b x ∧ (bedOf p b).state = .stripping

/-- What a backlog fill leaves: STRIP moves behind the queue, the pieces but for their move fields, no condition changed. -/
structure Filled (marks : List Nat) (p q : Part) : Prop where
  queue : ∃ fill, q.mp.queue = p.mp.queue ++ fill ∧ ∀ k ∈ fill, fillMove p marks k
  pieces : ∀ k, movelessPiece q k = movelessPiece p k
  changed : q.evt.changed = p.evt.changed
  scan : p.evt.scan = true → q.evt.scan = true

theorem filled_queueStrip {marks : List Nat} {p : Part} {mark : Nat} (hmark : mark ∈ marks)
    (h : onStrippingBed p mark = true) : Filled marks p (queueStrip mark p) := by
  rw [queueStrip_eq]
  refine ⟨⟨_, joinAll_queue _ p, fun k hk => ?_⟩, movelessPiece_joinAll _ p, ?_, fun hscan => ?_⟩
  · obtain ⟨y, hy, n, rfl⟩ := mem_numberedFrom hk
    obtain ⟨mark', hmark', x, hx, rfl⟩ := mem_stripMoves.mp hy
    obtain rfl := List.mem_singleton.mp hmark'
    obtain ⟨q, b, y, hq, hplace, rfl⟩ := bedSource_eq_some_iff.mp hx
    refine ⟨rfl, rfl, rfl, ⟨mark', hmark, rfl⟩, b, y, rfl, ?_⟩
    simpa [onStrippingBed, hq, hplace] using h
  · rw [joinAll_evt]
  · rw [joinAll_evt]
    simp [hscan]

theorem Filled.trans {marks : List Nat} {p q r : Part} (h : Filled marks p q) (k : Filled marks q r) (hbs : q.bs = p.bs) :
    Filled marks p r := by
  obtain ⟨fill, hfill, hmoves⟩ := h.queue
  obtain ⟨fill', hfill', hmoves'⟩ := k.queue
  refine ⟨⟨fill ++ fill', by rw [hfill', hfill, List.append_assoc], fun m hm => ?_⟩,
    fun m => (k.pieces m).trans (h.pieces m), k.changed.trans h.changed, fun hscan => k.scan (h.scan hscan)⟩
  rcases List.mem_append.mp hm with hm | hm
  · exact hmoves m hm
  · have := hmoves' m hm
    rw [fillMove] at this ⊢
    simp only [bedOf_congr hbs] at this
    exact this

theorem filled_of_sameRecords {marks : List Nat} {p q : Part} (hqueue : q.mp.queue = p.mp.queue)
    (hpieces : q.sm.pieces = p.sm.pieces) (hevt : q.evt = p.evt) : Filled marks p q :=
  ⟨⟨[], by simp [hqueue], by simp⟩, fun k => by rw [movelessPiece, movelessPiece, pieceOf_congr hpieces],
    congrArg Changes.changed hevt, fun h => hevt ▸ h⟩

theorem filled_fillFrom (marks l : List Nat) (hl : ∀ m ∈ l, m ∈ marks) (p : Part) : Filled marks p (fillFrom l p) := by
  induction l generalizing p with
  | nil => exact filled_of_sameRecords rfl rfl rfl
  | cons m l ih =>
    have hrest : ∀ k ∈ l, k ∈ marks := fun k hk => hl k (List.mem_cons_of_mem _ hk)
    unfold fillFrom
    split
    · split
      · next hbed => exact (filled_queueStrip (hl m List.mem_cons_self) hbed).trans (ih hrest _) (by simp)
      · exact ih hrest p
    · exact filled_of_sameRecords rfl rfl rfl

theorem filled_backlogFill (p : Part) : Filled p.mp.backlog p (backlogFill p) :=
  filled_fillFrom _ _ (fun _ h => h) p

/-! ### What the scan leaves of the queue -/

/-- Every move of the records is of a kind and source. -/
def everyMove (P : MoveKind → Source → Prop) (p : Part) : Prop := ∀ m ∈ p.mp.queue, P m.kind m.source

section everyMove

variable {P : MoveKind → Source → Prop} {g : Store} {p : Part}

theorem everyMove_putMove (h : everyMove P p) {m : Move} (hm : P m.kind m.source) : everyMove P (putMove m p) := by
  intro k hk
  obtain ⟨x, hx, rfl⟩ := List.mem_map.mp hk
  split
  · exact hm
  · exact h x hx

theorem mem_of_moveOf {n : Nat} {m : Move} (h : moveOf p n = some m) : m ∈ p.mp.queue := List.mem_of_find?_eq_some h

theorem everyMove_visit {w : Walk} (h : everyMove P w.part) (n : Nat) : everyMove P (visit g w n).part := by
  unfold visit
  split
  · exact h
  · split
    · exact h
    · next m hm =>
      split
      · dsimp only
        split
        · next c d _ =>
          have hput : everyMove P (putMove { m with dest := some d, crane := some c, state := .dispatched } w.part) :=
            everyMove_putMove h (h m (mem_of_moveOf hm))
          simpa [everyMove, dispatch, putMove] using hput
        · exact h
      · exact h

theorem everyMove_walk (l : List Nat) {w : Walk} (h : everyMove P w.part) : everyMove P (l.foldl (visit g) w).part := by
  induction l generalizing w with
  | nil => exact h
  | cons n l ih => exact ih (everyMove_visit h n)

theorem everyMove_park (hpark : ∀ x, P .park (.runway x)) (h : everyMove P p) (o : CraneId) : everyMove P (park g o p) := by
  have hqueue : (park g o p).mp.queue = (MovePlanner.joined p.mp true
      { plainMove .park none (.runway ((craneOf p o).pos.getD 0)) (some .home) with
        number := newNumber p, state := .dispatched, crane := some o }).queue := by
    rw [← joinQueue_mp]
    simp [park]
  intro m hm
  rw [hqueue] at hm
  rcases List.mem_cons.mp hm with rfl | hm
  · exact hpark _
  · exact h m hm

/-- A scan dispatches moves and queues a PARK: it makes no move of another kind or source. -/
theorem everyMove_scan (hpark : ∀ x, P .park (.runway x)) (h : everyMove P p) : everyMove P (scan g p) := by
  have hwalk := everyMove_walk (g := g) (p.mp.queue.map (·.number)) (w := { part := p, dispatched := false, first := none }) h
  unfold scan
  dsimp only
  split
  · exact hwalk
  · unfold giveWay
    split
    · exact hwalk
    · split
      · exact hwalk
      · split
        · split
          · exact everyMove_park hpark hwalk _
          · exact hwalk
        · exact hwalk

end everyMove

/-! ### CLEAR BED of a STRIPPING bed -/

/-- The numbers of a bed's STRIP moves. -/
def stripNumbers (bed : Nat) (p : Part) : List Nat := (p.mp.queue.filter (stripsBed bed)).map (·.number)

/-- The records once a bed's STRIP moves and its pieces' backlog entries are gone (R134). -/
def unlisted (bed : Nat) (p : Part) : Part :=
  setBacklog ((removeMoves (stripNumbers bed p) p).mp.backlog.filter fun m =>
    !liesOnBed (removeMoves (stripNumbers bed p) p) bed m) (removeMoves (stripNumbers bed p) p)

/-- The records once a STRIPPING bed is empty, before the backlog fill. -/
def strippingGone (bed n : Nat) (p : Part) : Part :=
  putBed bed .vacant (closeContext bed (pourGone n (piecesOnBed p bed n) (unlisted bed p)))

theorem clearStripping_eq {bed n : Nat} {p : Part} (hn : (bedOf p bed).pour = some n) :
    clearStripping bed n p = backlogFill (strippingGone bed n p) := by
  have hbed : (bedOf (removePieces (piecesOnBed p bed n) (unlisted bed p)) bed).pour = some n := by
    rw [bedOf, (removePieces_beds _ _).1, unlisted]
    simpa [setBacklog, bedOf] using hn
  have hempty : emptyBed bed (removePieces (piecesOnBed p bed n) (unlisted bed p)) = strippingGone bed n p := by
    rw [emptyBed, hbed]
    rfl
  exact congrArg backlogFill hempty

section unlisted

variable {bed n : Nat} {p : Part}

theorem movelessPiece_unlisted (k : Nat) : movelessPiece (unlisted bed p) k = movelessPiece p k :=
  movelessPiece_removeMoves _ p k

theorem pourOf_unlisted (k : Nat) : pourOf (unlisted bed p) k = pourOf p k := pourOf_congr (by simp [unlisted, setBacklog]) k

theorem mem_stripNumbers {k : Nat} : k ∈ stripNumbers bed p ↔ ∃ m ∈ p.mp.queue, stripsBed bed m = true ∧ m.number = k := by
  simp [stripNumbers, and_assoc]

theorem piece_of_moveless {p p' : Part} {k : Nat} (h : movelessPiece p k = movelessPiece p' k) {q : Piece}
    (hq : pieceOf p k = some q) : ∃ q', pieceOf p' k = some q' ∧ q'.pour = q.pour ∧ q'.place = q.place := by
  rw [movelessPiece, movelessPiece, hq, Option.map_some] at h
  cases hq' : pieceOf p' k with
  | none => simp [hq'] at h
  | some q' =>
    rw [hq', Option.map_some, Option.some.injEq] at h
    injection h
    exact ⟨q', rfl, by simp_all⟩

theorem onBed_unlisted : ∀ m ∈ piecesOnBed p bed n, ∃ q, pieceOf (unlisted bed p) m = some q ∧ q.pour = n ∧
    ∃ x, q.place = .bed bed x := by
  intro m hm
  obtain ⟨q, x, hq, hpour, hplace⟩ := mem_piecesOnBed hm
  obtain ⟨q', hq', hpour', hplace'⟩ := piece_of_moveless (movelessPiece_unlisted m).symm hq
  exact ⟨q', hq', hpour'.trans hpour, x, hplace'.trans hplace⟩

theorem ofPour_unlisted : ∀ m ∈ piecesOnBed p bed n, ∃ q, pieceOf (unlisted bed p) m = some q ∧ q.pour = n := by
  intro m hm
  obtain ⟨q, hq, hpour, -⟩ := onBed_unlisted m hm
  exact ⟨q, hq, hpour⟩

theorem queue_strippingGone :
    (strippingGone bed n p).mp.queue = p.mp.queue.filter fun k => k.number ∉ stripNumbers bed p := by
  rw [← removeMoves_queue]
  simp [strippingGone, pourGone, unlisted, setBacklog, closeContext]

theorem stripsBed_queue_strippingGone : ∀ m ∈ (strippingGone bed n p).mp.queue, stripsBed bed m = false := by
  intro m hm
  rw [queue_strippingGone, List.mem_filter, decide_eq_true_eq, mem_stripNumbers] at hm
  obtain ⟨hmem, hnot⟩ := hm
  rw [← Bool.not_eq_true]
  exact fun h => hnot ⟨m, hmem, h, rfl⟩

/-- With distinct numbers, the moves left are those that were not STRIP moves of the bed. -/
theorem queue_strippingGone_of_sound (h : movesSound p) :
    (strippingGone bed n p).mp.queue = p.mp.queue.filter fun m => !stripsBed bed m := by
  obtain ⟨-, hnodup, -⟩ := (plannerSound_iff p).mpr h
  rw [queue_strippingGone]
  refine List.filter_congr fun m hm => ?_
  rw [Bool.eq_iff_iff, decide_eq_true_eq, mem_stripNumbers, Bool.not_eq_true', ← Bool.not_eq_true, not_iff_not]
  constructor
  · rintro ⟨x, hx, hstrips, hnumber⟩
    rwa [← List.inj_on_of_nodup_map hnodup hx hm hnumber]
  · exact fun hstrips => ⟨m, hm, hstrips, rfl⟩

theorem backlog_strippingGone : ∀ m ∈ (strippingGone bed n p).mp.backlog, m ∈ p.mp.backlog := by
  intro m hm
  have hbacklog : (strippingGone bed n p).mp.backlog = (unlisted bed p).mp.backlog := by
    simp [strippingGone, pourGone, closeContext]
  rw [hbacklog, unlisted, setBacklog, List.mem_filter] at hm
  simpa using hm.1

theorem pieceOf_strippingGone (k : Nat) : movelessPiece (strippingGone bed n p) k =
    if k ∈ piecesOnBed p bed n then none else movelessPiece p k := by
  have hpiece : pieceOf (strippingGone bed n p) k =
      if k ∈ piecesOnBed p bed n then none else pieceOf (unlisted bed p) k := pieceOf_pourGone k
  rw [movelessPiece, hpiece, ← movelessPiece_unlisted (bed := bed), movelessPiece]
  split <;> rfl

theorem slotOf_strippingGone (k : Nat) :
    (slotOf (strippingGone bed n p) k).engaged = (slotOf (unlisted bed p) k).engaged ∧
    (slotOf (strippingGone bed n p) k).lock = (slotOf (unlisted bed p) k).lock ∧
    (slotOf (strippingGone bed n p) k).stack = (slotOf (unlisted bed p) k).stack := by
  obtain ⟨hengaged, hlock, hstack⟩ := slotOf_pourGone (n := n) (marks := piecesOnBed p bed n) (p := unlisted bed p) k
  refine ⟨hengaged, hlock, hstack fun m hm q j hq hslot => ?_⟩
  obtain ⟨q', hq', -, x, hbed⟩ := onBed_unlisted m hm
  obtain rfl := Option.some.inj (hq.symm.trans hq')
  rw [hbed] at hslot
  cases hslot

theorem evt_strippingGone (hevt : p.evt = .none) :
    (strippingGone bed n p).evt.changed = [] ∧
    ((∃ m ∈ p.mp.queue, stripsBed bed m = true) ∨ piecesOnBed p bed n ≠ [] → (strippingGone bed n p).evt.scan = true) := by
  obtain ⟨hchanged, hscan⟩ := evt_removePieces (piecesOnBed p bed n) (unlisted bed p)
  obtain ⟨hchanged', hscan'⟩ := evt_removeMoves (stripNumbers bed p) p
  have hfinal : (strippingGone bed n p).evt = (removePieces (piecesOnBed p bed n) (unlisted bed p)).evt := by
    simp [strippingGone, pourGone, closeContext]
  have hunlisted : (unlisted bed p).evt = (removeMoves (stripNumbers bed p) p).evt := rfl
  rw [hfinal]
  refine ⟨by rw [hchanged, hunlisted, hchanged', hevt]; rfl, fun h => ?_⟩
  rw [hscan, hunlisted, Bool.or_eq_true]
  rcases h with ⟨m, hm, hstrips⟩ | hsome
  · refine .inl (hscan' (.inr ⟨m.number, mem_stripNumbers.mpr ⟨m, hm, hstrips, rfl⟩, ?_⟩))
    rw [Option.isSome_iff_ne_none, ne_eq, moveOf_eq_none_iff]
    exact fun h => h m hm rfl
  · obtain ⟨m, hm⟩ := List.exists_mem_of_ne_nil _ hsome
    obtain ⟨q, hq, -⟩ := onBed_unlisted m hm
    exact .inr (List.any_eq_true.mpr ⟨m, hm, by rw [hq]; rfl⟩)

end unlisted

/-! ### CLEAR BED -/

/-- What CLEAR BED decides by the bed's state, once the bed is open to it (R31). -/
def clearJudged (bed tag : Nat) (s : State) : Judgement Taken :=
  match (bedOf s.toPart bed).state, (bedOf s.toPart bed).pour with
  | .prepared, _ => .ok { part := putBed bed .vacant (atOwner 0x16 tag s), fields := [.u8 0] }
  | .rejected, some n => .ok { part := clearRejected bed n (atOwner 0x16 tag s), fields := [.u8 0] }
  | .stripping, some n => need (!s.mp.queue.any fun m => stripsBed bed m && m.crane.isSome) .busy
      (.ok { part := clearStripping bed n (atOwner 0x16 tag s), fields := [.u8 0] })
  | _, _ => .error .state

theorem clearBed_of_open {s : State} {bed : Nat} (h : bedOpen s bed) (tag : Nat) :
    clearBed bed s.store (atOwner 0x16 tag s) = clearJudged bed tag s :=
  (forBed_of_open h _ _ _).trans rfl

theorem endedFrom.stackAndLock_eq {s t : State} {p : Part} (h : endedFrom s t p) (k : Nat) :
    stackAndLock t.toPart k = stackAndLock p k := by
  obtain ⟨replies, rfl⟩ := h
  exact stackAndLock_endOfEvent s.store _ k

/-- An event that withdraws nothing ends with the records as they are, or with a scan of them. -/
theorem endedFrom.becomes_or_scanned {s t : State} {p : Part} (h : endedFrom s t p) (hplain : noWithdrawal p)
    (hmc : p.mc = s.mc) : Machine.becomes s t s.store p ∨ Machine.scanned s t p := by
  cases hscan : p.evt.scan with
  | false => exact .inl (h.becomes hplain hscan)
  | true => exact .inr (h.scanned hplain hscan hmc)

/-- A property of the kinds and sources in the queue outlives the end of an event that withdraws nothing. -/
theorem endedFrom.everyMove {s t : State} {p : Part} (h : endedFrom s t p) (hplain : noWithdrawal p)
    {P : MoveKind → Source → Prop} (hpark : ∀ x, P .park (.runway x)) (hp : Proofs.everyMove P p) :
    Proofs.everyMove P t.toPart := by
  obtain ⟨replies, rfl⟩ := h.of_noWithdrawal hplain
  have hafter : Proofs.everyMove P (scanIfDue s.store (withReplies replies p)) := by
    unfold scanIfDue
    split
    · exact everyMove_scan hpark hp
    · exact hp
  simpa [Proofs.everyMove] using hafter

/-- Not a STRIP move of the bed, told of a kind and a source. -/
def notStripOf (bed : Nat) (k : MoveKind) (x : Source) : Prop := k = .strip → ∀ y, x ≠ .bed bed y

theorem stripsBed_eq_false_iff {bed : Nat} {m : Move} : stripsBed bed m = false ↔ notStripOf bed m.kind m.source := by
  unfold stripsBed notStripOf
  rcases m with ⟨number, kind, piece, _ | _ | _, _⟩ <;> cases kind <;> simp

section stripping

variable {s t : State} {tag bed n : Nat}

/-- The records that the end of CLEAR BED of a STRIPPING bed finds. -/
def stripped (bed n tag : Nat) (s : State) : Part := backlogFill (strippingGone bed n (atOwner 0x16 tag s))

theorem filled_stripped : Filled (strippingGone bed n (atOwner 0x16 tag s)).mp.backlog
    (strippingGone bed n (atOwner 0x16 tag s)) (stripped bed n tag s) := filled_backlogFill _

theorem strippingGone_keeps (bed n : Nat) (p : Part) :
    (strippingGone bed n p).mc = p.mc ∧ (strippingGone bed n p).tu = p.tu ∧
    (strippingGone bed n p).cc = { p.cc with contexts := Map.del p.cc.contexts bed } ∧
    (strippingGone bed n p).sm.timer = p.sm.timer ∧ (strippingGone bed n p).csA = p.csA ∧
    (strippingGone bed n p).csB = p.csB ∧ (strippingGone bed n p).fl = p.fl ∧ (strippingGone bed n p).cl = p.cl ∧
    (strippingGone bed n p).mp.resA = p.mp.resA ∧ (strippingGone bed n p).mp.resB = p.mp.resB := by
  simp [strippingGone, pourGone, closeContext, unlisted, setBacklog]

theorem strippingGone_beds (bed n : Nat) (p : Part) :
    (strippingGone bed n p).bs.beds = Map.put p.bs.beds bed .vacant ∧ (strippingGone bed n p).bs.seq = p.bs.seq := by
  obtain ⟨hbeds, hseq⟩ := @pourGone_bs n (piecesOnBed p bed n) (unlisted bed p)
  have hbs : (unlisted bed p).bs = p.bs := by simp [unlisted, setBacklog]
  rw [hbs] at hbeds hseq
  exact ⟨congrArg (fun beds => Map.put beds bed Bed.vacant) hbeds, hseq⟩

theorem everyMove_stripped : everyMove (notStripOf bed) (stripped bed n tag s) := by
  obtain ⟨fill, hqueue, hfill⟩ := (filled_stripped (s := s) (bed := bed) (n := n) (tag := tag)).queue
  intro m hm
  rw [hqueue] at hm
  rcases List.mem_append.mp hm with hm | hm
  · exact stripsBed_eq_false_iff.mp (stripsBed_queue_strippingGone m hm)
  · obtain ⟨-, -, -, -, b, x, hsource, hstate⟩ := hfill m hm
    intro _ y hy
    rw [hsource] at hy
    obtain rfl : b = bed := by injection hy
    rw [bedOf, (strippingGone_beds _ _ _).1, Map.find_put_same] at hstate
    cases hstate

theorem filledFrom_stripped (hsound : movesSound s.toPart) :
    filledFrom s (s.mp.queue.filter fun m => !stripsBed bed m) (stripped bed n tag s).mp.queue := by
  obtain ⟨fill, hqueue, hfill⟩ := (filled_stripped (s := s) (bed := bed) (n := n) (tag := tag)).queue
  have hleft : (strippingGone bed n (atOwner 0x16 tag s)).mp.queue = s.mp.queue.filter fun m => !stripsBed bed m :=
    queue_strippingGone_of_sound (p := atOwner 0x16 tag s) hsound
  have hnamed : ∀ k ∈ fill, k.kind = .strip ∧ k.state = .queued ∧ k.crane = none ∧ ∃ mark ∈ s.mp.backlog, k.piece = some mark := by
    intro k hk
    obtain ⟨hkind, hstate, hcrane, ⟨mark, hmark, hpiece⟩, -⟩ := hfill k hk
    exact ⟨hkind, hstate, hcrane, mark, backlog_strippingGone (p := atOwner 0x16 tag s) mark hmark, hpiece⟩
  refine ⟨fill, hleft ▸ hqueue, fun hnone => ?_, hnamed⟩
  rw [List.eq_nil_iff_forall_not_mem]
  intro k hk
  obtain ⟨-, -, -, mark, hmark, -⟩ := hnamed k hk
  rw [hnone] at hmark
  cases hmark

theorem freedOf_stripped (hsound : movesSound s.toPart) :
    freedOf s (stripped bed n tag s) fun k => s.mp.queue.any fun m => stripsBed bed m && m.number == k := by
  obtain ⟨-, hnodup, -⟩ := (plannerSound_iff s.toPart).mpr hsound
  have hnumbers : (stripNumbers bed (atOwner 0x16 tag s)).Nodup := (List.filter_sublist.map _).nodup hnodup
  have hlive : ∀ k ∈ stripNumbers bed (atOwner 0x16 tag s), (moveOf (atOwner 0x16 tag s) k).isSome := by
    intro k hk
    obtain ⟨m, hm, -, rfl⟩ := mem_stripNumbers.mp hk
    rw [Option.isSome_iff_ne_none, ne_eq, moveOf_eq_none_iff]
    exact fun h => h m hm rfl
  have hiff (k : Nat) : decide (k ∉ stripNumbers bed (atOwner 0x16 tag s)) =
      !(s.mp.queue.any fun m => stripsBed bed m && m.number == k) := by
    rw [Bool.eq_iff_iff, decide_eq_true_eq, Bool.not_eq_true', ← Bool.not_eq_true, not_iff_not, mem_stripNumbers,
      List.any_eq_true]
    simp only [Bool.and_eq_true, beq_iff_eq]
    rfl
  intro k
  obtain ⟨hengaged, hlock⟩ := slotOf_removeMoves hlive hnumbers k
  obtain ⟨hengaged', hlock', -⟩ := slotOf_strippingGone (bed := bed) (n := n) (p := atOwner 0x16 tag s) k
  have hslots : slotOf (stripped bed n tag s) k = slotOf (strippingGone bed n (atOwner 0x16 tag s)) k := by
    simp [slotOf, stripped]
  rw [hslots, hengaged', hlock']
  refine ⟨hengaged.trans ?_, hlock.trans ?_⟩
  · exact congrArg (Option.filter · _) (funext fun e => hiff e.1)
  · exact congrArg (Option.filter · _) (funext hiff)

end stripping

/-- Settles O29: by the bed's state, the pieces of a REJECTED bed's pour removed, a STRIPPING bed's moves before them. -/
theorem clearBedResult : Obligations.ClearBedResult := by
  intro s tag bed hready hopen b left
  have hjudged := clearBed_of_open hopen tag
  refine ⟨fun hstate => refusedWith_byPart hready rfl (hjudged.trans ?_), fun hstate => ?_, fun n hstate hn => ?_,
    fun n hstate hn => ⟨fun hbusy => refusedWith_byPart hready rfl (hjudged.trans ?_), fun hfree => ?_⟩⟩
  · unfold clearJudged
    rcases hstate with hstate | hstate | hstate | hstate <;> simp only [show (bedOf s.toPart bed).state = _ from hstate]
  · have htaken : clearJudged bed tag s = .ok { part := putBed bed .vacant (atOwner 0x16 tag s), fields := [.u8 0] } := by
      simp only [clearJudged, show (bedOf s.toPart bed).state = _ from hstate]
    refine runsTo_mono (quiet_byPart hready rfl (hjudged.trans htaken) rfl rfl) fun t ⟨hbecomes, htold, hanswered⟩ => ?_
    exact ⟨hbecomes, hanswered, htold⟩
  · have htaken : clearJudged bed tag s = .ok { part := clearRejected bed n (atOwner 0x16 tag s), fields := [.u8 0] } := by
      simp only [clearJudged, show (bedOf s.toPart bed).state = _ from hstate, show (bedOf s.toPart bed).pour = _ from hn]
    have hgone : clearRejected bed n (atOwner 0x16 tag s) =
      putBed bed .vacant (pourGone n (piecesOfPour s.toPart n) (atOwner 0x16 tag s)) := rfl
    rw [hgone] at htaken
    refine runsTo_mono (ended_byPart hready rfl (hjudged.trans htaken) (by simp [pourGone])) fun t ⟨hended, hanswered⟩ => ?_
    have hall := hended.goneFrom (piecesOfPour_there s.toPart n)
    obtain ⟨hstore, hmc, hcc, htu, htimer, hpending⟩ := hall.kept
    exact ⟨hstore, hmc, hcc, htu, htimer, hpending, hanswered, hall.beds.1, hall.beds.2, hall.pieces,
      ⟨hall.others, hall.pour⟩, hall.told, hall.ended⟩
  · unfold clearJudged
    obtain ⟨m, hm, hstrips, hcrane⟩ := hbusy
    simp only [show (bedOf s.toPart bed).state = _ from hstate, show (bedOf s.toPart bed).pour = _ from hn]
    refine need_of_false ?_
    simp only [Bool.not_eq_true', Bool.not_eq_false, List.any_eq_true, Bool.and_eq_true]
    exact ⟨m, hm, hstrips, hcrane⟩
  · have hnone : (s.mp.queue.any fun m => stripsBed bed m && m.crane.isSome) = false := by
      rw [List.any_eq_false]
      intro m hm hboth
      obtain ⟨hstrips, hcrane⟩ := (Bool.and_eq_true _ _).mp hboth
      rw [hfree m hm hstrips] at hcrane
      cases hcrane
    have htaken : clearJudged bed tag s = .ok { part := stripped bed n tag s, fields := [.u8 0] } := by
      have heq : clearStripping bed n (atOwner 0x16 tag s) = stripped bed n tag s := clearStripping_eq (p := atOwner 0x16 tag s) hn
      simp only [clearJudged, show (bedOf s.toPart bed).state = _ from hstate, show (bedOf s.toPart bed).pour = _ from hn,
        hnone, heq]
      rfl
    obtain ⟨kmc, ktu, kcc, ktimer, kA, kB, kfl, kcl, kresA, kresB⟩ := strippingGone_keeps bed n (atOwner 0x16 tag s)
    obtain ⟨fmc, fbs, fcc, ftu, fA, fB, ffl, fcl, fslots, ftimer, fresA, fresB⟩ :=
      backlogFill_keeps (strippingGone bed n (atOwner 0x16 tag s))
    refine runsTo_mono (ended_byPart hready rfl (hjudged.trans htaken) (congrArg linkCore (fcl.trans kcl)))
      fun t ⟨hended, hanswered⟩ => ?_
    have hfilled := filled_stripped (s := s) (bed := bed) (n := n) (tag := tag)
    obtain ⟨hchanged, hscan⟩ := evt_strippingGone (bed := bed) (n := n) (p := atOwner 0x16 tag s) rfl
    have hplain : noWithdrawal (stripped bed n tag s) := noWithdrawal_of_unchanged (hfilled.changed.trans hchanged)
    obtain ⟨tmc, tbs, tcc, ttu, tpieces, ttimer, -⟩ := hended.keeps
    obtain ⟨hbeds, hseq⟩ := strippingGone_beds bed n (atOwner 0x16 tag s)
    obtain ⟨hsame, hother⟩ := pourOf_pourGone (ofPour_unlisted (p := atOwner 0x16 tag s) (bed := bed) (n := n))
    have hpours (k : Nat) : pourOf t.toPart k =
        pourOf (pourGone n (piecesOnBed s.toPart bed n) (unlisted bed (atOwner 0x16 tag s))) k := by
      rw [pourOf, tbs.trans fbs]
      rfl
    have hmoveless (k : Nat) : movelessPiece t.toPart k =
        if k ∈ piecesOnBed s.toPart bed n then none else movelessPiece s.toPart k := by
      rw [movelessPiece, pieceOf_congr tpieces]
      exact (hfilled.pieces k).trans (pieceOf_strippingGone k)
    refine ⟨hended.store_eq, tmc.trans (fmc.trans kmc), ttu.trans (ftu.trans ktu), ttimer.trans (ftimer.trans ktimer),
      hended.pending_eq, hanswered, ?_, ?_, tcc.trans (fcc.trans kcc), ?_, ⟨fun k hk => ?_, ?_⟩,
      hended.told hplain (ns := []) (fcl.trans kcl) (sameNotices_atOwner 0x16 tag s), fun k => ?_, fun hsound => ?_, ?_, ?_⟩
    · exact (congrArg BedSequencer.seq (tbs.trans fbs)).trans hseq
    · exact (congrArg BedSequencer.beds (tbs.trans fbs)).trans hbeds
    · exact fun m hm => stripsBed_eq_false_iff.mpr
        (hended.everyMove hplain (fun x h => by cases h) everyMove_stripped m hm)
    · exact (hpours k).trans ((hother k hk).trans (pourOf_unlisted k))
    · refine (hpours n).trans (hsame.trans ?_)
      rw [pourOf_unlisted]
      rfl
    · have hstack : (slotOf (stripped bed n tag s) k).stack = (slotOf s.toPart k).stack := by
        rw [slotOf, stripped, fslots]
        exact (slotOf_strippingGone k).2.2.trans (stack_removeMoves _ _ k)
      exact (congrArg Prod.fst (hended.stackAndLock_eq k)).trans hstack
    · have hmc : (stripped bed n tag s).mc = s.mc := fmc.trans kmc
      exact ⟨_, hended.becomes_or_scanned hplain hmc, fun h => hended.scanned hplain (hfilled.scan (hscan h)) hmc, hmc,
        fA.trans kA, fB.trans kB, ffl.trans kfl, fresA.trans kresA, fresB.trans kresB, filledFrom_stripped hsound,
        freedOf_stripped hsound⟩
    · intro mark hmark
      have := hmoveless mark
      rw [if_pos hmark, movelessPiece, Option.map_eq_none_iff] at this
      exact this
    · intro mark hmark
      have := hmoveless mark
      rwa [if_neg hmark] at this

end Sys2Proof.Proofs
end

section
/-!
PROOFS. What the Field Link's traffic leaves as it stands (chapters 8 and 9): the node table, a STOP once offered, and the
record of every crane but the one that acts, the commands that it holds refused apart. Said once of every shared operation,
and of the scan, which leaves a crane that is not IDLE alone.
-/

namespace Sys2Proof.Proofs

open Sys2Proof.Machine

/-! ### Traffic -/

/-- What traffic of others leaves of a crane's record: all that is not of a command, and, where it holds no refused command,
all. -/
def Leaves (c : CraneId) (p q : Part) : Prop :=
  craneCore (craneOf q c) = craneCore (craneOf p c) ∧ (holdsRefused p c = false → craneOf q c = craneOf p c)

/-- A STOP for a node waits in the queue. -/
abbrev stopWaits (addr : Nat) (p : Part) : Prop := ∃ e ∈ p.fl.queue, e.addr = addr ∧ e.cmd = .stop

/-- A STOP for a node waits in the queue, or is on the line in an exchange begun since the number `base`. -/
def stopStands (base addr : Nat) (p : Part) : Prop :=
  stopWaits addr p ∨
  ∃ ex, p.fl.line = some ex ∧ ex.addr = addr ∧ ex.cmd = .stop ∧ ex.attempt = 1 ∧ base ≤ ex.id

/-- A node is LOST, and no entry of the queue is its own (R168). -/
def barred (addr : Nat) (p : Part) : Prop :=
  (∃ nd, nodeOf p addr = some nd ∧ nd.standing = .lost) ∧ ∀ e ∈ p.fl.queue, e.addr ≠ addr

theorem barred.congr {addr : Nat} {p q : Part} (h : barred addr p) (hnodes : q.fl.nodes = p.fl.nodes)
    (hqueue : ∀ e ∈ q.fl.queue, e ∈ p.fl.queue) : barred addr q :=
  ⟨by rw [nodeOf, hnodes]; exact h.1, fun e he => h.2 e (hqueue e he)⟩

/-- What the field traffic that the cranes of `mine` bring about leaves as it stands. -/
structure Traffic (mine : Set CraneId) (p q : Part) : Prop where
  nodes : q.fl.nodes = p.fl.nodes
  serial : p.fl.serial ≤ q.fl.serial
  cranes : ∀ c, c ∉ mine → Leaves c p q
  stops : ∀ base addr, (nodeOf p addr).isSome → base ≤ p.fl.serial → stopStands base addr p → stopStands base addr q
  busy : p.fl.line.isSome → q.fl.line.isSome ∧ ∀ addr, stopWaits addr p → stopWaits addr q
  lost : ∀ addr, barred addr p → barred addr q

theorem Leaves.of_eq {c : CraneId} {p q : Part} (h : craneOf q c = craneOf p c) : Leaves c p q :=
  ⟨congrArg craneCore h, fun _ => h⟩

theorem holdsRefused_congr {c : CraneId} {p q : Part} (h : craneOf q c = craneOf p c) :
    holdsRefused q c = holdsRefused p c := by
  simp only [holdsRefused, waitingCommand, h]

theorem Leaves.trans {c : CraneId} {p q r : Part} (h : Leaves c p q) (k : Leaves c q r) : Leaves c p r := by
  refine ⟨k.1.trans h.1, fun hfree => ?_⟩
  have hq := h.2 hfree
  exact (k.2 ((holdsRefused_congr hq).trans hfree)).trans hq

theorem nodeOf_congr {p q : Part} (h : q.fl.nodes = p.fl.nodes) (a : Nat) : nodeOf q a = nodeOf p a := by
  rw [nodeOf, nodeOf, h]

theorem craneOf_congr {p q : Part} (hA : q.csA = p.csA) (hB : q.csB = p.csB) (c : CraneId) : craneOf q c = craneOf p c := by
  cases c
  · exact hA
  · exact hB

theorem craneOf_putCrane_same (c : CraneId) (r : Crane) (p : Part) : craneOf (putCrane c r p) c = r := by cases c <;> rfl

theorem craneOf_putCrane_other {c d : CraneId} (h : d ≠ c) (r : Crane) (p : Part) :
    craneOf (putCrane c r p) d = craneOf p d := by
  cases c <;> cases d <;> first | rfl | exact absurd rfl h

namespace Traffic

variable {mine : Set CraneId} {p q r : Part}

theorem of_sameLink (hfl : q.fl = p.fl) (hcranes : ∀ c, c ∉ mine → craneOf q c = craneOf p c) : Traffic mine p q :=
  ⟨by rw [hfl], by rw [hfl], fun c hc => .of_eq (hcranes c hc), fun base a _ _ h => by rwa [stopStands, stopWaits, hfl],
    fun h => ⟨by rwa [hfl], fun a ha => by rwa [stopWaits, hfl]⟩,
    fun _ h => h.congr (by rw [hfl]) (by rw [hfl]; exact fun _ h => h)⟩

theorem refl (p : Part) : Traffic mine p p := of_sameLink rfl fun _ _ => rfl

theorem trans (h : Traffic mine p q) (k : Traffic mine q r) : Traffic mine p r :=
  ⟨k.nodes.trans h.nodes, h.serial.trans k.serial, fun c hc => (h.cranes c hc).trans (k.cranes c hc),
    fun base a hnode hbase hstop => k.stops base a (by rwa [nodeOf_congr h.nodes]) (hbase.trans h.serial)
      (h.stops base a hnode hbase hstop),
    fun hline => ⟨(k.busy (h.busy hline).1).1, fun a ha => (k.busy (h.busy hline).1).2 a ((h.busy hline).2 a ha)⟩,
    fun a ha => k.lost a (h.lost a ha)⟩

theorem mono {mine' : Set CraneId} (h : Traffic mine p q) (hsub : mine ⊆ mine') : Traffic mine' p q :=
  ⟨h.nodes, h.serial, fun c hc => h.cranes c fun hmem => hc (hsub hmem), h.stops, h.busy, h.lost⟩

/-- What changes neither FL's record nor another crane's. -/
theorem then_same (h : Traffic mine o p) (hfl : q.fl = p.fl := by simp)
    (hcranes : ∀ c, c ∉ mine → craneOf q c = craneOf p c) : Traffic mine o q := h.trans (of_sameLink hfl hcranes)

end Traffic

theorem Traffic.then_putCrane {mine : Set CraneId} {o p : Part} (h : Traffic mine o p) {c : CraneId} (hc : c ∈ mine)
    (r : Crane) : Traffic mine o (putCrane c r p) :=
  h.then_same (by cases c <;> rfl) fun d hd => craneOf_putCrane_other (fun heq => hd (by rwa [heq])) _ _

/-! ### The directed queue -/

section queue

variable {mine : Set CraneId} {g : Store} {o p : Part}

theorem enqueue_eq (e : Entry) (p : Part) : ∃ l, (enqueue e p).2 = setDirected l p := by
  unfold enqueue
  split
  · exact ⟨p.fl.queue, rfl⟩
  · split
    · exact ⟨p.fl.queue, rfl⟩
    · split
      · exact ⟨_, rfl⟩
      · split
        · exact ⟨_, rfl⟩
        · exact ⟨p.fl.queue, rfl⟩

theorem stop_of_class {cmd : FieldCmd} (h : directedClass cmd = some .stop) : cmd = .stop := by
  cases cmd <;> first | rfl | cases h

theorem isStop_eq_true_iff {cmd : FieldCmd} : isStop cmd = true ↔ cmd = .stop := by
  cases cmd <;> simp [isStop, directedClass]

theorem stop_of_sameEntry {e d : Entry} (h : sameEntry e d = true) (hd : d.cmd = .stop) : e.addr = d.addr ∧ e.cmd = .stop := by
  rw [sameEntry, Bool.and_eq_true, beq_iff_eq, beq_iff_eq, hd] at h
  exact ⟨h.1.symm, stop_of_class h.2.symm⟩

/-- An offer leaves every STOP in the queue: it replaces one only by a STOP for the same node. -/
theorem stop_mem_enqueue {e : Entry} {addr : Nat} (h : ∃ d ∈ p.fl.queue, d.addr = addr ∧ d.cmd = .stop) :
    ∃ d ∈ (enqueue e p).2.fl.queue, d.addr = addr ∧ d.cmd = .stop := by
  obtain ⟨d, hd, rfl, hstop⟩ := h
  unfold enqueue
  split
  · exact ⟨d, hd, rfl, hstop⟩
  · split
    · exact ⟨d, hd, rfl, hstop⟩
    · split
      · refine ⟨if sameEntry e d then e else d, List.mem_map.mpr ⟨d, hd, rfl⟩, ?_⟩
        split
        · next hsame => exact stop_of_sameEntry hsame hstop
        · exact ⟨rfl, hstop⟩
      · split
        · exact ⟨d, List.mem_append_left _ hd, rfl, hstop⟩
        · exact ⟨d, hd, rfl, hstop⟩

/-- An offer for a LOST node is discarded. -/
theorem barred_enqueue {e : Entry} {addr : Nat} (h : barred addr p) : barred addr (enqueue e p).2 := by
  obtain ⟨⟨nd, hnode, hlost⟩, hnone⟩ := h
  have still (l : List Entry) (hl : ∀ d ∈ l, d.addr ≠ addr) : barred addr (setDirected l p) := ⟨⟨nd, hnode, hlost⟩, hl⟩
  by_cases he : e.addr = addr
  · rw [enqueue, he, hnode]
    dsimp only
    rw [if_pos hlost]
    exact ⟨⟨nd, hnode, hlost⟩, hnone⟩
  · unfold enqueue
    split
    · exact still _ hnone
    · split_ifs
      · exact still _ hnone
      · refine still _ fun d hd => ?_
        obtain ⟨x, hx, rfl⟩ := List.mem_map.mp hd
        split
        · exact he
        · exact hnone x hx
      · refine still _ fun d hd => ?_
        rcases List.mem_append.mp hd with hd | hd
        · exact hnone d hd
        · rw [List.mem_singleton.mp hd]
          exact he
      · exact still _ hnone

theorem Traffic.then_enqueue (h : Traffic mine o p) (e : Entry) : Traffic mine o (enqueue e p).2 := by
  obtain ⟨l, hl⟩ := enqueue_eq e p
  refine h.trans ⟨by rw [hl]; rfl, by rw [hl]; rfl, fun c _ => .of_eq (by rw [hl]; rfl), fun base a _ _ hstop => ?_,
    fun hline => ⟨by rwa [hl], fun _ => stop_mem_enqueue⟩, fun _ => barred_enqueue⟩
  rcases hstop with hqueue | hline
  · exact .inl (stop_mem_enqueue hqueue)
  · exact .inr (by rwa [hl])

/-- What FL's answer makes of a supervisor's record is that supervisor's own; a crane that asks for no refused command asks
for nothing. -/
theorem Traffic.then_reofferKept (h : Traffic mine o p) (c : CraneId) : Traffic mine o (reofferKept g c p) := by
  refine h.trans ?_
  unfold reofferKept
  split
  · next cmd addr hkept hnode =>
    have asked := (Traffic.refl (mine := {c}) p).then_enqueue ⟨addr, cmd, .cs c⟩
    have answered : Traffic {c} p (plainAnswered c cmd (enqueue ⟨addr, cmd, .cs c⟩ p).1 (enqueue ⟨addr, cmd, .cs c⟩ p).2) := by
      unfold plainAnswered
      split <;> exact asked.then_putCrane rfl _
    refine ⟨answered.nodes, answered.serial, fun d _ => ?_, answered.stops, answered.busy, answered.lost⟩
    by_cases hd : d = c
    · subst hd
      refine ⟨by cases d <;> simp [craneOf], fun hfree => ?_⟩
      simp [holdsRefused, hkept] at hfree
    · exact answered.cranes d (by simpa using hd)
  · exact .refl p

theorem Traffic.then_reofferStep (h : Traffic mine o p) (c : CraneId) : Traffic mine o (reofferStep g c p) := by
  refine h.trans ?_
  unfold reofferStep
  split
  · next cmd addr hwaiting hnode =>
    have asked := (Traffic.refl (mine := {c}) p).then_enqueue ⟨addr, cmd, .cs c⟩
    have answered : Traffic {c} p (commandAnswered g c cmd (enqueue ⟨addr, cmd, .cs c⟩ p).1 (enqueue ⟨addr, cmd, .cs c⟩ p).2) := by
      unfold commandAnswered
      split <;> exact asked.then_putCrane rfl _
    refine ⟨answered.nodes, answered.serial, fun d _ => ?_, answered.stops, answered.busy, answered.lost⟩
    by_cases hd : d = c
    · subst hd
      refine ⟨by cases d <;> simp [craneOf], fun hfree => ?_⟩
      simp [holdsRefused, hwaiting] at hfree
    · exact answered.cranes d (by simpa using hd)
  · exact .refl p

theorem Traffic.then_entryFreed (h : Traffic mine o p) : Traffic mine o (entryFreed g p) := by
  have both (q : Part) (c d : CraneId) (hq : Traffic mine o q) : Traffic mine o (reoffer g d (reoffer g c q)) :=
    (((hq.then_reofferKept c).then_reofferStep c).then_reofferKept d).then_reofferStep d
  have tied : Traffic mine o { p with fl := { p.fl with ties := p.fl.ties + 1 } } :=
    h.trans ⟨rfl, le_refl _, fun c _ => .of_eq (by cases c <;> rfl), fun _ _ _ _ h => h, fun h => ⟨h, fun _ h => h⟩, fun _ h => h⟩
  unfold entryFreed
  split
  · split
    · exact both _ _ _ tied
    · exact both _ _ _ tied
  · exact both _ _ _ h

/-! ### Exchanges -/

/-- The line after an exchange began: the present one, or, from a free line, the new one under the next number. -/
theorem Traffic.then_beginExchange (h : Traffic mine o p) (hfree : p.fl.line = none) (addr : Nat) (cls : ExchangeClass)
    (cmd : FieldCmd) (by_ : Option Requester) : Traffic mine o (beginExchange g addr cls cmd by_ p) := by
  refine h.trans ?_
  unfold beginExchange
  split
  · exact .refl p
  · refine ⟨rfl, Nat.le_succ _, fun c _ => .of_eq (by cases c <;> rfl), fun base a _ _ hstop => ?_,
      fun hbusy => absurd hbusy (by simp [hfree]), fun _ h => h⟩
    rcases hstop with hqueue | ⟨ex, hline, -⟩
    · exact .inl hqueue
    · rw [hfree] at hline
      cases hline

/-- An entry's exchange begins from a free line: it leaves the queue, with the entries of its node and class, for the line. -/
theorem Traffic.then_beginEntry (h : Traffic mine o p) (hfree : p.fl.line = none) (e : Entry) (cls : ExchangeClass) :
    Traffic mine o (beginEntry g e cls p) := by
  refine Traffic.then_entryFreed (h.trans ?_)
  unfold beginExchange
  split
  · next hnone =>
    refine ⟨rfl, le_refl _, fun c _ => .of_eq (by cases c <;> rfl), fun base a hnode _ hstop => ?_,
      fun hbusy => absurd hbusy (by simp [hfree]), fun _ h => h.congr rfl fun _ h => List.mem_of_mem_filter h⟩
    rcases hstop with ⟨d, hd, rfl, hstop⟩ | hline
    · refine .inl ⟨d, List.mem_filter.mpr ⟨hd, ?_⟩, rfl, hstop⟩
      rw [Bool.not_eq_true', ← Bool.not_eq_true]
      intro hsame
      have haddr := (stop_of_sameEntry hsame hstop).1
      have hfound : nodeOf p e.addr = none := hnone
      rw [← haddr, hfound] at hnode
      cases hnode
    · exact .inr hline
  · refine ⟨rfl, Nat.le_succ _, fun c _ => .of_eq (by cases c <;> rfl), fun base a _ hbase hstop => ?_,
      fun hbusy => absurd hbusy (by simp [hfree]), fun _ h => h.congr rfl fun _ h => List.mem_of_mem_filter h⟩
    rcases hstop with ⟨d, hd, rfl, hstop⟩ | ⟨ex, hline, -⟩
    · by_cases hsame : sameEntry e d = true
      · obtain ⟨haddr, hcmd⟩ := stop_of_sameEntry hsame hstop
        exact .inr ⟨_, rfl, haddr, hcmd, rfl, hbase⟩
      · exact .inl ⟨d, List.mem_filter.mpr ⟨hd, by simpa using hsame⟩, rfl, hstop⟩
    · rw [hfree] at hline
      cases hline

theorem Traffic.then_nextExchange (h : Traffic mine o p) : Traffic mine o (nextExchange g p) := by
  unfold nextExchange
  split
  · exact h
  · next hidle =>
    have hfree : p.fl.line = none := by
      rw [← Option.not_isSome_iff_eq_none]
      intro hsome
      exact hidle (by simp [hsome])
    split
    · next e _ =>
      have cleared : Traffic mine o { p with fl := { p.fl with repeatStop := none } } :=
        h.trans ⟨rfl, le_refl _, fun c _ => .of_eq (by cases c <;> rfl), fun _ _ _ _ h => h, fun h => ⟨h, fun _ h => h⟩, fun _ h => h⟩
      exact cleared.then_beginExchange hfree _ _ _ _
    · split
      · exact h.then_beginEntry hfree _ _
      · next hnostop =>
        split
        · refine h.trans ⟨rfl, le_refl _, fun c _ => .of_eq (by cases c <;> rfl), fun base a _ _ hstop => ?_,
          fun hbusy => absurd hbusy (by simp [hfree]), fun _ h => h⟩
          rcases hstop with ⟨d, hd, -, hstop⟩ | ⟨ex, hline, -⟩
          · exact absurd (isStop_eq_true_iff.mpr hstop) (by simpa using List.find?_eq_none.mp hnostop d hd)
          · rw [hfree] at hline
            cases hline
        · split
          · exact h.then_beginEntry hfree _ _
          · split
            · split
              · exact h.then_beginExchange hfree _ _ _ _
              · exact h
            · unfold beginRoundPoll
              split
              · next a _ _ =>
                have placed : Traffic mine o { p with fl := { p.fl with roundPos := a } } :=
                  h.trans ⟨rfl, le_refl _, fun c _ => .of_eq (by cases c <;> rfl), fun _ _ _ _ h => h, fun h => ⟨h, fun _ h => h⟩, fun _ h => h⟩
                exact placed.then_beginExchange hfree _ _ _ _
              · exact h

theorem Traffic.then_offer (h : Traffic mine o p) (e : Entry) : Traffic mine o (offer g e p).2 :=
  (h.then_enqueue e).then_nextExchange

/-! ### A supervisor's operations -/

theorem Traffic.then_offerStep (h : Traffic mine o p) {c : CraneId} (hc : c ∈ mine) (cmd : FieldCmd) :
    Traffic mine o (offerStep g c cmd p) := by
  unfold offerStep
  split
  · unfold commandAnswered
    split <;> exact (h.then_offer _).then_putCrane hc _
  · exact h

theorem Traffic.then_offerPlain (h : Traffic mine o p) {c : CraneId} (hc : c ∈ mine) (cmd : FieldCmd) :
    Traffic mine o (offerPlain g c cmd p) := by
  unfold offerPlain
  split
  · unfold plainAnswered
    split <;> exact (h.then_offer _).then_putCrane hc _
  · exact h

theorem Traffic.then_setPollTimer (h : Traffic mine o p) (c : CraneId) (t : Option Timer) :
    Traffic mine o (setPollTimer c t p) := by
  refine h.trans ⟨by cases c <;> rfl, by cases c <;> exact le_refl _, fun d _ => .of_eq (by cases c <;> cases d <;> rfl),
    fun _ _ _ _ hstop => ?_, fun hbusy => ⟨?_, fun _ hstop => ?_⟩, fun _ hbarred => ?_⟩
  · cases c <;> exact hstop
  · cases c <;> exact hbusy
  · cases c <;> exact hstop
  · cases c <;> exact hbarred

theorem Traffic.then_enterState (h : Traffic mine o p) {c : CraneId} (hc : c ∈ mine) (r : Crane) :
    Traffic mine o (enterState g c r p) := by
  unfold enterState
  dsimp only
  split
  · exact (h.then_putCrane hc r).then_setPollTimer _ _
  · split
    · refine Traffic.then_setPollTimer ((h.then_putCrane hc r).trans ?_) _ _
      exact ⟨rfl, le_refl _, fun d _ => .of_eq (by cases d <;> rfl), fun _ _ _ _ h => h, fun h => ⟨h, fun _ h => h⟩, fun _ h => h⟩
    · exact h.then_putCrane hc r

theorem Traffic.then_beginStep (h : Traffic mine o p) {c : CraneId} (hc : c ∈ mine) (step : Step) :
    Traffic mine o (beginStep g c step p) := (h.then_enterState hc _).then_offerStep hc _

theorem Traffic.then_takeMove (h : Traffic mine o p) {c : CraneId} (hc : c ∈ mine) (m : Move) :
    Traffic mine o (takeMove g c m p) := (h.then_putCrane hc _).then_beginStep hc _

theorem Traffic.then_withdraw (h : Traffic mine o p) (c : CraneId) : Traffic mine o (withdraw g c p) := by
  unfold withdraw
  split
  · exact h
  · next addr _ =>
    have marked : Traffic mine o { p with fl := { p.fl with
        queue := p.fl.queue.filter fun e => !(e.addr == addr && isMotionCommand e.cmd),
        line := p.fl.line.map (markWithdrawn addr), waiting := p.fl.waiting.map (markWithdrawn addr) } } := by
      have spared {d : Entry} (hd : d ∈ p.fl.queue) (hstop : d.cmd = .stop) :
          d ∈ p.fl.queue.filter fun e => !(e.addr == addr && isMotionCommand e.cmd) :=
        List.mem_filter.mpr ⟨hd, by simp [hstop, isMotionCommand, directedClass]⟩
      refine h.trans ⟨rfl, le_refl _, fun c _ => .of_eq (by cases c <;> rfl), fun base a _ _ hstop => ?_,
        fun hbusy => ⟨by rwa [Option.isSome_map], fun a ⟨d, hd, haddr, hstop⟩ => ⟨d, spared hd hstop, haddr, hstop⟩⟩,
        fun _ h => h.congr rfl fun _ h => List.mem_of_mem_filter h⟩
      rcases hstop with ⟨d, hd, haddr, hstop⟩ | ⟨ex, hline, haddr, hstop, hattempt, hid⟩
      · exact .inl ⟨d, spared hd hstop, haddr, hstop⟩
      · refine .inr ⟨markWithdrawn addr ex, by rw [hline]; rfl, ?_⟩
        unfold markWithdrawn
        split <;> exact ⟨haddr, hstop, hattempt, hid⟩
    dsimp only
    split
    · exact marked.then_entryFreed
    · exact marked

end queue

/-! ### The scan, told of the field traffic and of a crane that is not IDLE -/

section scan

variable {mine : Set CraneId} {g : Store} {o p : Part}

theorem isFree_of_firstLegal {m : Move} {cs : List CraneId} {c : CraneId} {d : Dest}
    (h : firstLegal g p m cs = some (c, d)) : isFree p c = true := by
  induction cs with
  | nil => cases h
  | cons b cs ih =>
    unfold firstLegal at h
    split at h
    · next hfree =>
      split at h
      · cases h; exact hfree
      · exact ih h
    · exact ih h

theorem isFree_state {c : CraneId} (h : isFree p c = true) : (craneOf p c).state = .idle := by
  rw [isFree, Bool.and_eq_true, beq_iff_eq] at h
  exact h.1

theorem Traffic.then_dispatch (h : Traffic mine o p) {c : CraneId} (hc : c ∈ mine) (m : Move) (d : Dest) :
    Traffic mine o (dispatch g c m d p) := by
  refine Traffic.then_takeMove (h.then_same ?_ fun b _ => craneOf_congr ?_ ?_ b) hc _ <;> simp

theorem Traffic.then_park (h : Traffic mine o p) {c : CraneId} (hc : c ∈ mine) : Traffic mine o (park g c p) := by
  refine Traffic.then_takeMove (h.then_same ?_ fun b _ => craneOf_congr ?_ ?_ b) hc _ <;> simp

theorem reservationOf_dispatch_other {c b : CraneId} (h : b ≠ c) (m : Move) (d : Dest) :
    reservationOf (dispatch g c m d p) b = reservationOf p b := by
  cases c <;> cases b <;> first | exact absurd rfl h | simp [dispatch, reservationOf, writeReservation, putMove]

/-- A crane that is not IDLE is dispatched no move and parked by none. -/
structure Spares (b : CraneId) (p q : Part) : Prop where
  traffic : Traffic {otherCrane b} p q
  reservation : reservationOf q b = reservationOf p b

theorem Spares.refl (b : CraneId) (p : Part) : Spares b p p := ⟨.refl p, rfl⟩

theorem Spares.trans {b : CraneId} {q r : Part} (h : Spares b p q) (k : Spares b q r) : Spares b p r :=
  ⟨h.traffic.trans k.traffic, k.reservation.trans h.reservation⟩

theorem ne_otherCrane (b : CraneId) : b ≠ otherCrane b := by cases b <;> decide

theorem eq_otherCrane_of_ne {b c : CraneId} (h : c ≠ b) : c = otherCrane b := by
  cases b <;> cases c <;> first | rfl | exact absurd rfl h

theorem Spares.leaves {b : CraneId} {q : Part} (h : Spares b p q) : Leaves b p q := h.traffic.cranes b (ne_otherCrane b)

theorem Leaves.state_eq {b : CraneId} {q : Part} (h : Leaves b p q) : (craneOf q b).state = (craneOf p b).state :=
  (congrArg (fun r : Crane => r.state) h.1 : (craneCore (craneOf q b)).state = (craneCore (craneOf p b)).state)

theorem spares_visit {b : CraneId} {w : Walk} (hb : (craneOf w.part b).state ≠ .idle) (n : Nat) :
    Spares b w.part (visit g w n).part := by
  unfold visit
  split
  · exact .refl b _
  · split
    · exact .refl b _
    · split
      · dsimp only
        split
        · next c d hlegal =>
          have hne : c ≠ b := by
            rintro rfl
            exact hb (isFree_state (isFree_of_firstLegal hlegal))
          exact ⟨(Traffic.refl w.part).then_dispatch (by rw [eq_otherCrane_of_ne hne]; rfl) _ _,
            reservationOf_dispatch_other hne.symm _ _⟩
        · exact .refl b _
      · exact .refl b _

theorem spares_walk {b : CraneId} (l : List Nat) {w : Walk} (hb : (craneOf w.part b).state ≠ .idle) :
    Spares b w.part (l.foldl (visit g) w).part := by
  induction l generalizing w with
  | nil => exact .refl b _
  | cons n l ih =>
    have first := spares_visit (g := g) hb n
    exact first.trans (ih (by rwa [first.leaves.state_eq]))

theorem giveWay_of_busy {b : CraneId} (hb : (craneOf p b).state ≠ .idle) (first : Option Nat) : giveWay g first p = p := by
  unfold giveWay
  split
  · rfl
  · split
    · rfl
    · split
      · next hidle =>
        simp only [Bool.and_eq_true, beq_iff_eq] at hidle
        obtain ⟨⟨⟨-, hA⟩, hB⟩, -⟩ := hidle
        cases b
        · exact absurd hA hb
        · exact absurd hB hb
      · rfl

/-- The scan with a crane that is not IDLE is its walk alone. -/
theorem scan_of_busy {b : CraneId} (hb : (craneOf p b).state ≠ .idle) :
    scan g p = ((p.mp.queue.map (·.number)).foldl (visit g) { part := p, dispatched := false, first := none }).part := by
  have walked := spares_walk (g := g) (p.mp.queue.map (·.number)) (w := { part := p, dispatched := false, first := none }) hb
  unfold scan
  dsimp only
  split
  · rfl
  · exact giveWay_of_busy (b := b) (by rwa [walked.leaves.state_eq]) _

theorem spares_scan {b : CraneId} (hb : (craneOf p b).state ≠ .idle) : Spares b p (scan g p) := by
  rw [scan_of_busy hb]
  exact spares_walk _ (w := { part := p, dispatched := false, first := none }) hb

theorem traffic_visit (w : Walk) (n : Nat) : Traffic Set.univ w.part (visit g w n).part := by
  unfold visit
  split
  · exact .refl _
  · split
    · exact .refl _
    · split
      · dsimp only
        split
        · exact (Traffic.refl w.part).then_dispatch (Set.mem_univ _) _ _
        · exact .refl _
      · exact .refl _

theorem Traffic.then_scan (h : Traffic Set.univ o p) : Traffic Set.univ o (scan g p) := by
  have walked (l : List Nat) : ∀ w : Walk, Traffic Set.univ w.part (l.foldl (visit g) w).part := by
    induction l with
    | nil => exact fun w => .refl _
    | cons n l ih => exact fun w => (traffic_visit w n).trans (ih _)
  refine h.trans ((walked (p.mp.queue.map (·.number)) { part := p, dispatched := false, first := none }).trans ?_)
  unfold scan
  dsimp only
  split
  · exact .refl _
  · unfold giveWay
    split
    · exact .refl _
    · split
      · exact .refl _
      · split
        · split
          · exact (Traffic.refl _).then_park (Set.mem_univ _)
          · exact .refl _
        · exact .refl _

/-! ### The moves that a scan leaves -/

theorem moveOf_putMove_other {m : Move} {n : Nat} (h : n ≠ m.number) : moveOf (putMove m p) n = moveOf p n := by
  simp only [moveOf, putMove]
  induction p.mp.queue with
  | nil => rfl
  | cons k l ih =>
    by_cases hk : k.number = m.number
    · simp [hk, h.symm, ih]
    · rw [List.map_cons, if_neg hk, List.find?_cons, List.find?_cons, ih]

theorem moveOf_putMove_same {m : Move} (h : (moveOf p m.number).isSome) : moveOf (putMove m p) m.number = some m := by
  rw [Option.isSome_iff_ne_none, ne_eq, moveOf_eq_none_iff] at h
  push Not at h
  obtain ⟨k, hk, hnumber⟩ := h
  simp only [moveOf, putMove]
  revert hk
  induction p.mp.queue with
  | nil => exact fun hk => nomatch hk
  | cons x l ih =>
    intro hk
    by_cases hx : x.number = m.number
    · simp [hx]
    · rcases List.mem_cons.mp hk with rfl | hk
      · exact absurd hnumber hx
      · simp [hx, ih hk]

theorem moveOf_dispatch_other {c : CraneId} {m : Move} {d : Dest} {n : Nat} (h : n ≠ m.number) :
    moveOf (dispatch g c m d p) n = moveOf p n := by
  have hqueue : (dispatch g c m d p).mp.queue =
      (putMove { m with dest := some d, crane := some c, state := .dispatched } p).mp.queue := by
    simp [dispatch, putMove]
  rw [moveOf, hqueue]
  exact moveOf_putMove_other h

theorem moveOf_visit {w : Walk} {k : Move} {n : Nat} (hk : moveOf w.part n = some k) (hstate : k.state ≠ .queued) (m : Nat) :
    moveOf (visit g w m).part n = some k := by
  unfold visit
  split
  · exact hk
  · split
    · exact hk
    · next x hx =>
      split
      · next hcandidate =>
        dsimp only
        split
        · rw [moveOf_dispatch_other]
          · exact hk
          · rintro rfl
            rw [number_of_moveOf hx] at hk
            obtain rfl := Option.some.inj (hk.symm.trans hx)
            simp only [candidate, Bool.and_eq_true, beq_iff_eq] at hcandidate
            exact hstate hcandidate.1.1.1
        · exact hk
      · exact hk

/-- With a crane that is not IDLE, a move that is not QUEUED stays as it is. -/
theorem moveOf_scan {b : CraneId} (hb : (craneOf p b).state ≠ .idle) {k : Move} {n : Nat} (hk : moveOf p n = some k)
    (hstate : k.state ≠ .queued) : moveOf (scan g p) n = some k := by
  rw [scan_of_busy hb]
  have walked (l : List Nat) : ∀ w : Walk, moveOf w.part n = some k → moveOf (l.foldl (visit g) w).part n = some k := by
    induction l with
    | nil => exact fun _ h => h
    | cons a l ih => exact fun w h => ih _ (moveOf_visit h hstate a)
  exact walked _ _ hk

end scan

/-! ### The end of an event, told of a crane -/

namespace endedFrom

variable {s t : State} {p : Part}

/-- An event that withdraws nothing leaves a crane that is not IDLE as it ended with it. -/
theorem spares (h : endedFrom s t p) (hplain : noWithdrawal p) {b : CraneId} (hb : (craneOf p b).state ≠ .idle) :
    Spares b p t.toPart := by
  obtain ⟨replies, rfl⟩ := h.of_noWithdrawal hplain
  have queued : Spares b p (withReplies replies p) := ⟨.of_sameLink rfl fun c _ => craneOf_congr rfl rfl c, by cases b <;> rfl⟩
  refine queued.trans (Spares.trans (q := scanIfDue s.store (withReplies replies p)) ?_
    ⟨.of_sameLink rfl fun c _ => craneOf_congr rfl rfl c, by cases b <;> rfl⟩)
  unfold scanIfDue
  split
  · exact spares_scan (by rwa [queued.leaves.state_eq])
  · exact .refl b _

/-- The field traffic of such an event is that of its scan. -/
theorem traffic (h : endedFrom s t p) (hplain : noWithdrawal p) : Traffic Set.univ p t.toPart := by
  obtain ⟨replies, rfl⟩ := h.of_noWithdrawal hplain
  have queued : Traffic Set.univ p (withReplies replies p) := .of_sameLink rfl fun c _ => craneOf_congr rfl rfl c
  refine Traffic.trans (q := scanIfDue s.store (withReplies replies p)) ?_ (.of_sameLink rfl fun c _ => craneOf_congr rfl rfl c)
  unfold scanIfDue
  split
  · exact queued.then_scan
  · exact queued

/-- A move that is not QUEUED outlives such an event, where a crane is not IDLE. -/
theorem moveOf_eq (h : endedFrom s t p) (hplain : noWithdrawal p) {b : CraneId} (hb : (craneOf p b).state ≠ .idle) {n : Nat}
    {k : Move} (hk : moveOf p n = some k) (hstate : k.state ≠ .queued) : moveOf t.toPart n = some k := by
  obtain ⟨replies, rfl⟩ := h.of_noWithdrawal hplain
  change moveOf (scanIfDue s.store (withReplies replies p)) n = some k
  unfold scanIfDue
  split
  · exact moveOf_scan (b := b) (by cases b <;> exact hb) hk hstate
  · exact hk

end endedFrom

/-! ### EXPEDITE -/

theorem perm_insertRank (m : Move) (l : List Move) : (insertRank m l).Perm (m :: l) := by
  induction l with
  | nil => exact .refl _
  | cons k l ih =>
    unfold insertRank
    split
    · exact .refl _
    · exact (ih.cons k).trans (.swap m k l)

theorem perm_inChainOrder (l : List Move) : (inChainOrder l).Perm l := by
  induction l with
  | nil => exact .refl _
  | cons m l ih => exact (perm_insertRank m _).trans (ih.cons m)

theorem sorted_insertRank (m : Move) {l : List Move} (h : l.Pairwise fun a b => a.rank ≤ b.rank) :
    (insertRank m l).Pairwise fun a b => a.rank ≤ b.rank := by
  induction l with
  | nil => exact List.pairwise_singleton _ _
  | cons k l ih =>
    rw [List.pairwise_cons] at h
    unfold insertRank
    split
    · next hle =>
      refine List.pairwise_cons.mpr ⟨fun x hx => ?_, List.pairwise_cons.mpr h⟩
      rcases List.mem_cons.mp hx with rfl | hx
      · exact hle
      · exact hle.trans (h.1 x hx)
    · next hgt =>
      refine List.pairwise_cons.mpr ⟨fun x hx => ?_, ih h.2⟩
      rcases List.mem_cons.mp ((perm_insertRank m l).mem_iff.mp hx) with rfl | hx
      · omega
      · exact h.1 x hx

theorem sorted_inChainOrder (l : List Move) : (inChainOrder l).Pairwise fun a b => a.rank ≤ b.rank := by
  induction l with
  | nil => exact .nil
  | cons m l ih => exact sorted_insertRank m ih

theorem expedite_of_moveOf {n : Nat} {g : Store} {p : Part} {m : Move} (h1 : 1 ≤ n) (h2 : n ≤ 255) (hm : moveOf p n = some m) :
    expedite n g p = need (m.crane.isNone && m.kind != .park) .state
      (.ok { part := triggerScan (setQueue (inChainOrder (p.mp.queue.filter (goesAlong m)) ++
              p.mp.queue.filter fun k => !goesAlong m k) p)
             fields := [.u8 (inChainOrder (p.mp.queue.filter (goesAlong m))).length] }) := by
  rw [expedite, forMove_of_inRange h1 h2, hm, must_some]

/-- Settles O40: chain order is a sorting of the moves brought, and one scan follows. -/
theorem expediteHead : Obligations.ExpediteHead := by
  intro s tag n hready
  refine ⟨fun hrange => refusedWith_byPart hready rfl (forMove_of_not_inRange hrange), fun h1 h2 habsent =>
    refusedWith_byPart hready rfl ?_, fun h1 h2 m hm => ?found⟩
  case found =>
    have hm' : moveOf (atOwner 0x28 tag s) n = some m := hm
    have hjudged := expedite_of_moveOf (g := s.store) h1 h2 hm'
    refine ⟨fun hbad => refusedWith_byPart hready rfl (hjudged.trans ?_), fun hfree hkind => ?_⟩
    · refine need_of_false ?_
      rcases hbad with hcrane | hpark
      · simp [Option.isNone_eq_false_iff.mpr hcrane]
      · simp [hpark]
    · refine ⟨inChainOrder (s.mp.queue.filter (goesAlong m)), perm_inChainOrder _, sorted_inChainOrder _, ?_⟩
      refine ⟨_, rfl, receive_scanDecision hready ?_ rfl⟩
      rw [byPart, hjudged, need_of_true (by simp [hfree, hkind])]
      rfl
  · have hnone : moveOf (atOwner 0x28 tag s) n = none := habsent
    rw [expedite, forMove_of_inRange h1 h2, hnone, must_none]

/-! ### CRANE OUT and CRANE IN -/

theorem craneOfByte_eq_some_iff {crane : Nat} {c : CraneId} :
    craneOfByte crane = some c ↔ (crane = 0x41 ∧ c = .A) ∨ (crane = 0x42 ∧ c = .B) := by
  unfold craneOfByte
  split
  · cases c <;> simp
  · cases c <;> simp
  · next hA hB =>
    constructor
    · intro h
      cases h
    · rintro (⟨rfl, -⟩ | ⟨rfl, -⟩)
      · exact absurd rfl hA
      · exact absurd rfl hB

theorem forCrane_of_unnamed {s : State} (hmode : s.mc.mode ≠ .setup) {crane : Nat} (kind tag : Nat)
    (hA : ¬ (crane = 0x41 ∧ s.store.craneA.isSome)) (hB : ¬ (crane = 0x42 ∧ s.store.craneB.isSome))
    (k : CraneId → Judgement Taken) : forCrane s.store crane (atOwner kind tag s) k = .error .range := by
  rw [forCrane, need_of_true (outsideSetup_atOwner hmode _ _)]
  cases hc : craneOfByte crane with
  | none => rfl
  | some c =>
    rw [must_some]
    refine need_of_false fun hcfg => ?_
    rcases craneOfByte_eq_some_iff.mp hc with ⟨hbyte, rfl⟩ | ⟨hbyte, rfl⟩
    · exact hA ⟨hbyte, hcfg⟩
    · exact hB ⟨hbyte, hcfg⟩

theorem forCrane_of_named {s : State} (hmode : s.mc.mode ≠ .setup) {crane : Nat} (kind tag : Nat) {c : CraneId}
    (hc : craneOfByte crane = some c) (hcfg : (craneCfg s.store c).isSome) (k : CraneId → Judgement Taken) :
    forCrane s.store crane (atOwner kind tag s) k = k c := by
  rw [forCrane, need_of_true (outsideSetup_atOwner hmode _ _), hc, must_some, need_of_true hcfg]

theorem askReservation_eq (g : Store) (c : CraneId) (basis : List Int) (p : Part) :
    askReservation g c basis p = if fits c (stretch g basis) p then some (setReservation c (stretch g basis) p) else none := rfl

theorem shrinks_eq_true_iff {old : Option Reservation} {r : Reservation} :
    shrinks old r = true ↔ ∃ o, old = some o ∧ o.lo ≤ r.lo ∧ r.hi ≤ o.hi ∧ (o.lo, o.hi) ≠ (r.lo, r.hi) := by
  cases old with
  | none => simp [shrinks]
  | some o =>
    simp only [shrinks, Bool.and_eq_true, Bool.or_eq_true, decide_eq_true_eq, Option.some.injEq, exists_eq_left', ne_eq,
      Prod.mk.injEq, not_and_or, and_assoc]
    rw [eq_comm (a := r.hi)]

theorem reservationOf_setReservation_same (c : CraneId) (r : Reservation) (p : Part) :
    reservationOf (setReservation c r p) c = some r := by
  unfold setReservation
  split <;> cases c <;> rfl

theorem reservationOf_setReservation_other {c d : CraneId} (h : d ≠ c) (r : Reservation) (p : Part) :
    reservationOf (setReservation c r p) d = reservationOf p d := by
  unfold setReservation
  split <;> cases c <;> cases d <;> first | rfl | exact absurd rfl h

theorem setReservation_evt (c : CraneId) (r : Reservation) (p : Part) :
    (setReservation c r p).evt = { p.evt with scan := p.evt.scan || shrinks (reservationOf p c) r } := by
  unfold setReservation
  split
  · next h => cases c <;> simp [writeReservation, triggerScan, h]
  · next h => cases c <;> simp [writeReservation, h]

theorem reservationOf_putCrane (c d : CraneId) (r : Crane) (p : Part) :
    reservationOf (putCrane c r p) d = reservationOf p d := by
  cases c <;> cases d <;> rfl

/-- The records once a crane is out of service, its reservation about its position. -/
def outOfService (c : CraneId) (tag : Nat) (s : State) : Part :=
  putCrane c { craneOf s.toPart c with state := .outOfService, reason := none }
    (setReservation c (stretch s.store [(craneOf s.toPart c).pos.getD 0]) (atOwner 0x2D tag s))

theorem craneOut_of_named {s : State} (hmode : s.mc.mode ≠ .setup) {crane : Nat} (tag : Nat) {c : CraneId}
    (hc : craneOfByte crane = some c) (hcfg : (craneCfg s.store c).isSome) :
    craneOut crane s.store (atOwner 0x2D tag s) =
      need ((craneOf s.toPart c).state == .idle || (craneOf s.toPart c).state == .stopped) .state
        (need (!((craneOf s.toPart c).state == .stopped &&
            ((craneOf s.toPart c).move.isSome || (craneOf s.toPart c).slackening))) .busy
          (if fits c (stretch s.store [(craneOf s.toPart c).pos.getD 0]) s.toPart then
            .ok { part := outOfService c tag s
                  fields := reservationFields (some (stretch s.store [(craneOf s.toPart c).pos.getD 0])) }
          else .error .clearance)) := by
  have hcrane : craneOf (atOwner 0x2D tag s) c = craneOf s.toPart c := by cases c <;> rfl
  have hfits (r : Reservation) : fits c r (atOwner 0x2D tag s) = fits c r s.toPart := by cases c <;> rfl
  have hkeeps (r : Reservation) : craneOf (setReservation c r (atOwner 0x2D tag s)) c = craneOf s.toPart c :=
    (craneOf_congr (by simp) (by simp) c).trans hcrane
  rw [craneOut, forCrane_of_named hmode _ _ hc hcfg]
  simp only [hcrane, askReservation_eq, hfits]
  split
  · simp only [must_some, hkeeps, reservationOf_setReservation_same]
    rfl
  · rfl

theorem craneIn_of_named {s : State} (hmode : s.mc.mode ≠ .setup) {crane : Nat} (tag : Nat) {c : CraneId}
    (hc : craneOfByte crane = some c) (hcfg : (craneCfg s.store c).isSome) :
    craneIn crane s.store (atOwner 0x2E tag s) = need ((craneOf s.toPart c).state == .outOfService) .state
      (.ok { part := triggerScan (putCrane c { craneOf s.toPart c with state := .idle } (atOwner 0x2E tag s))
             fields := reservationFields (reservationOf s.toPart c) }) := by
  rw [craneIn, forCrane_of_named hmode _ _ hc hcfg]
  cases c <;> rfl

/-- A crane that may go out of service passes the two checks of its state. -/
theorem judged_of_free {r : Crane} (h : r.state = .idle ∨ (r.state = .stopped ∧ r.move = none ∧ r.slackening = false))
    (k : Judgement Taken) :
    need (r.state == .idle || r.state == .stopped) .state
      (need (!(r.state == .stopped && (r.move.isSome || r.slackening))) .busy k) = k := by
  rcases h with hidle | ⟨hstopped, hmove, hslack⟩
  · rw [hidle]
    rfl
  · simp [hstopped, hmove, hslack]

/-- Settles O44: CRANE OUT shrinks the reservation or leaves it, CRANE IN always lets the scan run. -/
theorem craneOutAndIn : Obligations.CraneOutAndIn := by
  intro s tag crane hready hmode
  refine ⟨fun hA hB => ⟨refusedWith_byPart hready rfl (forCrane_of_unnamed hmode _ _ hA hB _),
    refusedWith_byPart hready rfl (forCrane_of_unnamed hmode _ _ hA hB _)⟩, fun c hc hcfg => ?_⟩
  intro r res same
  have hout := craneOut_of_named hmode tag hc hcfg
  have hin := craneIn_of_named hmode tag hc hcfg
  refine ⟨fun hidle hstopped => refusedWith_byPart hready rfl (hout.trans ?_),
    fun hstopped hheld => refusedWith_byPart hready rfl (hout.trans ?_),
    fun hfree => ⟨fun hfit => refusedWith_byPart hready rfl (hout.trans ?_), fun hfit => ?_⟩,
    fun hstate => refusedWith_byPart hready rfl (hin.trans ?_), fun hstate => ?_⟩
  · exact need_of_false (by simpa using ⟨hidle, hstopped⟩)
  · refine (need_of_true (by simp [show (craneOf s.toPart c).state = _ from hstopped])).trans (need_of_false ?_)
    rw [Bool.not_eq_true', Bool.not_eq_false, Bool.and_eq_true, Bool.or_eq_true, beq_iff_eq]
    exact ⟨hstopped, hheld⟩
  · rw [judged_of_free hfree, if_neg (by rw [show fits c _ s.toPart = false from hfit]; simp)]
  · rw [judged_of_free hfree, if_pos hfit] at hout
    have hkept : (outOfService c tag s).fl = s.fl ∧ (outOfService c tag s).mp.queue = s.mp.queue ∧ (outOfService c tag s).sm = s.sm ∧
        (outOfService c tag s).mc = s.mc ∧ (outOfService c tag s).cl = (atOwner 0x2D tag s).cl := by
      simp [outOfService, atOwner, takePlace]
    obtain ⟨kfl, kqueue, ksm, kmc, kcl⟩ := hkept
    have hrest : (outOfService c tag s).bs = s.bs ∧ (outOfService c tag s).cc = s.cc ∧ (outOfService c tag s).tu = s.tu := by
      simp [outOfService, atOwner, takePlace]
    obtain ⟨kbs, kcc, ktu⟩ := hrest
    have hown : craneOf (outOfService c tag s) c = { r with state := .outOfService, reason := none } :=
      craneOf_putCrane_same _ _ _
    have hother : craneOf (outOfService c tag s) (otherCrane c) = craneOf s.toPart (otherCrane c) :=
      (craneOf_putCrane_other (ne_otherCrane c).symm _ _).trans
        (craneOf_congr (by simp [atOwner, takePlace]) (by simp [atOwner, takePlace]) _)
    have hres : reservationOf (outOfService c tag s) c = some res :=
      (reservationOf_putCrane _ _ _ _).trans (reservationOf_setReservation_same _ _ _)
    have hresother : reservationOf (outOfService c tag s) (otherCrane c) = reservationOf s.toPart (otherCrane c) :=
      (reservationOf_putCrane _ _ _ _).trans ((reservationOf_setReservation_other (ne_otherCrane c).symm _ _).trans
        (by cases c <;> rfl))
    have hold : reservationOf (atOwner 0x2D tag s) c = reservationOf s.toPart c := by cases c <;> rfl
    have hevt : (outOfService c tag s).evt = { Changes.none with scan := shrinks (reservationOf s.toPart c) res } := by
      have : (outOfService c tag s).evt = (setReservation c res (atOwner 0x2D tag s)).evt := by cases c <;> rfl
      rw [this, setReservation_evt, hold]
      rfl
    have hplain : noWithdrawal (outOfService c tag s) := noWithdrawal_of_unchanged (by rw [hevt]; rfl)
    refine runsTo_mono (ended_byPart hready rfl hout (congrArg linkCore kcl)) fun t ⟨hended, hanswered⟩ => ?_
    obtain ⟨tmc, tbs, tcc, ttu, tpieces, ttimer, -⟩ := hended.keeps
    have hspares := hended.spares hplain (b := c) (by
      change (craneOf (outOfService c tag s) c).state ≠ .idle
      rw [hown]
      simp)
    refine ⟨⟨hended.store_eq, tmc.trans kmc, tbs.trans kbs, tcc.trans kcc,
      ttu.trans ktu, tpieces.trans (by rw [ksm]), ttimer.trans (by rw [ksm]), hended.pending_eq⟩,
      hanswered, hended.told hplain (ns := []) kcl (sameNotices_atOwner 0x2D tag s), ?_, hspares.reservation.trans hres,
      outOfService c tag s, ⟨fun hshrinks => ?_, fun hnot => ?_⟩, kmc, hown, hother, hres, hresother, kfl, kqueue, ksm⟩
    · exact hspares.leaves.1.trans (congrArg craneCore hown)
    · exact hended.scanned hplain (by rw [hevt]; exact shrinks_eq_true_iff.mpr hshrinks) kmc
    · refine hended.becomes hplain ?_
      rw [hevt]
      exact Bool.eq_false_iff.mpr fun h => hnot (shrinks_eq_true_iff.mp h)
  · exact need_of_false (by simpa using hstate)
  · have htaken := hin.trans (need_of_true (by simp [show (craneOf s.toPart c).state = _ from hstate]))
    have hdecision : byPart (craneIn crane) s.store (atOwner 0x2E tag s) =
        scanDecision 0x2E tag s (putCrane c { craneOf s.toPart c with state := .idle } s.toPart)
          (reservationFields (reservationOf s.toPart c)) := by
      rw [byPart, htaken]
      cases c <;> rfl
    obtain ⟨hsettles, hscanned, hanswered, htold⟩ := receive_scanDecision hready hdecision (by simp)
    obtain ⟨hstore, tmc, tbs, tcc, ttu, tpieces, ttimer, hpending, -⟩ := hsettles
    refine ⟨_, rfl, ⟨hstore, tmc.trans (by simp), tbs.trans (by simp), tcc.trans (by simp), ttu.trans (by simp),
      tpieces.trans (by simp), ttimer.trans (by simp), hpending⟩, hanswered, htold, _, hscanned, by simp,
      craneOf_putCrane_same _ _ _, craneOf_putCrane_other (ne_otherCrane c).symm _ _, by simp, by simp, by simp⟩

/-! ### Events that change nothing -/

theorem event_unchanged {s : State} (h : s.mc.power = true) {f : Part → Part}
    (hf : f { s.toPart with evt := .none } = { s.toPart with evt := .none }) :
    becomes s (event f s) s.store s.toPart ∧ noReply s (event f s) ∧ told s (event f s) [] := by
  have heq : event f s = { s with toPart := sendNext { s.toPart with evt := .none } } := by
    rw [event, if_pos h, hf, finish, endOfEvent_quiet rfl]
  refine ⟨heq ▸ becomes_sendNext s s.toPart, noReply_of_link (by rw [hf]), ?_⟩
  rw [heq]
  exact told_nothing rfl rfl rfl rfl rfl

/-! ### What an event tells beside withdrawn moves -/

/-- The first notice told of joins the queue, or begins to be sent, where there is a place for one. -/
theorem mem_unheard_of_told {s t : State} {n : Notice} {ns : List Notice} (h : told s t (n :: ns))
    (room : s.cl.notices.length < 24) : n ∈ unheard t.cl := by
  obtain ⟨places, hplaces⟩ : ∃ k, 24 - s.cl.notices.length = k + 1 := ⟨23 - s.cl.notices.length, by omega⟩
  rw [h.1, hplaces, List.take_succ_cons]
  exact List.mem_append_right _ List.mem_cons_self

/-! ### STOP (R145) -/

section stop

variable {g : Store} {c : CraneId} {p : Part}

/-- A STOP that reaches a node which is not LOST is never refused (R164). -/
theorem enqueue_stop {e : Entry} (he : e.cmd = .stop) : (enqueue e p).1 ≠ .refused := by
  unfold enqueue
  split
  · simp
  · split
    · simp
    · split
      · simp
      · rw [if_pos (by simp [he, isStop, directedClass])]
        simp

/-- A STOP offered to a node that is not LOST stands in the queue. -/
theorem stop_mem_enqueue_self {e : Entry} (he : e.cmd = .stop) {nd : Node} (hnode : nodeOf p e.addr = some nd)
    (hlost : nd.standing ≠ .lost) : ∃ d ∈ (enqueue e p).2.fl.queue, d.addr = e.addr ∧ d.cmd = .stop := by
  unfold enqueue
  rw [hnode]
  dsimp only
  rw [if_neg hlost]
  split
  · next hany =>
    obtain ⟨d, hd, hsame⟩ := List.any_eq_true.mp hany
    exact ⟨e, List.mem_map.mpr ⟨d, hd, by rw [if_pos hsame]⟩, rfl, he⟩
  · rw [if_pos (by simp [he, isStop, directedClass])]
    exact ⟨e, List.mem_append_right _ (List.mem_singleton.mpr rfl), rfl, he⟩

theorem stopStands_offer {e : Entry} (he : e.cmd = .stop) {nd : Node} (hnode : nodeOf p e.addr = some nd)
    (hlost : nd.standing ≠ .lost) : stopStands p.fl.serial e.addr (offer g e p).2 := by
  have asked := (Traffic.refl (mine := ∅) p).then_enqueue e
  refine ((Traffic.refl (enqueue e p).2).then_nextExchange (mine := ∅)).stops _ _ ?_ asked.serial
    (.inl (stop_mem_enqueue_self he hnode hlost))
  rw [nodeOf_congr asked.nodes, hnode]
  rfl

/-- The node of a crane, where FL has it not LOST. -/
def reachable (g : Store) (c : CraneId) (p : Part) (a : Nat) : Prop :=
  craneNode g c = some a ∧ ∃ nd, nodeOf p a = some nd ∧ nd.standing ≠ .lost

theorem stopStands_offerPlain {a : Nat} (h : reachable g c p a) : stopStands p.fl.serial a (offerPlain g c .stop p) := by
  obtain ⟨ha, nd, hnode, hlost⟩ := h
  have offered := stopStands_offer (g := g) (e := ⟨a, .stop, .cs c⟩) rfl hnode hlost
  have same (answer : Offer) (q : Part) : (plainAnswered c .stop answer q).fl = q.fl := by simp
  simp only [offerPlain, ha, stopStands, stopWaits, same] at offered ⊢
  exact offered

/-- A crane's record once a STOP is offered for it: no command is kept. -/
theorem craneOf_offerPlain_stop (hkept : holdsRefused p c = false) :
    craneOf (offerPlain g c .stop p) c = { craneOf p c with kept := none } := by
  have hnone : (craneOf p c).kept = none := by
    rw [holdsRefused, Bool.or_eq_false_iff] at hkept
    simpa using hkept.2
  unfold offerPlain
  split
  · next addr _ =>
    have traffic := (Traffic.refl (mine := ∅) p).then_offer (g := g) ⟨addr, .stop, .cs c⟩
    have hsame := (traffic.cranes c (Set.notMem_empty c)).2 hkept
    have hanswer : (offer g ⟨addr, .stop, .cs c⟩ p).1 ≠ .refused := enqueue_stop rfl
    unfold plainAnswered
    split
    · next hrefused => exact absurd hrefused hanswer
    · rw [craneOf_putCrane_same, hsame]
  · rw [← hnone]

/-- The part before STOP is offered: the supervisor's commands dropped and withdrawn. -/
def quieted (g : Store) (c : CraneId) (p : Part) : Part :=
  withdraw g c (putCrane c { craneOf p c with command := none, kept := none } p)

/-- A crane's record without the commands that it holds. -/
def commandless (r : Crane) : Crane := { r with command := none, kept := none }

theorem holdsRefused_of_commandless {r : Crane} (h : craneOf p c = commandless r) : holdsRefused p c = false := by
  simp [holdsRefused, waitingCommand, h, commandless]

theorem traffic_quieted : Traffic {c} p (quieted g c p) := ((Traffic.refl p).then_putCrane (Set.mem_singleton c) _).then_withdraw c

theorem craneOf_quieted : craneOf (quieted g c p) c = commandless (craneOf p c) := by
  have dropped : craneOf (putCrane c (commandless (craneOf p c)) p) c = commandless (craneOf p c) := craneOf_putCrane_same _ _ _
  have withdrawn := (Traffic.refl (mine := ∅) (putCrane c (commandless (craneOf p c)) p)).then_withdraw (g := g) c
  exact ((withdrawn.cranes c (Set.notMem_empty c)).2 (holdsRefused_of_commandless dropped)).trans dropped

/-- The part with STOP offered, or not. -/
def halted (g : Store) (c : CraneId) (sendStop : Bool) (p : Part) : Part :=
  if sendStop then offerPlain g c .stop (quieted g c p) else quieted g c p

theorem traffic_halted (sendStop : Bool) : Traffic {c} p (halted g c sendStop p) := by
  unfold halted
  split
  · exact traffic_quieted.then_offerPlain (Set.mem_singleton c) _
  · exact traffic_quieted

theorem craneOf_halted (sendStop : Bool) : craneOf (halted g c sendStop p) c = commandless (craneOf p c) := by
  unfold halted
  split
  · rw [craneOf_offerPlain_stop (holdsRefused_of_commandless craneOf_quieted), craneOf_quieted]
    rfl
  · exact craneOf_quieted

theorem stopStands_halted {a : Nat} (h : reachable g c p a) : stopStands p.fl.serial a (halted g c true p) := by
  obtain ⟨ha, nd, hnode, hlost⟩ := h
  have hquiet : reachable g c (quieted g c p) a := ⟨ha, nd, by rwa [nodeOf_congr traffic_quieted.nodes], hlost⟩
  rcases stopStands_offerPlain hquiet with hqueue | ⟨ex, hline, haddr, hcmd, hattempt, hid⟩
  · exact .inl hqueue
  · exact .inr ⟨ex, hline, haddr, hcmd, hattempt, traffic_quieted.serial.trans hid⟩

theorem craneOf_setPollTimer (c d : CraneId) (t : Option Timer) (p : Part) : craneOf (setPollTimer c t p) d = craneOf p d := by
  cases c <;> cases d <;> rfl

theorem craneOf_enterState_same (r : Crane) : craneOf (enterState g c r p) c = r := by
  unfold enterState
  dsimp only
  split
  · rw [craneOf_setPollTimer, craneOf_putCrane_same]
  · split
    · rw [craneOf_setPollTimer]
      cases c <;> rfl
    · exact craneOf_putCrane_same _ _ _

/-- The part with the crane STOPPED, before its move is suspended and the stop is told of. -/
def stopEntered (g : Store) (c : CraneId) (reason : StopReason) (sendStop : Bool) (p : Part) : Part :=
  enterState g c (stoppedRecord (craneOf (halted g c sendStop p) c) reason) (halted g c sendStop p)

/-- The part with its move suspended too. -/
def stopSuspended (g : Store) (c : CraneId) (reason : StopReason) (sendStop : Bool) (p : Part) : Part :=
  match (craneOf p c).move with
  | some n => suspendBound n (suspendReason reason) (stopEntered g c reason sendStop p)
  | none => stopEntered g c reason sendStop p

theorem craneOf_stopEntered (reason : StopReason) (sendStop : Bool) :
    craneOf (stopEntered g c reason sendStop p) c = stoppedRecord (commandless (craneOf p c)) reason := by
  rw [stopEntered, craneOf_enterState_same, craneOf_halted]

theorem stopCrane_eq (reason : StopReason) (sendStop : Bool) :
    stopCrane g c reason sendStop p = stopNotices c reason (stopSuspended g c reason sendStop p) := by
  have hmove : (craneOf (stopEntered g c reason sendStop p) c).move = (craneOf p c).move := by
    rw [craneOf_stopEntered]
    rfl
  rw [stopSuspended, ← hmove]
  rfl

theorem traffic_stopEntered (reason : StopReason) (sendStop : Bool) : Traffic {c} p (stopEntered g c reason sendStop p) :=
  (traffic_halted sendStop).then_enterState (Set.mem_singleton c) _

theorem craneOf_suspendBound (n : Nat) (reason : SuspendReason) (d : CraneId) : craneOf (suspendBound n reason p) d = craneOf p d :=
  craneOf_congr (by simp) (by simp) d

theorem craneOf_stopNotices (reason : StopReason) (d : CraneId) : craneOf (stopNotices c reason p) d = craneOf p d :=
  craneOf_congr (by simp) (by simp) d

theorem stopSuspended_keeps (reason : StopReason) (sendStop : Bool) :
    (stopSuspended g c reason sendStop p).fl = (stopEntered g c reason sendStop p).fl ∧
    (∀ d, craneOf (stopSuspended g c reason sendStop p) d = craneOf (stopEntered g c reason sendStop p) d) ∧
    (stopSuspended g c reason sendStop p).cl = p.cl := by
  unfold stopSuspended
  split
  · exact ⟨by simp, craneOf_suspendBound _ _, by simp [stopEntered, halted, quieted]; split <;> simp⟩
  · exact ⟨rfl, fun _ => rfl, by simp [stopEntered, halted, quieted]; split <;> simp⟩

theorem craneOf_stopCrane (reason : StopReason) (sendStop : Bool) :
    craneOf (stopCrane g c reason sendStop p) c = stoppedRecord (commandless (craneOf p c)) reason := by
  rw [stopCrane_eq, craneOf_stopNotices, (stopSuspended_keeps _ _).2.1, craneOf_stopEntered]

theorem Traffic.then_stopCrane {mine : Set CraneId} {o : Part} (h : Traffic mine o p) (hc : c ∈ mine) (reason : StopReason)
    (sendStop : Bool) : Traffic mine o (stopCrane g c reason sendStop p) := by
  obtain ⟨hfl, hcranes, -⟩ := stopSuspended_keeps (g := g) (c := c) (p := p) reason sendStop
  have entered := (traffic_stopEntered (g := g) (c := c) (p := p) reason sendStop).mono (Set.singleton_subset_iff.mpr hc)
  refine h.trans (entered.then_same ?_ fun d _ => ?_)
  · rw [stopCrane_eq]
    simp [hfl]
  · rw [stopCrane_eq, craneOf_stopNotices, hcranes]

theorem fl_stopCrane (reason : StopReason) (sendStop : Bool) :
    (stopCrane g c reason sendStop p).fl = (stopEntered g c reason sendStop p).fl := by
  obtain ⟨hfl, -, -⟩ := stopSuspended_keeps (g := g) (c := c) (p := p) reason sendStop
  rw [stopCrane_eq]
  simp [hfl]

theorem stopStands_stopCrane {a : Nat} (h : reachable g c p a) (reason : StopReason) :
    stopStands p.fl.serial a (stopCrane g c reason true p) := by
  have hstands := stopStands_halted h
  obtain ⟨-, nd, hnode, -⟩ := h
  have entered := ((Traffic.refl (mine := {c}) (halted g c true p)).then_enterState (g := g) (Set.mem_singleton c)
    (stoppedRecord (craneOf (halted g c true p) c) reason)).stops p.fl.serial a
      (by rw [nodeOf_congr (traffic_halted true).nodes, hnode]; rfl) (traffic_halted true).serial hstands
  unfold stopStands stopWaits at entered ⊢
  rw [fl_stopCrane]
  exact entered

/-- The queue once a crane is STOPPED: its move SUSPENDED with the crane. -/
theorem moveOf_stopCrane (reason : StopReason) (sendStop : Bool) {n : Nat} (hn : (craneOf p c).move = some n) {m : Move}
    (hm : moveOf p n = some m) : moveOf (stopCrane g c reason sendStop p) n =
      some { m with state := .suspended, reason := some (suspendReason reason) } := by
  have hentered : moveOf (stopEntered g c reason sendStop p) n = some m := by
    have hmp : (stopEntered g c reason sendStop p).mp = p.mp := by
      simp [stopEntered, halted, quieted]
      split <;> simp
    rw [moveOf, hmp]
    exact hm
  have hnumber := number_of_moveOf hm
  have hsuspended : stopSuspended g c reason sendStop p =
      triggerScan (putMove { m with state := .suspended, reason := some (suspendReason reason) } (stopEntered g c reason sendStop p)) := by
    simp only [stopSuspended, hn, suspendBound, hentered]
  have hmp : (stopCrane g c reason sendStop p).mp = (putMove { m with state := .suspended, reason := some (suspendReason reason) }
      (stopEntered g c reason sendStop p)).mp := by
    rw [stopCrane_eq, hsuspended]
    simp
  rw [moveOf, hmp, ← hnumber]
  exact moveOf_putMove_same (m := { m with state := .suspended, reason := some (suspendReason reason) })
    (by rw [show _ = m.number from rfl, hnumber, hentered]; rfl)

/-- What the event of a stop has changed: no condition; the scan is due where a move was suspended. -/
theorem evt_stopCrane (reason : StopReason) (sendStop : Bool) :
    (stopCrane g c reason sendStop p).evt.changed = p.evt.changed ∧
    ((∃ n, (craneOf p c).move = some n ∧ (moveOf p n).isSome) → (stopCrane g c reason sendStop p).evt.scan = true) ∧
    (¬ (∃ n, (craneOf p c).move = some n ∧ (moveOf p n).isSome) →
      (stopCrane g c reason sendStop p).evt.scan = p.evt.scan) := by
  have hentered : (stopEntered g c reason sendStop p).evt = p.evt ∧ (stopEntered g c reason sendStop p).mp = p.mp := by
    simp only [stopEntered, halted, quieted]
    split <;> simp
  obtain ⟨hevt, hmp⟩ := hentered
  have hfound (n : Nat) : moveOf (stopEntered g c reason sendStop p) n = moveOf p n := by rw [moveOf, hmp, moveOf]
  have hsame : (stopCrane g c reason sendStop p).evt = (stopSuspended g c reason sendStop p).evt := by
    rw [stopCrane_eq]
    simp
  rw [hsame, stopSuspended]
  split
  · next n hn =>
    rw [suspendBound, hfound]
    cases hm : moveOf p n with
    | none => simp [hevt, hm, hn]
    | some m => simp [triggerScan, hevt, hm, hn]
  · next hn => simp [hevt, hn]

/-- The notices of a stop (R145, step 4). -/
def stopTold (c : CraneId) (reason : StopReason) (p : Part) : List Notice :=
  .craneStopped c reason (craneOf p c).pos (craneOf p c).move (craneOf p c).load ::
    match moveHeld p c with
    | some m => match m.kind, m.piece with
      | .park, _ => []
      | _, some mark => [.moveSuspended m.number mark (suspendReason reason) none]
      | _, none => []
    | none => []

theorem stopNotices_cl (reason : StopReason) : (stopNotices c reason p).cl = (stopTold c reason p).foldl raiseLink p.cl := by
  cases hm : moveHeld p c with
  | none => simp [stopNotices, stopTold, hm, raise_cl]
  | some m =>
    rcases m with ⟨number, kind, _ | mark, _⟩ <;> cases kind <;> simp [stopNotices, stopTold, hm, raise_cl]

theorem stopCrane_cl (reason : StopReason) (sendStop : Bool) : ∃ ns, (stopCrane g c reason sendStop p).cl =
    (.craneStopped c reason (craneOf p c).pos (craneOf p c).move (craneOf p c).load :: ns).foldl raiseLink p.cl := by
  obtain ⟨-, hcranes, hcl⟩ := stopSuspended_keeps (g := g) (c := c) (p := p) reason sendStop
  have hown : craneOf (stopSuspended g c reason sendStop p) c = stoppedRecord (commandless (craneOf p c)) reason :=
    (hcranes c).trans (craneOf_stopEntered _ _)
  rw [stopCrane_eq, stopNotices_cl, hcl, stopTold, hown]
  exact ⟨_, rfl⟩

end stop

/-! ### The step timer -/

theorem stepTimeout_of_not {g : Store} {c : CraneId} {p : Part}
    (h : (craneOf p c).timer = none ∨ (craneOf p c).state = .unlocated ∨ (craneOf p c).state = .stopped) :
    stepTimeout g c p = p := by
  rcases h with htimer | hstate
  · simp only [stepTimeout, htimer]
  · have hcannot : canStop (craneOf p c).state = false := by
      rcases hstate with h | h <;> rw [h] <;> rfl
    unfold stepTimeout stopIfLocated
    split
    · rw [hcannot]
      rfl
    · rfl

theorem canStop_iff {state : CraneState} : canStop state = true ↔ state ≠ .unlocated ∧ state ≠ .stopped := by
  cases state <;> simp [canStop]

theorem stepTimeout_of_running {g : Store} {c : CraneId} {p : Part} (htimer : (craneOf p c).timer.isSome)
    (hlocated : (craneOf p c).state ≠ .unlocated) (hmoving : (craneOf p c).state ≠ .stopped) :
    stepTimeout g c p = stopCrane g c .timeout true p := by
  obtain ⟨timer, htimer⟩ := Option.isSome_iff_exists.mp htimer
  rw [stepTimeout, htimer]
  exact if_pos (canStop_iff.mpr ⟨hlocated, hmoving⟩)

/-- Settles O45: the stop of R145 with reason TIMEOUT, or nothing. -/
theorem stepTimerStops : Obligations.StepTimerStops := by
  intro s c hpower r
  have hexec : exec (.stepTimerExpiry c) s = .next (event (stepTimeout s.store c) s) := rfl
  have hcrane (d : CraneId) : craneOf { s.toPart with evt := .none } d = craneOf s.toPart d := by cases d <;> rfl
  refine ⟨fun hnot => ⟨_, hexec, event_unchanged hpower (stepTimeout_of_not (by rwa [hcrane]))⟩,
    fun htimer hlocated hmoving _ => ⟨_, hexec, ?_⟩⟩
  have hended := event_ended hpower (stepTimeout s.store c)
  have hstop : stepTimeout s.store c { s.toPart with evt := .none } = stopCrane s.store c .timeout true { s.toPart with evt := .none } :=
    stepTimeout_of_running (by rwa [hcrane]) (by rwa [hcrane]) (by rwa [hcrane])
  have hreply : noReply s (event (stepTimeout s.store c) s) := noReply_of_link (by rw [hstop]; simp)
  rw [hstop] at hended
  generalize event (stepTimeout s.store c) s = t at hended hreply ⊢
  obtain ⟨hchanged, hsuspends, hnone⟩ := evt_stopCrane (g := s.store) (c := c) (p := { s.toPart with evt := .none }) .timeout true
  have hplain : noWithdrawal (stopCrane s.store c .timeout true { s.toPart with evt := .none }) := noWithdrawal_of_unchanged hchanged
  have hown := craneOf_stopCrane (g := s.store) (c := c) (p := { s.toPart with evt := .none }) .timeout true
  rw [hcrane] at hown
  have hbusy : (craneOf (stopCrane s.store c .timeout true { s.toPart with evt := .none }) c).state ≠ .idle := by
    rw [hown]
    simp [stoppedRecord]
  have hafter : craneOf t.toPart c = stoppedRecord (commandless r) .timeout :=
    ((hended.spares hplain hbusy).leaves.2 (by simp [holdsRefused, waitingCommand, hown, stoppedRecord, commandless])).trans hown
  obtain ⟨ns, hcl⟩ := stopCrane_cl (g := s.store) (c := c) (p := { s.toPart with evt := .none }) .timeout true
  rw [hcrane] at hcl
  obtain ⟨tmc, tbs, tcc, ttu, tpieces, ttimer, -⟩ := hended.keeps
  obtain ⟨kmc, kbs, kcc, ktu, ksm, -⟩ := stopCrane_keeps s.store c .timeout true { s.toPart with evt := .none }
  have htraffic := (Traffic.refl (mine := {c}) { s.toPart with evt := .none }).then_stopCrane (g := s.store)
    (Set.mem_singleton c) .timeout true
  refine ⟨hended.store_eq, tmc.trans kmc, tbs.trans kbs, tcc.trans kcc, ttu.trans ktu, tpieces.trans (by rw [ksm]),
    ttimer.trans (by rw [ksm]), hended.pending_eq, hreply, fun a nd ha hnode hlost => ?_, ?_⟩
  · refine (hended.traffic hplain).stops _ _ ?_ htraffic.serial
      (stopStands_stopCrane (p := { s.toPart with evt := .none }) ⟨ha, nd, hnode, hlost⟩ .timeout)
    rw [nodeOf_congr htraffic.nodes]
    exact Option.isSome_iff_exists.mpr ⟨nd, hnode⟩
  · rw [hafter]
    refine ⟨rfl, rfl, rfl, rfl, rfl, rfl, rfl, rfl, fun room => ?_, fun n m hn hm => ?_, _,
      ⟨fun h => hended.scanned hplain (hsuspends ?_) kmc, fun h => hended.becomes hplain (hnone ?_)⟩, kmc, ?_⟩
    · exact mem_unheard_of_told (hended.told hplain hcl ⟨rfl, rfl, rfl, rfl⟩) room
    · have hmove := moveOf_stopCrane (g := s.store) (c := c) (p := { s.toPart with evt := .none }) .timeout true
        (by rwa [hcrane]) hm
      have hfound := hended.moveOf_eq hplain hbusy hmove (by simp)
      exact ⟨_, mem_of_moveOf hfound, number_of_moveOf hfound, rfl, rfl, rfl⟩
    · rwa [hcrane]
    · rwa [hcrane]
    · exact (htraffic.cranes _ (ne_otherCrane c).symm).1.trans (congrArg craneCore (hcrane _))

/-! ### What a dispatch leaves of a crane's record -/

/-- What a dispatch leaves as it stands of a crane: all but the state, the move with its dispatch position, and the command
with its timer. -/
def craneRest (r : Crane) : Crane :=
  { craneCore r with state := .idle, move := none, dispatchPos := none }

/-- A crane's record before and after a scan: of the state only that an IDLE crane may take up work. -/
structure Dispatched (r r' : Crane) : Prop where
  rest : craneRest r' = craneRest r
  state : r'.state = r.state ∨ (r.state = .idle ∧ (r'.state = .toSource ∨ r'.state = .parking))

theorem craneRest_of_core {r r' : Crane} (h : craneCore r' = craneCore r) : craneRest r' = craneRest r := by
  rw [craneRest, h, craneRest]

theorem Dispatched.of_core {r r' : Crane} (h : craneCore r' = craneCore r) : Dispatched r r' :=
  ⟨craneRest_of_core h, .inl (congrArg (fun x : Crane => x.state) h : (craneCore r').state = (craneCore r).state)⟩

theorem Dispatched.trans {r r' r'' : Crane} (h : Dispatched r r') (k : Dispatched r' r'') : Dispatched r r'' := by
  refine ⟨k.rest.trans h.rest, ?_⟩
  rcases h.state with heq | ⟨hidle, hwork⟩
  · rw [← heq]
    exact k.state
  · refine .inr ⟨hidle, ?_⟩
    rcases k.state with heq | ⟨hidle', -⟩
    · rwa [heq]
    · rcases hwork with h | h <;> rw [h] at hidle' <;> cases hidle'

theorem Dispatched.ne_stopped {r r' : Crane} (h : Dispatched r r') (hr : r.state ≠ .stopped) : r'.state ≠ .stopped := by
  rcases h.state with heq | ⟨-, hwork | hwork⟩
  · rwa [heq]
  · simp [hwork]
  · simp [hwork]

section scan

variable {g : Store} {c : CraneId} {p : Part}

/-- A crane's record, the command apart, when a step begins. -/
theorem craneCore_beginStep (step : Step) :
    craneCore (craneOf (beginStep g c step p) c) = craneCore { craneOf p c with state := stateOf step } := by
  have entered := craneOf_enterState_same (g := g) (c := c) (p := p)
    { craneOf p c with state := stateOf step, command := none, timer := none, kept := keptBeyond step (craneOf p c).kept }
  have offered (q : Part) (cmd : FieldCmd) : craneCore (craneOf (offerStep g c cmd q) c) = craneCore (craneOf q c) := by
    cases c <;> simp [craneOf]
  rw [beginStep, offered, entered]
  rfl

theorem dispatched_takeMove (m : Move) (hidle : (craneOf p c).state = .idle) (d : CraneId) :
    Dispatched (craneOf p d) (craneOf (takeMove g c m p) d) := by
  by_cases hd : d = c
  · subst hd
    have core := craneCore_beginStep (g := g) (c := d)
      (p := putCrane d { craneOf p d with move := some m.number, dispatchPos := (craneOf p d).pos } p)
      (if m.kind = .park then .parking else .toSource)
    rw [craneOf_putCrane_same] at core
    refine ⟨?_, .inr ⟨hidle, ?_⟩⟩
    · rw [craneRest, takeMove, core]
      rfl
    · have hstate : (craneOf (takeMove g d m p) d).state = stateOf (if m.kind = .park then .parking else .toSource) :=
        (congrArg (fun x : Crane => x.state) core : (craneCore (craneOf (takeMove g d m p) d)).state = _)
      rw [hstate]
      split
      · exact .inr rfl
      · exact .inl rfl
  · exact .of_core (((Traffic.refl (mine := {c}) p).then_takeMove (Set.mem_singleton c) m).cranes d (by simpa using hd)).1

theorem dispatched_takeMove_of {q : Part} (hq : ∀ b, craneOf q b = craneOf p b) (m : Move)
    (hidle : (craneOf p c).state = .idle) (d : CraneId) : Dispatched (craneOf p d) (craneOf (takeMove g c m q) d) := by
  rw [← hq d]
  exact dispatched_takeMove m (by rw [hq]; exact hidle) d

theorem dispatched_dispatch (m : Move) (x : Dest) (hidle : (craneOf p c).state = .idle) (d : CraneId) :
    Dispatched (craneOf p d) (craneOf (dispatch g c m x p) d) :=
  dispatched_takeMove_of (fun b => craneOf_congr (by simp) (by simp) b) _ hidle d

theorem dispatched_park (hidle : (craneOf p c).state = .idle) (d : CraneId) :
    Dispatched (craneOf p d) (craneOf (park g c p) d) :=
  dispatched_takeMove_of (fun b => craneOf_congr (by simp) (by simp) b) _ hidle d

theorem dispatched_visit (w : Walk) (n : Nat) (d : CraneId) :
    Dispatched (craneOf w.part d) (craneOf (visit g w n).part d) := by
  unfold visit
  split
  · exact .of_core rfl
  · split
    · exact .of_core rfl
    · split
      · dsimp only
        split
        · next hlegal => exact dispatched_dispatch _ _ (isFree_state (isFree_of_firstLegal hlegal)) d
        · exact .of_core rfl
      · exact .of_core rfl

/-- A scan gives a crane that is IDLE a move at most, and changes no other record. -/
theorem dispatched_scan (d : CraneId) : Dispatched (craneOf p d) (craneOf (scan g p) d) := by
  have walked (l : List Nat) : ∀ w : Walk, Dispatched (craneOf w.part d) (craneOf (l.foldl (visit g) w).part d) := by
    induction l with
    | nil => exact fun w => .of_core rfl
    | cons n l ih => exact fun w => (dispatched_visit w n d).trans (ih _)
  refine (walked (p.mp.queue.map (·.number)) { part := p, dispatched := false, first := none }).trans ?_
  unfold scan
  dsimp only
  split
  · exact .of_core rfl
  · unfold giveWay
    split
    · exact .of_core rfl
    · split
      · exact .of_core rfl
      · split
        · next hidle =>
          split
          · next o _ =>
            simp only [Bool.and_eq_true, beq_iff_eq] at hidle
            obtain ⟨⟨⟨-, hA⟩, hB⟩, -⟩ := hidle
            exact dispatched_park (by cases o <;> assumption) d
          · exact .of_core rfl
        · exact .of_core rfl

end scan

theorem endedFrom.dispatched {s t : State} {p : Part} (h : endedFrom s t p) (hplain : noWithdrawal p) (d : CraneId) :
    Dispatched (craneOf p d) (craneOf t.toPart d) := by
  obtain ⟨replies, rfl⟩ := h.of_noWithdrawal hplain
  have hreplied : craneOf (withReplies replies p) d = craneOf p d := by cases d <;> rfl
  have hafter : Dispatched (craneOf p d) (craneOf (scanIfDue s.store (withReplies replies p)) d) := by
    unfold scanIfDue
    split
    · rw [← hreplied]
      exact dispatched_scan d
    · exact .of_core (congrArg craneCore hreplied)
  cases d <;> exact hafter

/-! ### RESUME CRANE -/

/-- The reservation that a resumption asks for: about the crane, and what is left of its step (R152). -/
def resumeReach (s : State) (c : CraneId) : Reservation :=
  stretch s.store ((craneOf s.toPart c).pos.getD 0 :: remainingPoints s.store s.toPart c (resumedMove s.toPart c))

/-- The records with that reservation set. -/
def reachSet (tag : Nat) (c : CraneId) (s : State) : Part := setReservation c (resumeReach s c) (atOwner 0x2C tag s)

theorem resumeCrane_of_named {s : State} (hmode : s.mc.mode ≠ .setup) {crane : Nat} (tag : Nat) {c : CraneId}
    (hc : craneOfByte crane = some c) (hcfg : (craneCfg s.store c).isSome) :
    resumeCrane crane s.store (atOwner 0x2C tag s) =
      need ((craneOf s.toPart c).state == .stopped) .state
        (need (craneOf s.toPart c).fresh .busy
          (need (!(craneNode s.store c).any (nodeLost s.toPart)) .busy
            (need ((craneOf s.toPart c).driveFault != some true) .busy
              (need (s.mc.mode == .run || (resumedMove s.toPart c).isNone) .mode
                (if fits c (resumeReach s c) s.toPart then
                  .ok { part := goOn s.store c (resumedMove s.toPart c) (reachSet tag c s)
                        fields := reservationFields (some (resumeReach s c)) }
                else .error .clearance))))) := by
  have hask : askReservation s.store c ((craneOf s.toPart c).pos.getD 0 ::
      remainingPoints s.store s.toPart c (resumedMove s.toPart c)) (atOwner 0x2C tag s) =
        if fits c (resumeReach s c) s.toPart then some (reachSet tag c s) else none := by cases c <;> rfl
  have hfields : reservationOf (reachSet tag c s) c = some (resumeReach s c) := reservationOf_setReservation_same _ _ _
  have hjudged (back : Bool) (hback : back = !(craneNode s.store c).any (nodeLost s.toPart)) :
      resumeCrane crane s.store (atOwner 0x2C tag s) =
      need ((craneOf s.toPart c).state == .stopped) .state
        (need (craneOf s.toPart c).fresh .busy
          (need back .busy
            (need ((craneOf s.toPart c).driveFault != some true) .busy
              (need (s.mc.mode == .run || (resumedMove s.toPart c).isNone) .mode
                (must (askReservation s.store c ((craneOf s.toPart c).pos.getD 0 ::
                    remainingPoints s.store s.toPart c (resumedMove s.toPart c)) (atOwner 0x2C tag s)) .clearance fun q =>
                  .ok { part := goOn s.store c (resumedMove s.toPart c) q
                        fields := reservationFields (reservationOf q c) }))))) := by
    rw [resumeCrane, forCrane_of_named hmode _ _ hc hcfg, hback]
    cases hnode : craneNode s.store c <;> cases c <;> rfl
  rw [hjudged _ rfl, hask]
  by_cases hfit : fits c (resumeReach s c) s.toPart = true
  · rw [if_pos hfit, must_some, hfields, if_pos hfit]
  · rw [if_neg hfit, must_none, if_neg hfit]

section goOn

variable {g : Store} {c : CraneId} {q : Part}

/-- The record of a crane that goes on: the stop ended, whatever it goes on with. -/
theorem goOn_of_step {k : Move} {step : Step} (hstep : (craneOf q c).stoppedStep = some step) :
    goOn g c (some k) q = moveResumed k (beginStep g c step (putCrane c (unstopped (craneOf q c)) q)) := by
  simp only [goOn, hstep]

theorem goOn_of_slackening {m : Option Move} (h : m = none ∨ (craneOf q c).stoppedStep = none)
    (hslack : (craneOf q c).slackening = true) :
    goOn g c m q = beginStep g c .lower (putCrane c (unstopped (craneOf q c)) q) := by
  rcases h with rfl | hstep
  · simp only [goOn, hslack, if_true]
  · cases m <;> simp only [goOn, hslack, hstep, if_true]

/-- The records of a crane that becomes IDLE, its lapsed SHIP move withdrawn. -/
def resumedIdle (g : Store) (c : CraneId) (q : Part) : Part :=
  triggerScan (putCrane c { unstopped (craneOf q c) with state := .idle, move := none, dispatchPos := none }
    (withdrawLapsed g c q))

theorem goOn_of_idle {m : Option Move} (h : m = none ∨ (craneOf q c).stoppedStep = none)
    (hslack : (craneOf q c).slackening = false) (hstopped : (craneOf q c).state = .stopped) :
    goOn g c m q = resumedIdle g c q := by
  have hcrane : craneOf (withdrawLapsed g c q) c = craneOf q c := craneOf_congr (by simp) (by simp) c
  have hidle : goOn g c m q = triggerScan (enterState g c { unstopped (craneOf (withdrawLapsed g c q) c) with
      state := .idle, move := none, dispatchPos := none } (withdrawLapsed g c q)) := by
    rcases h with rfl | hstep
    · simp only [goOn, hslack, Bool.false_eq_true, if_false]
    · cases m <;> simp only [goOn, hslack, hstep, Bool.false_eq_true, if_false]
  rw [hidle, resumedIdle, hcrane, enterState, hcrane, hstopped]
  rfl

theorem craneCore_begun (step : Step) :
    craneCore (craneOf (beginStep g c step (putCrane c (unstopped (craneOf q c)) q)) c) =
      craneCore { unstopped (craneOf q c) with state := stateOf step } := by
  rw [craneCore_beginStep, craneOf_putCrane_same]

theorem craneOf_resumedIdle :
    craneOf (resumedIdle g c q) c = { unstopped (craneOf q c) with state := .idle, move := none, dispatchPos := none } := by
  have : craneOf (resumedIdle g c q) c = craneOf (putCrane c { unstopped (craneOf q c) with state := .idle, move := none, dispatchPos := none }
      (withdrawLapsed g c q)) c := by cases c <;> rfl
  rw [this, craneOf_putCrane_same]

/-- What the crane holds once it goes on: not STOPPED, no reason, its load and position as they were. -/
def goesOn (r r' : Crane) : Prop := r'.state ≠ .stopped ∧ r'.reason = none ∧ r'.load = r.load ∧ r'.pos = r.pos

/-- A field of a crane's record that no command and no timer is. -/
theorem field_of_core {α : Type} {r r' : Crane} (h : craneCore r' = craneCore r) (f : Crane → α)
    (hf : ∀ x, f (craneCore x) = f x := by intro x; rfl) : f r' = f r := by
  rw [← hf r', h, hf]

theorem goesOn_of_step {r r' : Crane} {step : Step} (h : craneCore r' = craneCore { unstopped r with state := stateOf step }) :
    goesOn r r' := by
  refine ⟨?_, field_of_core h (·.reason), field_of_core h (·.load), field_of_core h (·.pos)⟩
  rw [field_of_core h (·.state)]
  cases step <;> simp [stateOf]

theorem craneOf_moveResumed (k : Move) (p : Part) (d : CraneId) : craneOf (moveResumed k p) d = craneOf p d := by
  cases d <;> rfl

theorem craneOf_goOn {m : Option Move} (hstopped : (craneOf q c).state = .stopped) :
    goesOn (craneOf q c) (craneOf (goOn g c m q) c) := by
  by_cases hgo : m = none ∨ (craneOf q c).stoppedStep = none
  · cases hslack : (craneOf q c).slackening with
    | true =>
      rw [goOn_of_slackening hgo hslack]
      exact goesOn_of_step (craneCore_begun _)
    | false =>
      rw [goOn_of_idle hgo hslack hstopped, craneOf_resumedIdle]
      exact ⟨by simp, rfl, rfl, rfl⟩
  · push Not at hgo
    obtain ⟨k, rfl⟩ := Option.ne_none_iff_exists'.mp hgo.1
    obtain ⟨step, hstep⟩ := Option.ne_none_iff_exists'.mp hgo.2
    rw [goOn_of_step hstep, craneOf_moveResumed]
    exact goesOn_of_step (craneCore_begun _)

/-! ### A SHIP move that lapsed with the stop -/

theorem moveHeld_eq_some_iff {k : Move} : moveHeld q c = some k ↔ ∃ n, (craneOf q c).move = some n ∧ moveOf q n = some k := by
  unfold moveHeld
  cases (craneOf q c).move <;> simp

/-- The queue and the slots once a lapsed SHIP move is withdrawn. -/
theorem withdrawLapsed_of_held {k : Move} {mark : Nat} (hk : moveHeld q c = some k) (hmark : k.piece = some mark)
    (hkind : k.kind = .ship) :
    moveOf (withdrawLapsed g c q) k.number = some { k with state := .suspended, reason := some .held, crane := none } ∧
    (withdrawLapsed g c q).cl = [.moveSuspended k.number mark .held none].foldl raiseLink q.cl ∧
    (∀ n, slotOf (withdrawLapsed g c q) n = freeOf k.number (slotOf q n)) ∧
    (withdrawLapsed g c q).evt.changed = q.evt.changed ∧
    (∀ d, reservationOf (withdrawLapsed g c q) d = if d = c then
      (reservationOf q c).map (restWithin g ((craneOf q c).pos.getD 0)) else reservationOf q d) := by
  obtain ⟨n, hn, hmove⟩ := moveHeld_eq_some_iff.mp hk
  obtain rfl := number_of_moveOf hmove
  have hwithdrawn : withdrawLapsed g c q = raise (.moveSuspended k.number mark .held none)
      (comeToRest g c ((craneOf q c).pos.getD 0) (release k.number
        (putMove { k with state := .suspended, reason := some .held, crane := none } q))) := by
    simp only [withdrawLapsed, hk, hmark, suspendUnbound, hmove, hkind]
    rfl
  rw [hwithdrawn]
  refine ⟨?_, ?_, fun m => ?_, ?_, fun d => ?_⟩
  · have hqueue : (raise (.moveSuspended k.number mark .held none)
        (comeToRest g c ((craneOf q c).pos.getD 0) (release k.number
          (putMove { k with state := .suspended, reason := some .held, crane := none } q)))).mp.queue =
        (putMove { k with state := .suspended, reason := some .held, crane := none } q).mp.queue := by simp
    rw [moveOf, hqueue]
    exact moveOf_putMove_same (m := { k with state := .suspended, reason := some .held, crane := none })
      (by rw [show _ = k.number from rfl, hmove]; rfl)
  · rw [raise_cl]
    simp [putMove]
  · have hslot := slotOf_release k.number (putMove { k with state := .suspended, reason := some .held, crane := none } q) m
    refine Eq.trans ?_ hslot
    simp [slotOf]
  · have hchanged := (release_evt k.number (putMove { k with state := .suspended, reason := some .held, crane := none } q)).1
    refine Eq.trans ?_ hchanged
    simp [comeToRest, triggerScan]
  · have hheld (d : CraneId) : reservationOf (release k.number
        (putMove { k with state := .suspended, reason := some .held, crane := none } q)) d = reservationOf q d := by
      cases d <;> simp [reservationOf, putMove]
    have hrest (d : CraneId) (x : Part) (n : Notice) : reservationOf (raise n x) d = reservationOf x d := by
      cases d <;> simp [reservationOf]
    rw [hrest, comeToRest, ← hheld c, ← hheld d]
    by_cases hd : d = c
    · subst hd
      cases d <;> rfl
    · rw [if_neg hd]
      cases d <;> cases c <;> first | rfl | exact absurd rfl hd

/-- No condition of a piece changes with a resumption. -/
theorem changed_goOn (m : Option Move) : (goOn g c m q).evt.changed = q.evt.changed := by
  have lapsed : (withdrawLapsed g c q).evt.changed = q.evt.changed := by
    unfold withdrawLapsed
    split
    · split
      · unfold suspendUnbound
        split
        · simp [comeToRest, triggerScan, (release_evt _ _).1, putMove]
        · simp
      · rfl
    · rfl
  unfold goOn
  dsimp only
  split
  · simp [moveResumed, putMove]
  · split
    · simp
    · simp [triggerScan, lapsed]

/-- A crane at rest within the reservation about its position keeps it. -/
theorem restWithin_stretch (g : Store) (x : Int) : restWithin g x (stretch g [x]) = stretch g [x] := by
  simp [restWithin, stretch]

theorem kind_of_lapsed {k : Move} (h : lapsedShip q c k = true) : k.kind = .ship ∧ k.piece.isSome := by
  simp only [lapsedShip, Bool.and_eq_true, beq_iff_eq] at h
  obtain ⟨⟨-, hkind⟩, hpiece⟩ := h
  refine ⟨hkind, ?_⟩
  split at hpiece
  · next hmark => rw [hmark]; rfl
  · cases hpiece

end goOn

section reachSet

variable {s : State} {tag : Nat} {c : CraneId}

theorem craneOf_reachSet (d : CraneId) : craneOf (reachSet tag c s) d = craneOf s.toPart d := by
  rw [reachSet, craneOf_congr (p := atOwner 0x2C tag s) (by simp) (by simp) d]
  cases d <;> rfl

theorem reachSet_keeps : (reachSet tag c s).mc = s.mc ∧ (reachSet tag c s).bs = s.bs ∧ (reachSet tag c s).cc = s.cc ∧
    (reachSet tag c s).tu = s.tu ∧ (reachSet tag c s).sm = s.sm ∧ (reachSet tag c s).fl = s.fl ∧
    (reachSet tag c s).mp.queue = s.mp.queue ∧ (reachSet tag c s).cl = (atOwner 0x2C tag s).cl := by
  simp [reachSet, atOwner, takePlace]

theorem moveOf_reachSet (n : Nat) : moveOf (reachSet tag c s) n = moveOf s.toPart n := by
  rw [moveOf, reachSet_keeps.2.2.2.2.2.2.1, moveOf]

theorem moveHeld_reachSet : moveHeld (reachSet tag c s) c = moveHeld s.toPart c := by
  rw [moveHeld, craneOf_reachSet, moveHeld]
  simp only [moveOf_reachSet]

theorem reservationOf_reachSet : reservationOf (reachSet tag c s) c = some (resumeReach s c) :=
  reservationOf_setReservation_same _ _ _

theorem reservationOf_reachSet_other : reservationOf (reachSet tag c s) (otherCrane c) = reservationOf s.toPart (otherCrane c) := by
  rw [reachSet, reservationOf_setReservation_other (ne_otherCrane c).symm]
  cases c <;> rfl

theorem changed_reachSet : (reachSet tag c s).evt.changed = [] := by rw [reachSet, setReservation_evt]; rfl

theorem resumedMove_eq_some {k : Move} (h : resumedMove s.toPart c = some k) : moveHeld s.toPart c = some k := by
  unfold resumedMove at h
  split at h
  · next m hm =>
    split at h
    · cases h
    · rw [hm, h]
  · cases h

theorem lapsed_of_resumedMove {k : Move} (h : resumedMove s.toPart c = none) (hk : moveHeld s.toPart c = some k) :
    lapsedShip s.toPart c k = true := by
  simp only [resumedMove, hk] at h
  split at h
  · assumption
  · cases h

/-- With no move to go on with, the reservation asked for is the one about the crane. -/
theorem resumeReach_of_none (h : resumedMove s.toPart c = none) :
    resumeReach s c = stretch s.store [(craneOf s.toPart c).pos.getD 0] := by
  simp [resumeReach, h, remainingPoints]

end reachSet

/-- The end of a resumption of each of the three kinds (R152). -/
theorem resumed_ends {s t : State} {tag : Nat} {c : CraneId} (hstopped : (craneOf s.toPart c).state = .stopped)
    (hended : endedFrom s t (goOn s.store c (resumedMove s.toPart c) (reachSet tag c s))) :
    (∀ k step, resumedMove s.toPart c = some k → (craneOf s.toPart c).stoppedStep = some step →
      (craneOf t.toPart c).state = stateOf step ∧ (craneOf t.toPart c).move = (craneOf s.toPart c).move ∧
      reservationOf t.toPart c = some (resumeReach s c) ∧ told s t [] ∧
      moveOf t.toPart k.number = some { k with state := .dispatched, reason := none }) ∧
    (resumedMove s.toPart c = none → (craneOf s.toPart c).slackening = true → (craneOf t.toPart c).state = .lower ∧
      reservationOf t.toPart c = some (resumeReach s c) ∧ told s t []) := by
  have hplain : noWithdrawal (goOn s.store c (resumedMove s.toPart c) (reachSet tag c s)) :=
    noWithdrawal_of_unchanged ((changed_goOn _).trans changed_reachSet)
  obtain ⟨-, -, -, -, -, -, hqueue, hcl⟩ := reachSet_keeps (s := s) (tag := tag) (c := c)
  refine ⟨fun k step hk hstep => ?_, fun hnone hslack => ?_⟩
  · have hgo : goOn s.store c (resumedMove s.toPart c) (reachSet tag c s) =
        moveResumed k (beginStep s.store c step (putCrane c (unstopped (craneOf (reachSet tag c s) c)) (reachSet tag c s))) := by
      rw [hk]
      exact goOn_of_step (by rw [craneOf_reachSet]; exact hstep)
    rw [hgo] at hended hplain
    have hcore := craneCore_begun (g := s.store) (c := c) (q := reachSet tag c s) step
    rw [← craneOf_moveResumed k, craneOf_reachSet] at hcore
    have hbusy : (craneOf (moveResumed k (beginStep s.store c step
        (putCrane c (unstopped (craneOf (reachSet tag c s) c)) (reachSet tag c s)))) c).state ≠ .idle := by
      rw [craneOf_reachSet, field_of_core hcore (·.state)]
      cases step <;> simp [stateOf]
    have hspares := hended.spares hplain hbusy
    have hafter := hspares.leaves.1.trans (craneOf_reachSet (s := s) (tag := tag) (c := c) c ▸ hcore)
    have hmove : moveOf (moveResumed k (beginStep s.store c step
        (putCrane c (unstopped (craneOf (reachSet tag c s) c)) (reachSet tag c s)))) k.number =
          some { k with state := .dispatched, reason := none } := by
      refine moveOf_putMove_same (m := { k with state := .dispatched, reason := none }) ?_
      obtain ⟨n, -, hfound⟩ := moveHeld_eq_some_iff.mp (resumedMove_eq_some hk)
      have hmp : moveOf (beginStep s.store c step
          (putCrane c (unstopped (craneOf (reachSet tag c s) c)) (reachSet tag c s))) k.number = moveOf s.toPart k.number := by
        simp [moveOf, hqueue]
      obtain rfl := number_of_moveOf hfound
      rw [show ({ k with state := .dispatched, reason := none } : Move).number = k.number from rfl, hmp, hfound]
      rfl
    have hkcl : (moveResumed k (beginStep s.store c step
        (putCrane c (unstopped (craneOf (reachSet tag c s) c)) (reachSet tag c s)))).cl = (atOwner 0x2C tag s).cl := by
      simp [moveResumed, putMove, hcl]
    have hres : reservationOf (moveResumed k (beginStep s.store c step
        (putCrane c (unstopped (craneOf (reachSet tag c s) c)) (reachSet tag c s)))) c = some (resumeReach s c) := by
      rw [← reservationOf_reachSet (s := s) (tag := tag) (c := c)]
      cases c <;> simp [moveResumed, putMove, reservationOf]
    exact ⟨field_of_core hafter (·.state),
      (field_of_core hafter (·.move)).trans (show (craneOf (reachSet tag c s) c).move = _ by rw [craneOf_reachSet]), hspares.reservation.trans hres,
      hended.told hplain (ns := []) hkcl (sameNotices_atOwner 0x2C tag s), hended.moveOf_eq hplain hbusy hmove (by simp)⟩
  · have hgo : goOn s.store c (resumedMove s.toPart c) (reachSet tag c s) =
        beginStep s.store c .lower (putCrane c (unstopped (craneOf (reachSet tag c s) c)) (reachSet tag c s)) :=
      goOn_of_slackening (.inl hnone) (by rw [craneOf_reachSet]; exact hslack)
    rw [hgo] at hended hplain
    have hcore := craneCore_begun (g := s.store) (c := c) (q := reachSet tag c s) .lower
    have hspares := hended.spares hplain (b := c) (by
      rw [field_of_core hcore (·.state)]
      simp [stateOf])
    refine ⟨field_of_core (hspares.leaves.1.trans hcore) (·.state), hspares.reservation.trans ?_,
      hended.told hplain (ns := []) (by simp [hcl]) (sameNotices_atOwner 0x2C tag s)⟩
    rw [← reservationOf_reachSet (s := s) (tag := tag) (c := c)]
    cases c <;> simp [reservationOf]

/-- The reservations once a resumption with no move to go on with has set and cut them (R120, R152). -/
theorem lapsed_reservation {s : State} {tag : Nat} {c : CraneId} (hnone : resumedMove s.toPart c = none) :
    reservationOf (withdrawLapsed s.store c (reachSet tag c s)) c = some (resumeReach s c) ∧
    reservationOf (withdrawLapsed s.store c (reachSet tag c s)) (otherCrane c) = reservationOf s.toPart (otherCrane c) := by
  cases hk : moveHeld s.toPart c with
  | none =>
    have hsame : withdrawLapsed s.store c (reachSet tag c s) = reachSet tag c s := by
      simp only [withdrawLapsed, moveHeld_reachSet, hk]
    rw [hsame]
    exact ⟨reservationOf_reachSet, reservationOf_reachSet_other⟩
  | some k =>
    obtain ⟨hkind, hpiece⟩ := kind_of_lapsed (lapsed_of_resumedMove hnone hk)
    obtain ⟨mark, hmark⟩ := Option.isSome_iff_exists.mp hpiece
    obtain ⟨-, -, -, -, hres⟩ := withdrawLapsed_of_held (g := s.store) (moveHeld_reachSet (tag := tag).trans hk) hmark hkind
    refine ⟨?_, ?_⟩
    · rw [hres, if_pos rfl, reservationOf_reachSet, resumeReach_of_none hnone, craneOf_reachSet, Option.map_some,
        restWithin_stretch]
    · rw [hres, if_neg (ne_otherCrane c).symm, reservationOf_reachSet_other]

/-- The end of a resumption that leaves the crane IDLE. -/
theorem resumed_idles {s t : State} {tag : Nat} {c : CraneId} (hstopped : (craneOf s.toPart c).state = .stopped)
    (hnone : resumedMove s.toPart c = none) (hslack : (craneOf s.toPart c).slackening = false)
    (hended : endedFrom s t (goOn s.store c (resumedMove s.toPart c) (reachSet tag c s))) :
    ∃ u, scanned s t u ∧ u.mc = s.mc ∧
      craneCore (craneOf u c) = craneCore { craneOf s.toPart c with state := .idle, reason := none, fresh := false, move := none,
                                                                    stoppedStep := none, dispatchPos := none } ∧
      craneOf u (otherCrane c) = craneOf s.toPart (otherCrane c) ∧ u.fl = s.fl ∧
      reservationOf u c = some (resumeReach s c) ∧
      reservationOf u (otherCrane c) = reservationOf s.toPart (otherCrane c) ∧
      ((moveHeld s.toPart c).isNone → u.mp.queue = s.mp.queue ∧ u.sm = s.sm ∧ told s t []) ∧
      ∀ k mark, moveHeld s.toPart c = some k → k.piece = some mark →
        told s t [.moveSuspended k.number mark .held none] ∧
        (∀ n, (slotOf u n).stack = (slotOf s.toPart n).stack ∧ (slotOf u n).lock = (slotOf s.toPart n).lock ∧
          (slotOf u n).engaged = (slotOf s.toPart n).engaged.filter fun e => e.1 != k.number) ∧
        moveOf u k.number = some { k with state := .suspended, reason := some .held, crane := none } := by
  have hplain : noWithdrawal (goOn s.store c (resumedMove s.toPart c) (reachSet tag c s)) :=
    noWithdrawal_of_unchanged ((changed_goOn _).trans changed_reachSet)
  obtain ⟨kmc, -, -, -, ksm, kfl, kqueue, kcl⟩ := reachSet_keeps (s := s) (tag := tag) (c := c)
  have hgo : goOn s.store c (resumedMove s.toPart c) (reachSet tag c s) = resumedIdle s.store c (reachSet tag c s) :=
    goOn_of_idle (.inl hnone) (by rw [craneOf_reachSet]; exact hslack) (by rw [craneOf_reachSet]; exact hstopped)
  rw [hgo] at hended hplain
  have hres (d : CraneId) : reservationOf (resumedIdle s.store c (reachSet tag c s)) d =
      reservationOf (withdrawLapsed s.store c (reachSet tag c s)) d := by
    cases c <;> cases d <;> rfl
  have hmc : (resumedIdle s.store c (reachSet tag c s)).mc = s.mc := by simp [resumedIdle, kmc]
  have hslots (n : Nat) : slotOf (resumedIdle s.store c (reachSet tag c s)) n =
      slotOf (withdrawLapsed s.store c (reachSet tag c s)) n := by simp [slotOf, resumedIdle]
  have hmoves (n : Nat) : moveOf (resumedIdle s.store c (reachSet tag c s)) n =
      moveOf (withdrawLapsed s.store c (reachSet tag c s)) n := by simp [moveOf, resumedIdle]
  have hlink : (resumedIdle s.store c (reachSet tag c s)).cl = (withdrawLapsed s.store c (reachSet tag c s)).cl := by
    simp [resumedIdle]
  have hslot (n : Nat) : slotOf (reachSet tag c s) n = slotOf s.toPart n := by rw [slotOf, ksm, slotOf]
  have htold {ns : List Notice} (hns : (withdrawLapsed s.store c (reachSet tag c s)).cl = ns.foldl raiseLink (reachSet tag c s).cl) :
      told s t ns := hended.told hplain (hlink.trans (kcl ▸ hns)) (sameNotices_atOwner 0x2C tag s)
  have hother : craneOf (resumedIdle s.store c (reachSet tag c s)) (otherCrane c) = craneOf s.toPart (otherCrane c) := by
    rw [← craneOf_reachSet (s := s) (tag := tag) (c := c) (otherCrane c)]
    refine (craneOf_congr (q := resumedIdle s.store c (reachSet tag c s)) (p := putCrane c _ _) rfl rfl _).trans
      ((craneOf_putCrane_other (ne_otherCrane c).symm _ _).trans (craneOf_congr (by simp) (by simp) _))
  refine ⟨_, hended.scanned hplain rfl hmc, hmc, ?_, hother, by simp [resumedIdle, kfl], ?_, ?_, fun hfree => ?_,
    fun k mark hk hmark => ?_⟩
  · rw [craneOf_resumedIdle, craneOf_reachSet]
    rfl
  · rw [hres]
    exact (lapsed_reservation hnone).1
  · rw [hres]
    exact (lapsed_reservation hnone).2
  · have hheld : moveHeld (reachSet tag c s) c = none := by
      rw [moveHeld_reachSet]
      exact Option.isNone_iff_eq_none.mp hfree
    have hsame : withdrawLapsed s.store c (reachSet tag c s) = reachSet tag c s := by simp only [withdrawLapsed, hheld]
    refine ⟨?_, ?_, htold (by rw [hsame]; rfl)⟩ <;> simp [resumedIdle, hsame, kqueue, ksm]
  · have hheld : moveHeld (reachSet tag c s) c = some k := moveHeld_reachSet.trans hk
    obtain ⟨hmove, hcl, hfreed, -, -⟩ :=
      withdrawLapsed_of_held (g := s.store) hheld hmark (kind_of_lapsed (lapsed_of_resumedMove hnone hk)).1
    refine ⟨htold hcl, fun n => ?_, (hmoves _).trans hmove⟩
    rw [hslots, hfreed, hslot, freeOf_slot]
    exact ⟨rfl, rfl, rfl⟩

/-- A field of a crane's record that a dispatch does not write. -/
theorem field_of_rest {α : Type} {r r' : Crane} (h : craneRest r' = craneRest r) (f : Crane → α)
    (hf : ∀ x, f (craneRest x) = f x := by intro x; rfl) : f r' = f r := by
  rw [← hf r', h, hf]

/-- Settles O43: the checks in order, then the three ways on. -/
theorem resumeCraneResult : Obligations.ResumeCraneResult := by
  intro s tag crane hready hmode
  refine ⟨fun hA hB => refusedWith_byPart hready rfl (forCrane_of_unnamed hmode _ _ hA hB _), fun c hc hcfg => ?_⟩
  intro r lost m res
  have hjudged := resumeCrane_of_named hmode tag hc hcfg
  have hlost : (craneNode s.store c).any (nodeLost s.toPart) = true ↔ lost := by
    simp only [lost, Option.any_eq_true]
  have hpassed (hstopped : r.state = .stopped) (hfresh : r.fresh = true) (hback : ¬ lost) (hdrive : r.driveFault ≠ some true) :=
    hjudged.trans ((need_of_true (by rw [show (craneOf s.toPart c).state = _ from hstopped]; rfl)).trans
      ((need_of_true hfresh).trans ((need_of_true (by rw [Bool.not_eq_true', ← Bool.not_eq_true, hlost]; exact hback)).trans
        (need_of_true (bne_iff_ne.mpr hdrive)))))
  refine ⟨fun hstate => refusedWith_byPart hready rfl (hjudged.trans (need_of_false (by simpa using hstate))),
    fun hstopped hbusy => refusedWith_byPart hready rfl (hjudged.trans ?_), fun hstopped hfresh hback hdrive =>
    ⟨fun hrun hm => refusedWith_byPart hready rfl ((hpassed hstopped hfresh hback hdrive).trans (need_of_false ?_)),
      fun hgo => ?_⟩⟩
  · rw [need_of_true (by simp [show (craneOf s.toPart c).state = _ from hstopped]), need_need, need_need]
    refine need_of_false ?_
    simp only [Bool.and_eq_true, Bool.not_eq_true', ← Bool.not_eq_true, hlost, bne_iff_ne, not_and_or, not_not]
    rcases hbusy with h | h | h
    · exact .inl (.inl (by simp [show (craneOf s.toPart c).fresh = _ from h]))
    · exact .inl (.inr h)
    · exact .inr h
  · have hsome : (resumedMove s.toPart c).isNone = false := Option.isNone_eq_false_iff.mpr hm
    simp [hrun, hsome]
  · have hallowed := (hpassed hstopped hfresh hback hdrive).trans (need_of_true (by
      rcases hgo with h | h
      · simp [h]
      · simp [show resumedMove s.toPart c = none from h]))
    refine ⟨fun hfit => refusedWith_byPart hready rfl (hallowed.trans (if_neg ?_)), fun hfit => ?_⟩
    · rw [show fits c (resumeReach s c) s.toPart = false from hfit]
      exact Bool.false_ne_true
    · have htaken := hallowed.trans (if_pos hfit)
      obtain ⟨qmc, qbs, qcc, qtu, qsm, -, -, qcl⟩ := reachSet_keeps (s := s) (tag := tag) (c := c)
      obtain ⟨gmc, gbs, gcc, gtu, gcl, gpieces, gtimer, -⟩ :=
        goOn_keeps s.store c (resumedMove s.toPart c) (reachSet tag c s)
      refine runsTo_mono (ended_byPart hready rfl htaken (gcl.trans (congrArg linkCore qcl))) fun t ⟨hended, hanswered⟩ => ?_
      have hplain : noWithdrawal (goOn s.store c (resumedMove s.toPart c) (reachSet tag c s)) :=
        noWithdrawal_of_unchanged ((changed_goOn _).trans changed_reachSet)
      obtain ⟨tmc, tbs, tcc, ttu, tpieces, ttimer, -⟩ := hended.keeps
      have hdispatched := hended.dispatched hplain c
      have hgoes := craneOf_goOn (g := s.store) (q := reachSet tag c s) (c := c) (m := resumedMove s.toPart c)
        (by rw [craneOf_reachSet]; exact hstopped)
      rw [craneOf_reachSet] at hgoes
      obtain ⟨hmoving, hreason, hload, hpos⟩ := hgoes
      have hrest := hdispatched.rest
      obtain ⟨hsteps, hslackens⟩ := resumed_ends hstopped hended
      exact ⟨hended.store_eq, tmc.trans (gmc.trans qmc), tbs.trans (gbs.trans qbs), tcc.trans (gcc.trans qcc),
        ttu.trans (gtu.trans qtu), tpieces.trans (gpieces.trans (by rw [qsm])), ttimer.trans (gtimer.trans (by rw [qsm])),
        hended.pending_eq, hdispatched.ne_stopped hmoving, (field_of_rest hrest (·.reason)).trans hreason,
        (field_of_rest hrest (·.load)).trans hload, (field_of_rest hrest (·.pos)).trans hpos, hanswered, hsteps, hslackens,
        fun hnone hslack => resumed_idles hstopped hnone hslack hended⟩

end Sys2Proof.Proofs
end

section
/-!
PROOFS. Dig chains and pieces that no move carries (chapters 6 and 7): the number that a chain's last move takes, and the
requests SHIP, SCRAP, LOCATE and REMOVE PIECE (R96, R106, R107, R112, R113, R117, R129).
-/

namespace Sys2Proof.Proofs

open Sys2Proof.Machine

/-! ### The numbers of a run of new moves -/

theorem triedNumber_inj {n a b : Nat} (ha : a < 255) (hb : b < 255) (h : triedNumber n a = triedNumber n b) : a = b := by
  unfold triedNumber at h
  omega

theorem triedNumber_add (n d e : Nat) : triedNumber (triedNumber n d) e = triedNumber n (d + e) := by
  unfold triedNumber
  omega

/-- A run of new moves so far: from the counter `n` on, `D` numbers have been tried, and the queue has beside the numbers of
`q` only such, and all of them. -/
structure NumberRun (q : List Move) (n D : Nat) (k : MovePlanner) : Prop where
  counter : k.counter = triedNumber n D
  keeps : ∀ x ∈ q.map (·.number), x ∈ k.queue.map (·.number)
  new : ∀ x ∈ k.queue.map (·.number), x ∈ q.map (·.number) ∨ ∃ e < D, x = triedNumber n e
  tried : ∀ e < D, triedNumber n e ∈ k.queue.map (·.number)

theorem NumberRun.start {k : MovePlanner} (h1 : 1 ≤ k.counter) (h2 : k.counter ≤ 255) : NumberRun k.queue k.counter 0 k :=
  ⟨(triedNumber_zero h1 h2).symm, fun _ h => h, fun _ h => .inl h, fun _ h => absurd h (Nat.not_lt_zero _)⟩

/-- Numbers tried in a row and all taken are no more than the moves. -/
theorem tried_le_length {n D : Nat} {q : List Move} (hD : D ≤ 255) (h : ∀ e < D, triedNumber n e ∈ q.map (·.number)) :
    D ≤ q.length := by
  have hsub : (List.range D).map (triedNumber n) ⊆ q.map (·.number) := by
    intro x hx
    obtain ⟨e, he, rfl⟩ := List.mem_map.mp hx
    exact h e (List.mem_range.mp he)
  have hnodup : ((List.range D).map (triedNumber n)).Nodup := by
    refine List.Nodup.map_on (fun a ha b hb hab => ?_) List.nodup_range
    rw [List.mem_range] at ha hb
    exact triedNumber_inj (by omega) (by omega) hab
  simpa using (hnodup.subperm hsub).length_le

section run

variable {q : List Move} {n D : Nat} {k : MovePlanner}

/-- The next number of a run: the first free one, within the first 255 tried. -/
theorem NumberRun.next (h : NumberRun q n D k) (short : q.length < 255) (room : k.queue.length < 32) (h1 : 1 ≤ k.counter) (h2 : k.counter ≤ 255) :
    ∃ d, D + d < 255 ∧ seekNumber k.queue 255 k.counter = triedNumber n (D + d) ∧
      seekNumber q 255 k.counter = triedNumber n (D + d) ∧ ∀ j < d, triedNumber n (D + j) ∈ k.queue.map (·.number) := by
  obtain ⟨d, hd, hseek, hfree, hlive⟩ := seekNumber_spec (q := k.queue) (by omega) h1 h2
  rw [h.counter, triedNumber_add] at hseek hfree
  have hlive' : ∀ j < d, triedNumber n (D + j) ∈ k.queue.map (·.number) := fun j hj => by
    have := hlive j hj
    rwa [h.counter, triedNumber_add] at this
  have hall : ∀ e < D + d, triedNumber n e ∈ k.queue.map (·.number) := fun e he => by
    by_cases hlt : e < D
    · exact h.tried e hlt
    · obtain ⟨j, rfl⟩ := Nat.exists_eq_add_of_le (Nat.le_of_not_lt hlt)
      exact hlive' j (by omega)
  have hshort : D + d < 255 := by
    by_contra hlong
    have := tried_le_length (D := 255) (le_refl _) fun e he => hall e (by omega)
    omega
  obtain ⟨d', hd', hseek', hfree', hlive''⟩ := seekNumber_spec short h1 h2
  rw [h.counter, triedNumber_add] at hseek' hfree'
  have hsame : d' = d := by
    rcases lt_trichotomy d' d with hlt | heq | hgt
    · rcases h.new _ (hlive' d' hlt) with hmem | ⟨e, he, heq⟩
      · exact absurd hmem hfree'
      · have := triedNumber_inj (by omega) (by omega) heq
        omega
    · exact heq
    · have := hlive'' d hgt
      rw [h.counter, triedNumber_add] at this
      exact absurd (h.keeps _ this) hfree
  exact ⟨d, hshort, by rw [h.counter]; exact hseek, by rw [h.counter, ← hsame]; exact hseek', hlive'⟩

theorem number_eq (n e : Nat) : 1 ≤ triedNumber n e ∧ triedNumber n e ≤ 255 := by
  unfold triedNumber
  omega

theorem nextNumber_triedNumber (n e : Nat) : nextNumber (triedNumber n e) = triedNumber n (e + 1) := by
  have := number_eq n e
  rw [nextNumber_eq this.1 this.2]
  unfold triedNumber
  omega

/-- The run goes on with the next move. -/
theorem NumberRun.joined (h : NumberRun q n D k) {d : Nat} (hseek : seekNumber k.queue 255 k.counter = triedNumber n (D + d))
    (hlive : ∀ j < d, triedNumber n (D + j) ∈ k.queue.map (·.number)) (m : Move) :
    NumberRun q n (D + d + 1) (MovePlanner.joined k false m) := by
  have hnumbers (x : Nat) : x ∈ (MovePlanner.joined k false m).queue.map (·.number) ↔
      x ∈ k.queue.map (·.number) ∨ x = triedNumber n (D + d) := by
    simp [MovePlanner.joined, hseek]
  refine ⟨?_, fun x hx => (hnumbers x).mpr (.inl (h.keeps x hx)), fun x hx => ?_, fun e he => (hnumbers _).mpr ?_⟩
  · exact (congrArg nextNumber hseek).trans (nextNumber_triedNumber _ _)
  · rcases (hnumbers x).mp hx with hx | rfl
    · rcases h.new x hx with hx | ⟨e, he, rfl⟩
      · exact .inl hx
      · exact .inr ⟨e, by omega, rfl⟩
    · exact .inr ⟨D + d, by omega, rfl⟩
  · rcases Nat.lt_or_ge e D with hlt | hge
    · exact .inl (h.tried e hlt)
    · obtain ⟨j, rfl⟩ := Nat.exists_eq_add_of_le hge
      rcases Nat.lt_or_ge j d with hlt | hge
      · exact .inl (hlive j hlt)
      · exact .inr (congrArg (triedNumber n) (by omega))

/-- The number of the last of a run of new moves, as the request foretells it (R117, R129). -/
theorem NumberRun.last (short : q.length < 255) (ms : List Move) (m : Move) (h : NumberRun q n D k)
    (room : k.queue.length + ms.length < 32) (hbound : 1 ≤ k.counter ∧ k.counter ≤ 255) :
    ((numberedFrom k (m :: ms)).getLast?.map (·.number)) = some (lastNumber q ms.length k.counter) := by
  induction ms generalizing m k D with
  | nil =>
    obtain ⟨d, -, hseek, hseek', -⟩ := h.next short (by simpa using room) hbound.1 hbound.2
    simp [numberedFrom, lastNumber, hseek, hseek']
  | cons x ms ih =>
    simp only [List.length_cons] at room
    obtain ⟨d, -, hseek, hseek', hlive⟩ := h.next short (by omega) hbound.1 hbound.2
    have hcounter : (MovePlanner.joined k false m).counter = nextNumber (seekNumber q 255 k.counter) := by
      rw [hseek', ← hseek]
      rfl
    have hrest := ih x (h.joined hseek hlive m) (by rw [joined_length]; omega)
      (by rw [hcounter, hseek']; exact nextNumber_mem (number_eq _ _).1)
    have hlast : (numberedFrom k (m :: x :: ms)).getLast? = (numberedFrom (MovePlanner.joined k false m) (x :: ms)).getLast? := by
      rw [numberedFrom, numberedFrom, List.getLast?_cons_cons]
    rw [hlast, hrest, hcounter]
    rfl

end run

/-- Of the moves that join, the last takes the number foretold. -/
theorem lastNumber_eq {k : MovePlanner} (hsound : plannerSound k) {ms : List Move} {j : Nat} (hlength : ms.length = j + 1)
    (room : k.queue.length + ms.length ≤ 32) :
    ((numberedFrom k ms).getLast?.map (·.number)) = some (lastNumber k.queue j k.counter) := by
  obtain ⟨-, -, -, hlow, hhigh⟩ := hsound
  obtain ⟨m, rest, rfl⟩ := List.exists_cons_of_ne_nil (List.ne_nil_of_length_eq_add_one hlength)
  simp only [List.length_cons] at hlength room
  obtain rfl : rest.length = j := by omega
  exact (NumberRun.start hlow hhigh).last (by omega) rest m (by omega) ⟨hlow, hhigh⟩

/-! ### SHIP and SCRAP -/

theorem numbered_map_fst {α : Type} (k : Nat) (l : List α) : (numbered k l).map (·.1) = List.range' k l.length := by
  induction l generalizing k with
  | nil => rfl
  | cons a l ih => simp [numbered, ih, List.range'_succ]

theorem numbered_map_snd {α : Type} (k : Nat) (l : List α) : (numbered k l).map (·.2) = l := by
  induction l generalizing k with
  | nil => rfl
  | cons a l ih => simp [numbered, ih]

/-- The REHANDLE moves of a dig chain, not yet numbered. -/
def digMoves (slot : Nat) (digs : List Nat) (last : Nat) : List Move :=
  (numbered 0 digs).map fun d =>
    { plainMove .rehandle (some d.2) (.slot slot) none with chain := some last, rank := d.1 }

/-- Its last move. -/
def fetchMove (slot bay mark : Nat) (kind : MoveKind) (digs : List Nat) (last : Nat) : Move :=
  { plainMove kind (some mark) (.slot slot) (some (.bay bay)) with chain := some last, rank := digs.length }

section chain

variable {slot bay mark last : Nat} {kind : MoveKind} {digs : List Nat} {k : MovePlanner}

theorem chainMoves_eq : chainMoves slot bay mark kind digs last = digMoves slot digs last ++ [fetchMove slot bay mark kind digs last] := rfl

theorem length_chainMoves : (chainMoves slot bay mark kind digs last).length = digs.length + 1 := by
  simp [chainMoves_eq, digMoves, length_numbered]

theorem chainMoves_piece : (chainMoves slot bay mark kind digs last).map (·.piece) = digs.map some ++ [some mark] := by
  have hdigs : (digMoves slot digs last).map (·.piece) = digs.map some := by
    rw [digMoves, List.map_map]
    conv_rhs => rw [← numbered_map_snd 0 digs, List.map_map]
    rfl
  rw [chainMoves_eq, List.map_append, hdigs]
  rfl

theorem chainMoves_rank : (chainMoves slot bay mark kind digs last).map (·.rank) = List.range (digs.length + 1) := by
  have hdigs : (digMoves slot digs last).map (·.rank) = List.range digs.length := by
    rw [digMoves, List.map_map, List.range_eq_range', ← numbered_map_fst 0 digs]
    rfl
  rw [chainMoves_eq, List.map_append, hdigs, List.range_succ]
  rfl

/-- What every member of a dig chain is. -/
theorem chain_of_mem {m : Move} (h : m ∈ numberedFrom k (chainMoves slot bay mark kind digs last)) :
    m.chain = some last ∧ m.state = .queued ∧ m.crane = none ∧ m.reason = none ∧ m.source = .slot slot := by
  obtain ⟨x, hx, n, rfl⟩ := mem_numberedFrom h
  rw [chainMoves_eq] at hx
  rcases List.mem_append.mp hx with hx | hx
  · obtain ⟨d, -, rfl⟩ := List.mem_map.mp hx
    exact ⟨rfl, rfl, rfl, rfl, rfl⟩
  · rw [List.mem_singleton.mp hx]
    exact ⟨rfl, rfl, rfl, rfl, rfl⟩

theorem numberedFrom_append (ms ns : List Move) (k : MovePlanner) :
    ∃ k', numberedFrom k (ms ++ ns) = numberedFrom k ms ++ numberedFrom k' ns := by
  induction ms generalizing k with
  | nil => exact ⟨k, rfl⟩
  | cons m ms ih =>
    obtain ⟨k', hk'⟩ := ih (MovePlanner.joined k false m)
    exact ⟨k', by rw [List.cons_append, numberedFrom, hk', numberedFrom, List.cons_append]⟩

/-- The last member fetches the piece, and those before it are REHANDLE moves. -/
theorem numberedFrom_chainMoves : ∃ n, numberedFrom k (chainMoves slot bay mark kind digs last) =
    numberedFrom k (digMoves slot digs last) ++ [{ fetchMove slot bay mark kind digs last with number := n }] := by
  obtain ⟨k', hk'⟩ := numberedFrom_append (digMoves slot digs last) [fetchMove slot bay mark kind digs last] k
  exact ⟨_, hk'⟩

theorem rehandle_of_mem_dig {m : Move} (h : m ∈ numberedFrom k (digMoves slot digs last)) : m.kind = .rehandle ∧ m.dest = none := by
  obtain ⟨x, hx, n, rfl⟩ := mem_numberedFrom h
  obtain ⟨d, -, rfl⟩ := List.mem_map.mp hx
  exact ⟨rfl, rfl⟩

end chain

section fetch

variable {s : State} {kind tag mark bay slot tier : Nat} {mk : MoveKind} {cond : Condition} {q : Piece}

/-- The records once the chain is queued and the slot locked. -/
def chained (kind tag slot bay mark : Nat) (mk : MoveKind) (s : State) : Part :=
  digChain slot bay mark mk (above mark (slotOf s.toPart slot).stack) (atOwner kind tag s)

/-- The records with the chain queued, before the slot is locked. -/
def chainQueued (kind tag slot bay mark : Nat) (mk : MoveKind) (s : State) : Part :=
  joinAll (chainMoves slot bay mark mk (above mark (slotOf s.toPart slot).stack)
    (lastNumber s.mp.queue (above mark (slotOf s.toPart slot).stack).length s.mp.counter)) (atOwner kind tag s)

/-- The number by which the chain is named. -/
def chainNumber (slot mark : Nat) (s : State) : Nat :=
  lastNumber s.mp.queue (above mark (slotOf s.toPart slot).stack).length s.mp.counter

theorem isBay_eq_true_iff {g : Store} : isBay g bay = true ↔ (1 ≤ bay ∧ bay ≤ 2) ∧ (Map.find g.bays bay).isSome := by
  rw [isBay, Bool.and_eq_true, isId_eq_true_iff]

/-- What the two requests judge of a piece that is on a slot. -/
theorem fetch_of_slot (hmode : s.mc.mode ≠ .setup)
    (hnamed : (1 ≤ mark ∧ mark ≤ 65535) ∧ (1 ≤ bay ∧ bay ≤ 2) ∧ (Map.find s.store.bays bay).isSome)
    (hq : pieceOf s.toPart mark = some q) (hplace : q.place = .slot slot tier) :
    fetch cond mk mark bay s.store (atOwner kind tag s) =
      need (q.condition == cond) .notReady
        (need q.move.isNone .busy
          (need ((slotOf s.toPart slot).lock.isNone && (slotOf s.toPart slot).engaged.isNone) .locked
            (need (!(above mark (slotOf s.toPart slot).stack).any (hasMove s.toPart)) .busy
              (need (decide ((above mark (slotOf s.toPart slot).stack).length + 1 ≤ freeEntries s.toPart)) .full
                (.ok { part := chained kind tag slot bay mark mk s
                       fields := pieceFields (chained kind tag slot bay mark mk s) mark q ++
                         [.u8 (chainNumber slot mark s), .u8 (above mark (slotOf s.toPart slot).stack).length] }))))) := by
  have hq' : pieceOf (atOwner kind tag s) mark = some q := hq
  have hslot : slotOfPiece q = some slot := by simp [slotOfPiece, hplace]
  rw [fetch, need_of_true (outsideSetup_atOwner hmode _ _),
    need_of_true (by rw [Bool.and_eq_true, isId_eq_true_iff, isBay_eq_true_iff]; exact hnamed), hq', must_some, hslot, must_some]
  rfl

theorem fetch_of_unnamed (hmode : s.mc.mode ≠ .setup)
    (hnamed : ¬ ((1 ≤ mark ∧ mark ≤ 65535) ∧ (1 ≤ bay ∧ bay ≤ 2) ∧ (Map.find s.store.bays bay).isSome)) :
    fetch cond mk mark bay s.store (atOwner kind tag s) = .error .range := by
  rw [fetch, need_of_true (outsideSetup_atOwner hmode _ _)]
  exact need_of_false (by rw [Bool.and_eq_true, isId_eq_true_iff, isBay_eq_true_iff]; exact hnamed)

theorem fetch_of_named (hmode : s.mc.mode ≠ .setup)
    (hnamed : (1 ≤ mark ∧ mark ≤ 65535) ∧ (1 ≤ bay ∧ bay ≤ 2) ∧ (Map.find s.store.bays bay).isSome) :
    (pieceOf s.toPart mark = none → fetch cond mk mark bay s.store (atOwner kind tag s) = .error .unknown) ∧
    ∀ q, pieceOf s.toPart mark = some q → (∀ n k, q.place ≠ .slot n k) →
      fetch cond mk mark bay s.store (atOwner kind tag s) = .error .notReady := by
  have hpassed : (isId 65535 mark && isBay s.store bay) = true := by
    rw [Bool.and_eq_true, isId_eq_true_iff, isBay_eq_true_iff]
    exact hnamed
  refine ⟨fun hnone => ?_, fun q hq hplace => ?_⟩
  · have hnone' : pieceOf (atOwner kind tag s) mark = none := hnone
    rw [fetch, need_of_true (outsideSetup_atOwner hmode _ _), need_of_true hpassed, hnone', must_none]
  · have hq' : pieceOf (atOwner kind tag s) mark = some q := hq
    have hslot : slotOfPiece q = none := by
      unfold slotOfPiece
      split
      · next n k hk => exact absurd hk (hplace n k)
      · rfl
    rw [fetch, need_of_true (outsideSetup_atOwner hmode _ _), need_of_true hpassed, hq', must_some, hslot, must_none]

theorem chained_eq : chained kind tag slot bay mark mk s =
    stockChange [] (putSlot slot { slotOf (chainQueued kind tag slot bay mark mk s) slot with
      lock := some (chainNumber slot mark s) } (chainQueued kind tag slot bay mark mk s)) := rfl

theorem chained_keeps : (chained kind tag slot bay mark mk s).mc = s.mc ∧ (chained kind tag slot bay mark mk s).bs = s.bs ∧
    (chained kind tag slot bay mark mk s).cc = s.cc ∧ (chained kind tag slot bay mark mk s).tu = s.tu ∧
    (chained kind tag slot bay mark mk s).csA = s.csA ∧ (chained kind tag slot bay mark mk s).csB = s.csB ∧
    (chained kind tag slot bay mark mk s).fl = s.fl ∧
    (chained kind tag slot bay mark mk s).cl = (atOwner kind tag s).cl ∧
    (chained kind tag slot bay mark mk s).sm.timer = s.sm.timer ∧
    (chained kind tag slot bay mark mk s).mp.resA = s.mp.resA ∧ (chained kind tag slot bay mark mk s).mp.resB = s.mp.resB ∧
    (chained kind tag slot bay mark mk s).mp.backlog = s.mp.backlog ∧
    (chained kind tag slot bay mark mk s).evt = { Changes.none with scan := true } := by
  rw [chained_eq]
  simp only [stockChange, putSlot, chainQueued, joinAll_keeps, joinAll_evt]
  refine ⟨rfl, rfl, rfl, rfl, rfl, rfl, rfl, trivial, rfl, rfl, rfl, rfl, ?_⟩
  simp [atOwner, takePlace, Changes.none]

theorem slotOf_chained (n : Nat) : slotOf (chained kind tag slot bay mark mk s) n =
    if n = slot then { slotOf s.toPart slot with lock := some (chainNumber slot mark s) } else slotOf s.toPart n := by
  have hqueued (n : Nat) : slotOf (chainQueued kind tag slot bay mark mk s) n = slotOf s.toPart n := by
    rw [slotOf, chainQueued, (joinAll_keeps _ _).2.2.2.2.2.2.2.2.1]
    rfl
  rw [← hqueued slot, ← hqueued n, chained_eq]
  by_cases hn : n = slot
  · rw [if_pos hn, hn, slotOf]
    exact congrArg (Option.getD · _) (Map.find_put_same _ _ _)
  · rw [if_neg hn]
    exact congrArg (Option.getD · _) (Map.find_put_other _ _ _ _ hn)

/-- Nothing of a piece but its move field changes when the chain is queued. -/
theorem movelessPiece_chained (m : Nat) : movelessPiece (chained kind tag slot bay mark mk s) m = movelessPiece s.toPart m :=
  movelessPiece_joinAll _ (atOwner kind tag s) m

theorem pieceFields_chained (hq : pieceOf s.toPart mark = some q) :
    pieceFields (chained kind tag slot bay mark mk s) mark q = standingFields q := by
  have hsame := movelessPiece_chained (s := s) (kind := kind) (tag := tag) (slot := slot) (bay := bay) (mark := mark) (mk := mk) mark
  rw [movelessPiece, movelessPiece, hq, Option.map_some] at hsame
  cases hpiece : pieceOf (chained kind tag slot bay mark mk s) mark with
  | none => simp [hpiece] at hsame
  | some r =>
    rw [hpiece, Option.map_some, Option.some.injEq] at hsame
    injection hsame with _ _ _ _ hplace _ hcondition
    simp [pieceFields, hpiece, standingFields, hplace, hcondition]

end fetch

theorem any_hasMove_iff {p : Part} {l : List Nat} :
    l.any (hasMove p) = true ↔ ∃ k ∈ l, ∃ r, pieceOf p k = some r ∧ r.move.isSome := by
  rw [List.any_eq_true]
  refine exists_congr fun k => and_congr_right fun _ => ?_
  unfold hasMove
  cases pieceOf p k <;> simp

/-- Settles O35: the checks in order, then the chain queued, its last number foretold, and the slot locked. -/
theorem shipAndScrapQueueChain : Obligations.ShipAndScrapQueueChain := by
  intro s c tag kind mark bay slot tier q mk cond hc hready hmode named
  have hexec : exec c s = .next (receive kind tag (byPart (fetch cond mk mark bay)) s) := by
    rcases hc with ⟨rfl, rfl, rfl, rfl⟩ | ⟨rfl, rfl, rfl, rfl⟩ <;> rfl
  refine ⟨fun hnot => refusedWith_byPart hready hexec (fetch_of_unnamed hmode hnot),
    fun hnamed hnone => refusedWith_byPart hready hexec ((fetch_of_named hmode hnamed).1 hnone),
    fun hnamed hq => ⟨fun hplace => refusedWith_byPart hready hexec ((fetch_of_named hmode hnamed).2 q hq hplace),
      fun hplace => ?_⟩⟩
  intro digs
  have hjudged := fetch_of_slot (kind := kind) (tag := tag) (mk := mk) (cond := cond) hmode hnamed hq hplace
  have hjudged' (hcond : q.condition = cond) (hmove : q.move = none) := hjudged.trans
    ((need_of_true (beq_iff_eq.mpr hcond)).trans (need_of_true (Option.isNone_iff_eq_none.mpr hmove)))
  have hopened (hcond : q.condition = cond) (hmove : q.move = none) (hlock : (slotOf s.toPart slot).lock = none)
      (hengaged : (slotOf s.toPart slot).engaged = none) := (hjudged' hcond hmove).trans (need_of_true (by simp [hlock, hengaged]))
  refine ⟨fun hcond => refusedWith_byPart hready hexec (hjudged.trans (need_of_false (by simpa using hcond))),
    fun hcond hmove => refusedWith_byPart hready hexec (hjudged.trans ?_),
    fun hcond hmove hbarred => refusedWith_byPart hready hexec ((hjudged' hcond hmove).trans (need_of_false ?_)),
    fun hcond hmove hlock hengaged => ⟨fun hbusy => refusedWith_byPart hready hexec
        ((hopened hcond hmove hlock hengaged).trans (need_of_false ?_)),
      fun hfree hfull => refusedWith_byPart hready hexec
        ((hopened hcond hmove hlock hengaged).trans ((need_of_true ?_).trans (need_of_false ?_)))⟩,
    fun hcond hmove hlock hengaged hfree hsound hroom => ?_⟩
  · exact (need_of_true (beq_iff_eq.mpr hcond)).trans (need_of_false (by
      rw [Option.isNone_iff_eq_none, ← ne_eq, ← Option.isSome_iff_ne_none]
      exact hmove))
  · rw [Bool.and_eq_true, Option.isNone_iff_eq_none, Option.isNone_iff_eq_none]
    rintro ⟨hlock, hengaged⟩
    rcases hbarred with h | h
    · rw [hlock] at h
      cases h
    · rw [hengaged] at h
      cases h
  · rw [Bool.not_eq_true', Bool.not_eq_false, any_hasMove_iff]
    exact hbusy
  · rw [Bool.not_eq_true', ← Bool.not_eq_true, any_hasMove_iff]
    rintro ⟨k, hk, r, hr, hsome⟩
    rw [hfree k hk r hr] at hsome
    cases hsome
  · rw [decide_eq_true_eq, freeEntries_eq]
    have : (above mark (slotOf s.toPart slot).stack).length = digs.length := rfl
    omega
  · have hlength : (above mark (slotOf s.toPart slot).stack).length = digs.length := rfl
    have htaken := (hopened hcond hmove hlock hengaged).trans ((need_of_true (by
      rw [Bool.not_eq_true', ← Bool.not_eq_true, any_hasMove_iff]
      rintro ⟨k, hk, r, hr, hsome⟩
      rw [hfree k hk r hr] at hsome
      cases hsome)).trans (need_of_true (by rw [decide_eq_true_eq, freeEntries_eq]; omega)))
    rw [pieceFields_chained hq] at htaken
    obtain ⟨kmc, kbs, kcc, ktu, kA, kB, kfl, kcl, ktimer, kresA, kresB, kbacklog, kevt⟩ :=
      chained_keeps (kind := kind) (tag := tag) (slot := slot) (bay := bay) (mark := mark) (mk := mk) (s := s)
    have hslots := slotOf_chained (kind := kind) (tag := tag) (slot := slot) (bay := bay) (mark := mark) (mk := mk) (s := s)
    have hplain : noWithdrawal (chained kind tag slot bay mark mk s) := noWithdrawal_of_unchanged (by rw [kevt]; rfl)
    have hscan : (chained kind tag slot bay mark mk s).evt.scan = true := by rw [kevt]
    have hnew := queuedNew_joinAll (u := chained kind tag slot bay mark mk s) (p := atOwner kind tag s)
      (ms := chainMoves slot bay mark mk digs (chainNumber slot mark s)) rfl rfl rfl rfl (by rw [length_chainMoves]; omega)
    refine runsTo_mono (ended_byPart hready hexec htaken (congrArg linkCore kcl)) fun t ⟨hended, hanswered⟩ => ?_
    obtain ⟨tmc, tbs, tcc, ttu, tpieces, ttimer, -⟩ := hended.keeps
    have hstack (n : Nat) := hended.stackAndLock_eq n
    refine ⟨hended.store_eq, tmc.trans kmc, tbs.trans kbs, tcc.trans kcc, ttu.trans ktu, ttimer.trans ktimer, hended.pending_eq,
      hended.told hplain (ns := []) kcl (sameNotices_atOwner kind tag s), fun k => ?_, fun n => ?_, chainNumber slot mark s, ?_,
      hanswered, _, hended.scanned hplain hscan kmc, kmc, kA, kB, kfl, kresA, kresB, kbacklog, hslots, _, hnew, ?_, ?_, ?_, fun m hm => ?_, fun m hm => chain_of_mem hm⟩
    · have := movelessPiece_chained (s := s) (kind := kind) (tag := tag) (slot := slot) (bay := bay) (mark := mark) (mk := mk) k
      rw [movelessPiece, ← pieceOf_congr tpieces] at this
      exact this
    · refine (congrArg Prod.fst (hstack n)).trans ?_
      rw [stackAndLock, hslots]
      split
      · next h => rw [h]
      · rfl
    · refine (congrArg Prod.snd (hstack slot)).trans ?_
      rw [stackAndLock, hslots, if_pos rfl]
    · exact (numberedFrom_map (fun _ _ => rfl) _ _).trans chainMoves_piece
    · exact (numberedFrom_map (fun _ _ => rfl) _ _).trans chainMoves_rank
    · obtain ⟨n, hlast⟩ := numberedFrom_chainMoves (k := s.mp) (slot := slot) (bay := bay) (mark := mark) (kind := mk)
        (digs := digs) (last := chainNumber slot mark s)
      have hnumber := lastNumber_eq ((plannerSound_iff _).mpr hsound) (ms := chainMoves slot bay mark mk digs (chainNumber slot mark s))
        length_chainMoves (by rw [length_chainMoves]; omega)
      rw [hlast, List.getLast?_append, List.getLast?_singleton, Option.some_or, Option.map_some, Option.some.injEq] at hnumber
      have hnumber' : n = chainNumber slot mark s := hnumber
      rw [show (atOwner kind tag s).mp = s.mp from rfl, hlast, hnumber']
      simp [fetchMove, plainMove]
    · obtain ⟨n, hlast⟩ := numberedFrom_chainMoves (k := s.mp) (slot := slot) (bay := bay) (mark := mark) (kind := mk)
        (digs := digs) (last := chainNumber slot mark s)
      rw [show (atOwner kind tag s).mp = s.mp from rfl, hlast, List.dropLast_concat] at hm
      exact rehandle_of_mem_dig hm

/-! ### The placement test (R96) -/

theorem placementTest_eq_true_iff {g : Store} {p : Part} {len mass : Nat} {source : Option Nat} {n : Nat} :
    placementTest g p len mass source n = true ↔
      ∃ cfg, Map.find g.slots n = some cfg ∧ (slotOf p n).engaged = none ∧ (slotOf p n).lock = none ∧ source ≠ some n ∧
        (slotOf p n).stack.length < cfg.tierLimit ∧ stackMass p (slotOf p n).stack + mass ≤ cfg.massLimit ∧
        ∀ q, (slotOf p n).stack.getLast?.bind (pieceOf p) = some q → len ≤ q.length := by
  unfold placementTest
  cases hcfg : Map.find g.slots n with
  | none => simp
  | some cfg =>
    cases htop : (slotOf p n).stack.getLast? with
    | none => simp [and_assoc, Option.isNone_iff_eq_none, htop]
    | some top =>
      cases hq : pieceOf p top with
      | none => simp [and_assoc, Option.isNone_iff_eq_none, htop, hq]
      | some q => simp [and_assoc, Option.isNone_iff_eq_none, htop, hq]

theorem stackMass_eq {p : Part} {l : List Nat} : stackMass p l = ((l.filterMap (pieceOf p)).map (·.mass)).sum := by
  induction l with
  | nil => rfl
  | cons m l ih =>
    rw [stackMass] at ih ⊢
    cases hq : pieceOf p m <;> simp [hq, ih]

/-! ### An event that settles -/

theorem spared_of_still {p : Part} (h : still p) : spared p :=
  fun _ _ _ m _ _ _ hm _ hstate => absurd hstate (h.2 m (mem_of_moveOf hm))

/-- How an event ends whose records are `p` before withdrawals and the scan. -/
theorem endedFrom.settles {s t : State} {p : Part} (h : endedFrom s t p) (hmc : p.mc = s.mc) : Machine.settles s t p := by
  obtain ⟨tmc, tbs, tcc, ttu, tpieces, ttimer, -⟩ := h.keeps
  refine ⟨h.store_eq, tmc, tbs, tcc, ttu, tpieces, ttimer, h.pending_eq, fun k => Prod.mk.inj (h.stackAndLock_eq k),
    fun hstill => ?_⟩
  rcases h.becomes_or_scanned (.inl (spared_of_still hstill)) hmc with hbecomes | hscanned
  · exact hbecomes
  · obtain ⟨-, -, -, -, -, -, -, -, -, hbecomes⟩ := settles_of_scanned hmc hscanned
    exact hbecomes hstill

/-! ### LOCATE and REMOVE PIECE -/

section located

variable {s : State} {tag mark slot : Nat} {q : Piece}

theorem isSlot_eq_true_iff {g : Store} : isSlot g slot = true ↔ (1 ≤ slot ∧ slot ≤ 48) ∧ (Map.find g.slots slot).isSome := by
  rw [isSlot, Bool.and_eq_true, isId_eq_true_iff]

theorem locate_of_unnamed (h : ¬ ((1 ≤ mark ∧ mark ≤ 65535) ∧ (1 ≤ slot ∧ slot ≤ 48) ∧ (Map.find s.store.slots slot).isSome)) :
    locate mark slot s.store (atOwner 0x25 tag s) = .error .range := by
  refine need_of_false ?_
  rwa [Bool.and_eq_true, isId_eq_true_iff, isSlot_eq_true_iff]

theorem locate_of_named (h : (1 ≤ mark ∧ mark ≤ 65535) ∧ (1 ≤ slot ∧ slot ≤ 48) ∧ (Map.find s.store.slots slot).isSome) :
    locate mark slot s.store (atOwner 0x25 tag s) = must (pieceOf s.toPart mark) .unknown fun q =>
      need (q.place == .unlocated) .state
        (need (placementTest s.store s.toPart q.length q.mass none slot) .range
          (.ok { part := foundOn mark slot q (atOwner 0x25 tag s)
                 fields := pieceFields (foundOn mark slot q (atOwner 0x25 tag s)) mark q })) :=
  need_of_true (by rwa [Bool.and_eq_true, isId_eq_true_iff, isSlot_eq_true_iff])

theorem removeRequest_of_id (h1 : 1 ≤ mark) (h2 : mark ≤ 65535) :
    removeRequest mark s.store (atOwner 0x26 tag s) = must (pieceOf s.toPart mark) .unknown fun q =>
      need (q.place == .unlocated) .state
        (.ok { part := removePiece mark (atOwner 0x26 tag s)
               fields := pieceFields (removePiece mark (atOwner 0x26 tag s)) mark q }) :=
  need_of_true (isId_eq_true_iff.mpr ⟨h1, h2⟩)

/-- The piece as LOCATE leaves it (R112). -/
def foundPiece (slot : Nat) (q : Piece) (p : Part) : Piece :=
  { q with place := .slot slot ((slotOf p slot).stack.length + 1), released := false,
           condition := locatedCondition q.condition }

theorem pieceOf_foundOn (p : Part) : pieceOf (foundOn mark slot q p) mark = some (foundPiece slot q p) := by
  simp [foundOn, stockChange, pushPiece, foundPiece, pieceOf, putPiece]

/-- The records once an UNLOCATED piece is gone (R113). -/
theorem removePiece_of_unlocated {p : Part} {r : Pour} (hq : pieceOf p mark = some q) (hplace : q.place = .unlocated)
    (hr : pourOf p q.pour = some r) : removePiece mark p = { p with
      sm := { p.sm with pieces := Map.del p.sm.pieces mark }
      bs := { p.bs with pours := if r.count - 1 = 0 ∧ r.current = false then Map.del p.bs.pours q.pour
                else Map.put p.bs.pours q.pour { r with count := r.count - 1 } }
      evt := { changed := p.evt.changed ++ [], scan := true } } := by
  have hstay : withoutMark mark q p = p := by simp only [withoutMark, hplace]
  have hr' : pourOf (dropPiece mark p) q.pour = some r := hr
  rw [removePiece_of_some hq, hstay, pieceGone, hr']
  dsimp only
  rw [settlePour]
  split <;> rfl

end located

/-- Settles O37: the placement test, then the two requests for a piece that no record places. -/
theorem locateAndRemove : Obligations.LocateAndRemove := by
  refine ⟨fun g p len mass source n _ => ?_, fun s tag mark hready => ⟨fun slot hnot =>
    refusedWith_byPart hready rfl (locate_of_unnamed hnot), fun hnot => refusedWith_byPart hready rfl ?_,
    fun h1 h2 hnone => ⟨fun slot h3 h4 hcfg => refusedWith_byPart hready rfl ?_, refusedWith_byPart hready rfl ?_⟩,
    fun q h1 h2 hq => ⟨fun slot h3 h4 hcfg => ⟨fun hplace => refusedWith_byPart hready rfl ?_,
      fun hplace hfit => refusedWith_byPart hready rfl ?_, fun hplace hfit => ?_⟩,
      fun hplace => refusedWith_byPart hready rfl ?_, fun hplace r hr => ?_⟩⟩⟩
  · have htop : (∀ q, (slotOf p n).stack.getLast?.bind (pieceOf p) = some q → len ≤ q.length) ↔
        ∀ top q, (slotOf p n).stack.getLast? = some top → pieceOf p top = some q → len ≤ q.length := by
      simp only [Option.bind_eq_some_iff, forall_exists_index, and_imp]
      exact forall_comm
    rw [placementTest_eq_true_iff, stackMass_eq]
    simp only [htop]
  · exact need_of_false (by rwa [isId_eq_true_iff])
  · rw [locate_of_named ⟨⟨h1, h2⟩, ⟨h3, h4⟩, hcfg⟩, hnone, must_none]
  · rw [removeRequest_of_id h1 h2, hnone, must_none]
  · rw [locate_of_named ⟨⟨h1, h2⟩, ⟨h3, h4⟩, hcfg⟩, hq, must_some]
    exact need_of_false (by simpa using hplace)
  · rw [locate_of_named ⟨⟨h1, h2⟩, ⟨h3, h4⟩, hcfg⟩, hq, must_some, need_of_true (beq_iff_eq.mpr hplace)]
    exact need_of_false (by rw [hfit]; exact Bool.false_ne_true)
  · intro was r
    have htaken := locate_of_named (s := s) (tag := tag) (mark := mark) ⟨⟨h1, h2⟩, ⟨h3, h4⟩, hcfg⟩
    rw [hq, must_some, need_of_true (beq_iff_eq.mpr hplace), need_of_true hfit] at htaken
    have hfields : pieceFields (foundOn mark slot q (atOwner 0x25 tag s)) mark q = standingFields r := by
      rw [pieceFields, pieceOf_foundOn]
      rfl
    rw [hfields] at htaken
    refine runsTo_mono (ended_byPart hready rfl htaken rfl) fun t ⟨hended, hanswered⟩ => ?_
    intro u
    have hscan : (foundOn mark slot q (atOwner 0x25 tag s)).evt.scan = true := rfl
    exact ⟨hended.settles rfl, fun hspared => ⟨hended.scanned (.inl hspared) hscan rfl,
      hended.told (.inl hspared) (ns := []) rfl (sameNotices_atOwner 0x25 tag s)⟩, hanswered⟩
  · rw [removeRequest_of_id h1 h2, hq, must_some]
    exact need_of_false (by simpa using hplace)
  · have htaken := removeRequest_of_id (s := s) (tag := tag) h1 h2
    rw [hq, must_some, need_of_true (beq_iff_eq.mpr hplace)] at htaken
    have hfields : pieceFields (removePiece mark (atOwner 0x26 tag s)) mark q = standingFields q := by
      rw [pieceFields, pieceOf_removePiece, if_pos rfl]
      rfl
    rw [hfields, removePiece_of_unlocated (p := atOwner 0x26 tag s) hq hplace hr] at htaken
    refine runsTo_mono (ended_byPart hready rfl htaken rfl) fun t ⟨hended, hanswered⟩ => ?_
    intro left u
    exact ⟨hended.settles rfl, hended.scanned (noWithdrawal_of_unchanged rfl) rfl rfl,
      hended.told (noWithdrawal_of_unchanged rfl) (ns := []) rfl (sameNotices_atOwner 0x26 tag s), hanswered⟩

/-! ### The outcome for an area (R49) -/

theorem areaLost_eq (p : Part) (r : AreaRecord) :
    areaLost p r = r.node.any fun a => (nodeOf p a).any fun nd => nd.standing == .lost := by
  unfold areaLost nodeLost
  cases r.node with
  | none => rfl
  | some a => cases h : nodeOf p a <;> simp [h]

theorem validity_eq_valid_iff {v : Int} {age limit : Nat} {lost : Bool} :
    validity (some v) age lost limit = .valid ↔ lost = false ∧ -400 ≤ v ∧ v ≤ 1250 ∧ age < limit := by
  unfold validity
  dsimp only
  split_ifs <;> simp_all
  all_goals omega

/-- The first of R43's conditions that fails, by its place among them. -/
theorem validity_eq_iff {value : Option Int} {age limit : Nat} {lost : Bool} {cause : Validity} :
    [Validity.noneReceived, .lost, .opened, .range, .stale, .valid][[value.isNone, lost, value == some (-32768),
      value.any fun v => decide (v < -400 ∨ 1250 < v), decide (limit ≤ age)].idxOf true]? = some cause ↔
    validity value age lost limit = cause := by
  cases value with
  | none => simp [validity]
  | some v =>
    unfold validity
    dsimp only
    split_ifs with hlost hopen hrange hstale
    · simp [hlost]
    · simp [hlost, hopen]
    · have houtside : (decide (v < -400) || decide (1250 < v)) = true := by simpa using hrange
      simp [hlost, hopen, houtside]
    all_goals have hinside : (decide (v < -400) || decide (1250 < v)) = false := by simpa using hrange
    · simp [hlost, hopen, hinside, hstale]
    · simp [hlost, hopen, hinside, hstale]

theorem areaOutcome_eq (p : Part) (limit area : Nat) :
    areaOutcome p limit area =
      match (areaRecord p area).value with
      | none => .unmeasured .noneReceived
      | some v => if validity (some v) (areaRecord p area).age (areaLost p (areaRecord p area)) limit = .valid
          then .measured v
          else .unmeasured (validity (some v) (areaRecord p area).age (areaLost p (areaRecord p area)) limit) := by
  unfold areaOutcome
  dsimp only
  cases (areaRecord p area).value with
  | none => rfl
  | some v => cases hvalid : validity (some v) (areaRecord p area).age (areaLost p (areaRecord p area)) limit <;> simp [hvalid]

theorem areaOutcome_iff (p : Part) (limit area : Nat) :
    (∀ v, areaOutcome p limit area = .measured v ↔ (areaRecord p area).value = some v ∧
      validity (some v) (areaRecord p area).age (areaLost p (areaRecord p area)) limit = .valid) ∧
    ∀ cause, areaOutcome p limit area = .unmeasured cause ↔ cause ≠ .valid ∧
      validity (areaRecord p area).value (areaRecord p area).age (areaLost p (areaRecord p area)) limit = cause := by
  rw [areaOutcome_eq]
  cases (areaRecord p area).value with
  | none => simp [validity]
  | some w =>
    by_cases hvalid : validity (some w) (areaRecord p area).age (areaLost p (areaRecord p area)) limit = .valid
    · simp only [hvalid, if_true]; grind
    · simp only [hvalid, if_false]; grind

/-- What the forming of the four areas' temperatures stores. -/
theorem areaRecord_formAreas (limit : Nat) (p : Part) {a : Nat} (ha : 1 ≤ a ∧ a ≤ 4) :
    areaRecord (formAreas limit p) a = { areaRecord p a with result := some (areaOutcome p limit a), resultAge := 0 } := by
  have hsame (area : Nat) (r : AreaResult) (q : Part) :
      areaRecord (storeAreaResult area r q) area = { areaRecord q area with result := some r, resultAge := 0 } := by
    simp [areaRecord, storeAreaResult, putAreaRecord]
  have hother {area b : Nat} (hb : b ≠ area) (r : AreaResult) (q : Part) :
      areaRecord (storeAreaResult area r q) b = areaRecord q b := by
    simp [areaRecord, storeAreaResult, putAreaRecord, hb]
  simp only [formAreas, List.foldl_cons, List.foldl_nil]
  obtain rfl | rfl | rfl | rfl : a = 1 ∨ a = 2 ∨ a = 3 ∨ a = 4 := by omega
  all_goals simp [hsame, hother]

theorem tu_zones_formAreas (limit : Nat) (p : Part) : (formAreas limit p).tu.zones = p.tu.zones := rfl

/-! ### The credit of a yard expiry (R103) -/

/-- A piece credited with these amounts, one after another. -/
def withCredits (ks : List Nat) (q : Piece) : Piece := { q with acc := ks.foldl satAdd32 q.acc }

theorem pieceOf_creditPieces (k : Nat) (marks : List Nat) (p : Part) (mark : Nat) :
    pieceOf (marks.foldl (creditPiece k) p) mark =
      (pieceOf p mark).map (withCredits ((marks.filter (· == mark)).map fun _ => k)) := by
  induction marks generalizing p with
  | nil => cases hq : pieceOf p mark <;> simp [hq, withCredits]
  | cons m marks ih =>
    rw [List.foldl_cons, ih, creditPiece]
    by_cases hm : m = mark
    · subst hm
      cases hq : pieceOf p m with
      | none => simp [hq]
      | some q => simp [pieceOf_putPiece, withCredits]
    · have hkeep : ∀ q, pieceOf (putPiece m q p) mark = pieceOf p mark := fun q => by
        rw [pieceOf_putPiece, if_neg (Ne.symm hm)]
      cases hq : pieceOf p m with
      | none => simp [hm]
      | some q => simp [hm, hkeep]

/-- What a mark's places in the stacks of these slots earn it. -/
def earnedIn (g : Store) (temps : Nat → Option Int) (dt : Nat) (p : Part) (mark : Nat) (slots : List Nat) : List Nat :=
  slots.flatMap fun n => ((slotOf p n).stack.filter (· == mark)).map fun _ => slotCredit g temps dt n

theorem pieceOf_creditSlots (g : Store) (temps : Nat → Option Int) (dt : Nat) (slots : List Nat) (p : Part) (mark : Nat) :
    pieceOf (slots.foldl (creditSlot g temps dt) p) mark =
      (pieceOf p mark).map (withCredits (earnedIn g temps dt p mark slots)) := by
  induction slots generalizing p with
  | nil => cases hq : pieceOf p mark <;> simp [hq, withCredits, earnedIn]
  | cons n slots ih =>
    have hslots : (slotOf (creditSlot g temps dt p n)) = slotOf p := by
      funext k
      rw [slotOf, (creditSlot_keeps g temps dt p n).2.2.2.2.2.2.2.2.2.2.1, slotOf]
    rw [List.foldl_cons, ih, earnedIn, hslots, creditSlot, pieceOf_creditPieces, Option.map_map]
    refine congrArg (fun f => (pieceOf p mark).map f) (funext fun q => ?_)
    simp [withCredits, earnedIn, List.foldl_append]

/-! ### Promotion (R104) -/

/-- A piece on a slot that is to become SHIPPABLE. -/
def isDue (g : Store) (p : Part) (mark : Nat) : Prop :=
  ∃ q n k, pieceOf p mark = some q ∧ q.place = .slot n k ∧ promotable g p q = true

/-- PIECE SHIPPABLE for a mark. -/
def shippableNotice (p : Part) (mark : Nat) : Option Notice :=
  (pieceOf p mark).bind fun q => match q.place with
    | .slot n k => some (.pieceShippable mark n k (reported q.acc))
    | _ => none

theorem promotePiece_of_not_due {g : Store} {p : Part} {mark : Nat} (h : ¬ isDue g p mark) : promotePiece g p mark = p := by
  unfold promotePiece
  split
  · rfl
  · next q hq =>
    split
    · next n k hplace => exact if_neg fun hdue => h ⟨q, n, k, hq, hplace, hdue⟩
    · rfl

theorem promotePiece_of_due {g : Store} {p : Part} {mark : Nat} {q : Piece} {n k : Nat} (hq : pieceOf p mark = some q)
    (hplace : q.place = .slot n k) (hdue : promotable g p q = true) :
    promotePiece g p mark = raise (.pieceShippable mark n k (reported q.acc))
      (stockChange [mark] (putPiece mark { q with condition := .shippable } p)) := by
  simp [promotePiece, hq, hplace, hdue, setCondition]

/-- What the promotion of pieces named by a list of marks leaves: those promoted, once each, in the order of the list. -/
structure Promoted (g : Store) (p t : Part) (marks ms : List Nat) : Prop where
  nodup : ms.Nodup
  mem_iff : ∀ m, m ∈ ms ↔ m ∈ marks ∧ isDue g p m
  piece : ∀ m, pieceOf t m = (pieceOf p m).map fun q => if m ∈ ms then { q with condition := .shippable } else q
  link : t.cl = (ms.filterMap (shippableNotice p)).foldl raiseLink p.cl
  changed : t.evt.changed = p.evt.changed ++ ms
  scan : t.evt.scan = (p.evt.scan || !ms.isEmpty)

theorem promoted_nil (g : Store) (p : Part) : Promoted g p p [] [] where
  nodup := List.nodup_nil
  mem_iff := by simp
  piece := by simp
  link := rfl
  changed := by simp
  scan := by simp

theorem promotable_congr {g : Store} {p t : Part} (h : t.bs = p.bs) (q : Piece) : promotable g t q = promotable g p q := by
  unfold promotable underReview pourOf
  rw [h]

theorem raise_rest (n : Notice) (p : Part) : (raise n p).sm = p.sm ∧ (raise n p).bs = p.bs ∧ (raise n p).evt = p.evt := by
  unfold raise
  split <;> exact ⟨rfl, rfl, rfl⟩

theorem promoted_promotePieces (g : Store) (marks : List Nat) (p : Part) :
    ∃ ms, Promoted g p (marks.foldl (promotePiece g) p) marks ms := by
  induction marks generalizing p with
  | nil => exact ⟨[], promoted_nil g p⟩
  | cons mark marks ih =>
    rw [List.foldl_cons]
    by_cases hdue : isDue g p mark
    · obtain ⟨q, n, k, hq, hplace, hprom⟩ := hdue
      rw [promotePiece_of_due hq hplace hprom]
      obtain ⟨hsm, hbs, hevt⟩ := raise_rest (.pieceShippable mark n k (reported q.acc))
        (stockChange [mark] (putPiece mark { q with condition := .shippable } p))
      have hcl := raise_cl (.pieceShippable mark n k (reported q.acc))
        (stockChange [mark] (putPiece mark { q with condition := .shippable } p))
      generalize raise (.pieceShippable mark n k (reported q.acc))
        (stockChange [mark] (putPiece mark { q with condition := .shippable } p)) = p' at hsm hbs hevt hcl ⊢
      obtain ⟨ms, hms⟩ := ih p'
      have hpiece (m : Nat) : pieceOf p' m = if m = mark then some { q with condition := .shippable } else pieceOf p m := by
        rw [pieceOf, hsm]
        exact pieceOf_putPiece mark m _ p
      have hdues (m : Nat) : isDue g p' m ↔ m ≠ mark ∧ isDue g p m := by
        unfold isDue
        rw [hpiece]
        by_cases hm : m = mark
        · simp [hm, promotable]
        · simp only [if_neg hm, promotable_congr hbs]
          simp [hm]
          rfl
      have hnotice : shippableNotice p mark = some (.pieceShippable mark n k (reported q.acc)) := by
        simp [shippableNotice, hq, hplace]
      have hmem : mark ∉ ms := fun hm => ((hdues mark).mp ((hms.mem_iff mark).mp hm).2).1 rfl
      refine ⟨mark :: ms, List.nodup_cons.mpr ⟨hmem, hms.nodup⟩, fun m => ?_, fun m => ?_, ?_, ?_, ?_⟩
      · rw [List.mem_cons, List.mem_cons, hms.mem_iff, hdues]
        by_cases hm : m = mark
        · simp only [hm, true_or, true_iff, true_and]
          exact ⟨q, n, k, hq, hplace, hprom⟩
        · simp [hm]
      · rw [hms.piece, hpiece]
        by_cases hm : m = mark
        · simp [hm, hq, hmem]
        · simp [hm]
      · have hrest : ms.filterMap (shippableNotice p') = ms.filterMap (shippableNotice p) :=
          List.filterMap_congr fun m hm => by
            have hne : m ≠ mark := fun heq => hmem (heq ▸ hm)
            rw [shippableNotice, hpiece, if_neg hne, shippableNotice]
        rw [hms.link, hcl, List.filterMap_cons, hnotice, hrest]
        rfl
      · rw [hms.changed, hevt]
        simp [stockChange, putPiece]
      · rw [hms.scan, hevt]
        simp [stockChange]
    · rw [promotePiece_of_not_due hdue]
      obtain ⟨ms, hms⟩ := ih p
      refine ⟨ms, hms.nodup, fun m => ?_, hms.piece, hms.link, hms.changed, hms.scan⟩
      rw [hms.mem_iff, List.mem_cons]
      constructor
      · exact fun ⟨hm, hd⟩ => ⟨.inr hm, hd⟩
      · rintro ⟨rfl | hm, hd⟩
        · exact absurd hd hdue
        · exact ⟨hm, hd⟩

theorem promoteSlots_eq (g : Store) (slots : List Nat) (p : Part) :
    slots.foldl (promoteSlot g) p = (slots.flatMap fun n => (slotOf p n).stack).foldl (promotePiece g) p := by
  induction slots generalizing p with
  | nil => rfl
  | cons n slots ih =>
    have hslots : slotOf (promoteSlot g p n) = slotOf p := by
      funext k
      rw [slotOf, (promoteSlot_keeps g p n).2.2.2.2.2.2.2.2.2.1, slotOf]
    rw [List.foldl_cons, ih, hslots, List.flatMap_cons, List.foldl_append, promoteSlot]

theorem mem_keys_of_find {α : Type} {m : Map α} {k : Nat} {v : α} (h : Map.find m k = some v) : k ∈ Map.keys m := by
  induction m with
  | nil => simp [Map.find] at h
  | cons e m ih =>
    rw [Map.find] at h
    split at h
    · next heq => simp [Map.keys, heq]
    · exact List.mem_cons_of_mem _ (ih h)

/-- No more pieces are promoted than there are records. -/
theorem Promoted.length_le {g : Store} {p t o : Part} {marks ms : List Nat} (h : Promoted g p t marks ms)
    (hrecords : ∀ m, pieceOf p m ≠ none → pieceOf o m ≠ none) : ms.length ≤ o.sm.pieces.length := by
  have hsub : ms ⊆ Map.keys o.sm.pieces := fun m hm => by
    obtain ⟨q, n, k, hq, -⟩ := ((h.mem_iff m).mp hm).2
    obtain ⟨r, hr⟩ := Option.ne_none_iff_exists'.mp (hrecords m (by simp [hq]))
    exact mem_keys_of_find hr
  have hle := (List.subperm_of_subset h.nodup hsub).length_le
  simpa [Map.keys] using hle

/-! ### A yard expiry -/

/-- The records at a yard expiry once the areas' temperatures are formed and every stacked piece is credited. -/
def creditedYard (g : Store) (dt : Nat) (p : Part) : Part :=
  (Map.keys p.sm.slots).foldl (creditSlot g (areaTemp p (dt * 1000)) dt) (formAreas (dt * 1000) p)

/-- The marks in the stacks of the yard, slot by slot. -/
def stackedMarks (p : Part) : List Nat := (Map.keys p.sm.slots).flatMap fun n => (slotOf p n).stack

theorem creditSlots_keeps (g : Store) (temps : Nat → Option Int) (dt : Nat) (slots : List Nat) (p : Part) :
    (slots.foldl (creditSlot g temps dt) p).bs = p.bs ∧ (slots.foldl (creditSlot g temps dt) p).tu = p.tu ∧
    (slots.foldl (creditSlot g temps dt) p).cl = p.cl ∧ (slots.foldl (creditSlot g temps dt) p).evt = p.evt ∧
    (slots.foldl (creditSlot g temps dt) p).sm.slots = p.sm.slots := by
  induction slots generalizing p with
  | nil => exact ⟨rfl, rfl, rfl, rfl, rfl⟩
  | cons n slots ih => rw [List.foldl_cons]; simp [ih]

theorem promotePieces_tu (g : Store) (marks : List Nat) (p : Part) : (marks.foldl (promotePiece g) p).tu = p.tu := by
  induction marks generalizing p with
  | nil => rfl
  | cons m marks ih => rw [List.foldl_cons, ih]; simp

theorem serveYard_eq (g : Store) (dt : Nat) (p : Part) :
    serveYard g dt p = (stackedMarks p).foldl (promotePiece g) (creditedYard g dt p) := by
  obtain ⟨-, -, -, -, hslots⟩ := creditSlots_keeps g (areaTemp p (dt * 1000)) dt (Map.keys p.sm.slots) (formAreas (dt * 1000) p)
  have hsm : (formAreas (dt * 1000) p).sm = p.sm := (formAreas_keeps _ _).2.2.2.1
  have hslot : slotOf (creditedYard g dt p) = slotOf p := by
    funext k
    rw [slotOf, creditedYard, hslots, hsm, slotOf]
  rw [serveYard, promoteSlots_eq, stackedMarks]
  simp only [hsm]
  rw [← hslot, creditedYard]

theorem judged_eq_shippable_iff {g : Store} {q : Piece} :
    judged g q = .shippable ↔ ∃ e, product g q.product = some e ∧ e.ship ≤ reported q.acc := by
  unfold judged reported
  cases product g q.product with
  | none => simp
  | some e => simp [Nat.le_div_iff_mul_le (show 0 < Config.perDegreeHour by decide)]

theorem underReview_eq_false_iff {p : Part} {q : Piece} :
    underReview p q = false ↔ ∀ o, pourOf p q.pour = some o → o.review = false := by
  unfold underReview
  cases pourOf p q.pour <;> simp

theorem promotable_iff {g : Store} {p : Part} {q : Piece} :
    promotable g p q = true ↔ q.condition = .curing ∧ (∃ e, product g q.product = some e ∧ e.ship ≤ reported q.acc) ∧
      (q.released = true ∨ ∀ o, pourOf p q.pour = some o → o.review = false) := by
  rw [promotable, Bool.and_eq_true, Bool.and_eq_true, beq_iff_eq, beq_iff_eq, Bool.or_eq_true, judged_eq_shippable_iff,
    Bool.not_eq_true', underReview_eq_false_iff, and_assoc, or_comm]

theorem slotCredit_eq (g : Store) (p : Part) (limit dt n : Nat) :
    slotCredit g (areaTemp p limit) dt n =
      match areaOutcome p limit (((Map.find g.slots n).map (·.area)).getD 0) with
      | .measured temp => (max (temp - g.plant.datum) 0).toNat * dt
      | .unmeasured _ => 0 := by
  have harea : areaOfSlot g n = ((Map.find g.slots n).map (·.area)).getD 0 := by
    unfold areaOfSlot
    cases Map.find g.slots n <;> rfl
  rw [slotCredit, areaTemp, harea]
  cases areaOutcome p limit (((Map.find g.slots n).map (·.area)).getD 0) <;> rfl

/-- What a yard expiry leaves (R103, R104): the areas formed, each piece credited, and the pieces due promoted. -/
theorem serveYard_result (g : Store) (dt : Nat) (p : Part) : ∃ ms,
    Promoted g (creditedYard g dt p) (serveYard g dt p) (stackedMarks p) ms ∧
    (creditedYard g dt p).cl = p.cl ∧ (creditedYard g dt p).evt = p.evt ∧ (creditedYard g dt p).bs = p.bs ∧
    (serveYard g dt p).tu = (formAreas (dt * 1000) p).tu ∧
    ∀ mark, pieceOf (creditedYard g dt p) mark = (pieceOf p mark).map
      (withCredits (earnedIn g (areaTemp p (dt * 1000)) dt p mark (Map.keys p.sm.slots))) := by
  rw [serveYard_eq]
  obtain ⟨hbs, htu, hcl, hevt, -⟩ :=
    creditSlots_keeps g (areaTemp p (dt * 1000)) dt (Map.keys p.sm.slots) (formAreas (dt * 1000) p)
  obtain ⟨fmc, fbs, fcc, fsm, fmp, fA, fB, ffl, fcl, fevt⟩ := formAreas_keeps (dt * 1000) p
  obtain ⟨ms, hms⟩ := promoted_promotePieces g (stackedMarks p) (creditedYard g dt p)
  refine ⟨ms, hms, hcl.trans fcl, hevt.trans fevt, hbs.trans fbs, (promotePieces_tu g _ _).trans htu, fun mark => ?_⟩
  have hslot : slotOf (formAreas (dt * 1000) p) = slotOf p := by
    funext k
    rw [slotOf, fsm, slotOf]
  rw [creditedYard, pieceOf_creditSlots, pieceOf, fsm, earnedIn, hslot]
  rfl

/-- A piece in a stack: some slot's stack has it exactly where the yard's stacked marks do. -/
theorem mem_stackedMarks {p : Part} {mark : Nat} : mark ∈ stackedMarks p ↔ ∃ n, mark ∈ (slotOf p n).stack := by
  rw [stackedMarks, List.mem_flatMap]
  refine ⟨fun ⟨n, _, h⟩ => ⟨n, h⟩, fun ⟨n, h⟩ => ⟨n, ?_, h⟩⟩
  cases hfind : Map.find p.sm.slots n with
  | none => simp [slotOf, hfind, Slot.clear] at h
  | some r => exact mem_keys_of_find hfind

theorem mem_unheard_of_room {s t : State} {n : Notice} {ns : List Notice} (h : told s t ns) (hn : n ∈ ns)
    (room : s.cl.notices.length + ns.length ≤ 24) : n ∈ unheard t.cl := by
  rw [h.1, List.take_of_length_le (by omega)]
  exact List.mem_append_right _ hn

/-- The piece with the credits of a yard expiry is promoted by the conditions of R104. -/
theorem Promoted.mem_iff_of_piece {g : Store} {p o t : Part} {marks ms : List Nat} (h : Promoted g p t marks ms) {mark : Nat}
    {q : Piece} (hq : pieceOf p mark = some q) (hbs : p.bs = o.bs) :
    mark ∈ ms ↔ (q.condition = .curing ∧ mark ∈ marks ∧ (∃ e, product g q.product = some e ∧ e.ship ≤ reported q.acc) ∧
      (q.released = true ∨ ∀ r, pourOf o q.pour = some r → r.review = false)) ∧ ∃ n k, q.place = .slot n k := by
  have hpour : pourOf p q.pour = pourOf o q.pour := by rw [pourOf, hbs, pourOf]
  rw [h.mem_iff, isDue]
  simp only [hq, Option.some.injEq, exists_and_left, exists_eq_left', promotable_iff, hpour]
  grind

/-- Settles O38: TU forms the areas' temperatures, SM credits the stacked pieces and promotes those due, once each. -/
theorem yardExpiryCredits : Obligations.YardExpiryCredits := by
  refine ⟨fun p limit area => ?_, fun s hpower => ?_⟩
  · intro r lost fails
    have hlost : areaLost p r = lost := areaLost_eq p r
    obtain ⟨hmeasured, hunmeasured⟩ := areaOutcome_iff p limit area
    refine ⟨fun v => ?_, fun cause => ?_⟩
    · rw [hmeasured, validity_eq_valid_iff, hlost]
    · rw [hunmeasured, validity_eq_iff, hlost]
  intro dt credits
  have hexec : exec .yardIntervalExpiry s = .next (event (yardExpiry s.store) s) := rfl
  refine ⟨_, hexec, ?_⟩
  have hended := event_ended hpower (yardExpiry s.store)
  have hreply : noReply s (event (yardExpiry s.store) s) := noReply_of_link (by simp)
  obtain ⟨p, hp⟩ : ∃ p, p = restartYard s.store { s.toPart with evt := .none } := ⟨_, rfl⟩
  have hserved : yardExpiry s.store { s.toPart with evt := .none } = serveYard s.store dt p := by rw [hp]; rfl
  rw [hserved] at hended
  generalize event (yardExpiry s.store) s = t at hended hreply ⊢
  obtain ⟨ms, hms, hcl, hevt, hbs, htu, hcredited⟩ := serveYard_result s.store dt p
  obtain ⟨kmc, kbs, kcc, kmp, kA, kB, kfl, kcl, kslots, ktimer⟩ := serveYard_keeps s.store dt p
  have hpiece (mark : Nat) : pieceOf p mark = pieceOf s.toPart mark := by rw [hp]; rfl
  have hslots : slotOf p = slotOf s.toPart := by rw [hp]; rfl
  have houtcome (a : Nat) : areaOutcome p (dt * 1000) a = areaOutcome s.toPart (dt * 1000) a := by rw [hp]; rfl
  have hpour (k : Nat) : pourOf p k = pourOf s.toPart k := by rw [hp]; rfl
  have hearned (mark : Nat) :
      earnedIn s.store (areaTemp p (dt * 1000)) dt p mark (Map.keys p.sm.slots) = credits mark := by
    have hkeys : Map.keys p.sm.slots = Map.keys s.sm.slots := by rw [hp]; rfl
    rw [earnedIn, hslots, hkeys]
    refine congrArg (fun f => (Map.keys s.sm.slots).flatMap f) (funext fun n => ?_)
    rw [slotCredit_eq, houtcome] <;> rfl
  obtain ⟨tmc, tbs, tcc, ttu, tpieces, ttimer, -⟩ := hended.keeps
  have hafter (mark : Nat) : pieceOf t.toPart mark = (pieceOf s.toPart mark).map fun q =>
      if mark ∈ ms then { withCredits (credits mark) q with condition := .shippable } else withCredits (credits mark) q := by
    rw [pieceOf, tpieces]
    refine (hms.piece mark).trans ?_
    rw [hcredited, hearned, hpiece, Option.map_map]
    rfl
  have hpromoted {mark : Nat} {q : Piece} (hq : pieceOf s.toPart mark = some q) :=
    hms.mem_iff_of_piece (o := s.toPart) (mark := mark) (q := withCredits (credits mark) q)
      (by rw [hcredited, hearned, hpiece, hq]; rfl) (hbs.trans (by rw [hp]; rfl))
  have hplain : noWithdrawal (serveYard s.store dt p) := .inr fun mark hmark q hq => by
    rw [hms.changed, hevt, hp] at hmark
    have hmem : mark ∈ ms := by simpa [restartYard, Changes.none] using hmark
    rw [hms.piece] at hq
    obtain ⟨r, -, rfl⟩ := Option.map_eq_some_iff.mp hq
    refine .inl ?_
    simp [hmem]
  have htold : told s t (ms.filterMap (shippableNotice (creditedYard s.store dt p))) :=
    hended.told hplain hms.link (by rw [hcl, hp]; exact ⟨rfl, rfl, rfl, rfl⟩)
  have hlength : ms.length ≤ s.sm.pieces.length := hms.length_le fun m hm => by
    rw [hcredited, hpiece] at hm
    simpa using hm
  refine ⟨hended.store_eq, tmc.trans (kmc.trans (by rw [hp]; rfl)), tbs.trans (kbs.trans (by rw [hp]; rfl)),
    tcc.trans (kcc.trans (by rw [hp]; rfl)), ?_, hended.pending_eq, hreply, ttimer.trans (ktimer.trans (by rw [hp]; rfl)),
    fun n => (hended.sameStacks (kslots.trans (by rw [hp]; rfl)) n).1, fun mark hnone => by rw [hafter, hnone]; rfl, fun mark q hq => ?_,
    ?_, fun a hlow hhigh => ?_⟩
  · rw [ttu, htu, hp]
    rfl
  · have hdue := hpromoted hq
    rw [mem_stackedMarks, hslots] at hdue
    by_cases hmem : mark ∈ ms
    · refine ⟨{ withCredits (credits mark) q with condition := .shippable }, by rw [hafter, hq]; exact congrArg some (if_pos hmem),
        rfl, rfl, rfl, rfl, rfl, rfl, rfl, rfl, fun hnot => absurd (hdue.mp hmem) hnot, fun n k _ hplace => ⟨rfl, fun room => ?_⟩⟩
      refine mem_unheard_of_room htold (List.mem_filterMap.mpr ⟨mark, hmem, ?_⟩) ?_
      · simp only [shippableNotice, hcredited, hearned, hpiece, hq, Option.map_some, Option.bind_some]
        rw [show (withCredits (credits mark) q).place = .slot n k from hplace]
      · have := List.length_filterMap_le (shippableNotice (creditedYard s.store dt p)) ms
        omega
    · exact ⟨withCredits (credits mark) q, by rw [hafter, hq]; exact congrArg some (if_neg hmem),
        rfl, rfl, rfl, rfl, rfl, rfl, rfl, rfl, fun _ => rfl,
        fun n k due hplace => absurd (hdue.mpr ⟨due, n, k, hplace⟩) hmem⟩
  · have hany : (∃ mark q r, pieceOf s.toPart mark = some q ∧ pieceOf t.toPart mark = some r ∧
        q.condition ≠ .shippable ∧ r.condition = .shippable) ↔ ms ≠ [] := by
      constructor
      · rintro ⟨mark, q, r, hq, hr, hbefore, hnow⟩ rfl
        rw [hafter, hq] at hr
        obtain rfl := Option.some.inj hr
        exact hbefore hnow
      · intro hne
        obtain ⟨mark, hmem⟩ := List.exists_mem_of_ne_nil ms hne
        obtain ⟨r, n, k, hr, -⟩ := ((hms.mem_iff mark).mp hmem).2
        rw [hcredited, hpiece] at hr
        obtain ⟨q, hq, -⟩ := Option.map_eq_some_iff.mp hr
        obtain ⟨⟨hcuring, -⟩, -⟩ := (hpromoted hq).mp hmem
        refine ⟨mark, q, _, hq, by rw [hafter, hq]; exact congrArg some (if_pos hmem), ?_, rfl⟩
        rw [show q.condition = .curing from hcuring]
        decide
    intro u promoted
    have hu : { u with cl := (serveYard s.store dt p).cl, evt := (serveYard s.store dt p).evt } = serveYard s.store dt p := by
      rw [hp] at kmc kbs kcc kmp kA kB kfl kslots
      simp only [u, ttu, tpieces, ttimer]
      rw [hp]
      generalize serveYard s.store dt (restartYard s.store { s.toPart with evt := .none }) = w at *
      obtain ⟨mc, bs, cc, tu, ⟨pieces, slots, timer⟩, mp, csA, csB, fl, cl, evt⟩ := w
      obtain rfl : mc = s.mc := kmc
      obtain rfl : bs = s.bs := kbs
      obtain rfl : cc = s.cc := kcc
      obtain rfl : mp = s.mp := kmp
      obtain rfl : csA = s.csA := kA
      obtain rfl : csB = s.csB := kB
      obtain rfl : fl = s.fl := kfl
      obtain rfl : slots = s.sm.slots := kslots
      rfl
    have hscan : (serveYard s.store dt p).evt.scan = !ms.isEmpty := by rw [hms.scan, hevt, hp]; rfl
    refine ⟨fun hprom => ?_, fun hprom => ?_⟩
    · have := hended.scanned hplain (by rw [hscan]; simpa using hany.mp hprom) (kmc.trans (by rw [hp]; rfl))
      rw [← hu] at this
      exact this
    · have := hended.becomes hplain (by rw [hscan]; simpa using mt hany.mpr hprom)
      rw [← hu] at this
      exact this
  · have : areaRecord t.toPart a = areaRecord (formAreas (dt * 1000) p) a := by rw [areaRecord, ttu, htu, areaRecord]
    rw [this, areaRecord_formAreas _ _ ⟨hlow, hhigh⟩, houtcome]
    exact ⟨rfl, by rw [hp]; rfl⟩

end Sys2Proof.Proofs
end

section
/-!
PROOFS. Starts and the two supplies (chapter 11): what a start leaves whatever was retained, and the entry to SETUP, which
closes every valve.
-/

namespace Sys2Proof.Proofs

open Sys2Proof.Machine

/-! ### Maps built from a list -/

section built

variable {α ε : Type} {key : ε → Nat} {val : ε → α}

theorem find_built {l : List ε} {m : Map α} {k : Nat} {x : α}
    (h : Map.find (l.foldl (fun m e => Map.put m (key e) (val e)) m) k = some x) :
    (∃ e ∈ l, key e = k ∧ val e = x) ∨ Map.find m k = some x := by
  induction l generalizing m with
  | nil => exact .inr h
  | cons e l ih =>
    rcases ih h with ⟨d, hd, hk⟩ | hm
    · exact .inl ⟨d, List.mem_cons_of_mem _ hd, hk⟩
    · by_cases hk : k = key e
      · rw [hk, Map.find_put_same] at hm
        exact .inl ⟨e, List.mem_cons_self, hk.symm, Option.some.inj hm⟩
      · rw [Map.find_put_other _ _ _ _ hk] at hm
        exact .inr hm

theorem find_built_there {l : List ε} {m : Map α} {k : Nat} (h : (∃ e ∈ l, key e = k) ∨ (Map.find m k).isSome) :
    (Map.find (l.foldl (fun m e => Map.put m (key e) (val e)) m) k).isSome := by
  induction l generalizing m with
  | nil => simpa using h
  | cons e l ih =>
    refine ih ?_
    by_cases hk : k = key e
    · exact .inr (by simp [hk])
    · rw [Map.find_put_other _ _ _ _ hk]
      rcases h with ⟨d, hd, hkey⟩ | hm
      · rcases List.mem_cons.mp hd with rfl | hd
        · exact absurd hkey.symm hk
        · exact .inl ⟨d, hd, hkey⟩
      · exact .inr hm

end built

theorem mem_numbered_of_getElem? {α : Type} {l : List α} {k : Nat} {z : α} {i : Nat} (h : l[i]? = some z) : (k + i, z) ∈ numbered k l := by
  induction l generalizing k i with
  | nil => simp at h
  | cons x l ih =>
    cases i with
    | zero => simp at h; simp [numbered, h]
    | succ i =>
      have := ih (k := k + 1) (i := i) (by simpa using h)
      rw [show k + 1 + i = k + (i + 1) by omega] at this
      exact List.mem_cons_of_mem _ this

/-- A zone that is configured is one of the configured zones. -/
theorem mem_allZones {g : Store} {bed zone : Nat} {z : ZoneCfg} (h : zoneCfg g bed zone = some z) : (bed, zone, z) ∈ allZones g := by
  unfold zoneCfg at h
  split at h
  · cases h
  · next hpos =>
    unfold zonesOf at h
    split at h
    · next cfg hcfg =>
      refine List.mem_flatMap.mpr ⟨(bed, cfg), Map.mem_of_find hcfg, List.mem_map.mpr ⟨(zone, z), ?_, rfl⟩⟩
      have := mem_numbered_of_getElem? (k := 1) h
      rwa [show 1 + (zone - 1) = zone by omega] at this
    · simp at h

/-! ### With no crane IDLE, and with the Field Link not at work -/

theorem scan_of_none_idle {g : Store} {p : Part} (h : ∀ c, (craneOf p c).state ≠ .idle) : scan g p = p := by
  have hfree (c : CraneId) : isFree p c = false := by
    rw [← Bool.not_eq_true]
    exact fun hc => h c (isFree_state hc)
  have hwalk (l : List Nat) : l.foldl (visit g) { part := p, dispatched := false, first := none } =
      { part := p, dispatched := false, first := none } := by
    induction l with
    | nil => rfl
    | cons n l ih => rw [List.foldl_cons, visit]; simp [hfree, ih]
  simp [scan, hwalk, giveWay]

theorem nextExchange_of_closed {g : Store} {p : Part} (h : p.fl.opened = false) : nextExchange g p = p := by
  simp [nextExchange, h]

theorem reoffer_of_none {g : Store} {c : CraneId} {p : Part} (h : holdsRefused p c = false) : reoffer g c p = p := by
  rw [holdsRefused, Bool.or_eq_false_iff, Option.isSome_eq_false_iff, Option.isSome_eq_false_iff, Option.isNone_iff_eq_none,
    Option.isNone_iff_eq_none] at h
  obtain ⟨hwaiting, hkept⟩ := h
  have hkeep : reofferKept g c p = p := by simp [reofferKept, hkept]
  simp [reoffer, hkeep, reofferStep, hwaiting]

/-- Where no supervisor holds a refused command, a freed entry of the queue stays free. -/
theorem entryFreed_of_none {g : Store} {p : Part} (h : ∀ c, holdsRefused p c = false) : entryFreed g p = p := by
  rw [entryFreed, h .A, Bool.false_and, if_neg Bool.false_ne_true, reoffer_of_none (h .A), reoffer_of_none (h .B)]

theorem holdsRefused_of_atReset {p : Part} (hA : p.csA = .atReset) (hB : p.csB = .atReset) (c : CraneId) :
    holdsRefused p c = false := by
  cases c <;> simp [holdsRefused, waitingCommand, craneOf, hA, hB, Crane.atReset]

/-! ### The entry to SETUP while the Field Link has not begun -/

/-- What an entry to SETUP adds before the Field Link begins: SET VALVE 0s queued, and openings wanted and handed 0. -/
structure ClosedAll (g : Store) (p q : Part) : Prop where
  rest : q = { p with cc := { p.cc with valves := q.cc.valves }, fl := { p.fl with queue := q.fl.queue } }
  queue : ∀ e ∈ q.fl.queue, e.cmd = .setValve 0 ∧ e.by_ = .cc ∧ (nodeOf p e.addr).isSome
  valves : ∀ k v, Map.find q.cc.valves k = some v → v.wanted = 0 ∧ (v.handed = none ∨ v.handed = some 0) ∧
    ∃ z ∈ allZones g, k = zoneKey z.1 z.2.1
  there : ∀ k, (Map.find p.cc.valves k).isSome → (Map.find q.cc.valves k).isSome

theorem enqueue_cases {e : Entry} {p : Part} :
    (enqueue e p).2 = { p with fl := { p.fl with queue := (enqueue e p).2.fl.queue } } ∧
    ∀ d ∈ (enqueue e p).2.fl.queue, d ∈ p.fl.queue ∨ d = e ∧ (nodeOf p e.addr).isSome := by
  unfold enqueue
  split
  · exact ⟨rfl, fun _ h => .inl h⟩
  · next nd hnd =>
    split_ifs
    · exact ⟨rfl, fun _ h => .inl h⟩
    · refine ⟨rfl, fun d hd => ?_⟩
      obtain ⟨x, hx, rfl⟩ := List.mem_map.mp hd
      split
      · exact .inr ⟨rfl, by simp [hnd]⟩
      · exact .inl hx
    · refine ⟨rfl, fun d hd => ?_⟩
      rcases List.mem_append.mp hd with hd | hd
      · exact .inl hd
      · exact .inr ⟨List.mem_singleton.mp hd, by simp [hnd]⟩
    · exact ⟨rfl, fun _ h => .inl h⟩

theorem ClosedAll.setQueue {g : Store} {p q : Part} (h : ClosedAll g p q) {l : List Entry}
    (hl : ∀ e ∈ l, e.cmd = .setValve 0 ∧ e.by_ = .cc ∧ (nodeOf p e.addr).isSome) :
    ClosedAll g p { q with fl := { q.fl with queue := l } } where
  rest := by
    conv_lhs => rw [h.rest]
  queue := hl
  valves := h.valves
  there := h.there

theorem ClosedAll.putValve {g : Store} {p q : Part} (h : ClosedAll g p q) {bed zone : Nat} {z : ZoneCfg}
    (hz : zoneCfg g bed zone = some z) {v : Valve} (hwanted : v.wanted = 0) (hhanded : v.handed = none ∨ v.handed = some 0) :
    ClosedAll g p (putValve bed zone v q) where
  rest := by
    conv_lhs => rw [h.rest]
    rfl
  queue := h.queue
  valves k w hw := by
    by_cases hk : k = zoneKey bed zone
    · rw [hk, Machine.putValve, Map.find_put_same] at hw
      obtain rfl := Option.some.inj hw
      exact ⟨hwanted, hhanded, _, mem_allZones hz, hk⟩
    · rw [Machine.putValve, Map.find_put_other _ _ _ _ hk] at hw
      exact h.valves k w hw
  there k hk := by
    by_cases hkey : k = zoneKey bed zone
    · simp [Machine.putValve, hkey]
    · rw [Machine.putValve, Map.find_put_other _ _ _ _ hkey]
      exact h.there k hk

theorem ClosedAll.valveOf {g : Store} {p q : Part} (h : ClosedAll g p q) (bed zone : Nat) :
    (valveOf q bed zone).wanted = 0 ∧ ((valveOf q bed zone).handed = none ∨ (valveOf q bed zone).handed = some 0) := by
  unfold Machine.valveOf
  cases hv : Map.find q.cc.valves (zoneKey bed zone) with
  | none => exact ⟨rfl, .inl rfl⟩
  | some v =>
    obtain ⟨hwanted, hhanded, -⟩ := h.valves _ v hv
    exact ⟨hwanted, hhanded⟩

theorem ClosedAll.setupZone {g : Store} {p q : Part} (h : ClosedAll g p q) (hclosed : p.fl.opened = false) (k : Nat) :
    ClosedAll g p (setupZone g q k) := by
  unfold Machine.setupZone
  dsimp only
  split
  · unfold offerValve
    split
    · exact h
    · next z hz =>
      obtain ⟨hrest, hqueue⟩ := enqueue_cases (e := ⟨z.node, .setValve 0, .cc⟩) (p := q)
      have hopened : (enqueue ⟨z.node, .setValve 0, .cc⟩ q).2.fl.opened = false := by
        rw [hrest, h.rest]
        exact hclosed
      have hnode : nodeOf q z.node = nodeOf p z.node := by rw [h.rest]; rfl
      have hqueued : ClosedAll g p (enqueue ⟨z.node, .setValve 0, .cc⟩ q).2 := by
        rw [hrest]
        refine h.setQueue fun d hd => ?_
        rcases hqueue d hd with hd | ⟨rfl, hsome⟩
        · exact h.queue d hd
        · exact ⟨rfl, rfl, hnode ▸ hsome⟩
      dsimp only [offer]
      rw [nextExchange_of_closed hopened]
      obtain ⟨hwanted, hhanded⟩ := hqueued.valveOf (keyBed k) (keyZone k)
      split
      · exact hqueued.putValve hz hwanted (.inr rfl)
      · exact hqueued.putValve hz hwanted hhanded
      · exact hqueued
  · exact h

theorem closedAll_enterSetup {g : Store} {p : Part} (hclosed : p.fl.opened = false) (hqueue : p.fl.queue = [])
    (hvalves : ∀ k v, Map.find p.cc.valves k = some v → v = .fresh ∧ ∃ z ∈ allZones g, k = zoneKey z.1 z.2.1) :
    ClosedAll g p (enterSetup g p) := by
  have hbegin : ClosedAll g p { p with cc := { p.cc with
      valves := Map.mapRecords (fun _ v => { v with wanted := 0 }) p.cc.valves } } := by
    refine ⟨rfl, by simp [hqueue], fun k v hv => ?_, fun k hk => by simpa using hk⟩
    rw [Map.find_mapRecords] at hv
    obtain ⟨w, hw, rfl⟩ := Option.map_eq_some_iff.mp hv
    obtain ⟨rfl, hzone⟩ := hvalves k w hw
    exact ⟨rfl, .inl rfl, hzone⟩
  have hwalk (l : List Nat) : ∀ q, ClosedAll g p q → ClosedAll g p (l.foldl (setupZone g) q) := by
    induction l with
    | nil => exact fun _ h => h
    | cons k l ih => exact fun q h => ih _ (h.setupZone hclosed k)
  exact hwalk _ _ hbegin

/-! ### The line arbiter, by what waits (R161) -/

section arbiter

variable {g : Store} {p : Part}

theorem nextExchange_eq_entry {e : Entry} {l : List Entry} (hopened : p.fl.opened = true) (hline : p.fl.line = none)
    (hrepeat : p.fl.repeatStop = none) (hwaiting : p.fl.waiting = []) (hqueue : p.fl.queue = e :: l)
    (hstop : ∀ d ∈ p.fl.queue, isStop d.cmd = false) : nextExchange g p = beginEntry g e .directed p := by
  have hfind : p.fl.queue.find? (fun e => isStop e.cmd) = none := List.find?_eq_none.mpr (by simpa using hstop)
  rw [nextExchange, hline, hopened, hrepeat, hfind, hwaiting, hqueue]
  rfl

theorem nextExchange_eq_roundPoll (hopened : p.fl.opened = true) (hline : p.fl.line = none)
    (hrepeat : p.fl.repeatStop = none) (hwaiting : p.fl.waiting = []) (hqueue : p.fl.queue = []) (hdue : p.fl.due = []) :
    nextExchange g p = beginRoundPoll g p := by
  rw [nextExchange, hline, hopened, hrepeat, hwaiting, hqueue, hdue]
  rfl

theorem beginExchange_of_some {addr : Nat} {nd : Node} (h : nodeOf p addr = some nd) (cls : ExchangeClass) (cmd : FieldCmd)
    (by_ : Option Requester) : beginExchange g addr cls cmd by_ p = { p with fl := { p.fl with
      line := some { id := p.fl.serial, addr := addr, owner := nd.owner, cls := cls, cmd := cmd, by_ := by_,
                     attempt := 1, withdrawn := false, orphan := false, rate := g.plant.fieldLineRate.toNat },
      serial := p.fl.serial + 1, replyTimer := some (.start g.plant.replyTimeout.toNat),
      due := p.fl.due.filter fun c => decide (Owner.crane c ≠ nd.owner) } } := by
  rw [beginExchange, h]

theorem beginRoundPoll_of_some {a : Nat} (hround : p.fl.roundOn = true) (h : nextAddress p = some a) :
    beginRoundPoll g p = beginExchange g a .round .poll none { p with fl := { p.fl with roundPos := a } } := by
  rw [beginRoundPoll, hround, h]

theorem beginRoundPoll_of_none (h : nextAddress p = none) : beginRoundPoll g p = p := by
  rw [beginRoundPoll, h]
  cases p.fl.roundOn <;> rfl

end arbiter

/-! ### The first round, and an entry to SETUP's commands before it -/

theorem find_isSome_of_mem_keys {α : Type} {m : Map α} {k : Nat} (h : k ∈ Map.keys m) : (Map.find m k).isSome := by
  induction m with
  | nil => cases h
  | cons e m ih =>
    rw [Map.find]
    split
    · rfl
    · next hne =>
      rcases List.mem_cons.mp h with rfl | h
      · exact absurd rfl hne
      · exact ih h

/-- The Field Link with nothing under way, as it stands when it begins its first round (R162). -/
def freshRound (g : Store) (ns : Map Node) (l : List Entry) (ties : Nat) : FieldLink :=
  { FieldLink.fresh with nodes := ns, queue := l, ties := ties, opened := true, roundOn := true,
                         roundTimer := some (.start g.plant.roundMinimum.toNat) }

/-- What the Field Link's first act leaves of the table `ns` and the queue `l` (R161, R162, R189). -/
structure Begun (ns : Map Node) (l : List Entry) (f : FieldLink) : Prop where
  nodes : f.nodes = ns
  queue : ∀ e ∈ f.queue, e ∈ l
  idle : f.waiting = [] ∧ f.repeatStop = none ∧ f.due = [] ∧ f.pollA = none ∧ f.pollB = none
  round : f.roundOn = true ↔ ns ≠ []
  line : (∃ e ∈ ns, 0 < e.1) → ∃ ex, f.line = some ex ∧ ex.attempt = 1 ∧ (l = [] → ex.cls = .round ∧ ex.cmd = .poll)

theorem begun_roundPoll {g : Store} {p : Part} {ns : Map Node} {ties : Nat} (hne : ns ≠ [])
    (hfl : p.fl = freshRound g ns [] ties) : ∃ f, nextExchange g p = { p with fl := f } ∧ Begun ns [] f := by
  rw [nextExchange_eq_roundPoll (by rw [hfl]; rfl) (by rw [hfl]; rfl) (by rw [hfl]; rfl) (by rw [hfl]; rfl) (by rw [hfl]; rfl)
    (by rw [hfl]; rfl)]
  cases hnext : nextAddress p with
  | none =>
    rw [beginRoundPoll_of_none hnext]
    refine ⟨p.fl, rfl, by rw [hfl]; rfl, by rw [hfl]; exact fun _ h => h, by rw [hfl]; exact ⟨rfl, rfl, rfl, rfl, rfl⟩,
      by rw [hfl]; exact iff_of_true rfl hne, fun ⟨e, he, hpos⟩ => ?_⟩
    rw [nextAddress, hfl] at hnext
    simpa [hpos, freshRound, FieldLink.fresh] using List.find?_eq_none.mp hnext e.1 (List.mem_map_of_mem he)
  | some a =>
    obtain ⟨nd, hnd⟩ : ∃ nd, Map.find ns a = some nd := by
      rw [nextAddress, hfl] at hnext
      exact Option.isSome_iff_exists.mp (find_isSome_of_mem_keys (List.mem_of_find?_eq_some hnext))
    rw [beginRoundPoll_of_some (by rw [hfl]; rfl) hnext,
      beginExchange_of_some (p := { p with fl := { p.fl with roundPos := a } }) (nd := nd)
        (show Map.find p.fl.nodes a = some nd by rw [hfl]; exact hnd)]
    refine ⟨_, rfl, by rw [hfl]; rfl, by rw [hfl]; exact fun _ h => h, ?_, by rw [hfl]; exact iff_of_true rfl hne,
      fun _ => ⟨_, rfl, rfl, fun _ => ⟨rfl, rfl⟩⟩⟩
    rw [hfl]
    exact ⟨rfl, rfl, rfl, rfl, rfl⟩

theorem begun_entry {g : Store} {p : Part} {ns : Map Node} {e : Entry} {l : List Entry} {ties : Nat}
    (hfl : p.fl = freshRound g ns (e :: l) ties) (hrefused : ∀ c, holdsRefused p c = false)
    (hstop : ∀ d ∈ e :: l, isStop d.cmd = false) (hnode : (Map.find ns e.addr).isSome) :
    ∃ f, nextExchange g p = { p with fl := f } ∧ Begun ns (e :: l) f := by
  obtain ⟨nd, hnd⟩ := Option.isSome_iff_exists.mp hnode
  rw [nextExchange_eq_entry (e := e) (l := l) (by rw [hfl]; rfl) (by rw [hfl]; rfl) (by rw [hfl]; rfl) (by rw [hfl]; rfl)
    (by rw [hfl]; rfl) (by rw [hfl]; exact hstop), beginEntry,
    beginExchange_of_some (p := setDirected (p.fl.queue.filter fun d => !sameEntry e d) p) (nd := nd)
      (show Map.find p.fl.nodes e.addr = some nd by rw [hfl]; exact hnd),
    entryFreed_of_none (fun c => (holdsRefused_congr (craneOf_congr (by rfl) (by rfl) c)).trans (hrefused c))]
  have hfields : p.fl.nodes = ns ∧ p.fl.queue = e :: l ∧ p.fl.waiting = [] ∧ p.fl.repeatStop = none ∧ p.fl.due = [] ∧
      p.fl.pollA = none ∧ p.fl.pollB = none ∧ p.fl.roundOn = true := by
    rw [hfl]
    exact ⟨rfl, rfl, rfl, rfl, rfl, rfl, rfl, rfl⟩
  obtain ⟨hnodes, hqueue, hwaiting, hrepeat, hdue, hA, hB, hround⟩ := hfields
  refine ⟨_, rfl, hnodes, fun d hd => ?_, ⟨hwaiting, hrepeat, ?_, hA, hB⟩, ?_, fun _ => ⟨_, rfl, rfl, nofun⟩⟩
  · rw [← hqueue]
    exact List.mem_of_mem_filter hd
  · change List.filter _ p.fl.due = []
    rw [hdue]
    rfl
  · refine iff_of_true hround ?_
    rintro rfl
    cases hnd

/-- The Field Link's first act on a line that has been idle since the start (R161, R162, R189). -/
theorem lineFree_begun {g : Store} {p : Part} {ns : Map Node} {l : List Entry} {ties : Nat}
    (hfl : p.fl = { FieldLink.fresh with nodes := ns, queue := l, ties := ties, opened := true })
    (hrefused : ∀ c, holdsRefused p c = false)
    (hl : ∀ e ∈ l, isStop e.cmd = false ∧ (Map.find ns e.addr).isSome) :
    ∃ f, lineFree g p = { p with fl := f } ∧ Begun ns l f := by
  have hround : endRound p = p := by simp [endRound, hfl, FieldLink.fresh]
  rw [lineFree, hround]
  by_cases hne : ns = []
  · subst hne
    have hnone : l = [] := List.eq_nil_iff_forall_not_mem.mpr fun e he => by simpa [Map.find] using (hl e he).2
    subst hnone
    have hround' : beginRound g p = p := by simp [beginRound, hfl, FieldLink.fresh]
    rw [hround', nextExchange_eq_roundPoll (by rw [hfl]) (by rw [hfl]; rfl) (by rw [hfl]; rfl) (by rw [hfl]; rfl)
      (by rw [hfl]) (by rw [hfl]; rfl), beginRoundPoll_of_none (by simp [nextAddress, hfl, Map.keys])]
    refine ⟨p.fl, rfl, ?_⟩
    rw [hfl]
    exact ⟨rfl, fun _ h => h, ⟨rfl, rfl, rfl, rfl, rfl⟩, by simp [FieldLink.fresh], by simp⟩
  · have hbegun : beginRound g p = { p with fl := freshRound g ns l ties } := by
      simp [beginRound, hfl, FieldLink.fresh, hne, freshRound]
    rw [hbegun]
    cases l with
    | nil => exact begun_roundPoll hne rfl
    | cons e l =>
      exact begun_entry rfl (fun c => (holdsRefused_congr (craneOf_congr (by rfl) (by rfl) c)).trans (hrefused c))
        (fun d hd => (hl d hd).1) (hl e List.mem_cons_self).2

/-! ### The records before the blocks are told of the mode -/

section settled

variable {g : Store} {cause : StartCause} {kept : Bool} {p : Part}

/-- The node table a start builds. -/
def startNodes (g : Store) : Map Node := (namedItems g).foldl (fun m e => Map.put m e.1 (Node.fresh e.2)) []

theorem resetVolatile_fl : (resetVolatile g p).fl = { FieldLink.fresh with nodes := startNodes g, ties := p.fl.ties } := rfl

/-- What the repair of the beds leaves, before the STRIP moves are queued (R187). -/
def repairedBeds (g : Store) (p : Part) : Part :=
  (Map.keys p.bs.beds).foldl (repairBed g) (mapContexts (fun _ ctx => repairContext ctx)
    { p with sm := { p.sm with pieces := Map.mapRecords (fun _ q => repairPiece q) p.sm.pieces } })

theorem repair_eq (g : Store) (p : Part) : repair g p = fillFrom (unstripped (repairedBeds g p)) (repairedBeds g p) := rfl

theorem repairBeds_keeps (l : List Nat) (q : Part) :
    (l.foldl (repairBed g) q).mp = q.mp ∧ (l.foldl (repairBed g) q).cc = q.cc := by
  induction l generalizing q with
  | nil => exact ⟨rfl, rfl⟩
  | cons b l ih => rw [List.foldl_cons]; simp [ih]

theorem repairedBeds_keeps : (repairedBeds g p).mp = p.mp ∧
    (repairedBeds g p).cc = { p.cc with contexts := Map.mapRecords (fun _ ctx => repairContext ctx) p.cc.contexts } :=
  repairBeds_keeps _ _

theorem repair_cc : (repair g p).cc = { p.cc with contexts := Map.mapRecords (fun _ ctx => repairContext ctx) p.cc.contexts } := by
  rw [repair_eq, (fillFrom_keeps _ _).2.2.1, repairedBeds_keeps.2]

theorem filled_repair : Filled (unstripped (repairedBeds g p)) (repairedBeds g p) (repair g p) :=
  filled_fillFrom _ _ (fun _ h => h) _

theorem startChosen_keeps :
    (startChosen g cause kept p).tu = (resetVolatile g p).tu ∧ (startChosen g cause kept p).csA = .atReset ∧
    (startChosen g cause kept p).csB = .atReset ∧ (startChosen g cause kept p).fl = (resetVolatile g p).fl ∧
    linkCore (startChosen g cause kept p).cl = linkCore (resetVolatile g p).cl ∧
    (startChosen g cause kept p).sm.timer = (resetVolatile g p).sm.timer ∧
    (startChosen g cause kept p).mp.resA = none ∧ (startChosen g cause kept p).mp.resB = none ∧
    (startChosen g cause kept p).cc.valves = freshValves g ∧ (startChosen g cause kept p).cc.alloc = .fresh ∧
    (startChosen g cause kept p).cc.timer = (resetVolatile g p).cc.timer := by
  unfold startChosen startSettled
  cases kept with
  | true =>
    obtain ⟨-, htu, hA, hB, hfl, hcl, -, htimer, hresA, hresB⟩ := repair_keeps g (resetVolatile g p)
    refine ⟨htu, hA, hB, hfl, hcl, htimer, hresA, hresB, ?_, ?_, ?_⟩ <;> simp only [if_true, repair_cc] <;> rfl
  | false => exact ⟨rfl, rfl, rfl, rfl, rfl, rfl, rfl, rfl, rfl, rfl, rfl⟩

theorem startChosen_queue : ∀ m ∈ (startChosen g cause kept p).mp.queue, m.state = .queued := by
  unfold startChosen startSettled
  cases kept with
  | true =>
    obtain ⟨fill, hfill, hmoves⟩ := (filled_repair (g := g) (p := resetVolatile g p)).queue
    rw [repairedBeds_keeps.1] at hfill
    intro m hm
    have hmem : m ∈ fill := by
      simp only [if_true, hfill] at hm
      exact hm
    exact (hmoves m hmem).2.1
  | false => exact fun m hm => absurd hm List.not_mem_nil

/-- The records with every valve closed where the start enters SETUP (R88, R188). -/
def startEntered (g : Store) (cause : StartCause) (kept : Bool) (p : Part) : Part :=
  if startMode g = .setup then enterSetup g (startChosen g cause kept p) else startChosen g cause kept p

theorem freshValves_find {k : Nat} {v : Valve} (h : Map.find (freshValves g) k = some v) :
    v = .fresh ∧ ∃ z ∈ allZones g, k = zoneKey z.1 z.2.1 := by
  rcases find_built h with ⟨z, hz, hk, hv⟩ | hnone
  · exact ⟨hv.symm, z, hz, hk.symm⟩
  · cases hnone

theorem closedAll_startEntered : ClosedAll g (startChosen g cause kept p) (startEntered g cause kept p) := by
  obtain ⟨-, -, -, hfl, -, -, -, -, hvalves, -⟩ := startChosen_keeps (g := g) (cause := cause) (kept := kept) (p := p)
  have hfresh : ∀ k v, Map.find (startChosen g cause kept p).cc.valves k = some v →
      v = .fresh ∧ ∃ z ∈ allZones g, k = zoneKey z.1 z.2.1 := fun k v hv => freshValves_find (hvalves ▸ hv)
  unfold startEntered
  split
  · exact closedAll_enterSetup (by rw [hfl]; rfl) (by rw [hfl]; rfl) hfresh
  · refine ⟨rfl, fun e he => ?_, fun k v hv => ?_, fun _ h => h⟩
    · rw [hfl] at he
      exact absurd he List.not_mem_nil
    · obtain ⟨rfl, hzone⟩ := hfresh k v hv
      exact ⟨rfl, .inl rfl, hzone⟩

/-- Both cranes are UNLOCATED and no SHIP move is at work, so the mode's end of event does nothing more (R121, R128). -/
theorem startTold_eq : startTold g cause kept p = { startEntered g cause kept p with evt := .none } := by
  obtain ⟨-, hA, hB, -⟩ := startChosen_keeps (g := g) (cause := cause) (kept := kept) (p := p)
  have hended (q : Part) (hqueue : q.mp.queue = (startChosen g cause kept p).mp.queue) (hqA : q.csA = .atReset)
      (hqB : q.csB = .atReset) : endOfEvent g q = { q with evt := .none } := by
    have hspared : spared q := spared_of_queue fun m hm => by
      rw [startChosen_queue m (hqueue ▸ hm)]
      decide
    rw [endOfEvent_spared hspared, scan_of_none_idle fun c => by cases c <;> simp [craneOf, hqA, hqB, Crane.atReset]]
    split <;> rfl
  have hclosed := closedAll_startEntered (g := g) (cause := cause) (kept := kept) (p := p)
  have hmode : (startChosen g cause kept p).mc.mode = startMode g := rfl
  unfold startTold tellMode startEntered at *
  rw [hmode]
  cases hm : startMode g with
  | setup =>
    rw [hm] at hclosed
    simp only [if_true] at hclosed ⊢
    exact hended _ (by rw [hclosed.rest]) (by rw [hclosed.rest]; exact hA) (by rw [hclosed.rest]; exact hB)
  | watch =>
    simp only [reduceCtorEq, if_false]
    exact hended _ rfl hA hB
  | run =>
    simp only [reduceCtorEq, if_false]
    exact hended _ rfl hA hB

theorem startNodes_find {a : Nat} {nd : Node} (h : Map.find (startNodes g) a = some nd) :
    nd = .fresh nd.owner ∧ (a, nd.owner) ∈ namedItems g := by
  rcases find_built h with ⟨e, he, rfl, rfl⟩ | hnone
  · exact ⟨rfl, he⟩
  · cases hnone

theorem startNodes_there {e : Nat × Owner} (h : e ∈ namedItems g) : (Map.find (startNodes g) e.1).isSome :=
  find_built_there (.inl ⟨e, h, rfl⟩)

theorem startNodes_ne_nil_iff : startNodes g ≠ [] ↔ namedItems g ≠ [] := by
  refine ⟨fun h hnone => h (by rw [startNodes, hnone]; rfl), fun h hnone => ?_⟩
  obtain ⟨e, he⟩ := List.exists_mem_of_ne_nil _ h
  have := startNodes_there he
  rw [hnone] at this
  cases this

/-- What a start makes of the records (R185 to R189): the Field Link begins, and CL sends STARTED. -/
theorem startWith_result : ∃ f, Begun (startNodes g) (startEntered g cause kept p).fl.queue f ∧
    startWith g cause kept p = sendNext { raiseStarted (.started cause kept (startMode g)
      (if kept then poursOpen (resetVolatile g p) else 0)) { startEntered g cause kept p with evt := .none } with fl := f } := by
  rw [startWith_eq, startTold_eq, beginWork]
  generalize Notice.started cause kept (startMode g) (if kept then poursOpen (resetVolatile g p) else 0) = n
  have hclosed := closedAll_startEntered (g := g) (cause := cause) (kept := kept) (p := p)
  obtain ⟨-, hA, hB, hfl, -⟩ := startChosen_keeps (g := g) (cause := cause) (kept := kept) (p := p)
  obtain ⟨-, -, -, -, -, -, kA, kB, kfl, -⟩ := raiseStarted_keeps n { startEntered g cause kept p with evt := .none }
  have hentered : (startEntered g cause kept p).fl = { FieldLink.fresh with
      nodes := startNodes g, queue := (startEntered g cause kept p).fl.queue, ties := p.fl.ties } := by
    have := congrArg Part.fl hclosed.rest
    rw [hfl] at this
    exact this
  have hcrane : (startEntered g cause kept p).csA = .atReset ∧ (startEntered g cause kept p).csB = .atReset := by
    rw [hclosed.rest]
    exact ⟨hA, hB⟩
  generalize raiseStarted n { startEntered g cause kept p with evt := .none } = q at kA kB kfl ⊢
  obtain ⟨f, hline, hf⟩ := lineFree_begun (g := g) (p := { q with fl := { q.fl with opened := true } })
    (ns := startNodes g) (l := (startEntered g cause kept p).fl.queue) (ties := p.fl.ties)
    (by
      rw [kfl]
      exact congrArg (fun f : FieldLink => { f with opened := true }) hentered)
    (holdsRefused_of_atReset (kA.trans hcrane.1) (kB.trans hcrane.2))
    (fun e he => by
      obtain ⟨hcmd, -, hnode⟩ := hclosed.queue e he
      refine ⟨by rw [hcmd]; rfl, ?_⟩
      rw [nodeOf, hfl] at hnode
      exact hnode)
  exact ⟨f, hf, by rw [hline]⟩

/-- STARTED is on the line at once, before whatever the repair has raised (R178, R189). -/
theorem nextFrame_raiseStarted {n : Notice} {q : Part} (hsending : q.cl.sending = none) (hreplies : q.cl.replies = []) :
    nextFrame (raiseStarted n q).cl = beginNotice n
      (if q.cl.notices.length < 24 then q.cl.notices else q.cl.notices.dropLast) (raiseStarted n q).cl := by
  by_cases h : q.cl.notices.length < 24 <;> simp [raiseStarted, Config.noticePlaces, h, nextFrame, hsending, hreplies]

/-- What a start leaves of the blocks but for their traffic: the repaired or cleared records (R185 to R188). -/
theorem startWith_fields {t : Part} (ht : startWith g cause kept p = t) :
    t.mc = { power := true, backupHeld := true, mode := startMode g, startCause := cause, retained := kept } ∧
    t.bs = (startSettled g kept p).bs ∧ t.sm = (startSettled g kept p).sm ∧ t.mp = (startSettled g kept p).mp ∧
    t.tu = (resetVolatile g p).tu ∧ t.csA = .atReset ∧ t.csB = .atReset ∧
    t.cc = { (startSettled g kept p).cc with valves := (startEntered g cause kept p).cc.valves } ∧
    Begun (startNodes g) (startEntered g cause kept p).fl.queue t.fl ∧
    ∃ k, k.sending = none ∧ k.replies = [] ∧ k.places = [] ∧ k.rx = .hunting ∧ k.restarting = false ∧
      k.rate = g.plant.commandLineRate.toNat ∧
      t.cl = beginNotice (.started cause kept (startMode g) (if kept then poursOpen (resetVolatile g p) else 0))
        (if (startSettled g kept p).cl.notices.length < 24 then (startSettled g kept p).cl.notices
          else (startSettled g kept p).cl.notices.dropLast) k := by
  obtain ⟨f, hf, hresult⟩ := startWith_result (g := g) (cause := cause) (kept := kept) (p := p)
  rw [hresult] at ht
  obtain rfl := ht
  generalize Notice.started cause kept (startMode g) (if kept then poursOpen (resetVolatile g p) else 0) = n
  obtain ⟨kmc, kbs, kcc, ktu, ksm, kmp, kA, kB, -, -, kcl⟩ := raiseStarted_keeps n { startEntered g cause kept p with evt := .none }
  have hrest := (closedAll_startEntered (g := g) (cause := cause) (kept := kept) (p := p)).rest
  obtain ⟨htu, hA, hB, -, hcl, -⟩ := startChosen_keeps (g := g) (cause := cause) (kept := kept) (p := p)
  have fmc := congrArg Part.mc hrest
  have fbs := congrArg Part.bs hrest
  have fcc := congrArg Part.cc hrest
  have ftu := congrArg Part.tu hrest
  have fsm := congrArg Part.sm hrest
  have fmp := congrArg Part.mp hrest
  have fA := congrArg Part.csA hrest
  have fB := congrArg Part.csB hrest
  have fcl := congrArg Part.cl hrest
  have hlink : (startEntered g cause kept p).cl = (startSettled g kept p).cl := fcl
  have hcore : linkCore (startEntered g cause kept p).cl = linkCore (resetVolatile g p).cl := (congrArg linkCore hlink).trans hcl
  refine ⟨kmc.trans fmc, kbs.trans fbs, ksm.trans fsm, kmp.trans fmp, ktu.trans (ftu.trans htu), kA.trans (fA.trans hA),
    kB.trans (fB.trans hB), kcc.trans fcc, hf, (raiseStarted n { startEntered g cause kept p with evt := .none }).cl, ?_⟩
  have hall := kcl.trans hcore
  have hline := nextFrame_raiseStarted (n := n) (q := { startEntered g cause kept p with evt := .none })
    (congrArg CommandLink.sending hcore) (congrArg CommandLink.replies hcore)
  refine ⟨congrArg CommandLink.sending hall, congrArg CommandLink.replies hall, congrArg CommandLink.places hall,
    congrArg CommandLink.rx hall, congrArg CommandLink.restarting hall, congrArg CommandLink.rate hall, ?_⟩
  rw [← hlink]
  exact hline

end settled

/-! ### The three kinds of start -/

theorem exec_frameSent_of_restart {s : State} (h : endsRestart s) : exec .frameSent s = .next (start .restart true s) := by
  obtain ⟨hpower, r, flags, rate, hsending, hafter⟩ := h
  change execFrameSent s = _
  rw [execFrameSent, hpower, hsending]
  simp only [frameEnded, hafter]

theorem exec_resetPin_of_power {s : State} (h : s.mc.power = true) : exec .resetPin s = .next (start .resetPin true s) := by
  change execResetPin s = _
  rw [execResetPin, if_pos h]

theorem retentionValid_true (g : Store) : retentionValid g true = decide (g.plant.retain = 1) := rfl

theorem slotOf_resetVolatile (g : Store) (p : Part) (k : Nat) :
    slotOf (resetVolatile g p) k = { slotOf p k with engaged := none, lock := none } := by
  rw [slotOf, resetVolatile, slotOf]
  simp only [Map.find_mapRecords]
  cases Map.find p.sm.slots k <;> rfl

theorem bedOf_allVacant {p : Part} (h : p.bs.beds = allVacant) (b : Nat) : bedOf p b = .vacant := by
  rw [bedOf, h]
  cases hfind : Map.find allVacant b with
  | none => rfl
  | some r =>
    have := Map.mem_of_find hfind
    simp only [allVacant, List.mem_cons, Prod.mk.injEq, List.not_mem_nil, or_false] at this
    rcases this with ⟨-, h⟩ | ⟨-, h⟩ | ⟨-, h⟩ | ⟨-, h⟩ | ⟨-, h⟩ | ⟨-, h⟩ <;> simp [h]

/-- What a start with retention not valid leaves of the job records (R186). -/
def jobsCleared (s t : State) : Prop :=
  (∀ b, (bedOf t.toPart b).state = .empty ∧ (bedOf t.toPart b).product = none ∧ (bedOf t.toPart b).pour = none) ∧
  t.bs.pours = [] ∧ t.sm.pieces = [] ∧ (∀ n, (slotOf t.toPart n).stack = []) ∧ t.cc.contexts = [] ∧ t.bs.seq = 1 ∧
  t.store = s.store

theorem jobsCleared_start {s : State} {cause : StartCause} {indication : Bool} (h : retentionValid s.store indication = false) :
    jobsCleared s (start cause indication s) := by
  obtain ⟨-, hbs, hsm, -, -, -, -, hcc, -⟩ :=
    startWith_fields (g := s.store) (cause := cause) (kept := false) (p := s.toPart) rfl
  rw [start, h]
  refine ⟨fun b => ?_, congrArg BedSequencer.pours hbs, congrArg StockMap.pieces hsm, fun n => ?_,
    congrArg CuringController.contexts hcc, congrArg BedSequencer.seq hbs, rfl⟩
  · rw [bedOf_allVacant (congrArg BedSequencer.beds hbs) b]
    exact ⟨rfl, rfl, rfl⟩
  · rw [slotOf, show _ = _ from congrArg StockMap.slots hsm]
    rfl

/-- Settles O6: whichever way it starts, retention not valid clears every job record. -/
theorem startClearsJobs : Obligations.StartClearsJobs := by
  intro s c hc
  rcases hc with ⟨rfl, hlost⟩ | ⟨rfl, hpower, hretain⟩ | ⟨rfl, hends, hretain⟩
  · refine ⟨_, rfl, jobsCleared_start ?_⟩
    rw [retentionValid, ← Bool.not_eq_true, Bool.and_eq_true, decide_eq_true_eq]
    exact hlost
  · exact ⟨_, exec_resetPin_of_power hpower, jobsCleared_start (by simpa [retentionValid_true] using hretain)⟩
  · exact ⟨_, exec_frameSent_of_restart hends, jobsCleared_start (by simpa [retentionValid_true] using hretain)⟩

/-! ### The supplies -/

theorem receive_of_no_power {s : State} (h : s.mc.power = false) (kind tag : Nat) (f : Store → Part → Decision) :
    receive kind tag f s = s := by simp [receive, h]

theorem attemptEnd_of_no_power {s : State} (h : s.mc.power = false) (f : Exchange → Part → Part) : attemptEnd f s = s := by
  rw [attemptEnd, h]

theorem exec_event_of_no_power {s : State} (h : s.mc.power = false) {c : Instr} (hc : requestHead c = none) (hup : c ≠ .powerUp)
    (hbackup : c ≠ .backupSupplyBelowThreshold) : exec c s = .next s := by
  have hoff : s.mc.power ≠ true := by simp [h]
  cases c <;> cases hc
  case powerUp => exact absurd rfl hup
  case backupSupplyBelowThreshold => exact absurd rfl hbackup
  case unknownKind => exact congrArg Host.Outcome.next (receive_of_no_power h _ _ _)
  case frameSent =>
    change execFrameSent s = _
    simp [execFrameSent, h]
  case replyTimerExpiry => exact congrArg Host.Outcome.next (attemptEnd_of_no_power h _)
  case replyComplete chars =>
    change execReplyComplete chars s = _
    rw [execReplyComplete, attemptEnd_of_no_power h, ite_self]
  all_goals exact congrArg Host.Outcome.next (if_neg hoff)

theorem exec_of_no_power {s : State} (h : s.mc.power = false) {c : Instr} (hup : c ≠ .powerUp)
    (hbackup : c ≠ .backupSupplyBelowThreshold) : exec c s = .next s := by
  rcases hc : requestHead c with _ | ⟨kind, tag⟩
  · exact exec_event_of_no_power h hc hup hbackup
  · obtain ⟨f, -, hexec⟩ := exec_request hc
    rw [hexec, receive_of_no_power h]

/-- Settles O8: what the loss of each supply leaves, record by record. -/
theorem supplyLost : Obligations.SupplyLost := by
  intro s
  refine ⟨fun hpower => ?_, fun hpower => ?_, fun hpower => ?_, fun hpower c hup hbackup => exec_of_no_power hpower hup hbackup⟩
  · refine ⟨{ s with toPart := losePower s.store s.toPart }, congrArg Host.Outcome.next (if_pos hpower), ?_⟩
    refine ⟨rfl, rfl, rfl, rfl, rfl, rfl, rfl, rfl, fun z hz => ?_, fun k v hv => freshValves_find hv, rfl, rfl, rfl,
      slotOf_resetVolatile s.store s.toPart, rfl, rfl, rfl, rfl, fun a nd h => startNodes_find h,
      fun e he => startNodes_there he, rfl⟩
    obtain ⟨v, hv⟩ := Option.isSome_iff_exists.mp
      (find_built_there (key := fun z : Nat × Nat × ZoneCfg => zoneKey z.1 z.2.1) (val := fun _ => Valve.fresh) (m := [])
        (k := zoneKey z.1 z.2.1) (.inl ⟨z, hz, rfl⟩))
    exact hv.trans (congrArg some (freshValves_find hv).1)
  · exact ⟨{ s with toPart := loseRetained s.toPart }, congrArg Host.Outcome.next (if_neg (by simp [hpower])),
      rfl, rfl, rfl, rfl, rfl, rfl, rfl, rfl, rfl, rfl, rfl, rfl, rfl⟩
  · exact congrArg Host.Outcome.next (if_pos hpower)

/-! ### The repair of one bed (R187, step 3) -/

/-- The pour that the outage has broken on a POURING or CURING bed. -/
def brokenPour (p : Part) (b : Nat) : Option (Nat × Pour) :=
  if (bedOf p b).state = .pouring ∨ (bedOf p b).state = .curing then
    (bedOf p b).pour.bind fun n => (pourOf p n).map fun o => (n, o)
  else none

/-- POWER_GAP as CC enters it for a bed (R34). -/
def gapEntry (p : Part) (b : Nat) : Deviation :=
  { kind := .powerGap, zone := none, value := 0, minutes := ((contextOf p b).map curingMinutes).getD 0 }

def mendedPour (g : Store) (p : Part) (b : Nat) (o : Pour) : Pour :=
  if (bedOf p b).state = .pouring then { o with state := .aborted, cause := some .power } else notedPour g (gapEntry p b) o

def mendedPiece (p : Part) (b n : Nat) (o : Pour) (mark : Nat) (q : Piece) : Piece :=
  if (bedOf p b).state = .pouring then (if q.pour = n ∧ mark ∈ o.order then { q with condition := .rejected } else q)
  else if o.review then q else heldIfCaught n q

def mendNotice (g : Store) (p : Part) (b n : Nat) (o : Pour) : Notice :=
  if (bedOf p b).state = .pouring then .pourAborted b n o.delivered o.batches .power
  else deviationNotice g b n (gapEntry p b) o

/-- What the repair of a bed with a broken pour does. -/
structure Mends (g : Store) (p : Part) (b n : Nat) (o : Pour) (q : Part) : Prop where
  beds : q.bs.beds = if (bedOf p b).state = .pouring
    then Map.put p.bs.beds b { bedOf p b with state := .rejected, gap := none } else p.bs.beds
  pours : q.bs.pours = Map.put p.bs.pours n (mendedPour g p b o)
  seq : q.bs.seq = p.bs.seq
  pieces : ∀ k, pieceOf q k = (pieceOf p k).map (mendedPiece p b n o k)
  link : q.cl = raiseLink p.cl (mendNotice g p b n o)

section mend

variable {g : Store} {p : Part} {b n : Nat} {o : Pour}

theorem powerGap_of_some (hn : (bedOf p b).pour = some n) : powerGap g b p = recordDeviation g b n (gapEntry p b) p := by
  unfold powerGap gapEntry
  rw [hn]
  cases contextOf p b <;> rfl

theorem brokenPour_eq_some_iff : brokenPour p b = some (n, o) ↔
    ((bedOf p b).state = .pouring ∨ (bedOf p b).state = .curing) ∧ (bedOf p b).pour = some n ∧ pourOf p n = some o := by
  unfold brokenPour
  split
  · next h =>
    rw [Option.bind_eq_some_iff]
    constructor
    · rintro ⟨m, hm, hmap⟩
      obtain ⟨o', ho', heq⟩ := Option.map_eq_some_iff.mp hmap
      obtain ⟨rfl, rfl⟩ := Prod.mk.inj heq
      exact ⟨h, hm, ho'⟩
    · rintro ⟨-, hm, ho⟩
      exact ⟨n, hm, by rw [ho]; rfl⟩
  · next h => simp [h]

theorem mends_repairBed (h : brokenPour p b = some (n, o)) : Mends g p b n o (repairBed g p b) := by
  obtain ⟨hstate, hn, ho⟩ := brokenPour_eq_some_iff.mp h
  rcases hstate with hstate | hstate
  · have heq : repairBed g p b = abortPour b .power p := by rw [repairBed, hstate]
    have hbs := abortPour_bs (cause := .power) hn ho
    rw [heq]
    refine ⟨?_, ?_, ?_, fun k => ?_, ?_⟩
    · rw [hbs, if_pos hstate]
    · rw [hbs, mendedPour, if_pos hstate]
    · rw [hbs]
    · rw [pieceOf_abortPour hn ho]
      refine congrArg (fun f => (pieceOf p k).map f) (funext fun q => ?_)
      rw [mendedPiece, if_pos hstate]
    · rw [(casts_abortPour hn ho).raised, mendNotice, if_pos hstate]
      rfl
  · have heq : repairBed g p b = recordDeviation g b n (gapEntry p b) p := by
      rw [repairBed, hstate, ← powerGap_of_some hn]
    have hnot : (bedOf p b).state ≠ .pouring := by rw [hstate]; decide
    have hbs := recordDeviation_bs (g := g) (bed := b) (d := gapEntry p b) ho
    rw [heq]
    refine ⟨?_, ?_, ?_, fun k => ?_, ?_⟩
    · rw [hbs, if_neg hnot]
      rfl
    · rw [hbs, mendedPour, if_neg hnot]
      rfl
    · rw [hbs]
      rfl
    · rw [pieceOf_recordDeviation ho]
      have hkind : (gapEntry p b).kind.isReview = true := rfl
      rw [hkind, Bool.true_and]
      cases hreview : o.review with
      | true =>
        have hid : mendedPiece p b n o k = id := by
          funext q
          rw [mendedPiece, if_neg hnot, hreview]
          rfl
        rw [hid, Option.map_id]
        rfl
      | false =>
        refine congrArg (fun f => (pieceOf p k).map f) (funext fun q => ?_)
        rw [mendedPiece, if_neg hnot, hreview]
        rfl
    · rw [recordDeviation_cl ho, mendNotice, if_neg hnot]

theorem repairBed_of_sound (h : brokenPour p b = none) : repairBed g p b = p := by
  unfold repairBed
  split
  · next hstate =>
    rw [brokenPour, if_pos (.inl hstate)] at h
    unfold abortPour
    cases hn : (bedOf p b).pour with
    | none => rfl
    | some n =>
      cases ho : pourOf p n with
      | none => simp [ho]
      | some o => simp [hn, ho] at h
  · next hstate =>
    rw [brokenPour, if_pos (.inr hstate)] at h
    cases hn : (bedOf p b).pour with
    | none => simp [powerGap, hn]
    | some n =>
      cases ho : pourOf p n with
      | none => rw [powerGap_of_some hn, recordDeviation, ho]
      | some o => simp [hn, ho] at h
  · rfl

/-! ### What the repair of a bed leaves of the others -/

theorem bedOf_repairBed_other {c : Nat} (h : c ≠ b) : bedOf (repairBed g p b) c = bedOf p c := by
  cases hbroken : brokenPour p b with
  | none => rw [repairBed_of_sound hbroken]
  | some e =>
    rw [bedOf, (mends_repairBed (n := e.1) (o := e.2) hbroken).beds]
    split
    · rw [Map.find_put_other _ _ _ _ h]
      rfl
    · rfl

theorem pour_repairBed (c : Nat) : (bedOf (repairBed g p b) c).pour = (bedOf p c).pour := by
  by_cases hc : c = b
  · subst hc
    cases hbroken : brokenPour p c with
    | none => rw [repairBed_of_sound hbroken]
    | some e =>
      rw [bedOf, (mends_repairBed (n := e.1) (o := e.2) hbroken).beds]
      split
      · rw [Map.find_put_same]
        rfl
      · rfl
  · rw [bedOf_repairBed_other hc]

theorem pourOf_repairBed_other {m : Nat} (h : (bedOf p b).pour ≠ some m) : pourOf (repairBed g p b) m = pourOf p m := by
  cases hbroken : brokenPour p b with
  | none => rw [repairBed_of_sound hbroken]
  | some e =>
    obtain ⟨-, hn, -⟩ := brokenPour_eq_some_iff.mp hbroken
    have hne : m ≠ e.1 := fun heq => h (heq ▸ hn)
    rw [pourOf, (mends_repairBed (n := e.1) (o := e.2) hbroken).pours, Map.find_put_other _ _ _ _ hne, pourOf]

theorem isSome_pourOf_repairBed (m : Nat) : (pourOf (repairBed g p b) m).isSome = (pourOf p m).isSome := by
  cases hbroken : brokenPour p b with
  | none => rw [repairBed_of_sound hbroken]
  | some e =>
    obtain ⟨-, -, ho⟩ := brokenPour_eq_some_iff.mp hbroken
    by_cases hm : m = e.1
    · rw [pourOf, (mends_repairBed (n := e.1) (o := e.2) hbroken).pours, hm, Map.find_put_same, ho]
      rfl
    · rw [pourOf, (mends_repairBed (n := e.1) (o := e.2) hbroken).pours, Map.find_put_other _ _ _ _ hm, pourOf]

theorem contextOf_repairBed (c : Nat) : contextOf (repairBed g p b) c = contextOf p c := by
  rw [contextOf, (repairBed_keeps g p b).2.1, contextOf]

theorem pieceOf_repairBed_other {k : Nat} {q : Piece} (hq : pieceOf p k = some q) (h : (bedOf p b).pour ≠ some q.pour) :
    pieceOf (repairBed g p b) k = some q := by
  cases hbroken : brokenPour p b with
  | none => rw [repairBed_of_sound hbroken, hq]
  | some e =>
    obtain ⟨-, hn, -⟩ := brokenPour_eq_some_iff.mp hbroken
    have hne : q.pour ≠ e.1 := fun heq => h (heq ▸ hn)
    have hcaught : caughtByReview e.1 q = false := by
      rw [← Bool.not_eq_true, caughtByReview_eq_true_iff]
      exact fun hc => hne hc.1
    rw [(mends_repairBed (n := e.1) (o := e.2) hbroken).pieces, hq, Option.map_some, mendedPiece]
    simp [hne, heldIfCaught, hcaught]

theorem brokenPour_repairBed_other {c : Nat} (h : c ≠ b)
    (hpour : ∀ m, (bedOf p b).pour = some m → (bedOf p c).pour ≠ some m) :
    brokenPour (repairBed g p b) c = brokenPour p c := by
  rw [brokenPour, bedOf_repairBed_other h, brokenPour]
  refine if_congr Iff.rfl ?_ rfl
  cases hc : (bedOf p c).pour with
  | none => rfl
  | some m => rw [Option.bind_some, Option.bind_some, pourOf_repairBed_other fun hb => hpour m hb hc]

end mend

/-! ### The repair of all beds -/

section mends

variable {g : Store}

/-- A piece's record but for its condition. -/
def conditionless (q : Piece) : Piece := { q with condition := .cast }

theorem conditionless_mendedPiece (p : Part) (b n : Nat) (o : Pour) (k : Nat) (q : Piece) :
    conditionless (mendedPiece p b n o k q) = conditionless q := by
  unfold mendedPiece heldIfCaught
  split_ifs <;> rfl

/-- A bed as the repair leaves it (R187). -/
def mendedBed (p : Part) (r : Bed) : Bed :=
  if r.state = .pouring ∧ ((r.pour.bind (pourOf p)).isSome) then { r with state := .rejected, gap := none } else r

theorem find_repairBed (p : Part) (b c : Nat) : Map.find (repairBed g p b).bs.beds c =
    (Map.find p.bs.beds c).map fun r => if c = b then mendedBed p r else r := by
  by_cases hc : c = b
  · subst hc
    cases hfind : Map.find p.bs.beds c with
    | none =>
      have hsound : brokenPour p c = none := by simp [brokenPour, bedOf, hfind, Bed.vacant]
      rw [repairBed_of_sound hsound, hfind]
      rfl
    | some r =>
      have hr : bedOf p c = r := by rw [bedOf, hfind]; rfl
      rw [Option.map_some, if_pos rfl, mendedBed]
      cases hbroken : brokenPour p c with
      | none =>
        rw [repairBed_of_sound hbroken, hfind, if_neg]
        rintro ⟨hstate, hpour⟩
        rw [brokenPour, hr, if_pos (.inl hstate)] at hbroken
        obtain ⟨o, ho⟩ := Option.isSome_iff_exists.mp hpour
        obtain ⟨n, hn, hno⟩ := Option.bind_eq_some_iff.mp ho
        rw [hn, Option.bind_some, hno] at hbroken
        cases hbroken
      | some e =>
        obtain ⟨-, hn, ho⟩ := brokenPour_eq_some_iff.mp (show brokenPour p c = some (e.1, e.2) from hbroken)
        rw [(mends_repairBed (n := e.1) (o := e.2) hbroken).beds]
        rw [hr] at hn ⊢
        have hpresent : (r.pour.bind (pourOf p)).isSome = true := by rw [hn, Option.bind_some, ho]; rfl
        by_cases hstate : r.state = .pouring
        · rw [if_pos hstate, if_pos ⟨hstate, hpresent⟩, Map.find_put_same]
        · rw [if_neg hstate, if_neg fun h => hstate h.1, hfind]
  · have hid : (fun r : Bed => if c = b then mendedBed p r else r) = id := funext fun r => if_neg hc
    rw [hid, Option.map_id, id]
    cases hbroken : brokenPour p b with
    | none => rw [repairBed_of_sound hbroken]
    | some e =>
      rw [(mends_repairBed (n := e.1) (o := e.2) hbroken).beds]
      split
      · exact Map.find_put_other _ _ _ _ hc
      · rfl

/-- What the repair of some beds leaves whatever pours they name. -/
theorem repairBeds_frame (l : List Nat) (p : Part) :
    (l.foldl (repairBed g) p).bs.seq = p.bs.seq ∧
    (∀ k, (pieceOf (l.foldl (repairBed g) p) k).map conditionless = (pieceOf p k).map conditionless) ∧
    (∀ m, (pourOf (l.foldl (repairBed g) p) m).isSome = (pourOf p m).isSome) ∧
    (∀ c, contextOf (l.foldl (repairBed g) p) c = contextOf p c) ∧
    ∀ b, Map.find (l.foldl (repairBed g) p).bs.beds b =
      (Map.find p.bs.beds b).map fun r => if b ∈ l then mendedBed p r else r := by
  induction l generalizing p with
  | nil => exact ⟨rfl, fun _ => rfl, fun _ => rfl, fun _ => rfl, fun b => by simp⟩
  | cons b l ih =>
    rw [List.foldl_cons]
    obtain ⟨hseq, hpieces, hpours, hcontexts, hbeds⟩ := ih (repairBed g p b)
    have hpresent (r : Bed) : mendedBed (repairBed g p b) r = mendedBed p r := by
      have : (r.pour.bind (pourOf (repairBed g p b))).isSome = (r.pour.bind (pourOf p)).isSome := by
        cases r.pour with
        | none => rfl
        | some n => exact isSome_pourOf_repairBed n
      rw [mendedBed, this, mendedBed]
    have hbed (c : Nat) := find_repairBed (g := g) p b c
    refine ⟨?_, fun k => (hpieces k).trans ?_, fun m => (hpours m).trans (isSome_pourOf_repairBed m),
      fun c => (hcontexts c).trans (contextOf_repairBed c), fun c => ?_⟩
    · rw [hseq]
      cases hbroken : brokenPour p b with
      | none => rw [repairBed_of_sound hbroken]
      | some e => exact (mends_repairBed (n := e.1) (o := e.2) hbroken).seq
    · cases hbroken : brokenPour p b with
      | none => rw [repairBed_of_sound hbroken]
      | some e =>
        rw [(mends_repairBed (n := e.1) (o := e.2) hbroken).pieces, Option.map_map]
        exact congrArg (fun f => (pieceOf p k).map f) (funext fun q => conditionless_mendedPiece _ _ _ _ _ q)
    · rw [hbeds, hbed, Option.map_map]
      refine congrArg (fun f => (Map.find p.bs.beds c).map f) (funext fun r => ?_)
      simp only [Function.comp_apply, hpresent, List.mem_cons]
      by_cases hc : c = b
      · simp only [hc, if_true, true_or]
        split
        · unfold mendedBed
          by_cases hr : r.state = .pouring ∧ (r.pour.bind (pourOf p)).isSome = true <;> simp [hr]
        · rfl
      · simp only [hc, if_false, false_or]

/-- What the repair of some beds, each once and no pour named by two of them, leaves of their pours and pieces. -/
structure MendsAll (g : Store) (p : Part) (l : List Nat) (t : Part) : Prop where
  link : t.cl = (l.flatMap fun b => ((brokenPour p b).map fun e => mendNotice g p b e.1 e.2).toList).foldl raiseLink p.cl
  untouched : ∀ n, (∀ b ∈ l, ∀ o, brokenPour p b ≠ some (n, o)) → pourOf t n = pourOf p n ∧
    ∀ k q, pieceOf p k = some q → q.pour = n → pieceOf t k = some q
  mended : ∀ b ∈ l, ∀ n o, brokenPour p b = some (n, o) → pourOf t n = some (mendedPour g p b o) ∧
    ∀ k q, pieceOf p k = some q → q.pour = n → pieceOf t k = some (mendedPiece p b n o k q)

theorem mendsAll_repairBeds {l : List Nat} (hl : l.Nodup) : ∀ {p : Part},
    (∀ a ∈ l, ∀ b ∈ l, ∀ n, (bedOf p a).pour = some n → (bedOf p b).pour = some n → a = b) →
    MendsAll g p l (l.foldl (repairBed g) p) := by
  induction l with
  | nil => exact fun _ => ⟨rfl, fun n _ => ⟨rfl, fun k q hq _ => hq⟩, fun b hb => absurd hb List.not_mem_nil⟩
  | cons b l ih =>
    intro p hone
    obtain ⟨hb, hl⟩ := List.nodup_cons.mp hl
    rw [List.foldl_cons]
    have hne {c : Nat} (hc : c ∈ l) : c ≠ b := fun heq => hb (heq ▸ hc)
    have hother {c : Nat} (hc : c ∈ l) : ∀ m, (bedOf p b).pour = some m → (bedOf p c).pour ≠ some m := fun m hbm hcm =>
      hne hc (hone c (List.mem_cons_of_mem _ hc) b List.mem_cons_self m hcm hbm)
    obtain ⟨hlink, huntouched, hmended⟩ := ih hl (p := repairBed g p b) fun a ha c hc n hna hnc => by
      rw [pour_repairBed] at hna hnc
      exact hone a (List.mem_cons_of_mem _ ha) c (List.mem_cons_of_mem _ hc) n hna hnc
    have hbroken {c : Nat} (hc : c ∈ l) : brokenPour (repairBed g p b) c = brokenPour p c :=
      brokenPour_repairBed_other (hne hc) (hother hc)
    have hgap (c : Nat) : gapEntry (repairBed g p b) c = gapEntry p c := by rw [gapEntry, contextOf_repairBed, gapEntry]
    have hnotice {c : Nat} (hc : c ∈ l) (n : Nat) (o : Pour) :
        mendNotice g (repairBed g p b) c n o = mendNotice g p c n o := by
      rw [mendNotice, bedOf_repairBed_other (hne hc), hgap, mendNotice]
    have hpour {c : Nat} (hc : c ∈ l) (o : Pour) : mendedPour g (repairBed g p b) c o = mendedPour g p c o := by
      rw [mendedPour, bedOf_repairBed_other (hne hc), hgap, mendedPour]
    have hpiece {c : Nat} (hc : c ∈ l) (n : Nat) (o : Pour) (k : Nat) (q : Piece) :
        mendedPiece (repairBed g p b) c n o k q = mendedPiece p c n o k q := by
      rw [mendedPiece, bedOf_repairBed_other (hne hc), mendedPiece]
    refine ⟨?_, fun n hnone => ?_, fun c hc n o hbr => ?_⟩
    · rw [hlink, List.flatMap_cons, List.foldl_append]
      have hrest : (l.flatMap fun c => ((brokenPour (repairBed g p b) c).map fun e =>
          mendNotice g (repairBed g p b) c e.1 e.2).toList) =
          l.flatMap fun c => ((brokenPour p c).map fun e => mendNotice g p c e.1 e.2).toList := by
        refine List.flatMap_congr fun c hc => ?_
        rw [hbroken hc]
        exact congrArg (fun f => ((brokenPour p c).map f).toList) (funext fun e => hnotice hc e.1 e.2)
      rw [hrest]
      refine congrArg (fun k => List.foldl raiseLink k _) ?_
      cases hbr : brokenPour p b with
      | none => rw [repairBed_of_sound hbr]; rfl
      | some e => exact (mends_repairBed (n := e.1) (o := e.2) hbr).link
    · obtain ⟨hp, hq⟩ := huntouched n fun c hc o => by
        rw [hbroken hc]
        exact hnone c (List.mem_cons_of_mem _ hc) o
      cases hbr : brokenPour p b with
      | none =>
        rw [repairBed_of_sound hbr] at hp hq ⊢
        exact ⟨hp, hq⟩
      | some e =>
        have hfar : (bedOf p b).pour ≠ some n := fun hn => by
          obtain ⟨-, he, -⟩ := brokenPour_eq_some_iff.mp (show brokenPour p b = some (e.1, e.2) from hbr)
          exact hnone b List.mem_cons_self e.2 (hbr.trans (by rw [Option.some.inj (hn.symm.trans he)]))
        rw [pourOf_repairBed_other hfar] at hp
        exact ⟨hp, fun k q hk hqn => hq k q (pieceOf_repairBed_other hk (hqn ▸ hfar)) hqn⟩
    · obtain ⟨-, hcn, -⟩ := brokenPour_eq_some_iff.mp hbr
      rcases List.mem_cons.mp hc with rfl | hc
      · obtain ⟨hp, hq⟩ := huntouched n fun d hd o' => by
          rw [hbroken hd]
          intro hd'
          obtain ⟨-, hdn, -⟩ := brokenPour_eq_some_iff.mp hd'
          exact hother hd n hcn hdn
        have hm := mends_repairBed (g := g) hbr
        refine ⟨hp.trans (by rw [pourOf, hm.pours, Map.find_put_same]), fun k q hk hqn => hq k _ (by rw [hm.pieces, hk]; rfl) ?_⟩
        exact (congrArg Piece.pour (conditionless_mendedPiece p c n o k q)).trans hqn
      · obtain ⟨hp, hq⟩ := hmended c hc n o (by rw [hbroken hc, hbr])
        rw [hpour hc] at hp
        refine ⟨hp, fun k q hk hqn => ?_⟩
        rw [hq k q (pieceOf_repairBed_other hk fun hn => hother hc n (hqn ▸ hn) hcn) hqn, hpiece hc]

end mends

/-! ### The first moves of a start -/

/-- A STRIP move as the repair queues it (R134, R187). -/
def plainStrip (m : Move) : Prop := m.kind = .strip ∧ m.state = .queued ∧ m.crane = none ∧ m.dest = none ∧ m.chain = none

/-- A queue filled from empty: numbered from 1, STRIP moves alone, each piece with a number of its own moves. -/
structure FilledAnew (p : Part) : Prop where
  numbers : p.mp.queue.map (·.number) = (List.range p.mp.queue.length).map (· + 1)
  counter : p.mp.counter = p.mp.queue.length + 1
  length : p.mp.queue.length ≤ 32
  strips : ∀ m ∈ p.mp.queue, plainStrip m
  unnamed : ∀ mark r, pieceOf p mark = some r → (∀ m ∈ p.mp.queue, m.piece ≠ some mark) → r.move = none
  named : ∀ mark r, pieceOf p mark = some r → (∃ m ∈ p.mp.queue, m.piece = some mark) →
    ∃ m ∈ p.mp.queue, m.piece = some mark ∧ r.move = some m.number

section fill

variable {p : Part} {mark : Nat}

theorem onStrippingBed_congr {p q : Part} (hbs : q.bs = p.bs) (h : movelessPiece q mark = movelessPiece p mark) :
    onStrippingBed q mark = onStrippingBed p mark := by
  unfold movelessPiece at h
  unfold onStrippingBed
  cases hq : pieceOf q mark <;> cases hp : pieceOf p mark <;> simp only [hq, hp, Option.map_none, Option.map_some,
    Option.some.injEq, reduceCtorEq] at h
  · rfl
  · next a b =>
    have hplace : a.place = b.place := by injection h
    simp only [hplace, bedOf_congr hbs]

theorem queueStrip_of_bed (h : onStrippingBed p mark = true) :
    ∃ b x, queueStrip mark p = joinQueue false (plainMove .strip (some mark) (.bed b x) none) p := by
  unfold onStrippingBed at h
  split at h
  · next q hq =>
    split at h
    · next b x hplace => exact ⟨b, x, by rw [queueStrip, hq]; simp only [hplace]⟩
    · cases h
  · cases h

theorem FilledAnew.newNumber (h : FilledAnew p) : newNumber p = p.mp.queue.length + 1 := by
  have hfree : (p.mp.queue.any fun m => m.number == p.mp.queue.length + 1) = false := by
    rw [List.any_eq_false]
    intro m hm heq
    have hmem : m.number ∈ p.mp.queue.map (·.number) := List.mem_map_of_mem hm
    rw [h.numbers, List.mem_map] at hmem
    obtain ⟨i, hi, hnum⟩ := hmem
    rw [beq_iff_eq] at heq
    have := List.mem_range.mp hi
    omega
  rw [Machine.newNumber, h.counter, seekNumber, hfree, if_neg Bool.false_ne_true]

theorem FilledAnew.queueStrip (h : FilledAnew p) (hroom : p.mp.queue.length < 32) (hbed : onStrippingBed p mark = true) :
    FilledAnew (queueStrip mark p) ∧
    (queueStrip mark p).mp.queue.map (·.piece) = p.mp.queue.map (·.piece) ++ [some mark] := by
  obtain ⟨b, x, heq⟩ := queueStrip_of_bed hbed
  have hnumber := h.newNumber
  have hmp := joinQueue_mp false (plainMove .strip (some mark) (.bed b x) none) p
  have hpieces := pieceOf_joinQueue false (plainMove .strip (some mark) (.bed b x) none) p
  rw [heq]
  generalize joinQueue false (plainMove .strip (some mark) (.bed b x) none) p = q at hmp hpieces ⊢
  have hqueue : q.mp.queue = p.mp.queue ++ [{ plainMove .strip (some mark) (.bed b x) none with number := p.mp.queue.length + 1 }] := by
    rw [hmp, ← hnumber]
    rfl
  have hcounter : q.mp.counter = p.mp.queue.length + 2 := by
    rw [hmp]
    change nextNumber (Machine.newNumber p) = _
    rw [hnumber, nextNumber]
    split <;> omega
  refine ⟨⟨?_, ?_, ?_, ?_, fun k r hr hnone => ?_, fun k r hr hsome => ?_⟩, ?_⟩
  · rw [hqueue, List.map_append, h.numbers, List.length_append, List.length_singleton, List.range_succ, List.map_append]
    rfl
  · rw [hcounter, hqueue, List.length_append, List.length_singleton]
  · rw [hqueue, List.length_append, List.length_singleton]
    omega
  · intro m hm
    rw [hqueue] at hm
    rcases List.mem_append.mp hm with hm | hm
    · exact h.strips m hm
    · obtain rfl := List.mem_singleton.mp hm
      exact ⟨rfl, rfl, rfl, rfl, rfl⟩
  · rw [hqueue] at hnone
    have hk : ¬ some mark = some k := hnone _ (List.mem_append_right _ (List.mem_singleton.mpr rfl))
    rw [hpieces, if_neg (show ¬ (plainMove .strip (some mark) (.bed b x) none).piece = some k from hk)] at hr
    exact h.unnamed k r hr fun m hm => hnone m (List.mem_append_left _ hm)
  · by_cases hk : some mark = some k
    · refine ⟨_, hqueue ▸ List.mem_append_right _ (List.mem_singleton.mpr rfl), hk, ?_⟩
      rw [hpieces, if_pos (show (plainMove .strip (some mark) (.bed b x) none).piece = some k from hk)] at hr
      obtain ⟨r', -, rfl⟩ := Option.map_eq_some_iff.mp hr
      exact congrArg some hnumber
    · rw [hpieces, if_neg (show ¬ (plainMove .strip (some mark) (.bed b x) none).piece = some k from hk)] at hr
      obtain ⟨m, hm, hpiece⟩ := hsome
      rw [hqueue] at hm
      rcases List.mem_append.mp hm with hm | hm
      · obtain ⟨m', hm', hrest⟩ := h.named k r hr ⟨m, hm, hpiece⟩
        exact ⟨m', hqueue ▸ List.mem_append_left _ hm', hrest⟩
      · obtain rfl := List.mem_singleton.mp hm
        exact absurd hpiece hk
  · rw [hqueue, List.map_append]
    rfl

/-- What a fill from an empty queue leaves (R135, R187). -/
theorem filledAnew_fillFrom (l : List Nat) : ∀ {p : Part}, FilledAnew p →
    FilledAnew (fillFrom l p) ∧ ((fillFrom l p).mp.backlog ≠ [] → (fillFrom l p).mp.queue.length = 32) ∧
    ((∀ m ∈ l, onStrippingBed p m = true) → (fillFrom l p).mp.queue.map (·.piece) ++ (fillFrom l p).mp.backlog.map some =
      p.mp.queue.map (·.piece) ++ l.map some) := by
  have hkeep (l : List Nat) {p : Part} (h : FilledAnew p) : FilledAnew (setBacklog l p) :=
    ⟨h.numbers, h.counter, h.length, h.strips, h.unnamed, h.named⟩
  induction l with
  | nil => exact fun h => ⟨hkeep [] h, fun hne => absurd rfl hne, fun _ => rfl⟩
  | cons mark l ih =>
    intro p h
    unfold fillFrom
    split
    · next hroom =>
      split
      · next hbed =>
        obtain ⟨hq, hpieces⟩ := h.queueStrip hroom hbed
        obtain ⟨hfilled, hbacklog, hall⟩ := ih hq
        refine ⟨hfilled, hbacklog, fun hbeds => ?_⟩
        rw [hall, hpieces]
        · simp
        · intro m hm
          rw [onStrippingBed_congr (by simp) ((filled_queueStrip (List.mem_singleton.mpr rfl) hbed).pieces m)]
          exact hbeds m (List.mem_cons_of_mem _ hm)
      · next hbed =>
        obtain ⟨hfilled, hbacklog, -⟩ := ih h
        exact ⟨hfilled, hbacklog, fun hbeds => absurd (hbeds mark List.mem_cons_self) hbed⟩
    · next hfull =>
      refine ⟨hkeep _ h, fun _ => ?_, fun _ => rfl⟩
      have hle := h.length
      have : ¬ p.mp.queue.length < 32 := hfull
      change p.mp.queue.length = 32
      omega

end fill

/-! ### The repair as a whole -/

section repaired

variable {g : Store} {p : Part}

/-- The records with hook pieces put down and contexts reopened, before the beds are repaired (R187, steps 1 and 2). -/
def repairedStock (p : Part) : Part :=
  mapContexts (fun _ ctx => repairContext ctx)
    { p with sm := { p.sm with pieces := Map.mapRecords (fun _ q => repairPiece q) p.sm.pieces } }

theorem repairedBeds_eq (g : Store) (p : Part) : repairedBeds g p = (Map.keys p.bs.beds).foldl (repairBed g) (repairedStock p) := rfl

theorem pieceOf_repairedStock (p : Part) (k : Nat) : pieceOf (repairedStock p) k = (pieceOf p k).map repairPiece := by
  rw [repairedStock, pieceOf, mapContexts_sm, Map.find_mapRecords, pieceOf]

theorem contextOf_repairedStock (p : Part) (b : Nat) : contextOf (repairedStock p) b = (contextOf p b).map repairContext := by
  rw [repairedStock, contextOf, mapContexts, Map.find_mapRecords, contextOf]

/-- What the repair leaves of a piece that had the record `q`: all but its move field and its condition. -/
theorem repaired_piece {k : Nat} {r : Piece} (h : pieceOf (repair g p) k = some r) :
    ∃ q r', pieceOf p k = some q ∧ pieceOf (repairedBeds g p) k = some r' ∧ conditionless r' = conditionless (repairPiece q) ∧
      { r with move := none } = { r' with move := none } := by
  have hmoves := (filled_repair (g := g) (p := p)).pieces k
  obtain ⟨-, hpieces, -⟩ := repairBeds_frame (g := g) (Map.keys p.bs.beds) (repairedStock p)
  have hrepaired := hpieces k
  rw [← repairedBeds_eq, pieceOf_repairedStock, Option.map_map] at hrepaired
  rw [movelessPiece, movelessPiece, h] at hmoves
  obtain ⟨r', hr', hsame⟩ := Option.map_eq_some_iff.mp hmoves.symm
  rw [hr'] at hrepaired
  obtain ⟨q, hq, hcond⟩ := Option.map_eq_some_iff.mp hrepaired.symm
  exact ⟨q, r', hq, hr', hcond.symm, hsame.symm⟩

theorem isSome_pieceOf_repair (k : Nat) : (pieceOf (repair g p) k).isSome = (pieceOf p k).isSome := by
  have hmoves := congrArg Option.isSome ((filled_repair (g := g) (p := p)).pieces k)
  obtain ⟨-, hpieces, -⟩ := repairBeds_frame (g := g) (Map.keys p.bs.beds) (repairedStock p)
  have hrepaired := congrArg Option.isSome (hpieces k)
  rw [← repairedBeds_eq, pieceOf_repairedStock, Option.map_map, Option.isSome_map, Option.isSome_map] at hrepaired
  rw [movelessPiece, movelessPiece, Option.isSome_map, Option.isSome_map] at hmoves
  exact hmoves.trans hrepaired

theorem filledAnew_repairedBeds (hqueue : p.mp.queue = []) (hcounter : p.mp.counter = 1) : FilledAnew (repairedBeds g p) := by
  have hmp := (repairedBeds_keeps (g := g) (p := p)).1
  have hnone : (repairedBeds g p).mp.queue = [] := by rw [hmp, hqueue]
  refine ⟨by rw [hnone]; rfl, by rw [hmp, hqueue, hcounter]; rfl, by rw [hnone]; exact Nat.zero_le _, by simp [hnone],
    fun k r hr _ => ?_, fun k r _ h => by simp [hnone] at h⟩
  obtain ⟨-, hpieces, -⟩ := repairBeds_frame (g := g) (Map.keys p.bs.beds) (repairedStock p)
  have hrepaired := hpieces k
  rw [← repairedBeds_eq, hr, pieceOf_repairedStock, Option.map_map] at hrepaired
  obtain ⟨q, -, hq⟩ := Option.map_eq_some_iff.mp hrepaired.symm
  exact (congrArg Piece.move hq).symm

theorem unstripped_congr {q : Part} (hbs : q.bs = p.bs) (h : ∀ k, movelessPiece q k = movelessPiece p k) :
    unstripped q = unstripped p := by
  have hbed (bed n : Nat) : piecesOnBed q bed n = piecesOnBed p bed n := by
    unfold piecesOnBed
    rw [pourOf_congr hbs]
    split
    · rfl
    · refine List.filter_congr fun k _ => ?_
      have hk := h k
      unfold movelessPiece at hk
      cases hq : pieceOf q k <;> cases hp : pieceOf p k <;> simp only [hq, hp, Option.map_none, Option.map_some,
        Option.some.injEq, reduceCtorEq] at hk
      · rfl
      · next a b =>
        have hplace : a.place = b.place := by injection hk
        have hpour : a.pour = b.pour := by injection hk
        simp only [hplace, hpour]
  unfold unstripped
  rw [hbs]
  refine List.flatMap_congr fun b _ => ?_
  simp only [hbed]

theorem onStrippingBed_of_unstripped (hrising : Map.rising p.bs.beds = true) {m : Nat} (h : m ∈ unstripped p) :
    onStrippingBed p m = true := by
  obtain ⟨b, hb, hm⟩ := List.mem_flatMap.mp h
  split at hm
  · next n hstate hpour =>
    obtain ⟨q, x, hq, -, hplace⟩ := mem_piecesOnBed hm
    have hbed : bedOf p b.1 = b.2 := by rw [bedOf, (find_eq_some_iff_mem hrising).mpr hb]; rfl
    simp [onStrippingBed, hq, hplace, hbed, hstate]
  · cases hm

theorem bedOf_repaired_gap (hgap : ∀ b, (bedOf p b).gap = none) (b : Nat) : (bedOf (repair g p) b).gap = none := by
  obtain ⟨-, -, -, -, hbeds⟩ := repairBeds_frame (g := g) (Map.keys p.bs.beds) (repairedStock p)
  have hbs : (repair g p).bs = (repairedBeds g p).bs := (fillFrom_keeps _ _).2.1
  have hgap' := hgap b
  rw [bedOf] at hgap'
  rw [bedOf_congr hbs, bedOf, repairedBeds_eq, hbeds]
  change ((Option.map _ (Map.find p.bs.beds b)).getD Bed.vacant).gap = none
  cases hfind : Map.find p.bs.beds b with
  | none => rfl
  | some r =>
    rw [hfind] at hgap'
    simp only [Option.map_some, Option.getD_some] at hgap' ⊢
    split
    · unfold mendedBed
      split
      · rfl
      · exact hgap'
    · exact hgap'

end repaired

theorem bedOf_resetVolatile_gap (g : Store) (p : Part) (b : Nat) : (bedOf (resetVolatile g p) b).gap = none := by
  rw [bedOf, resetVolatile]
  simp only [Map.find_mapRecords]
  cases Map.find p.bs.beds b <;> rfl

/-! ### What every start leaves -/

section started

variable {s : State} {cause : StartCause} {kept : Bool} {t : Part}

theorem movesStarted_startWith {s' : State} (ht : startWith s.store cause kept s.toPart = t) (hs : s'.toPart = t) :
    movesStarted s' kept := by
  obtain ⟨-, hbs, hsm, hmp, -⟩ := startWith_fields ht
  unfold movesStarted
  rw [hs]
  cases kept with
  | false =>
    rw [hmp]
    refine ⟨fun _ => ⟨rfl, rfl⟩, rfl, rfl, fun m hm => absurd hm List.not_mem_nil, fun h => absurd rfl h, fun _ => ?_⟩
    have hnone : unstripped t = [] := by
      rw [unstripped, hbs]
      rfl
    rw [hnone]
    rfl
  | true =>
    have hanew := filledAnew_repairedBeds (g := s.store) (p := resetVolatile s.store s.toPart) rfl rfl
    obtain ⟨hfilled, hfull, hall⟩ := filledAnew_fillFrom (unstripped (repairedBeds s.store (resetVolatile s.store s.toPart))) hanew
    rw [← repair_eq] at hfilled hfull hall
    have hbeds : t.bs = (repairedBeds s.store (resetVolatile s.store s.toPart)).bs := hbs.trans (fillFrom_keeps _ _).2.1
    have hmp' : t.mp = (repair s.store (resetVolatile s.store s.toPart)).mp := hmp
    rw [hmp']
    refine ⟨nofun, hfilled.counter, hfilled.numbers, hfilled.strips, hfull, fun hrising => ?_⟩
    rw [hbeds] at hrising
    have hsame : unstripped t = unstripped (repairedBeds s.store (resetVolatile s.store s.toPart)) :=
      unstripped_congr hbeds fun k => by
        rw [← (filled_repair (g := s.store) (p := resetVolatile s.store s.toPart)).pieces k, movelessPiece,
          pieceOf_congr (congrArg StockMap.pieces hsm), movelessPiece]
        rfl
    rw [hall fun m hm => onStrippingBed_of_unstripped hrising hm, hsame, (repairedBeds_keeps).1]
    rfl

theorem linkStarted_startWith {s' : State} (ht : startWith s.store cause kept s.toPart = t) (hs : s'.toPart = t) :
    linkStarted s s' := by
  obtain ⟨-, -, -, -, -, -, -, -, hbegun, -⟩ := startWith_fields ht
  have hclosed := closedAll_startEntered (g := s.store) (cause := cause) (kept := kept) (p := s.toPart)
  have hnotSetup (h : startMode s.store ≠ .setup) : (startEntered s.store cause kept s.toPart).fl.queue = [] := by
    obtain ⟨-, -, -, hfl, -⟩ := startChosen_keeps (g := s.store) (cause := cause) (kept := kept) (p := s.toPart)
    rw [startEntered, if_neg h, hfl]
    rfl
  obtain ⟨hwaiting, hrepeat, hdue, hA, hB⟩ := hbegun.idle
  unfold linkStarted
  rw [hs]
  refine ⟨fun a nd hnd => startNodes_find ?_, fun e he => ?_, fun e he => ?_, hwaiting, hrepeat, hdue, hA, hB,
    hbegun.round.trans startNodes_ne_nil_iff, fun ⟨e, he, hpos⟩ => ?_⟩
  · rwa [nodeOf, hbegun.nodes] at hnd
  · rw [nodeOf, hbegun.nodes]
    exact startNodes_there he
  · obtain ⟨hcmd, hby, -⟩ := hclosed.queue e (hbegun.queue e he)
    refine ⟨hcmd, hby, ?_⟩
    by_contra hmode
    have := hbegun.queue e he
    rw [hnotSetup hmode] at this
    cases this
  · obtain ⟨nd, hnd⟩ := Option.isSome_iff_exists.mp (startNodes_there he)
    obtain ⟨ex, hex, hattempt, hpoll⟩ := hbegun.line ⟨(e.1, nd), Map.mem_of_find hnd, hpos⟩
    exact ⟨ex, hex, hattempt, fun hmode => hpoll (hnotSetup hmode)⟩

theorem valvesStarted_startWith {s' : State} (ht : startWith s.store cause kept s.toPart = t) (hs : s'.toPart = t) :
    valvesStarted s s' := by
  obtain ⟨-, -, -, -, -, -, -, hcc, -⟩ := startWith_fields ht
  have hclosed := closedAll_startEntered (g := s.store) (cause := cause) (kept := kept) (p := s.toPart)
  obtain ⟨-, -, -, -, -, -, -, -, hfresh, -⟩ := startChosen_keeps (g := s.store) (cause := cause) (kept := kept) (p := s.toPart)
  unfold valvesStarted
  rw [hs, hcc]
  refine ⟨fun z hz => hclosed.there _ ?_, fun k v hv => ?_⟩
  · rw [hfresh]
    exact find_built_there (.inl ⟨z, hz, rfl⟩)
  · obtain ⟨hwanted, hhanded, hzone⟩ := hclosed.valves k v hv
    refine ⟨hwanted, fun hmode => ?_, hhanded, hzone⟩
    change Map.find (startEntered s.store cause kept s.toPart).cc.valves k = some v at hv
    rw [startEntered, if_neg hmode, hfresh] at hv
    exact (freshValves_find hv).1

theorem startedAs_start {indication : Bool} (h : retentionValid s.store indication = kept) :
    startedAs s (start cause indication s) cause kept := by
  have hstart : start cause indication s = { s with toPart := startWith s.store cause kept s.toPart } := by rw [start, h]
  rw [hstart]
  obtain ⟨t, ht⟩ : ∃ t, startWith s.store cause kept s.toPart = t := ⟨_, rfl⟩
  rw [ht]
  obtain ⟨hmc, hbs, hsm, hmp, htu, hA, hB, hcc, -, k, hsending, hreplies, hplaces, hrx, hrestarting, hrate, hcl⟩ :=
    startWith_fields ht
  obtain ⟨-, -, -, -, -, htimer, hresA, hresB, -, halloc, hcuring⟩ :=
    startChosen_keeps (g := s.store) (cause := cause) (kept := kept) (p := s.toPart)
  have hslots (n : Nat) : (slotOf t n).engaged = none ∧ (slotOf t n).lock = none := by
    rw [slotOf, hsm, startSettled]
    cases kept with
    | false => exact ⟨rfl, rfl⟩
    | true =>
      rw [if_pos rfl, (repair_keeps _ _).2.2.2.2.2.2.1]
      change (slotOf (resetVolatile s.store s.toPart) n).engaged = none ∧ (slotOf (resetVolatile s.store s.toPart) n).lock = none
      rw [slotOf_resetVolatile]
      exact ⟨rfl, rfl⟩
  have hgap (b : Nat) : (bedOf t b).gap = none := by
    rw [bedOf_congr hbs, startSettled]
    cases kept with
    | false => rw [bedOf_allVacant rfl]; rfl
    | true => exact bedOf_repaired_gap (bedOf_resetVolatile_gap _ _) b
  have haborted : poursOpen (resetVolatile s.store s.toPart) = (s.bs.beds.filter fun b => b.2.state == .pouring).length := by
    rw [poursOpen, resetVolatile, Map.mapRecords, List.filter_map, List.length_map]
    rfl
  refine ⟨rfl, rfl, hmc, htu, linkStarted_startWith ht rfl, valvesStarted_startWith ht rfl, movesStarted_startWith ht rfl,
    hA, hB, (congrArg MovePlanner.resA hmp).trans hresA, (congrArg MovePlanner.resB hmp).trans hresB,
    (congrArg CuringController.alloc hcc).trans halloc, (congrArg CuringController.timer hcc).trans hcuring,
    (congrArg StockMap.timer hsm).trans htimer, hgap, hslots, ?_⟩
  rw [show ({ s with toPart := t } : State).cl = t.cl from rfl, hcl, ← haborted]
  refine ⟨hrx, hplaces, hreplies, hrestarting, hrate, ?_⟩
  rw [← hrate]
  exact ⟨_, rfl⟩

/-- Settles O5: one start, whichever of the three brought it about. -/
theorem startsAlike : Obligations.StartsAlike := fun _ =>
  ⟨⟨_, rfl, startedAs_start rfl⟩, fun hpower => ⟨_, exec_resetPin_of_power hpower, startedAs_start (retentionValid_true _)⟩,
    fun hends => ⟨_, exec_frameSent_of_restart hends, startedAs_start (retentionValid_true _)⟩⟩

end started

/-! ### What a start with retention valid keeps (R187) -/

section kept

variable {s : State} {cause : StartCause} {t : Part}

/-- The records of `s` as the repair of the beds begins with them. -/
def repairBegins (s : State) : Part := repairedStock (resetVolatile s.store s.toPart)

theorem repairedBeds_begins (s : State) :
    repairedBeds s.store (resetVolatile s.store s.toPart) = (Map.keys s.bs.beds).foldl (repairBed s.store) (repairBegins s) := by
  rw [repairedBeds_eq, resetVolatile, Map.keys_mapRecords]
  rfl

theorem find_beds_begins (s : State) (b : Nat) :
    Map.find (repairBegins s).bs.beds b = (Map.find s.bs.beds b).map fun r => { r with gap := none } := by
  change Map.find (resetVolatile s.store s.toPart).bs.beds b = _
  rw [resetVolatile]
  simp only [Map.find_mapRecords]

theorem bedOf_begins {b : Nat} {r : Bed} (h : Map.find s.bs.beds b = some r) : bedOf (repairBegins s) b = { r with gap := none } := by
  rw [bedOf, find_beds_begins, h]
  rfl

theorem pourOf_begins (n : Nat) : pourOf (repairBegins s) n = pourOf s.toPart n := rfl

theorem gapEntry_begins (b : Nat) : gapEntry (repairBegins s) b =
    { kind := .powerGap, zone := none, value := 0, minutes := ((contextOf s.toPart b).map curingMinutes).getD 0 } := by
  rw [gapEntry, repairBegins, contextOf_repairedStock, Option.map_map]
  rfl

theorem kept_bs (ht : startWith s.store cause true s.toPart = t) :
    t.bs = ((Map.keys s.bs.beds).foldl (repairBed s.store) (repairBegins s)).bs := by
  obtain ⟨-, hbs, -⟩ := startWith_fields ht
  rw [hbs, ← repairedBeds_begins]
  exact (fillFrom_keeps _ _).2.1

theorem kept_piece (ht : startWith s.store cause true s.toPart = t) (k : Nat) :
    pieceOf t k = pieceOf (repair s.store (resetVolatile s.store s.toPart)) k := by
  obtain ⟨-, -, hsm, -⟩ := startWith_fields ht
  exact pieceOf_congr (congrArg StockMap.pieces hsm) k

theorem repairContext_eq (k : Context) : repairContext k =
    { k with starved := false, starvedCount := 0, fresh := false, repairPending := decide (k.phase = .ramp ∨ k.phase = .cool),
             zones := k.zones.map fun e => (e.1, { ZoneCuring.opened with acc := e.2.acc, excluded := e.2.excluded }) } := by
  have hpending : (k.phase == .ramp || k.phase == .cool) = decide (k.phase = .ramp ∨ k.phase = .cool) := by
    cases k.phase <;> rfl
  rw [repairContext, hpending]
  rfl

theorem kept_contexts (ht : startWith s.store cause true s.toPart = t) (b : Nat) :
    contextOf t b = (contextOf s.toPart b).map repairContext := by
  obtain ⟨-, -, -, -, -, -, -, hcc, -⟩ := startWith_fields ht
  rw [contextOf, hcc]
  change Map.find (repair s.store (resetVolatile s.store s.toPart)).cc.contexts b = _
  rw [repair_cc, Map.find_mapRecords]
  rfl

theorem kept_slots (ht : startWith s.store cause true s.toPart = t) (n : Nat) :
    (slotOf t n).stack = (slotOf s.toPart n).stack := by
  obtain ⟨-, -, hsm, -⟩ := startWith_fields ht
  have hslots : t.sm.slots = (resetVolatile s.store s.toPart).sm.slots := by
    rw [hsm]
    exact (repair_keeps _ _).2.2.2.2.2.2.1
  rw [slotOf, hslots]
  change (slotOf (resetVolatile s.store s.toPart) n).stack = _
  rw [slotOf_resetVolatile]

theorem kept_beds (ht : startWith s.store cause true s.toPart = t) {b : Nat} {r : Bed} (h : Map.find s.bs.beds b = some r) :
    (r.state ≠ .pouring → Map.find t.bs.beds b = some { r with gap := none }) ∧
    ∀ n o, r.state = .pouring → r.pour = some n → pourOf s.toPart n = some o →
      Map.find t.bs.beds b = some { r with state := .rejected, gap := none } := by
  obtain ⟨-, -, -, -, hbeds⟩ := repairBeds_frame (g := s.store) (Map.keys s.bs.beds) (repairBegins s)
  rw [kept_bs ht, hbeds, find_beds_begins, h, Option.map_map, Option.map_some]
  simp only [Function.comp_apply, if_pos (mem_keys_of_find h), mendedBed, Option.some.injEq]
  refine ⟨fun hstate => if_neg fun hc => hstate hc.1, fun n o hstate hn ho => if_pos ⟨hstate, ?_⟩⟩
  rw [hn, Option.bind_some, pourOf_begins, ho]
  rfl

theorem kept_pieces (ht : startWith s.store cause true s.toPart = t) {mark : Nat} {q : Piece} (hq : pieceOf s.toPart mark = some q) :
    ∃ r, pieceOf t mark = some r ∧ r.product = q.product ∧ r.pour = q.pour ∧ r.length = q.length ∧ r.mass = q.mass ∧
      r.acc = q.acc ∧ r.stripAcc = q.stripAcc ∧ r.zone = q.zone ∧ r.released = q.released ∧
      r.place = (repairPiece q).place := by
  have hsome := isSome_pieceOf_repair (g := s.store) (p := resetVolatile s.store s.toPart) mark
  rw [← kept_piece ht, show pieceOf (resetVolatile s.store s.toPart) mark = some q from hq] at hsome
  obtain ⟨r, hr⟩ := Option.isSome_iff_exists.mp hsome
  obtain ⟨q', r', hq', -, hcond, hmove⟩ := repaired_piece ((kept_piece ht mark).symm.trans hr)
  obtain rfl : q' = q := Option.some.inj (hq'.symm.trans hq)
  have hmove' : conditionless { r with move := none } = conditionless { r' with move := none } := congrArg conditionless hmove
  have hcond' : ({ conditionless r' with move := none } : Piece) = { conditionless (repairPiece q') with move := none } := by rw [hcond]
  have hall : conditionless { r with move := none } = { conditionless (repairPiece q') with move := none } := hmove'.trans hcond'
  simp only [conditionless, repairPiece, Piece.mk.injEq] at hall
  obtain ⟨hproduct, hpour, hlength, hmass, hplace, hzone, -, hacc, hstrip, -, hreleased⟩ := hall
  exact ⟨r, hr, hproduct, hpour, hlength, hmass, hacc, hstrip, hzone, hreleased, hplace⟩

/-- Each piece has the number of a move of its own, or of none. -/
theorem kept_moves (ht : startWith s.store cause true s.toPart = t) {mark : Nat} {r : Piece} (hr : pieceOf t mark = some r) :
    ((∀ m ∈ t.mp.queue, m.piece ≠ some mark) → r.move = none) ∧
    ((∃ m ∈ t.mp.queue, m.piece = some mark) → ∃ m ∈ t.mp.queue, m.piece = some mark ∧ r.move = some m.number) := by
  obtain ⟨-, -, -, hmp, -⟩ := startWith_fields ht
  have hmp' : t.mp = (repair s.store (resetVolatile s.store s.toPart)).mp := hmp
  obtain ⟨hfilled, -⟩ := filledAnew_fillFrom (unstripped (repairedBeds s.store (resetVolatile s.store s.toPart)))
    (filledAnew_repairedBeds (g := s.store) (p := resetVolatile s.store s.toPart) rfl rfl)
  rw [← repair_eq] at hfilled
  rw [kept_piece ht] at hr
  rw [hmp']
  exact ⟨hfilled.unnamed mark r hr, hfilled.named mark r hr⟩

end kept

/-! ### The pours and their pieces, where no pour is named by two beds -/

section oneBed

variable {s : State} {cause : StartCause} {t : Part}

theorem bedOf_begins_of_mem (hone : oneBedAPour s) {b : Nat × Bed} (hb : b ∈ s.bs.beds) :
    bedOf (repairBegins s) b.1 = { b.2 with gap := none } :=
  bedOf_begins ((find_eq_some_iff_mem hone.1).mpr hb)

theorem brokenPour_begins (hone : oneBedAPour s) {b : Nat × Bed} (hb : b ∈ s.bs.beds) {n : Nat} {o : Pour} :
    brokenPour (repairBegins s) b.1 = some (n, o) ↔
      (b.2.state = .pouring ∨ b.2.state = .curing) ∧ b.2.pour = some n ∧ pourOf s.toPart n = some o := by
  rw [brokenPour_eq_some_iff, bedOf_begins_of_mem hone hb, pourOf_begins]

theorem mendsAll_begins (hone : oneBedAPour s) :
    MendsAll s.store (repairBegins s) (Map.keys s.bs.beds) ((Map.keys s.bs.beds).foldl (repairBed s.store) (repairBegins s)) := by
  refine mendsAll_repairBeds (keys_nodup hone.1) fun a ha b hb n hna hnb => ?_
  obtain ⟨⟨a', ra⟩, hra, rfl⟩ := List.mem_map.mp ha
  obtain ⟨⟨b', rb⟩, hrb, rfl⟩ := List.mem_map.mp hb
  rw [bedOf_begins_of_mem hone hra] at hna
  rw [bedOf_begins_of_mem hone hrb] at hnb
  have hsome : ra.pour.isSome := Option.isSome_iff_exists.mpr ⟨n, hna⟩
  exact hone.2.2 _ hra _ hrb hsome (Eq.trans (b := some n) hna (Eq.symm hnb))

/-- No bed with the pour broken names it. -/
theorem not_broken (hone : oneBedAPour s) {n : Nat}
    (h : ∀ b ∈ s.bs.beds, b.2.pour = some n → b.2.state ≠ .pouring ∧ b.2.state ≠ .curing) :
    ∀ b ∈ Map.keys s.bs.beds, ∀ o, brokenPour (repairBegins s) b ≠ some (n, o) := by
  intro b hb o hbroken
  obtain ⟨e, he, rfl⟩ := List.mem_map.mp hb
  obtain ⟨hstate, hn, -⟩ := (brokenPour_begins hone he).mp hbroken
  obtain ⟨hpouring, hcuring⟩ := h e he hn
  exact hstate.elim hpouring hcuring

theorem kept_pours (ht : startWith s.store cause true s.toPart = t) (hone : oneBedAPour s) {n : Nat} {o : Pour}
    (ho : pourOf s.toPart n = some o) :
    (∀ b ∈ s.bs.beds, b.2.pour = some n → b.2.state = .pouring →
      pourOf t n = some { o with state := .aborted, cause := some .power }) ∧
    (∀ b ∈ s.bs.beds, b.2.pour = some n → b.2.state = .curing →
      pourOf t n = some (notedPour s.store (gapEntry (repairBegins s) b.1) o)) ∧
    ((∀ b ∈ s.bs.beds, b.2.pour = some n → b.2.state ≠ .pouring ∧ b.2.state ≠ .curing) → pourOf t n = some o) := by
  have hmends := mendsAll_begins hone
  rw [pourOf_congr (kept_bs ht)]
  refine ⟨fun b hb hn hstate => ?_, fun b hb hn hstate => ?_, fun hnone => ?_⟩
  · obtain ⟨hpour, -⟩ := hmends.mended b.1 (List.mem_map_of_mem hb) n o ((brokenPour_begins hone hb).mpr ⟨.inl hstate, hn, ho⟩)
    rw [hpour, mendedPour, bedOf_begins_of_mem hone hb, if_pos hstate]
  · obtain ⟨hpour, -⟩ := hmends.mended b.1 (List.mem_map_of_mem hb) n o ((brokenPour_begins hone hb).mpr ⟨.inr hstate, hn, ho⟩)
    rw [hpour, mendedPour, bedOf_begins_of_mem hone hb, if_neg]
    rw [hstate]
    decide
  · rw [(hmends.untouched n (not_broken hone hnone)).1, pourOf_begins, ho]

/-- The condition of a piece, by the record the beds' repair leaves. -/
theorem kept_condition (ht : startWith s.store cause true s.toPart = t) {mark : Nat} {r : Piece}
    (hr : pieceOf t mark = some r) {q' : Piece}
    (hrepaired : pieceOf ((Map.keys s.bs.beds).foldl (repairBed s.store) (repairBegins s)) mark = some q') :
    r.condition = q'.condition := by
  obtain ⟨q₁, r', -, hr', -, hmove⟩ := repaired_piece ((kept_piece ht mark).symm.trans hr)
  rw [repairedBeds_begins, hrepaired] at hr'
  obtain rfl := Option.some.inj hr'
  simp only [Piece.mk.injEq] at hmove
  exact hmove.2.2.2.2.2.2.1

theorem pieceOf_begins {mark : Nat} {q : Piece} (hq : pieceOf s.toPart mark = some q) :
    pieceOf (repairBegins s) mark = some (repairPiece q) := by
  rw [repairBegins, pieceOf_repairedStock]
  exact congrArg (Option.map repairPiece) hq

theorem kept_conditions (ht : startWith s.store cause true s.toPart = t) (hone : oneBedAPour s) {mark : Nat} {q r : Piece}
    (hq : pieceOf s.toPart mark = some q) (hr : pieceOf t mark = some r) :
    (∀ b ∈ s.bs.beds, b.2.pour = some q.pour → ∀ o, pourOf s.toPart q.pour = some o →
      (b.2.state = .pouring → mark ∈ o.order → r.condition = .rejected) ∧
      (b.2.state = .curing → r.condition =
        if o.review = false ∧ q.released = false ∧ (q.condition = .curing ∨ q.condition = .shippable) then .held
        else q.condition)) ∧
    ((∀ b ∈ s.bs.beds, b.2.pour = some q.pour → b.2.state ≠ .pouring ∧ b.2.state ≠ .curing) → r.condition = q.condition) := by
  have hmends := mendsAll_begins hone
  refine ⟨fun b hb hn o ho => ⟨fun hstate hmem => ?_, fun hstate => ?_⟩, fun hnone => ?_⟩
  · obtain ⟨-, hpieces⟩ := hmends.mended b.1 (List.mem_map_of_mem hb) q.pour o
      ((brokenPour_begins hone hb).mpr ⟨.inl hstate, hn, ho⟩)
    rw [kept_condition ht hr (hpieces mark _ (pieceOf_begins hq) rfl), mendedPiece, bedOf_begins_of_mem hone hb, if_pos hstate,
      if_pos ⟨rfl, hmem⟩]
  · obtain ⟨-, hpieces⟩ := hmends.mended b.1 (List.mem_map_of_mem hb) q.pour o
      ((brokenPour_begins hone hb).mpr ⟨.inr hstate, hn, ho⟩)
    have hnot : b.2.state ≠ .pouring := by rw [hstate]; decide
    rw [kept_condition ht hr (hpieces mark _ (pieceOf_begins hq) rfl), mendedPiece, bedOf_begins_of_mem hone hb, if_neg hnot]
    have hcaught : caughtByReview q.pour (repairPiece q) = true ↔
        q.released = false ∧ (q.condition = .curing ∨ q.condition = .shippable) := by
      rw [caughtByReview_eq_true_iff]
      exact and_iff_right rfl
    cases hreview : o.review with
    | true => simp [repairPiece]
    | false =>
      simp only [Bool.false_eq_true, if_false, true_and, heldIfCaught]
      by_cases hc : q.released = false ∧ (q.condition = .curing ∨ q.condition = .shippable)
      · rw [if_pos hc, if_pos (hcaught.mpr hc)]
      · rw [if_neg hc, if_neg (mt hcaught.mp hc)]
        rfl
  · obtain ⟨-, hpieces⟩ := hmends.untouched q.pour (not_broken hone hnone)
    rw [kept_condition ht hr (hpieces mark _ (pieceOf_begins hq) rfl)]
    rfl

/-- The notices behind STARTED, in the order of the beds. -/
theorem kept_notices (ht : startWith s.store cause true s.toPart = t) (hone : oneBedAPour s) :
    t.cl.notices = s.bs.beds.flatMap fun b =>
      ((brokenPour (repairBegins s) b.1).map fun e => mendNotice s.store (repairBegins s) b.1 e.1 e.2).toList := by
  obtain ⟨-, -, -, -, -, -, -, -, -, k, -, -, -, -, -, -, hcl⟩ := startWith_fields ht
  have hlink : (startSettled s.store true s.toPart).cl =
      ((Map.keys s.bs.beds).foldl (repairBed s.store) (repairBegins s)).cl := by
    rw [← repairedBeds_begins]
    exact (fillFrom_keeps _ _).2.2.2.2.2.2.2.1
  have hnotices := (raiseLinks_queue (repairBegins s).cl ((Map.keys s.bs.beds).flatMap fun b =>
    ((brokenPour (repairBegins s) b).map fun e => mendNotice s.store (repairBegins s) b e.1 e.2).toList)).1
  rw [← (mendsAll_begins hone).link] at hnotices
  rw [Map.keys, List.flatMap_map] at hnotices
  have hlength : (s.bs.beds.flatMap fun b =>
      ((brokenPour (repairBegins s) b.1).map fun e => mendNotice s.store (repairBegins s) b.1 e.1 e.2).toList).length ≤ 6 := by
    rw [List.length_flatMap]
    refine (List.sum_le_card_nsmul _ 1 fun x hx => ?_).trans (by simpa using hone.2.1)
    obtain ⟨b, -, rfl⟩ := List.mem_map.mp hx
    cases brokenPour (repairBegins s) b.1 <;> simp
  have hfresh : (repairBegins s).cl.notices = [] := rfl
  rw [hfresh, List.nil_append, List.length_nil, List.take_of_length_le (hlength.trans (by decide))] at hnotices
  rw [hcl]
  change (if (startSettled s.store true s.toPart).cl.notices.length < 24 then _ else _) = _
  rw [hlink]
  unfold Map.keys
  rw [hnotices, if_pos (by omega)]

theorem kept_seq (ht : startWith s.store cause true s.toPart = t) :
    t.bs.seq = s.bs.seq := by
  rw [kept_bs ht]
  exact (repairBeds_frame (g := s.store) (Map.keys s.bs.beds) (repairBegins s)).1

end oneBed

/-- Settles O7: the repair of R187 record by record, the pours by the beds that name them. -/
theorem startKeepsJobs : Obligations.StartKeepsJobs := by
  intro s c hretain hc zone context gap listed
  obtain ⟨cause, indication, hexec, hkept⟩ : ∃ cause indication, exec c s = .next (start cause indication s) ∧
      retentionValid s.store indication = true := by
    rcases hc with ⟨rfl, hheld⟩ | ⟨rfl, hpower⟩ | ⟨rfl, hends⟩
    · exact ⟨_, _, rfl, by simp [retentionValid, hheld, hretain]⟩
    · exact ⟨_, _, exec_resetPin_of_power hpower, by simp [retentionValid, hretain]⟩
    · exact ⟨_, _, exec_frameSent_of_restart hends, by simp [retentionValid, hretain]⟩
  refine ⟨_, hexec, ?_⟩
  have hstart : start cause indication s = { s with toPart := startWith s.store cause true s.toPart } := by rw [start, hkept]
  rw [hstart]
  obtain ⟨t, ht⟩ : ∃ t, startWith s.store cause true s.toPart = t := ⟨_, rfl⟩
  rw [ht]
  have hgap (b : Nat) : gapEntry (repairBegins s) b = gap b := gapEntry_begins b
  refine ⟨?_, kept_slots ht, fun mark q hq => kept_pieces ht hq, fun mark hnone => ?_, fun mark r hr => kept_moves ht hr,
    fun b r h => kept_beds ht h, fun b => ?_, fun hone => ⟨fun n hnone => ?_, fun n o ho => ?_,
      fun mark q r hq hr => kept_conditions ht hone hq hr, ?_⟩⟩
  · exact kept_seq ht
  · have hsome := isSome_pieceOf_repair (g := s.store) (p := resetVolatile s.store s.toPart) mark
    rw [← kept_piece ht, show pieceOf (resetVolatile s.store s.toPart) mark = none from hnone] at hsome
    exact Option.isNone_iff_eq_none.mp (by simpa using hsome)
  · exact (kept_contexts ht b).trans (congrArg (fun f => (contextOf s.toPart b).map f) (funext repairContext_eq))
  · have hpresent := (repairBeds_frame (g := s.store) (Map.keys s.bs.beds) (repairBegins s)).2.2.1 n
    rw [← pourOf_congr (kept_bs ht), pourOf_begins, hnone] at hpresent
    exact Option.isNone_iff_eq_none.mp (by simpa using hpresent)
  · obtain ⟨hpouring, hcuring, hother⟩ := kept_pours ht hone ho
    refine ⟨hpouring, fun b hb hn hstate => (hcuring b hb hn hstate).trans ?_, hother⟩
    rw [notedPour, hgap]
    have hreview : (o.review || (gap b.1).kind.isReview) = true := Bool.or_true _
    rw [hreview]
  · refine (kept_notices ht hone).trans (List.flatMap_congr fun b hb => ?_)
    have hnotice (n : Nat) (o : Pour) : mendNotice s.store (repairBegins s) b.1 n o =
        if b.2.state = .pouring then .pourAborted b.1 n o.delivered o.batches .power
        else .deviation b.1 n (gap b.1) (listed b.1 o).1 := by
      rw [mendNotice, bedOf_begins_of_mem hone hb, hgap]
      rfl
    rw [brokenPour, bedOf_begins_of_mem hone hb]
    simp only [hnotice, pourOf_begins]
    cases b.2.state <;> cases (b.2.pour.bind fun n => (pourOf s.toPart n).map fun o => (n, o)) <;> simp

end Sys2Proof.Proofs
end

section
/-!
PROOFS. SET MODE and the directed queue (R85, R88, R154, R164, R183): what an offer of SET VALVE comes to, and what each
change of mode does.
-/

namespace Sys2Proof.Proofs

open Sys2Proof.Machine

/-! ### An event of a request that changes the store -/

theorem ended_byStore {s : State} {c : Instr} {kind tag : Nat} {f : Store → Part → Judgement (Store × Taken)} {g : Store}
    {taken : Taken} (h : ready s) (hc : exec c s = .next (receive kind tag (byStore f) s))
    (hf : f s.store (atOwner kind tag s) = .ok (g, taken)) (hl : linkCore taken.part.cl = linkCore (atOwner kind tag s).cl) :
    runsTo c s fun t => endedFrom { s with store := g } t taken.part ∧
      answered s t kind tag (takenStatus taken.clamped) taken.fields taken.after := by
  have hd : byStore f s.store (atOwner kind tag s) =
      { store := g, part := taken.part, status := takenStatus taken.clamped, fields := taken.fields,
        after := taken.after } := by simp [byStore, hf]
  refine ⟨_, hc, ⟨taken.part.cl.replies ++ [replyOf kind tag ⟨g, taken.part, takenStatus taken.clamped, taken.fields, taken.after⟩], ?_⟩, answered_of_link h hd hl⟩
  rw [receive_ready h, hd, finish]
  rfl

/-- Outside RUN a trigger passes without a scan (R121). -/
theorem endedFrom.becomes_of_not_run {s t : State} {p : Part} (h : endedFrom s t p) (hplain : noWithdrawal p)
    (hmode : p.mc.mode ≠ .run) : Machine.becomes s t s.store p := by
  obtain ⟨replies, rfl⟩ := h.of_noWithdrawal hplain
  have hquiet : scanIfDue s.store (withReplies replies p) = withReplies replies p := by
    have : ((withReplies replies p).mc.mode == .run) = false := by simpa [withReplies] using hmode
    rw [scanIfDue, this, Bool.and_false, if_neg Bool.false_ne_true]
  rw [hquiet]
  exact ⟨rfl, rfl, rfl, rfl, rfl, rfl, rfl, rfl, rfl, rfl, rfl⟩

/-! ### Leaving RUN (R154) -/

section leaving

variable {g : Store} {c : CraneId} {p : Part}

/-- A crane works a move. -/
def worksMove (r : Crane) : Prop := (stepOf r.state).isSome ∧ r.move.isSome

theorem stoppedRecord_core {r r' : Crane} (h : craneCore r = craneCore r') (reason : StopReason) :
    craneCore (stoppedRecord r reason) = craneCore (stoppedRecord r' reason) :=
  (congrArg (fun x => craneCore (stoppedRecord x reason)) h : craneCore (stoppedRecord (craneCore r) reason) = _)

/-- A crane stopped as the mode leaves RUN. -/
def stoppedForMode (g : Store) (o p : Part) (c : CraneId) : Prop :=
  (∀ a, reachable g c o a → stopStands o.fl.serial a p) ∧
  craneCore (craneOf p c) = craneCore (stoppedRecord (craneOf o c) .mode)

theorem traffic_stopForMode : Traffic {c} p (stopForMode g c p) := by
  unfold stopForMode
  split
  · exact (Traffic.refl p).then_stopCrane (Set.mem_singleton c) _ _
  · exact .refl p

theorem stopForMode_of_works (h : worksMove (craneOf p c)) : stopForMode g c p = stopCrane g c .mode true p := by
  rw [stopForMode, if_pos (by simpa [worksMove] using h)]

theorem stopForMode_of_not (h : ¬ worksMove (craneOf p c)) : stopForMode g c p = p := by
  rw [stopForMode, if_neg (by simpa [worksMove] using h)]

theorem stoppedForMode_of_works (h : worksMove (craneOf p c)) : stoppedForMode g p (stopForMode g c p) c := by
  rw [stopForMode_of_works h]
  exact ⟨fun a ha => stopStands_stopCrane ha .mode, by rw [craneOf_stopCrane]; rfl⟩

theorem worksMove_congr {q : Part} (h : craneCore (craneOf q c) = craneCore (craneOf p c)) :
    worksMove (craneOf q c) ↔ worksMove (craneOf p c) := by
  have hstate := congrArg (fun r : Crane => r.state) h
  have hmove := congrArg (fun r : Crane => r.move) h
  unfold worksMove
  rw [show (craneOf q c).state = (craneOf p c).state from hstate, show (craneOf q c).move = (craneOf p c).move from hmove]

theorem reachable_of_nodes {q : Part} (h : q.fl.nodes = p.fl.nodes) {a : Nat} (ha : reachable g c p a) : reachable g c q a := by
  obtain ⟨hcrane, nd, hnode, hlost⟩ := ha
  exact ⟨hcrane, nd, by rwa [nodeOf_congr h], hlost⟩

theorem stopStands_of_traffic {mine : Set CraneId} {q : Part} {base a : Nat} (h : Traffic mine p q) (ha : (nodeOf p a).isSome)
    (hbase : base ≤ p.fl.serial) (hstands : stopStands base a p) : stopStands base a q := h.stops base a ha hbase hstands

theorem changed_stopForMode : (stopForMode g c p).evt.changed = p.evt.changed := by
  unfold stopForMode
  split
  · exact (evt_stopCrane .mode true).1
  · rfl

/-- Both cranes, A first, as the mode leaves RUN. -/
theorem stopBoth (g : Store) (p : Part) (c : CraneId) :
    (worksMove (craneOf p c) → stoppedForMode g p (stopForMode g .B (stopForMode g .A p)) c) ∧
    (¬ worksMove (craneOf p c) →
      craneCore (craneOf (stopForMode g .B (stopForMode g .A p)) c) = craneCore (craneOf p c)) := by
  have hA := traffic_stopForMode (g := g) (c := .A) (p := p)
  have hB := traffic_stopForMode (g := g) (c := .B) (p := stopForMode g .A p)
  cases c with
  | A =>
    have hrest := (hB.cranes .A (by simp)).1
    refine ⟨fun hworks => ?_, fun hnot => ?_⟩
    · obtain ⟨hstands, hcore⟩ := stoppedForMode_of_works (g := g) hworks
      refine ⟨fun a ha => hB.stops _ _ ?_ hA.serial (hstands a ha), hrest.trans hcore⟩
      obtain ⟨-, nd, hnode, -⟩ := reachable_of_nodes hA.nodes ha
      rw [hnode]
      rfl
    · rw [hrest, stopForMode_of_not hnot]
  | B =>
    have hbefore := (hA.cranes .B (by simp)).1
    refine ⟨fun hworks => ?_, fun hnot => ?_⟩
    · obtain ⟨hstands, hcore⟩ := stoppedForMode_of_works (g := g) ((worksMove_congr hbefore).mpr hworks)
      refine ⟨fun a ha => ?_, hcore.trans ?_⟩
      · rcases hstands a (reachable_of_nodes hA.nodes ha) with hqueue | ⟨ex, hline, haddr, hcmd, hattempt, hid⟩
        · exact .inl hqueue
        · exact .inr ⟨ex, hline, haddr, hcmd, hattempt, hA.serial.trans hid⟩
      · exact stoppedRecord_core hbefore _
    · rw [stopForMode_of_not (mt (worksMove_congr hbefore).mp hnot), hbefore]

end leaving

/-! ### SET MODE -/

section setMode

variable {s : State} {tag mode : Nat} {m : Mode}

theorem setMode_same {g : Store} {p : Part} (hm : modeOfCode mode = some m) (hsame : m = p.mc.mode) :
    setMode mode g p = .ok ({ g with lastMode := m }, { part := p }) := by
  rw [setMode, hm]
  exact if_pos hsame

theorem setMode_change {g : Store} {p : Part} (hm : modeOfCode mode = some m) (hother : m ≠ p.mc.mode)
    (hquiet : m ≠ .setup ∨ plantQuiet p = true) : setMode mode g p = .ok ({ g with lastMode := m },
      { part := tellMode { g with lastMode := m } p.mc.mode (setModeOf m p) }) := by
  rw [setMode, hm]
  refine (if_neg hother).trans (need_of_true ?_)
  rcases hquiet with hm | hq
  · simp [hm]
  · simp [hq]

theorem linkCore_tellMode (g : Store) (p : Part) (before : Mode) : linkCore (tellMode g before (setModeOf m p)).cl = linkCore p.cl :=
  (tellMode_keeps g before (setModeOf m p)).2.2.2.2.1

/-- Settles O10: A is stopped first, then B, and in WATCH no scan follows. -/
theorem leavingRunStopsCranes : Obligations.LeavingRunStopsCranes := by
  intro s tag hready hrun
  have hexec : exec (.setMode tag 1) s = .next (receive 0x0E tag (byStore (setMode 1)) s) := rfl
  have hjudged := setMode_change (mode := 1) (m := .watch) (g := s.store) (p := atOwner 0x0E tag s) rfl
    (show Mode.watch ≠ s.mc.mode by rw [hrun]; decide) (.inl (by decide))
  refine runsTo_mono (ended_byStore hready hexec hjudged (linkCore_tellMode _ _ _)) fun t ⟨hended, _⟩ => ?_
  obtain ⟨p, hp⟩ : ∃ p, p = setModeOf .watch (atOwner 0x0E tag s) := ⟨_, rfl⟩
  have htold : tellMode { s.store with lastMode := .watch } (atOwner 0x0E tag s).mc.mode p =
      stopForMode { s.store with lastMode := .watch } .B (stopForMode { s.store with lastMode := .watch } .A p) := by
    rw [tellMode, hp]
    exact if_pos hrun
  rw [← hp, htold] at hended
  have hboth := stopBoth { s.store with lastMode := .watch } p
  have hcrane (c : CraneId) : craneOf p c = craneOf s.toPart c := by rw [hp]; cases c <;> rfl
  have hevt := (changed_stopForMode (g := { s.store with lastMode := .watch }) (c := .B)
    (p := stopForMode { s.store with lastMode := .watch } .A p)).trans changed_stopForMode
  have hmode : (stopForMode { s.store with lastMode := .watch } .B (stopForMode { s.store with lastMode := .watch } .A p)).mc.mode =
      .watch := by rw [(stopForMode_keeps _ _ _).1, (stopForMode_keeps _ _ _).1, hp]; rfl
  generalize stopForMode { s.store with lastMode := .watch } .B (stopForMode { s.store with lastMode := .watch } .A p) = q
    at hended hboth hevt hmode
  have hbecomes := hended.becomes_of_not_run (noWithdrawal_of_unchanged (hevt.trans (by rw [hp]; rfl))) (by rw [hmode]; decide)
  obtain ⟨-, hmc, -, -, -, -, -, hcsA, hcsB, hfl, -⟩ := hbecomes
  have hfinal (c : CraneId) : craneOf t.toPart c = craneOf q c := craneOf_congr hcsA hcsB c
  refine ⟨(congrArg ModeControl.mode hmc).trans hmode, fun c => ?_⟩
  obtain ⟨hstops, hkeeps⟩ := hboth c
  rw [hcrane] at hstops hkeeps
  rw [hfinal]
  split
  · next hworks =>
    obtain ⟨hstands, hcore⟩ := hstops hworks
    rw [hcrane] at hcore
    have hnotStopped : (craneOf s.toPart c).state ≠ .stopped := by
      intro hstate
      rw [hstate] at hworks
      exact absurd hworks.1 (by decide)
    have hstep : (craneOf t.toPart c).stoppedStep = stepOf (craneOf s.toPart c).state := by
      rw [hfinal]
      refine (field_of_core hcore (·.stoppedStep)).trans ?_
      change (if (craneOf s.toPart c).move.isSome || (craneOf s.toPart c).slackening then _ else _) = _
      rw [hworks.2, Bool.true_or, if_pos rfl, if_neg hnotStopped]
    refine ⟨fun a nd ha hnode hlost => ?_, field_of_core hcore (·.state), field_of_core hcore (·.reason),
      field_of_core hcore (·.move), field_of_core hcore (·.load), field_of_core hcore (·.pos), hfinal c ▸ hstep⟩
    have hstands' := hstands a ⟨ha, nd, by rw [hp]; exact hnode, hlost⟩
    rw [hp] at hstands'
    unfold stopOffered offered
    rw [hfl]
    exact hstands'
  · next hnot => exact hkeeps hnot

end setMode

/-! ### The room of the directed queue (R164) -/

section room

variable {g : Store} {p : Part}

/-- Whether a crane's step command waits for a place in the queue. -/
def waits (r : Crane) : Bool := r.command.any fun e => e.2 == .waiting

/-- The refused commands that a supervisor holds. -/
def heldBy (p : Part) (c : CraneId) : Nat :=
  (waits (craneOf p c)).toNat + (craneOf p c).kept.isSome.toNat

theorem waits_of_waitingCommand {c : CraneId} {cmd : FieldCmd} (h : waitingCommand p c = some cmd) : waits (craneOf p c) = true := by
  unfold waitingCommand at h
  split at h
  · next hcommand => rw [waits, hcommand]; rfl
  · cases h

/-- The places taken, and those that the supervisors' refused commands may take as entries free. -/
def demand (p : Part) : Nat := placesTaken p.fl.queue + (heldBy p .A + heldBy p .B)

theorem heldBy_congr {q : Part} {c : CraneId} (h : craneOf q c = craneOf p c) : heldBy q c = heldBy p c := by
  rw [heldBy, h, heldBy]

theorem heldBy_le (c : CraneId) : heldBy p c ≤ 2 := by
  have := Bool.toNat_le (waits (craneOf p c))
  have := Bool.toNat_le (craneOf p c).kept.isSome
  unfold heldBy
  omega

theorem isStop_of_sameEntry {e d : Entry} (h : sameEntry e d = true) : isStop e.cmd = isStop d.cmd := by
  rw [sameEntry, Bool.and_eq_true, beq_iff_eq, beq_iff_eq] at h
  rw [isStop, isStop, h.2]

theorem placesTaken_eq (l : List Entry) : placesTaken l = (l.filter fun e => e.cmd != .stop).length := by
  unfold placesTaken
  congr 1
  refine List.filter_congr fun e _ => ?_
  cases e.cmd <;> rfl

theorem placesTaken_replace (e : Entry) (l : List Entry) :
    placesTaken (l.map fun d => if sameEntry e d then e else d) = placesTaken l := by
  unfold placesTaken
  induction l with
  | nil => rfl
  | cons d l ih =>
    have hsame : isStop (if sameEntry e d then e else d).cmd = isStop d.cmd := by
      split
      · next h => exact isStop_of_sameEntry h
      · rfl
    simp only [List.map_cons, List.filter_cons, hsame]
    split
    · simp [ih]
    · exact ih

/-- What an offer makes of the queue, by FL's answer: a refused or discarded one leaves the part as it is. -/
theorem enqueue_places (e : Entry) (p : Part) :
    ((enqueue e p).1 = .accepted ∨ (enqueue e p).2 = p) ∧
    placesTaken (enqueue e p).2.fl.queue ≤ placesTaken p.fl.queue + 1 := by
  unfold enqueue
  split
  · exact ⟨.inr rfl, Nat.le_succ _⟩
  · split_ifs
    · exact ⟨.inr rfl, Nat.le_succ _⟩
    · refine ⟨.inl rfl, ?_⟩
      change placesTaken (List.map _ p.fl.queue) ≤ _
      rw [placesTaken_replace]
      exact Nat.le_succ _
    · refine ⟨.inl rfl, ?_⟩
      change placesTaken (p.fl.queue ++ [e]) ≤ _
      rw [placesTaken, List.filter_append, List.length_append, placesTaken]
      have : (List.filter (fun e => !isStop e.cmd) [e]).length ≤ 1 := List.length_filter_le _ _
      omega
    · exact ⟨.inr rfl, Nat.le_succ _⟩

theorem craneOf_enqueue (e : Entry) (c : CraneId) : craneOf (enqueue e p).2 c = craneOf p c := by
  obtain ⟨l, hl⟩ := enqueue_eq e p
  rw [hl]
  rfl

/-- A supervisor's answered offer, where it held the command before. -/
theorem demand_answered {e : Entry} {c : CraneId} {q : Part} (hfl : q.fl = (enqueue e p).2.fl)
    (hother : craneOf q (otherCrane c) = craneOf p (otherCrane c)) (hle : heldBy q c ≤ heldBy p c)
    (hlt : (enqueue e p).1 = .accepted → heldBy q c < heldBy p c) : demand q ≤ demand p := by
  obtain ⟨hanswer, hplaces⟩ := enqueue_places e p
  have hrest := heldBy_congr hother
  have hsum : placesTaken q.fl.queue + heldBy q c ≤ placesTaken p.fl.queue + heldBy p c := by
    rw [hfl]
    rcases hanswer with haccepted | hsame
    · have := hlt haccepted
      omega
    · rw [hsame]
      omega
  unfold demand
  cases c <;> simp only [otherCrane] at hrest <;> omega

theorem demand_reofferKept (c : CraneId) : demand (reofferKept g c p) ≤ demand p := by
  unfold reofferKept
  split
  · next cmd addr hkept hnode =>
    have hsame : ∀ d, craneOf (enqueue ⟨addr, cmd, .cs c⟩ p).2 d = craneOf p d := fun d => craneOf_enqueue _ d
    refine demand_answered (e := ⟨addr, cmd, .cs c⟩) (c := c) (by simp) ?_ ?_ ?_
    · unfold plainAnswered
      split <;> rw [craneOf_putCrane_other (ne_otherCrane c).symm, hsame]
    · unfold plainAnswered
      split <;> simp [heldBy, waits, hsame, hkept]
    · intro haccepted
      rw [haccepted]
      simp [plainAnswered, heldBy, waits, hsame, hkept]
  · exact le_refl _

theorem startStepTimer_command (r : Crane) : (startStepTimer g r).command = r.command := by
  unfold startStepTimer
  split <;> rfl

theorem startStepTimer_kept (r : Crane) : (startStepTimer g r).kept = r.kept := by
  unfold startStepTimer
  split <;> rfl

theorem demand_reofferStep (c : CraneId) : demand (reofferStep g c p) ≤ demand p := by
  unfold reofferStep
  split
  · next cmd addr hwaiting hnode =>
    have hsame : ∀ d, craneOf (enqueue ⟨addr, cmd, .cs c⟩ p).2 d = craneOf p d := fun d => craneOf_enqueue _ d
    have hheld := waits_of_waitingCommand hwaiting
    have hheldBy : heldBy p c = (craneOf p c).kept.isSome.toNat + 1 := by
      rw [heldBy, hheld, Bool.toNat_true, Nat.add_comm]
    refine demand_answered (e := ⟨addr, cmd, .cs c⟩) (c := c) (by simp) ?_ ?_ ?_
    · unfold commandAnswered
      split <;> rw [craneOf_putCrane_other (ne_otherCrane c).symm, hsame]
    · rw [hheldBy]
      unfold commandAnswered
      split <;> simp [heldBy, waits, startStepTimer_command, startStepTimer_kept, hsame, Nat.add_comm 1]
      exact Nat.le_succ_of_le (le_of_eq (Nat.zero_add _))
    · intro haccepted
      rw [haccepted, hheldBy]
      simp [commandAnswered, heldBy, waits, startStepTimer_command, startStepTimer_kept, hsame]
  · exact le_refl _

theorem demand_entryFreed : demand (entryFreed g p) ≤ demand p := by
  have both (q : Part) (c d : CraneId) : demand (reoffer g d (reoffer g c q)) ≤ demand q :=
    (demand_reofferStep d).trans ((demand_reofferKept d).trans ((demand_reofferStep c).trans (demand_reofferKept c)))
  unfold entryFreed
  split
  · split
    · exact both { p with fl := { p.fl with ties := p.fl.ties + 1 } } _ _
    · exact both { p with fl := { p.fl with ties := p.fl.ties + 1 } } _ _
  · exact both p _ _

theorem demand_of_sameQueue {q : Part} (hqueue : q.fl.queue = p.fl.queue) (hcranes : ∀ c, craneOf q c = craneOf p c) :
    demand q = demand p := by rw [demand, hqueue, heldBy_congr (hcranes .A), heldBy_congr (hcranes .B), demand]

theorem demand_beginExchange (addr : Nat) (cls : ExchangeClass) (cmd : FieldCmd) (by_ : Option Requester) :
    demand (beginExchange g addr cls cmd by_ p) = demand p := by
  unfold beginExchange
  split
  · rfl
  · exact demand_of_sameQueue rfl fun c => by cases c <;> rfl

theorem placesTaken_filter_le (f : Entry → Bool) (l : List Entry) : placesTaken (l.filter f) ≤ placesTaken l := by
  unfold placesTaken
  rw [List.filter_filter, ← List.countP_eq_length_filter, ← List.countP_eq_length_filter]
  exact List.countP_mono_left fun x _ h => by simp at h; simpa using h.1

theorem demand_beginEntry (e : Entry) (cls : ExchangeClass) : demand (beginEntry g e cls p) ≤ demand p := by
  refine demand_entryFreed.trans ?_
  rw [demand_beginExchange]
  have := placesTaken_filter_le (fun d => !sameEntry e d) p.fl.queue
  change placesTaken (List.filter _ p.fl.queue) + (heldBy p .A + heldBy p .B) ≤ demand p
  unfold demand
  omega

theorem demand_nextExchange : demand (nextExchange g p) ≤ demand p := by
  unfold nextExchange
  split
  · exact le_refl _
  · split
    · rw [demand_beginExchange]
      exact le_of_eq (demand_of_sameQueue rfl fun c => by cases c <;> rfl)
    · split
      · exact demand_beginEntry _ _
      · split
        · exact le_of_eq (demand_of_sameQueue rfl fun c => by cases c <;> rfl)
        · split
          · exact demand_beginEntry _ _
          · split
            · split
              · rw [demand_beginExchange]
              · exact le_refl _
            · unfold beginRoundPoll
              split
              · rw [demand_beginExchange]
                exact le_of_eq (demand_of_sameQueue rfl fun c => by cases c <;> rfl)
              · exact le_refl _

/-- The room that offers of CC may still need: with the line busy no entry frees for the supervisors. -/
def pressure (p : Part) : Nat := if p.fl.line.isSome then placesTaken p.fl.queue else demand p

theorem placesTaken_le_pressure : placesTaken p.fl.queue ≤ pressure p := by
  unfold pressure demand
  split <;> omega

theorem nextExchange_of_busy (h : p.fl.line.isSome = true) : nextExchange g p = p := by
  rw [nextExchange, h]
  rfl

theorem pressure_offer (e : Entry) : pressure (offer g e p).2 ≤ pressure p + 1 := by
  obtain ⟨-, hplaces⟩ := enqueue_places e p
  obtain ⟨l, hl⟩ := enqueue_eq e p
  have hline : (enqueue e p).2.fl.line = p.fl.line := by rw [hl]; rfl
  have hheld (c : CraneId) : heldBy (enqueue e p).2 c = heldBy p c := heldBy_congr (craneOf_enqueue e c)
  change pressure (nextExchange g (enqueue e p).2) ≤ _
  by_cases hbusy : p.fl.line.isSome = true
  · rw [nextExchange_of_busy (by rwa [hline]), pressure, hline, if_pos hbusy, pressure, if_pos hbusy]
    exact hplaces
  · have hdemand : demand (nextExchange g (enqueue e p).2) ≤ demand p + 1 := by
      refine demand_nextExchange.trans ?_
      rw [demand, hheld, hheld, demand]
      omega
    have hle : pressure (nextExchange g (enqueue e p).2) ≤ demand (nextExchange g (enqueue e p).2) := by
      unfold pressure demand
      split <;> omega
    rw [show pressure p = demand p from if_neg hbusy]
    exact hle.trans hdemand

end room

/-! ### A command that stands (R161, R164) -/

section stands

variable {g : Store} {p : Part} {base addr : Nat} {cmd : FieldCmd}

/-- A command for a node waits in the queue, with no other of its class for that node, or it is on the line in an exchange
begun since the number `base`. -/
def Stands (base addr : Nat) (cmd : FieldCmd) (p : Part) : Prop :=
  ((∃ e ∈ p.fl.queue, e.addr = addr ∧ e.cmd = cmd) ∧
    ∀ e ∈ p.fl.queue, e.addr = addr → directedClass e.cmd = directedClass cmd → e.cmd = cmd) ∨
  ∃ ex, p.fl.line = some ex ∧ ex.addr = addr ∧ ex.cmd = cmd ∧ ex.attempt = 1 ∧ base ≤ ex.id

theorem sameEntry_iff {e d : Entry} : sameEntry e d = true ↔ d.addr = e.addr ∧ directedClass d.cmd = directedClass e.cmd := by
  rw [sameEntry, Bool.and_eq_true, beq_iff_eq, beq_iff_eq]

/-- The queue's three judgements of an offer (R164). -/
theorem enqueue_forms (e : Entry) (p : Part) :
    ((enqueue e p).1 ≠ .accepted ∧ (enqueue e p).2 = p) ∨
    ((enqueue e p).1 = .accepted ∧ (∃ d ∈ p.fl.queue, sameEntry e d = true) ∧
      (enqueue e p).2 = setDirected (p.fl.queue.map fun d => if sameEntry e d then e else d) p) ∨
    ((enqueue e p).1 = .accepted ∧ (∀ d ∈ p.fl.queue, sameEntry e d = false) ∧
      (enqueue e p).2 = setDirected (p.fl.queue ++ [e]) p) := by
  unfold enqueue
  split
  · exact .inl ⟨nofun, rfl⟩
  · split_ifs with _ hany
    · exact .inl ⟨nofun, rfl⟩
    · exact .inr (.inl ⟨rfl, List.any_eq_true.mp hany, rfl⟩)
    · exact .inr (.inr ⟨rfl, by simpa using hany, rfl⟩)
    · exact .inl ⟨nofun, rfl⟩

/-- An offer to a node that is not LOST is not discarded, and is taken where there is room. -/
theorem enqueue_answer {e : Entry} {nd : Node} (hnode : nodeOf p e.addr = some nd) (halive : nd.standing ≠ .lost) :
    (enqueue e p).1 ≠ .discarded ∧ (placesTaken p.fl.queue < 16 → (enqueue e p).1 = .accepted) := by
  unfold enqueue
  rw [hnode]
  dsimp only
  rw [if_neg halive]
  split_ifs with _ hroom
  · exact ⟨nofun, fun _ => rfl⟩
  · exact ⟨nofun, fun _ => rfl⟩
  · refine ⟨nofun, fun h => absurd ?_ hroom⟩
    rw [Bool.or_eq_true, decide_eq_true_eq]
    exact .inr h

theorem enqueue_of_discarded {e : Entry} (h : ∀ nd, nodeOf p e.addr = some nd → nd.standing = .lost) :
    enqueue e p = (.discarded, p) := by
  unfold enqueue
  split
  · rfl
  · next nd hnode => exact if_pos (h nd hnode)

theorem Stands.congr {q : Part} (hqueue : q.fl.queue = p.fl.queue) (hline : q.fl.line = p.fl.line)
    (h : Stands base addr cmd p) : Stands base addr cmd q := by rwa [Stands, hqueue, hline]

/-- An offer for another node leaves the command as it stands. -/
theorem Stands.enqueue_other (h : Stands base addr cmd p) {e : Entry} (he : e.addr ≠ addr) :
    Stands base addr cmd (enqueue e p).2 := by
  have other {d : Entry} (hd : d.addr = addr) : ¬ sameEntry e d = true := fun hsame =>
    he ((sameEntry_iff.mp hsame).1.symm.trans hd)
  rcases h with ⟨⟨d, hd, haddr, hcmd⟩, honly⟩ | hline
  · refine .inl ?_
    rcases enqueue_forms e p with ⟨-, hq⟩ | ⟨-, -, hq⟩ | ⟨-, -, hq⟩ <;> rw [hq]
    · exact ⟨⟨d, hd, haddr, hcmd⟩, honly⟩
    · refine ⟨⟨d, List.mem_map.mpr ⟨d, hd, if_neg (other haddr)⟩, haddr, hcmd⟩, fun x hx hxa hxc => ?_⟩
      obtain ⟨y, hy, rfl⟩ := List.mem_map.mp hx
      by_cases hsame : sameEntry e y = true
      · rw [if_pos hsame] at hxa
        exact absurd hxa he
      · rw [if_neg hsame] at hxa hxc ⊢
        exact honly y hy hxa hxc
    · refine ⟨⟨d, List.mem_append_left _ hd, haddr, hcmd⟩, fun x hx hxa hxc => ?_⟩
      rcases List.mem_append.mp hx with hx | hx
      · exact honly x hx hxa hxc
      · rw [List.mem_singleton.mp hx] at hxa
        exact absurd hxa he
  · obtain ⟨l, hl⟩ := enqueue_eq e p
    exact .inr (by rwa [hl])

/-- A command that the queue takes stands, with no other of its class for its node. -/
theorem stands_enqueue {e : Entry} (h : (enqueue e p).1 = .accepted) : Stands base e.addr e.cmd (enqueue e p).2 := by
  refine .inl ?_
  rcases enqueue_forms e p with ⟨hnot, -⟩ | ⟨-, ⟨d, hd, hsame⟩, hq⟩ | ⟨-, hnone, hq⟩
  · exact absurd h hnot
  · rw [hq]
    refine ⟨⟨e, List.mem_map.mpr ⟨d, hd, if_pos hsame⟩, rfl, rfl⟩, fun x hx hxa hxc => ?_⟩
    obtain ⟨y, hy, rfl⟩ := List.mem_map.mp hx
    by_cases hsame : sameEntry e y = true
    · rw [if_pos hsame]
    · rw [if_neg hsame] at hxa hxc
      exact absurd (sameEntry_iff.mpr ⟨hxa, hxc⟩) hsame
  · rw [hq]
    refine ⟨⟨e, List.mem_append_right _ (List.mem_singleton.mpr rfl), rfl, rfl⟩, fun x hx hxa hxc => ?_⟩
    rcases List.mem_append.mp hx with hx | hx
    · exact absurd (sameEntry_iff.mpr ⟨hxa, hxc⟩) (by simp [hnone x hx])
    · rw [List.mem_singleton.mp hx]

/-- No supervisor has the node for its own. -/
abbrev noCraneAt (g : Store) (addr : Nat) : Prop := ∀ c, craneNode g c ≠ some addr

/-- No supervisor of the node holds a refused command, which a freed entry would take. -/
def silentAt (g : Store) (addr : Nat) (p : Part) : Prop := ∀ c, craneNode g c = some addr → holdsRefused p c = false

theorem noCraneAt.silent (h : noCraneAt g addr) : silentAt g addr p := fun c hc => absurd hc (h c)

theorem silentAt.traffic {q : Part} (h : silentAt g addr p) (k : Traffic ∅ p q) : silentAt g addr q := fun c hc =>
  (holdsRefused_congr ((k.cranes c (Set.notMem_empty c)).2 (h c hc))).trans (h c hc)

theorem Stands.putCrane (h : Stands base addr cmd p) (c : CraneId) (r : Crane) : Stands base addr cmd (putCrane c r p) :=
  h.congr (by cases c <;> rfl) (by cases c <;> rfl)

theorem Stands.reoffer (h : Stands base addr cmd p) (hsilent : silentAt g addr p) (c : CraneId) :
    Stands base addr cmd (reoffer g c p) := by
  have kept : Stands base addr cmd (reofferKept g c p) := by
    unfold reofferKept
    split
    · next cmd a hkept ha =>
      have asked := h.enqueue_other (e := ⟨a, cmd, .cs c⟩) fun heq => by
        have := hsilent c (heq ▸ ha)
        simp [holdsRefused, hkept] at this
      unfold plainAnswered
      split <;> exact asked.putCrane _ _
    · exact h
  have hafter : silentAt g addr (reofferKept g c p) := hsilent.traffic ((Traffic.refl p).then_reofferKept c)
  unfold Machine.reoffer reofferStep
  split
  · next cmd a hwaiting ha =>
    have asked := kept.enqueue_other (e := ⟨a, cmd, .cs c⟩) fun heq => by
      have := hafter c (heq ▸ ha)
      simp [holdsRefused, hwaiting] at this
    unfold commandAnswered
    split <;> exact asked.putCrane _ _
  · exact kept

theorem silentAt.reoffer (h : silentAt g addr p) (c : CraneId) : silentAt g addr (reoffer g c p) :=
  h.traffic (((Traffic.refl p).then_reofferKept c).then_reofferStep c)

theorem Stands.entryFreed (h : Stands base addr cmd p) (hsilent : silentAt g addr p) :
    Stands base addr cmd (entryFreed g p) := by
  have tied : Stands base addr cmd { p with fl := { p.fl with ties := p.fl.ties + 1 } } := h.congr rfl rfl
  have hsilent' : silentAt g addr { p with fl := { p.fl with ties := p.fl.ties + 1 } } := fun c hc =>
    (holdsRefused_congr (by cases c <;> rfl)).trans (hsilent c hc)
  unfold Machine.entryFreed
  split
  · split
    · exact (tied.reoffer hsilent' _).reoffer (hsilent'.reoffer _) _
    · exact (tied.reoffer hsilent' _).reoffer (hsilent'.reoffer _) _
  · exact (h.reoffer hsilent _).reoffer (hsilent.reoffer _) _

/-- A command in the queue stays there when another exchange begins on a free line. -/
theorem Stands.beginExchange (h : Stands base addr cmd p) (hfree : p.fl.line = none) (a : Nat) (cls : ExchangeClass)
    (c : FieldCmd) (by_ : Option Requester) : Stands base addr cmd (beginExchange g a cls c by_ p) := by
  unfold Machine.beginExchange
  split
  · exact h
  · rcases h with hqueue | ⟨ex, hline, -⟩
    · exact .inl hqueue
    · rw [hfree] at hline
      cases hline

/-- The command stays in the queue, or goes from it to the free line under the next number. -/
theorem Stands.beginEntry (h : Stands base addr cmd p) (hsilent : silentAt g addr p) (hfree : p.fl.line = none)
    (hnode : (nodeOf p addr).isSome) (hbase : base ≤ p.fl.serial) {e : Entry} (he : e ∈ p.fl.queue) (cls : ExchangeClass) :
    Stands base addr cmd (beginEntry g e cls p) := by
  have hsame (q : Part) (hq : ∀ c, craneOf q c = craneOf p c) : silentAt g addr q := fun c hc =>
    (holdsRefused_congr (hq c)).trans (hsilent c hc)
  refine Stands.entryFreed ?_ (hsame _ fun c => ?_)
  swap
  · unfold Machine.beginExchange
    split <;> cases c <;> rfl
  rcases h with ⟨⟨d, hd, haddr, hcmd⟩, honly⟩ | ⟨ex, hline, -⟩
  · by_cases hsame : e.addr = addr ∧ directedClass e.cmd = directedClass cmd
    · obtain ⟨nd, hnd⟩ := Option.isSome_iff_exists.mp hnode
      have hfound : nodeOf (setDirected (p.fl.queue.filter fun d => !sameEntry e d) p) e.addr = some nd := by
        rw [hsame.1]
        exact hnd
      rw [Machine.beginExchange, hfound]
      exact .inr ⟨_, rfl, hsame.1, honly e he hsame.1 hsame.2, rfl, hbase⟩
    · have left : Stands base addr cmd (setDirected (p.fl.queue.filter fun d => !sameEntry e d) p) := by
        refine .inl ⟨⟨d, List.mem_filter.mpr ⟨hd, ?_⟩, haddr, hcmd⟩, fun x hx => honly x (List.mem_of_mem_filter hx)⟩
        rw [Bool.not_eq_true', ← Bool.not_eq_true, sameEntry_iff, haddr, hcmd]
        exact fun hsame' => hsame ⟨hsame'.1.symm, hsame'.2.symm⟩
      exact left.beginExchange hfree _ _ _ _
  · rw [hfree] at hline
    cases hline

theorem Stands.beginRoundPoll (h : Stands base addr cmd p) (hfree : p.fl.line = none) :
    Stands base addr cmd (beginRoundPoll g p) := by
  unfold Machine.beginRoundPoll
  split
  · next a _ _ =>
    have placed : Stands base addr cmd { p with fl := { p.fl with roundPos := a } } := h.congr rfl rfl
    exact placed.beginExchange hfree _ _ _ _
  · exact h

/-- The arbiter begins the command's own exchange, or leaves it in the queue for another. -/
theorem Stands.nextExchange (h : Stands base addr cmd p) (hsilent : silentAt g addr p) (hnode : (nodeOf p addr).isSome)
    (hbase : base ≤ p.fl.serial) : Stands base addr cmd (nextExchange g p) := by
  unfold Machine.nextExchange
  split
  · exact h
  · next hidle =>
    have hfree : p.fl.line = none := by
      rw [← Option.not_isSome_iff_eq_none]
      exact fun hsome => hidle (by simp [hsome])
    split
    · have cleared : Stands base addr cmd { p with fl := { p.fl with repeatStop := none } } := h.congr rfl rfl
      exact cleared.beginExchange hfree _ _ _ _
    · split
      · next e he => exact h.beginEntry hsilent hfree hnode hbase (List.mem_of_find?_eq_some he) _
      · split
        · rcases h with hqueue | ⟨ex, hline, -⟩
          · exact .inl hqueue
          · rw [hfree] at hline
            cases hline
        · split
          · next e l hq => exact h.beginEntry hsilent hfree hnode hbase (hq ▸ List.mem_cons_self) _
          · split
            · split
              · exact h.beginExchange hfree _ _ _ _
              · exact h
            · exact h.beginRoundPoll hfree

theorem Stands.offer_other (h : Stands base addr cmd p) (hcranes : noCraneAt g addr) (hnode : (nodeOf p addr).isSome)
    (hbase : base ≤ p.fl.serial) {e : Entry} (he : e.addr ≠ addr) : Stands base addr cmd (offer g e p).2 := by
  obtain ⟨l, hl⟩ := enqueue_eq e p
  exact (h.enqueue_other he).nextExchange hcranes.silent (by rwa [hl]) (by rwa [hl])

theorem stands_offer {e : Entry} (hcranes : noCraneAt g e.addr) (hnode : (nodeOf p e.addr).isSome) (hbase : base ≤ p.fl.serial)
    (haccepted : (offer g e p).1 = .accepted) : Stands base e.addr e.cmd (offer g e p).2 := by
  obtain ⟨l, hl⟩ := enqueue_eq e p
  exact (stands_enqueue haccepted).nextExchange hcranes.silent (by rwa [hl]) (by rwa [hl])

theorem Stands.offered {s t : State} (h : Stands s.fl.serial addr cmd t.toPart) : offered s t addr cmd := by
  rcases h with ⟨hqueue, -⟩ | hline
  · exact .inl hqueue
  · exact .inr hline

end stands

/-! ### Named addresses (R8) -/

section named

variable {g : Store}

theorem zone_mem_named {b z : Nat} {zc : ZoneCfg} (h : zoneCfg g b z = some zc) : (zc.node, Owner.zone b z) ∈ namedItems g := by
  simp only [namedItems, List.mem_append, List.mem_map]
  exact .inl (.inl (.inl ⟨_, mem_allZones h, rfl⟩))

theorem crane_mem_named {c : CraneId} {a : Nat} (h : craneNode g c = some a) : (a, Owner.crane c) ∈ namedItems g := by
  obtain ⟨cfg, hcfg, rfl⟩ := Option.map_eq_some_iff.mp h
  cases c
  · have hA : g.craneA = some cfg := hcfg
    simp [namedItems, hA]
  · have hB : g.craneB = some cfg := hcfg
    simp [namedItems, hB]

/-- With every address named once, an address has one owner. -/
theorem owner_unique (hnodup : ((namedItems g).map Prod.fst).Nodup) {a : Nat} {o o' : Owner} (h : (a, o) ∈ namedItems g)
    (h' : (a, o') ∈ namedItems g) : o = o' :=
  congrArg Prod.snd (List.inj_on_of_nodup_map hnodup h h' rfl)

theorem noCraneAt_of_nodup (hnodup : ((namedItems g).map Prod.fst).Nodup) {b z : Nat} {zc : ZoneCfg}
    (h : zoneCfg g b z = some zc) : noCraneAt g zc.node := fun _ hc =>
  nomatch owner_unique hnodup (zone_mem_named h) (crane_mem_named hc)

end named

/-! ### Serving a valve (R85) -/

section serving

variable {g : Store} {o p q : Part} {b z : Nat} {v w : Valve}

theorem zoneKey_keys (k : Nat) : zoneKey (keyBed k) (keyZone k) = k := Nat.div_add_mod k 10

theorem keys_zoneKey (hz : z ≤ 4) : keyBed (zoneKey b z) = b ∧ keyZone (zoneKey b z) = z := by
  unfold keyBed keyZone zoneKey
  omega

/-- A valve whose wanted opening is not the handed one, or whose command is to be sent again. -/
abbrev due (v : Valve) : Prop := v.handed ≠ some v.wanted ∨ v.resend = true

/-- A valve's wanted opening was handed. -/
abbrev sent (w : Valve) : Prop := w.handed = some w.wanted ∧ w.resend = false

theorem sent_iff_not_due : sent v ↔ ¬ due v := by
  rw [due, not_or, not_not, Bool.not_eq_true]

theorem valveOf_eq (h : Map.find p.cc.valves (zoneKey b z) = some v) : valveOf p b z = v := by rw [valveOf, h]; rfl

theorem traffic_offerValve (opening : Nat) : Traffic ∅ p (offerValve g b z opening p) := by
  unfold offerValve
  split
  · exact .refl p
  · next zc _ =>
    have asked := (Traffic.refl (mine := ∅) p).then_offer (g := g) ⟨zc.node, .setValve opening, .cc⟩
    dsimp only
    split
    · exact asked.then_same rfl fun c _ => by cases c <;> rfl
    · exact asked.then_same rfl fun c _ => by cases c <;> rfl
    · exact asked

theorem pressure_offerValve (opening : Nat) : pressure (offerValve g b z opening p) ≤ pressure p + 1 := by
  unfold offerValve
  split
  · exact Nat.le_succ _
  · dsimp only
    split <;> exact pressure_offer _

theorem find_offerValve_other {k : Nat} (hk : k ≠ zoneKey b z) (opening : Nat) :
    Map.find (offerValve g b z opening p).cc.valves k = Map.find p.cc.valves k := by
  unfold offerValve
  split
  · rfl
  · have hcc (e : Entry) : (offer g e p).2.cc = p.cc := by simp
    dsimp only
    split
    · exact (Map.find_put_other _ _ _ _ hk).trans (by rw [hcc])
    · exact (Map.find_put_other _ _ _ _ hk).trans (by rw [hcc])
    · rw [hcc]

/-- What CC notes of a valve's offer to a node that is not LOST: the opening handed, or the valve to be served again, which
is so only where the queue has no room. -/
theorem offerValve_of_alive {zc : ZoneCfg} {nd : Node} (hz : zoneCfg g b z = some zc) (hnode : nodeOf p zc.node = some nd)
    (halive : nd.standing ≠ .lost) (opening : Nat) :
    ((offer g ⟨zc.node, .setValve opening, .cc⟩ p).1 = .accepted ∧
      Map.find (offerValve g b z opening p).cc.valves (zoneKey b z) =
        some { valveOf p b z with handed := some opening, resend := false }) ∨
    (16 ≤ placesTaken p.fl.queue ∧ Map.find (offerValve g b z opening p).cc.valves (zoneKey b z) =
        some { valveOf p b z with resend := true }) := by
  obtain ⟨hdiscarded, hroom⟩ := enqueue_answer (e := ⟨zc.node, .setValve opening, .cc⟩) hnode halive
  have hvalve : valveOf (offer g ⟨zc.node, .setValve opening, .cc⟩ p).2 b z = valveOf p b z := by simp [valveOf]
  rw [offerValve, hz]
  dsimp only
  rw [hvalve]
  split
  · next haccepted => exact .inl ⟨haccepted, Map.find_put_same _ _ _⟩
  · next hrefused =>
    refine .inr ⟨?_, Map.find_put_same _ _ _⟩
    by_contra hlt
    exact nomatch hrefused.symm.trans (hroom (by omega))
  · next h => exact absurd h hdiscarded

/-- A command for a node that is no zone's of this valve stands through the valve's offer. -/
theorem Stands.offerValve {base addr : Nat} {cmd : FieldCmd} (h : Stands base addr cmd p) (hcranes : noCraneAt g addr)
    (hnode : (nodeOf p addr).isSome) (hbase : base ≤ p.fl.serial)
    (hother : ∀ zc, zoneCfg g b z = some zc → zc.node ≠ addr) (opening : Nat) :
    Stands base addr cmd (offerValve g b z opening p) := by
  unfold Machine.offerValve
  split
  · exact h
  · next zc hz =>
    have asked := h.offer_other hcranes hnode hbase (e := ⟨zc.node, .setValve opening, .cc⟩) (hother zc hz)
    dsimp only
    split
    · exact asked.congr rfl rfl
    · exact asked.congr rfl rfl
    · exact asked

/-- How one service of a zone's valve, of which the record was `v` in `p`, leaves it as `w` in `q`. -/
structure Serves (g : Store) (base : Nat) (room : Prop) (b z : Nat) (v : Valve) (p q : Part) (w : Valve) : Prop where
  there : Map.find q.cc.valves (zoneKey b z) = some w
  wanted : w.wanted = v.wanted
  still : zoneLost g p b z = true ∨ ¬ due v → w.handed = v.handed ∧ w.resend = v.resend
  asked : ∀ zc nd, zoneCfg g b z = some zc → nodeOf p zc.node = some nd → nd.standing ≠ .lost → due v →
    (sent w ∨ (w.handed = v.handed ∧ w.resend = true)) ∧
    (((namedItems g).map Prod.fst).Nodup → room → sent w ∧ Stands base zc.node (.setValve w.wanted) q)

theorem zoneLost_congr (hnodes : q.fl.nodes = p.fl.nodes) : zoneLost g q b z = zoneLost g p b z := by
  unfold zoneLost nodeLost
  simp only [nodeOf_congr hnodes]

theorem stage8Zone_of_not_due {k : Nat} (h : zoneLost g p (keyBed k) (keyZone k) = true ∨ ¬ due (valveOf p (keyBed k) (keyZone k))) :
    stage8Zone g p k = p := by
  refine if_neg ?_
  rcases h with h | h
  · simp [h]
  · obtain ⟨hhanded, hresend⟩ := sent_iff_not_due.mpr h
    simp [hhanded, hresend]

theorem stage8Zone_of_due {k : Nat} (hlost : ¬ zoneLost g p (keyBed k) (keyZone k) = true)
    (hdue : due (valveOf p (keyBed k) (keyZone k))) :
    stage8Zone g p k = offerValve g (keyBed k) (keyZone k) (valveOf p (keyBed k) (keyZone k)).wanted p := by
  refine if_pos ?_
  rw [Bool.and_eq_true, Bool.or_eq_true, decide_eq_true_eq]
  exact ⟨by simpa using hlost, hdue⟩

/-- A part's valve records are served by offers alone. -/
theorem stage8Zone_cases (g : Store) (p : Part) (k : Nat) :
    stage8Zone g p k = p ∨
    stage8Zone g p k = offerValve g (keyBed k) (keyZone k) (valveOf p (keyBed k) (keyZone k)).wanted p := by
  unfold stage8Zone
  dsimp only
  split
  · exact .inr rfl
  · exact .inl rfl

theorem traffic_stage8Zone (k : Nat) : Traffic ∅ p (stage8Zone g p k) := by
  rcases stage8Zone_cases g p k with h | h <;> rw [h]
  · exact .refl p
  · exact traffic_offerValve _

theorem pressure_stage8Zone (k : Nat) : pressure (stage8Zone g p k) ≤ pressure p + 1 := by
  rcases stage8Zone_cases g p k with h | h <;> rw [h]
  · exact Nat.le_succ _
  · exact pressure_offerValve _

theorem find_stage8Zone_other {k j : Nat} (hk : k ≠ j) :
    Map.find (stage8Zone g p j).cc.valves k = Map.find p.cc.valves k := by
  rcases stage8Zone_cases g p j with h | h <;> rw [h]
  exact find_offerValve_other (by rwa [zoneKey_keys]) _

/-- The service of one valve record. -/
theorem serves_stage8Zone {base : Nat} {room : Prop} {k : Nat} (hv : Map.find p.cc.valves k = some v)
    (hbase : base ≤ p.fl.serial) (hroom : room → placesTaken p.fl.queue < 16) :
    ∃ w, Serves g base room (keyBed k) (keyZone k) v p (stage8Zone g p k) w := by
  have hkey : Map.find p.cc.valves (zoneKey (keyBed k) (keyZone k)) = some v := by rwa [zoneKey_keys]
  have hvalve := valveOf_eq hkey
  by_cases hstill : zoneLost g p (keyBed k) (keyZone k) = true ∨ ¬ due v
  · rw [stage8Zone_of_not_due (by rwa [hvalve])]
    refine ⟨v, hkey, rfl, fun _ => ⟨rfl, rfl⟩, fun zc nd hz hnode halive hdue => ?_⟩
    rcases hstill with hlost | hnot
    · rw [zoneLost, hz] at hlost
      simp [nodeLost, hnode, halive] at hlost
    · exact absurd hdue hnot
  · obtain ⟨hlost, hdue⟩ := not_or.mp hstill
    rw [stage8Zone_of_due hlost (by rw [hvalve]; exact not_not.mp hdue), hvalve]
    by_cases hnamed : ∃ zc nd, zoneCfg g (keyBed k) (keyZone k) = some zc ∧ nodeOf p zc.node = some nd ∧ nd.standing ≠ .lost
    · obtain ⟨zc, nd, hz, hnode, halive⟩ := hnamed
      have hfound := offerValve_of_alive hz hnode halive v.wanted
      rw [hvalve] at hfound
      rcases hfound with ⟨haccepted, hfound⟩ | ⟨hfull, hfound⟩
      · refine ⟨_, hfound, rfl, fun h => absurd h hstill, fun zc' nd' hz' _ _ _ => ?_⟩
        obtain rfl : zc = zc' := Option.some.inj (hz.symm.trans hz')
        refine ⟨.inl ⟨rfl, rfl⟩, fun hnodup _ => ⟨⟨rfl, rfl⟩, ?_⟩⟩
        have stands := stands_offer (g := g) (e := ⟨zc.node, .setValve v.wanted, .cc⟩) (noCraneAt_of_nodup hnodup hz)
          (by rw [hnode]; rfl) hbase haccepted
        rw [offerValve, hz]
        dsimp only
        rw [haccepted]
        exact stands.congr rfl rfl
      · refine ⟨_, hfound, rfl, fun h => absurd h hstill, fun _ _ _ _ _ _ => ⟨.inr ⟨rfl, rfl⟩, fun _ h => ?_⟩⟩
        have := hroom h
        omega
    · have hcc : Map.find (offerValve g (keyBed k) (keyZone k) v.wanted p).cc.valves (zoneKey (keyBed k) (keyZone k)) = some v := by
        rw [offerValve]
        split
        · exact hkey
        · next zc hz =>
          have hdiscarded : (offer g ⟨zc.node, .setValve v.wanted, .cc⟩ p).1 = .discarded :=
            congrArg Prod.fst (enqueue_of_discarded fun nd hnode => not_not.mp fun halive => hnamed ⟨zc, nd, hz, hnode, halive⟩)
          dsimp only
          rw [hdiscarded]
          simpa using hkey
      exact ⟨v, hcc, rfl, fun _ => ⟨rfl, rfl⟩, fun zc nd hz hnode halive _ => absurd ⟨zc, nd, hz, hnode, halive⟩ hnamed⟩

/-! ### All the valves (R85, R88) -/

theorem Serves.congr_nodes {base : Nat} {room : Prop} (h : Serves g base room b z v p q w) (hnodes : p.fl.nodes = o.fl.nodes) :
    Serves g base room b z v o q w where
  there := h.there
  wanted := h.wanted
  still hs := h.still (by rwa [zoneLost_congr hnodes])
  asked zc nd hz hnode := h.asked zc nd hz (by rwa [nodeOf_congr hnodes])

/-- Services in turn come to one. -/
theorem Serves.trans {base : Nat} {room : Prop} {k : Nat} {x : Valve}
    (h : Serves g base room (keyBed k) (keyZone k) v p q w) (hnodes : q.fl.nodes = p.fl.nodes)
    (h' : Serves g base room (keyBed k) (keyZone k) w q (stage8Zone g q k) x) :
    Serves g base room (keyBed k) (keyZone k) v p (stage8Zone g q k) x where
  there := h'.there
  wanted := h'.wanted.trans h.wanted
  still hs := by
    obtain ⟨hhanded, hresend⟩ := h.still hs
    have hsame : zoneLost g q (keyBed k) (keyZone k) = true ∨ ¬ due w := by
      rw [zoneLost_congr hnodes, due, hhanded, hresend, h.wanted]
      exact hs
    obtain ⟨hhanded', hresend'⟩ := h'.still hsame
    exact ⟨hhanded'.trans hhanded, hresend'.trans hresend⟩
  asked zc nd hz hnode halive hdue := by
    have hnode' : nodeOf q zc.node = some nd := by rwa [nodeOf_congr hnodes]
    obtain ⟨hw, hroomy⟩ := h.asked zc nd hz hnode halive hdue
    have sentAgain (hsent : sent w) : sent x := by
      obtain ⟨hhanded', hresend'⟩ := h'.still (.inr (sent_iff_not_due.mp hsent))
      exact ⟨hhanded'.trans (hsent.1.trans (by rw [h'.wanted])), hresend'.trans hsent.2⟩
    refine ⟨?_, fun hnodup hroom => ?_⟩
    · rcases hw with hsent | ⟨hhanded, hresend⟩
      · exact .inl (sentAgain hsent)
      · rcases (h'.asked zc nd hz hnode' halive (.inr hresend)).1 with hsent | ⟨hhanded', hresend'⟩
        · exact .inl hsent
        · exact .inr ⟨hhanded'.trans hhanded, hresend'⟩
    · obtain ⟨hsent, hstands⟩ := hroomy hnodup hroom
      refine ⟨sentAgain hsent, ?_⟩
      have hsame : stage8Zone g q k = q := stage8Zone_of_not_due (.inr (by
        rw [valveOf_eq h.there]
        exact sent_iff_not_due.mp hsent))
      rwa [hsame, h'.wanted]

/-- The service of another valve leaves a valve served. -/
theorem Serves.other {base : Nat} {room : Prop} {k j : Nat} (h : Serves g base room (keyBed k) (keyZone k) v p q w)
    (hkj : k ≠ j) (hnodes : q.fl.nodes = p.fl.nodes) (hbase : base ≤ q.fl.serial) :
    Serves g base room (keyBed k) (keyZone k) v p (stage8Zone g q j) w where
  there := (find_stage8Zone_other (by rwa [zoneKey_keys])).trans h.there
  wanted := h.wanted
  still := h.still
  asked zc nd hz hnode halive hdue := by
    obtain ⟨hw, hroomy⟩ := h.asked zc nd hz hnode halive hdue
    refine ⟨hw, fun hnodup hroom => ?_⟩
    obtain ⟨hsent, hstands⟩ := hroomy hnodup hroom
    refine ⟨hsent, ?_⟩
    rcases stage8Zone_cases g q j with hj | hj <;> rw [hj]
    · exact hstands
    · refine hstands.offerValve (noCraneAt_of_nodup hnodup hz) (by rw [nodeOf_congr hnodes, hnode]; rfl) hbase
        (fun zc' hz' haddr => ?_) _
      have howner := owner_unique hnodup (zone_mem_named hz) (haddr ▸ zone_mem_named hz')
      injection howner with hbed hzone
      rw [← zoneKey_keys k, ← zoneKey_keys j, hbed, hzone] at hkj
      exact hkj rfl

/-- The part met in the service of the valves of a list: `n` offers so far at most. -/
theorem serves_foldl {base n k : Nat} :
    ∀ (l : List Nat) (q : Part) (m : Nat), q.fl.nodes = p.fl.nodes → base ≤ q.fl.serial → pressure q ≤ pressure p + m →
      m + l.length ≤ n →
      ((Map.find q.cc.valves k = some v ∧ k ∈ l) ∨
        ∃ w, Serves g base (pressure p + n ≤ 16) (keyBed k) (keyZone k) v p q w) →
      ∃ w, Serves g base (pressure p + n ≤ 16) (keyBed k) (keyZone k) v p (l.foldl (stage8Zone g) q) w := by
  intro l
  induction l with
  | nil =>
    intro q m _ _ _ _ h
    rcases h with ⟨-, hmem⟩ | h
    · cases hmem
    · exact h
  | cons j l ih =>
    intro q m hnodes hbase hpressure hm h
    have traffic := traffic_stage8Zone (g := g) (p := q) j
    have hroom : pressure p + n ≤ 16 → placesTaken q.fl.queue < 16 := fun hn => by
      have := placesTaken_le_pressure (p := q)
      simp only [List.length_cons] at hm
      omega
    refine ih (stage8Zone g q j) (m + 1) (traffic.nodes.trans hnodes) (hbase.trans traffic.serial)
      ((pressure_stage8Zone j).trans (by omega)) (by simp only [List.length_cons] at hm; omega) ?_
    by_cases hkj : k = j
    · subst hkj
      refine .inr ?_
      rcases h with ⟨hfind, -⟩ | ⟨w, hw⟩
      · obtain ⟨x, hx⟩ := serves_stage8Zone hfind hbase hroom
        exact ⟨x, hx.congr_nodes hnodes⟩
      · have hfound : Map.find q.cc.valves k = some w := by
          rw [← hw.there, zoneKey_keys]
        obtain ⟨x, hx⟩ := serves_stage8Zone hfound hbase hroom
        exact ⟨x, hw.trans hnodes hx⟩
    · rcases h with ⟨hfind, hmem⟩ | ⟨w, hw⟩
      · exact .inl ⟨(find_stage8Zone_other hkj).trans hfind, (List.mem_cons.mp hmem).resolve_left hkj⟩
      · exact .inr ⟨w, hw.other hkj hnodes hbase⟩

/-- Stage 8 serves every valve record (R85). -/
theorem serves_offerValves {k : Nat} (hv : Map.find p.cc.valves k = some v) :
    ∃ w, Serves g p.fl.serial (pressure p + p.cc.valves.length ≤ 16) (keyBed k) (keyZone k) v p (offerValves g p) w :=
  serves_foldl _ p 0 rfl (le_refl _) (le_refl _) (by simp [Map.keys]) (.inl ⟨hv, mem_keys_of_find hv⟩)

end serving

/-! ### Entry to SETUP (R88) -/

section enterSetup

variable {g : Store} {p : Part}

theorem wanted_offerValve (b z opening k : Nat) :
    ((Map.find (offerValve g b z opening p).cc.valves k).getD .fresh).wanted = ((Map.find p.cc.valves k).getD .fresh).wanted := by
  by_cases hk : k = zoneKey b z
  · subst hk
    have hcc (e : Entry) : (offer g e p).2.cc = p.cc := by simp
    have hput (v : Valve) (q : Part) : Map.find (putValve b z v q).cc.valves (zoneKey b z) = some v := Map.find_put_same _ _ _
    unfold offerValve
    split
    · rfl
    · dsimp only
      split
      · rw [hput, valveOf, hcc]; rfl
      · rw [hput, valveOf, hcc]; rfl
      · rw [hcc]
  · rw [find_offerValve_other hk]

theorem wanted_stage8Zone (j k : Nat) :
    ((Map.find (stage8Zone g p j).cc.valves k).getD .fresh).wanted = ((Map.find p.cc.valves k).getD .fresh).wanted := by
  rcases stage8Zone_cases g p j with h | h <;> rw [h]
  exact wanted_offerValve _ _ _ k

/-- Every wanted opening is 0. -/
def wantsNothing (p : Part) : Prop := ∀ k, ((Map.find p.cc.valves k).getD .fresh).wanted = 0

theorem setupZone_of_wantsNothing (h : wantsNothing p) (k : Nat) : setupZone g p k = stage8Zone g p k := by
  have hwanted : (valveOf p (keyBed k) (keyZone k)).wanted = 0 := h _
  unfold setupZone stage8Zone
  dsimp only
  rw [hwanted]

/-- The entry to SETUP serves the valves as stage 8 does, with every wanted opening 0. -/
theorem setupZones_eq (l : List Nat) : ∀ p : Part, wantsNothing p → l.foldl (setupZone g) p = l.foldl (stage8Zone g) p ∧
    wantsNothing (l.foldl (stage8Zone g) p) := by
  induction l with
  | nil => exact fun p h => ⟨rfl, h⟩
  | cons j l ih =>
    intro p h
    rw [List.foldl_cons, List.foldl_cons, setupZone_of_wantsNothing h]
    exact ih _ fun k => (wanted_stage8Zone j k).trans (h k)

/-- The part with every wanted opening 0. -/
def unwanted (p : Part) : Part :=
  { p with cc := { p.cc with valves := Map.mapRecords (fun _ v => { v with wanted := 0 }) p.cc.valves } }

theorem find_unwanted (k : Nat) :
    Map.find (unwanted p).cc.valves k = (Map.find p.cc.valves k).map fun v => { v with wanted := 0 } :=
  Map.find_mapRecords (fun _ (v : Valve) => ({ v with wanted := 0 } : Valve)) p.cc.valves k

theorem wantsNothing_unwanted : wantsNothing (unwanted p) := by
  intro k
  rw [find_unwanted]
  cases Map.find p.cc.valves k <;> rfl

theorem enterSetup_eq : enterSetup g p = offerValves g (unwanted p) ∧ wantsNothing (enterSetup g p) := by
  obtain ⟨hfold, hwants⟩ := setupZones_eq (g := g) (Map.keys (unwanted p).cc.valves) (unwanted p) wantsNothing_unwanted
  have heq : enterSetup g p = offerValves g (unwanted p) := hfold
  exact ⟨heq, by rw [heq]; exact hwants⟩

/-- Of CC, an offer for a valve touches that valve's record alone. -/
theorem heat_offerValves : (offerValves g p).cc = { p.cc with valves := (offerValves g p).cc.valves } := by
  have step (q : Part) (k : Nat) : (stage8Zone g q k).cc = { q.cc with valves := (stage8Zone g q k).cc.valves } := by
    rcases stage8Zone_cases g q k with h | h <;> rw [h]
    unfold offerValve
    split
    · rfl
    · dsimp only
      split <;> simp [putValve]
  unfold offerValves
  refine List.foldlRecOn (motive := fun q : Part => q.cc = { p.cc with valves := q.cc.valves }) _ _ rfl fun q hq k _ => ?_
  dsimp only at hq ⊢
  rw [step q k, hq]

/-- The pressure on the queue, where its room is given. -/
theorem pressure_of_hasRoom {s : State} {q : Part} {n : Nat} (hfl : q.fl = s.fl)
    (h : hasRoom s (n + if s.fl.line.isSome then 0 else 4)) : pressure q + n ≤ 16 := by
  have hA := heldBy_le (p := q) .A
  have hB := heldBy_le (p := q) .B
  rw [hasRoom, ← placesTaken_eq] at h
  unfold pressure demand
  rw [hfl]
  split_ifs at h ⊢ <;> omega

/-- The valves of an event that serves them from a part with the field link of `s`. -/
theorem Serves.valveServed {s t : State} {q : Part} {b z n : Nat} {v v' w : Valve}
    (h : Serves g s.fl.serial (pressure p + n ≤ 16) b z v' p q w) (hzones : zoneCfg g b z = zoneCfg s.store b z)
    (hnamed : namedItems g = namedItems s.store) (hfl : p.fl = s.fl)
    (hoffered : ∀ zc nd, zoneCfg s.store b z = some zc → nodeOf s.toPart zc.node = some nd →
      ((namedItems s.store).map Prod.fst).Nodup → Stands s.fl.serial zc.node (.setValve w.wanted) q → offered s t zc.node (.setValve w.wanted))
    (hn : n = s.cc.valves.length) (hhanded : v'.handed = v.handed) (hresend : v'.resend = v.resend) :
    valveServed s t b z v w := by
  have hdue : due v' ↔ (v.handed ≠ some w.wanted ∨ v.resend = true) := by rw [due, hhanded, hresend, h.wanted]
  have hnode (a : Nat) : nodeOf p a = nodeOf s.toPart a := nodeOf_congr (by rw [hfl]) a
  unfold Machine.valveServed
  dsimp only
  rw [← hdue, ← hhanded, ← hresend]
  have hlost : zoneLost g p b z = zoneLost s.store s.toPart b z := by
    unfold zoneLost nodeLost
    simp only [hzones, hnode]
  rw [← hnamed, ← hzones] at hoffered
  rw [← hlost, ← hnamed, ← hzones]
  refine ⟨h.still, fun zc nd hz hnd halive hd => ?_⟩
  obtain ⟨hw, hroomy⟩ := h.asked zc nd hz ((hnode _).trans hnd) halive hd
  refine ⟨hw, fun hnodup hroom => ?_⟩
  obtain ⟨hsent, hstands⟩ := hroomy hnodup (pressure_of_hasRoom hfl (by rwa [hn]))
  exact ⟨hsent, hoffered zc nd hz hnd hnodup hstands⟩

end enterSetup

/-! ### What each change of mode does (R183) -/

section setMode

variable {s : State} {tag mode : Nat} {m : Mode}

theorem plantQuiet_iff (p : Part) : plantQuiet p = true ↔
    (∀ e ∈ p.bs.beds, e.2.state = .empty ∨ e.2.state = .prepared ∨ e.2.state = .rejected) ∧
      p.mp.queue = [] ∧ (∀ e ∈ p.sm.pieces, ∀ c, e.2.place ≠ .hook c) ∧
      ∀ c, (craneOf p c).state = .idle ∨ (craneOf p c).state = .unlocated ∨ (craneOf p c).state = .outOfService := by
  have hplace (pl : Place) : (match pl with | .hook _ => false | _ => true) = true ↔ ∀ c, pl ≠ .hook c := by
    cases pl <;> simp
  have hcrane (st : CraneState) : craneQuiet st = true ↔ st = .idle ∨ st = .unlocated ∨ st = .outOfService := by
    cases st <;> simp [craneQuiet]
  have hboth : (∀ c, (craneOf p c).state = .idle ∨ (craneOf p c).state = .unlocated ∨ (craneOf p c).state = .outOfService) ↔
      craneQuiet p.csA.state = true ∧ craneQuiet p.csB.state = true := by
    rw [hcrane, hcrane]
    exact ⟨fun h => ⟨h .A, h .B⟩, fun h c => by cases c; exacts [h.1, h.2]⟩
  rw [hboth]
  simp only [plantQuiet, Bool.and_eq_true, List.all_eq_true, Bool.or_eq_true, beq_iff_eq, List.isEmpty_iff, or_assoc, and_assoc]
  exact and_congr_right fun _ => and_congr_right fun _ => and_congr_left fun _ => forall₂_congr fun e _ => hplace e.2.place

/-- What the blocks are told of a change of mode leaves of CC. -/
theorem heat_tellMode (g : Store) (before : Mode) (p : Part) :
    (tellMode g before p).cc = { p.cc with valves := (tellMode g before p).cc.valves } := by
  unfold tellMode
  split
  · rw [enterSetup_eq.1]
    exact heat_offerValves
  · split
    · simp
    · rfl
  · rfl

/-- SET MODE to SETUP from another mode: CC's valves are served, and all else of the blocks stays. -/
theorem setMode_setup {t : State}
    (hended : endedFrom { s with store := { s.store with lastMode := .setup } } t
      (tellMode { s.store with lastMode := .setup } s.mc.mode (setModeOf .setup (atOwner 0x0E tag s)))) :
    t.sm = s.sm ∧ t.mp = s.mp ∧ told s t [] ∧ t.cc.timer = s.cc.timer ∧
      craneCore t.csA = craneCore s.csA ∧ craneCore t.csB = craneCore s.csB ∧
      (∀ k v, Map.find t.cc.valves k = some v → v.wanted = 0) ∧
      ∀ bed zone v, zone ≤ 4 → Map.find s.cc.valves (zoneKey bed zone) = some v →
        ∃ w, Map.find t.cc.valves (zoneKey bed zone) = some w ∧ w.wanted = 0 ∧ valveServed s t bed zone v w := by
  obtain ⟨o, ho⟩ : ∃ o, o = setModeOf .setup (atOwner 0x0E tag s) := ⟨_, rfl⟩
  have hentered : tellMode { s.store with lastMode := .setup } s.mc.mode o =
      enterSetup { s.store with lastMode := .setup } o := by rw [ho]; rfl
  rw [← ho, hentered] at hended
  obtain ⟨hmc, -, -, hsm, hmp, hcl, hevt, hA, hB⟩ := enterSetup_keeps { s.store with lastMode := .setup } o
  obtain ⟨heq, hwants⟩ := enterSetup_eq (g := { s.store with lastMode := .setup }) (p := o)
  have hplain : noWithdrawal (enterSetup { s.store with lastMode := .setup } o) :=
    noWithdrawal_of_unchanged (by rw [hevt, ho]; rfl)
  obtain ⟨-, -, -, hcc, -, tsm, tmp, tA, tB, tfl, -⟩ := hended.becomes_of_not_run hplain (by rw [hmc, ho]; exact nofun)
  have htold := hended.told hplain (ns := []) (k := o.cl) hcl (by rw [ho]; exact sameNotices_atOwner _ _ _)
  refine ⟨?_, ?_, htold, ?_, ?_, ?_, fun k v hv => ?_, fun bed zone v hzone hv => ?_⟩
  · rw [tsm, hsm, ho]; rfl
  · rw [tmp, hmp, ho]; rfl
  · rw [hcc, heq, heat_offerValves, ho]; rfl
  · rw [tA, hA, ho]; rfl
  · rw [tB, hB, ho]; rfl
  · have := hwants k
    rw [hcc] at hv
    rwa [hv] at this
  · obtain ⟨hbed, hzone'⟩ := keys_zoneKey (b := bed) hzone
    have hclosed : Map.find (unwanted o).cc.valves (zoneKey bed zone) = some { v with wanted := 0 } := by
      rw [find_unwanted, show o.cc = s.cc by rw [ho]; rfl, hv]
      rfl
    obtain ⟨w, hw⟩ := serves_offerValves (g := { s.store with lastMode := .setup }) hclosed
    rw [hbed, hzone', ← heq] at hw
    have hofl : (unwanted o).fl = s.fl := by rw [ho]; rfl
    rw [hofl] at hw
    refine ⟨w, by rw [hcc]; exact hw.there, hw.wanted, ?_⟩
    have hlength : (unwanted o).cc.valves.length = s.cc.valves.length := by
      rw [ho]
      exact List.length_map _
    exact Serves.valveServed hw rfl rfl hofl
      (fun _ _ _ _ _ hstands => (hstands.congr (q := t.toPart) (by rw [tfl]) (by rw [tfl])).offered) hlength rfl rfl

/-- Settles O9: an unchanged mode is only kept in the store; a change tells the blocks, and into SETUP serves the valves. -/
theorem setModeResult : Obligations.SetModeResult := by
  intro s tag mode hready quiet
  have hexec : exec (.setMode tag mode) s = .next (receive 0x0E tag (byStore (setMode mode)) s) := rfl
  have hquiet : plantQuiet (atOwner 0x0E tag s) = true ↔ quiet := plantQuiet_iff (atOwner 0x0E tag s)
  refine ⟨fun hcode => refusedWith_byStore hready hexec ?_, fun m hm => ⟨fun hother hsetup hbusy =>
    refusedWith_byStore hready hexec ?_, fun htaken => ?_⟩⟩
  · have hnone : modeOfCode mode = none := by
      match mode, hcode with
      | _ + 3, _ => rfl
    rw [setMode, hnone]
    rfl
  · rw [setMode, hm]
    refine (if_neg hother).trans (need_of_false ?_)
    rw [hsetup, Bool.or_eq_true, hquiet]
    exact not_or.mpr ⟨by decide, hbusy⟩
  by_cases hsame : m = s.mc.mode
  · refine runsTo_mono (ended_byStore hready hexec (setMode_same hm hsame) rfl) fun t ⟨hended, hanswered⟩ => ?_
    have hbecomes := hended.becomes (noWithdrawal_of_unchanged rfl) rfl
    have htold := hended.told (noWithdrawal_of_unchanged rfl) (ns := []) rfl (sameNotices_atOwner _ _ _)
    have hmc : s.mc = { s.mc with mode := m } := by rw [hsame]
    obtain ⟨tstore, tmc, tbs, tcc, ttu, tsm, tmp, tA, tB, tfl, tpending⟩ := hbecomes
    exact ⟨tstore, tmc.trans hmc, tbs, ttu, congrArg CuringController.contexts tcc, congrArg CuringController.alloc tcc,
      congrArg StockMap.pieces tsm, tpending, hanswered,
      fun _ => ⟨⟨tstore, tmc.trans hmc, tbs, tcc, ttu, tsm, tmp, tA, tB, tfl, tpending⟩, htold⟩,
      fun hother => absurd hsame hother⟩
  · have hjudged := setMode_change (g := s.store) (p := atOwner 0x0E tag s) hm hsame
      ((htaken.resolve_left hsame).imp_right hquiet.mpr)
    refine runsTo_mono (ended_byStore hready hexec hjudged (linkCore_tellMode _ _ _)) fun t ⟨hended, hanswered⟩ => ?_
    obtain ⟨kmc, kbs, ktu, ksm, -⟩ := tellMode_keeps { s.store with lastMode := m } (atOwner 0x0E tag s).mc.mode
      (setModeOf m (atOwner 0x0E tag s))
    have kcc := heat_tellMode { s.store with lastMode := m } (atOwner 0x0E tag s).mc.mode (setModeOf m (atOwner 0x0E tag s))
    obtain ⟨tmc, tbs, tcc, ttu, tpieces, -⟩ := hended.keeps
    refine ⟨hended.store_eq, tmc.trans kmc, tbs.trans kbs, ttu.trans ktu, ?_, ?_, tpieces.trans (congrArg StockMap.pieces ksm),
      hended.pending_eq, hanswered, fun hplain => ?_, fun _ hsetup => ?_⟩
    · rw [tcc, kcc]; rfl
    · rw [tcc, kcc]; rfl
    · obtain ⟨hfrom, rfl⟩ := hplain.resolve_left hsame
      have htold : tellMode { s.store with lastMode := .watch } (atOwner 0x0E tag s).mc.mode
          (setModeOf .watch (atOwner 0x0E tag s)) = setModeOf .watch (atOwner 0x0E tag s) :=
        if_neg (show s.mc.mode ≠ .run by rw [hfrom]; decide)
      simp only [htold] at hended
      exact ⟨hended.becomes (noWithdrawal_of_unchanged rfl) rfl,
        hended.told (noWithdrawal_of_unchanged rfl) (ns := []) rfl (sameNotices_atOwner _ _ _)⟩
    · subst hsetup
      exact setMode_setup hended

end setMode

end Sys2Proof.Proofs
end

section
/-!
PROOFS. The requests that change the named addresses (R3 to R8): how FL's table, queue and line follow, and what the other
blocks keep of the records of an address.
-/

namespace Sys2Proof.Proofs

open Sys2Proof.Machine

/-! ### FL follows a change of configuration (R8, R170) -/

section follows

variable {g : Store} {p q : Part} {l : List Entry}

/-- Every entry of the queue is of the list, or a supervisor's for its own node. -/
def Queued (g : Store) (l : List Entry) (p : Part) : Prop :=
  ∀ e ∈ p.fl.queue, e ∈ l ∨ ∃ c, e.by_ = .cs c ∧ craneNode g c = some e.addr

theorem Queued.congr (h : Queued g l p) (hqueue : q.fl.queue = p.fl.queue) : Queued g l q := by rwa [Queued, hqueue]

theorem Queued.putCrane (h : Queued g l p) (c : CraneId) (r : Crane) : Queued g l (putCrane c r p) :=
  h.congr (by cases c <;> rfl)

theorem Queued.enqueue (h : Queued g l p) {c : CraneId} {a : Nat} (ha : craneNode g c = some a) (cmd : FieldCmd) :
    Queued g l (enqueue ⟨a, cmd, .cs c⟩ p).2 := by
  intro d hd
  rcases enqueue_cases.2 d hd with hd | ⟨rfl, -⟩
  · exact h d hd
  · exact .inr ⟨c, rfl, ha⟩

theorem Queued.reoffer (h : Queued g l p) (c : CraneId) : Queued g l (reoffer g c p) := by
  have kept : Queued g l (reofferKept g c p) := by
    unfold reofferKept
    split
    · next cmd a _ ha =>
      unfold plainAnswered
      split <;> exact (h.enqueue ha cmd).putCrane _ _
    · exact h
  unfold Machine.reoffer reofferStep
  split
  · next cmd a _ ha =>
    unfold commandAnswered
    split <;> exact (kept.enqueue ha cmd).putCrane _ _
  · exact kept

theorem Queued.entryFreed (h : Queued g l p) : Queued g l (entryFreed g p) := by
  have tied : Queued g l { p with fl := { p.fl with ties := p.fl.ties + 1 } } := h.congr rfl
  unfold Machine.entryFreed
  split
  · split
    · exact (tied.reoffer _).reoffer _
    · exact (tied.reoffer _).reoffer _
  · exact (h.reoffer _).reoffer _

theorem Queued.beginExchange (h : Queued g l p) (a : Nat) (cls : ExchangeClass) (c : FieldCmd) (by_ : Option Requester) :
    Queued g l (beginExchange g a cls c by_ p) := by
  unfold Machine.beginExchange
  split
  · exact h
  · exact h

theorem Queued.beginEntry (h : Queued g l p) (e : Entry) (cls : ExchangeClass) : Queued g l (beginEntry g e cls p) := by
  have left : Queued g l (setDirected (p.fl.queue.filter fun d => !sameEntry e d) p) :=
    fun d hd => h d (List.mem_of_mem_filter hd)
  exact (left.beginExchange _ _ _ _).entryFreed

theorem Queued.nextExchange (h : Queued g l p) : Queued g l (nextExchange g p) := by
  unfold Machine.nextExchange
  split
  · exact h
  · split
    · have cleared : Queued g l { p with fl := { p.fl with repeatStop := none } } := h.congr rfl
      exact cleared.beginExchange _ _ _ _
    · split
      · exact h.beginEntry _ _
      · split
        · exact h
        · split
          · exact h.beginEntry _ _
          · split
            · split
              · exact h.beginExchange _ _ _ _
              · exact h
            · unfold beginRoundPoll
              split
              · next a _ _ =>
                have placed : Queued g l { p with fl := { p.fl with roundPos := a } } := h.congr rfl
                exact placed.beginExchange _ _ _ _
              · exact h

/-- Where no supervisor holds a refused command, the arbiter only takes from the queue. -/
theorem sublist_nextExchange (hrefused : ∀ c, holdsRefused p c = false) :
    (nextExchange g p).fl.queue.Sublist p.fl.queue := by
  have begins (o : Part) (a : Nat) (cls : ExchangeClass) (c : FieldCmd) (by_ : Option Requester) :
      (beginExchange g a cls c by_ o).fl.queue = o.fl.queue ∧ ∀ d, craneOf (beginExchange g a cls c by_ o) d = craneOf o d := by
    unfold beginExchange
    split
    · exact ⟨rfl, fun _ => rfl⟩
    · exact ⟨rfl, fun d => by cases d <;> rfl⟩
  have entry (e : Entry) (cls : ExchangeClass) : (beginEntry g e cls p).fl.queue.Sublist p.fl.queue := by
    obtain ⟨hqueue, hcranes⟩ := begins (setDirected (p.fl.queue.filter fun d => !sameEntry e d) p) e.addr cls e.cmd (some e.by_)
    rw [beginEntry, entryFreed_of_none fun c => (holdsRefused_congr ((hcranes c).trans (by cases c <;> rfl))).trans (hrefused c),
      hqueue]
    exact List.filter_sublist
  have same {o : Part} (ho : o.fl.queue = p.fl.queue) : o.fl.queue.Sublist p.fl.queue := ho ▸ List.Sublist.refl _
  unfold nextExchange
  split
  · exact same rfl
  · split
    · exact same (begins _ _ _ _ _).1
    · split
      · exact entry _ _
      · split
        · exact same rfl
        · split
          · exact entry _ _
          · split
            · split
              · exact same (begins _ _ _ _ _).1
              · exact same rfl
            · unfold beginRoundPoll
              split
              · exact same (begins _ _ _ _ _).1
              · exact same rfl

/-- The part whose line is free again, before the next exchange. -/
theorem lineFree_eq (g : Store) (p : Part) : ∃ on pos timer, lineFree g p = nextExchange g { p with fl := { p.fl with
    roundOn := on, roundPos := pos, roundTimer := timer } } := by
  have hend : ∃ on, endRound p = { p with fl := { p.fl with roundOn := on } } := by
    unfold endRound
    split
    · exact ⟨false, rfl⟩
    · exact ⟨p.fl.roundOn, rfl⟩
  obtain ⟨on, hend⟩ := hend
  rw [lineFree, hend]
  unfold beginRound
  split
  · exact ⟨_, _, _, rfl⟩
  · exact ⟨on, p.fl.roundPos, p.fl.roundTimer, rfl⟩

theorem fl_reoffer (c : CraneId) : ∃ m, (reoffer g c p).fl = { p.fl with queue := m } := by
  have kept : ∃ m, (reofferKept g c p).fl = { p.fl with queue := m } := by
    unfold reofferKept
    split
    · next cmd a _ _ =>
      obtain ⟨m, hm⟩ := enqueue_eq ⟨a, cmd, .cs c⟩ p
      exact ⟨m, by simp [hm, setDirected]⟩
    · exact ⟨_, rfl⟩
  obtain ⟨n, hn⟩ := kept
  unfold reoffer reofferStep
  split
  · next cmd a _ _ =>
    obtain ⟨m, hm⟩ := enqueue_eq ⟨a, cmd, .cs c⟩ (reofferKept g c p)
    exact ⟨m, by simp [hm, setDirected, hn]⟩
  · exact ⟨n, hn⟩

/-- A freed entry concerns, of FL, only the queue and the count of ties. -/
theorem fl_entryFreed : ∃ m ties, (entryFreed g p).fl = { p.fl with queue := m, ties := ties } := by
  have both (o : Part) (c d : CraneId) : ∃ m, (reoffer g d (reoffer g c o)).fl = { o.fl with queue := m } := by
    obtain ⟨m, hm⟩ := fl_reoffer (g := g) (p := o) c
    obtain ⟨n, hn⟩ := fl_reoffer (g := g) (p := reoffer g c o) d
    exact ⟨n, by rw [hn, hm]⟩
  have tied (c d : CraneId) : ∃ m ties, (reoffer g d (reoffer g c { p with fl := { p.fl with ties := p.fl.ties + 1 } })).fl =
      { p.fl with queue := m, ties := ties } := by
    obtain ⟨m, hm⟩ := both { p with fl := { p.fl with ties := p.fl.ties + 1 } } c d
    exact ⟨m, _, hm⟩
  unfold entryFreed
  split
  · split
    · exact tied _ _
    · exact tied _ _
  · obtain ⟨m, hm⟩ := both p .A .B
    exact ⟨m, p.fl.ties, hm⟩

theorem namedTable_congr (h : q.fl.nodes = p.fl.nodes) : namedTable g q = namedTable g p := by
  simp only [namedTable, namedEntry, nodeOf_congr h]

theorem unnamedSince_eq {s t : State} (hp : p.fl.nodes = s.fl.nodes) (ht : t.fl.nodes = namedTable g p) (a : Nat) :
    unnamedSince s t a = unnamed p.fl.nodes (namedTable g p) a := by
  rw [unnamedSince, nodeOf, nodeOf, unnamed, ht, hp]
  cases Map.find s.fl.nodes a with
  | none => rfl
  | some nd =>
    cases Map.find (namedTable g p) a with
    | none => simp
    | some md =>
      change (some md.owner != some nd.owner) = decide (nd.owner ≠ md.owner)
      rw [Bool.eq_iff_iff, bne_iff_ne, decide_eq_true_eq]
      exact ⟨fun h heq => h (by rw [heq]), fun h heq => h (Option.some.inj heq).symm⟩

/-- The part at which FL has taken the new table: the commands of addresses no longer named are gone. -/
def retabled (g : Store) (p : Part) : Part :=
  { p with fl := { p.fl with
      nodes := namedTable g p, queue := p.fl.queue.filter fun e => !unnamed p.fl.nodes (namedTable g p) e.addr,
      line := p.fl.line.map (orphanIf (unnamed p.fl.nodes (namedTable g p))),
      waiting := p.fl.waiting.map (orphanIf (unnamed p.fl.nodes (namedTable g p))) } }

theorem syncNodes_eq (g : Store) (p : Part) : syncNodes g p = lineFree g
    (if (retabled g p).fl.queue.length < p.fl.queue.length then entryFreed g (retabled g p) else retabled g p) := rfl

/-- The part after the entries that freed were offered to the supervisors. -/
def reoffered (g : Store) (p : Part) : Part :=
  if (retabled g p).fl.queue.length < p.fl.queue.length then entryFreed g (retabled g p) else retabled g p

theorem fl_reoffered (g : Store) (p : Part) : ∃ m ties, (reoffered g p).fl = { (retabled g p).fl with queue := m, ties := ties } := by
  unfold reoffered
  split
  · exact fl_entryFreed
  · exact ⟨_, _, rfl⟩

theorem traffic_reoffered (g : Store) (p : Part) : Traffic ∅ (retabled g p) (reoffered g p) := by
  unfold reoffered
  split
  · exact (Traffic.refl _).then_entryFreed
  · exact .refl _

theorem traffic_lineFree (mine : Set CraneId) (g : Store) (p : Part) : Traffic mine p (lineFree g p) := by
  obtain ⟨on, pos, timer, h⟩ := lineFree_eq g p
  rw [h]
  have round : Traffic mine p { p with fl := { p.fl with roundOn := on, roundPos := pos, roundTimer := timer } } :=
    ⟨rfl, le_refl _, fun c _ => .of_eq (by cases c <;> rfl), fun _ _ _ _ h => h, fun h => ⟨h, fun _ h => h⟩, fun _ h => h⟩
  exact round.then_nextExchange

theorem nodes_syncNodes (g : Store) (p : Part) : (syncNodes g p).fl.nodes = namedTable g p :=
  ((traffic_lineFree ∅ g (reoffered g p)).nodes).trans (traffic_reoffered g p).nodes

/-- What a change of configuration leaves of a crane's record. -/
theorem leaves_syncNodes (g : Store) (p : Part) (c : CraneId) : Leaves c p (syncNodes g p) := by
  have retable : Leaves c p (retabled g p) := .of_eq (by cases c <;> rfl)
  exact (retable.trans ((traffic_reoffered g p).cranes c id)).trans ((traffic_lineFree ∅ g (reoffered g p)).cranes c id)

/-- FL follows a request whose part has the queue, the line and the table of before. -/
theorem linkFollows_syncNodes {s t : State} (hnodes : p.fl.nodes = s.fl.nodes) (hqueue : p.fl.queue = s.fl.queue)
    (hline : p.fl.line = s.fl.line) (hwaiting : p.fl.waiting = s.fl.waiting)
    (hcranes : ∀ c, holdsRefused s.toPart c = false → holdsRefused p c = false)
    (ht : t.fl = (syncNodes g p).fl) (hstore : t.store = g) : linkFollows s t := by
  have htable : t.fl.nodes = namedTable g p := by rw [ht, nodes_syncNodes]
  have hgone := unnamedSince_eq hnodes htable
  obtain ⟨m, ties, hfreed⟩ := fl_reoffered g p
  obtain ⟨on, pos, timer, hfree⟩ := lineFree_eq g (reoffered g p)
  have hsync : syncNodes g p = lineFree g (reoffered g p) := rfl
  have hkept : (retabled g p).fl.queue = s.fl.queue.filter fun e => !unnamedSince s t e.addr := by
    simp only [hgone, ← hqueue]
    rfl
  have hmark : orphanIf (unnamed p.fl.nodes (namedTable g p)) =
      fun ex : Exchange => { ex with orphan := ex.orphan || unnamedSince s t ex.addr } := by
    funext ex
    rw [hgone, orphanIf]
    split
    · next h => rw [h, Bool.or_true]
    · next h => rw [Bool.not_eq_true] at h; rw [h, Bool.or_false]
  have hbusy (h : s.fl.line.isSome) : (syncNodes g p).fl = { (reoffered g p).fl with
      roundOn := on, roundPos := pos, roundTimer := timer } := by
    rw [hsync, hfree, nextExchange_of_busy]
    change (reoffered g p).fl.line.isSome = true
    rw [hfreed]
    change (p.fl.line.map _).isSome = true
    rw [Option.isSome_map, hline, h]
  refine ⟨fun e he hun => ?_, fun h => ?_, fun hidle => ?_⟩
  · have queued : Queued g (retabled g p).fl.queue (reoffered g p) := by
      unfold reoffered
      split
      · exact Queued.entryFreed fun _ h => .inl h
      · exact fun _ h => .inl h
    have hall : Queued g (retabled g p).fl.queue (syncNodes g p) := by
      rw [hsync, hfree]
      exact Queued.nextExchange (queued.congr rfl)
    rw [ht] at he
    rcases hall e he with hmem | ⟨c, hby, hc⟩
    · rw [hkept] at hmem
      simp [hun] at hmem
    · exact ⟨c, hby, by rwa [hstore]⟩
  · rw [ht, hbusy h, hfreed]
    change p.fl.line.map _ = _ ∧ p.fl.waiting.map _ = _
    rw [hline, hwaiting, hmark]
    exact ⟨rfl, rfl⟩
  · have hnone (c : CraneId) : holdsRefused (retabled g p) c = false := by
      obtain ⟨hk, hw⟩ := hidle c
      have hs : holdsRefused s.toPart c = false := by
        have hwait : waitingCommand s.toPart c = none := by
          unfold waitingCommand
          split
          · next cmd hcmd => exact absurd hcmd (hw cmd)
          · rfl
        simp [holdsRefused, hk, hwait]
      exact (holdsRefused_congr (by cases c <;> rfl)).trans (hcranes c hs)
    have hsame : reoffered g p = retabled g p := by
      unfold reoffered
      split
      · exact entryFreed_of_none hnone
      · rfl
    refine ⟨?_, fun h => ?_⟩
    · rw [ht, hsync, hfree, hsame, ← hkept]
      exact sublist_nextExchange fun c => (holdsRefused_congr (by cases c <;> rfl)).trans (hnone c)
    · rw [ht, hbusy h, hsame, ← hkept]

end follows

/-! ### SET AREA and SET CRANE (R6, R7) -/

section settings

variable {s : State} {g : Store} {p : Part} {tag node : Nat}

theorem namedElsewhere_iff {own : Owner → Bool} {a : Nat} :
    namedElsewhere g own a = true ↔ ∃ e ∈ namedItems g, e.1 = a ∧ own e.2 = false := by
  simp [namedElsewhere]

theorem areaRecord_rebuildArea (area : Nat) (n : Option Nat) (a : Nat) : areaRecord (rebuildArea area n p) a =
    if a = area then (if n.isSome ∧ (areaRecord p area).node = n then areaRecord p area else .fresh n) else areaRecord p a := by
  unfold rebuildArea
  by_cases ha : a = area
  · subst ha
    rw [if_pos rfl]
    split
    · rfl
    · simp [areaRecord, putAreaRecord]
  · rw [if_neg ha]
    split
    · rfl
    · simp [areaRecord, putAreaRecord, ha]

theorem setArea_of_setup {area : Nat} (h : inSetup p = true) : setArea area node g p =
    need (isId 4 area && decide (node ≤ 30)) .range
      (need (node == 0 || !namedElsewhere g (fun o => o == .area area) node) .duplicate
        (.ok ({ g with areas := if node = 0 then Map.del g.areas area else Map.put g.areas area node },
          { part := syncNodes { g with areas := if node = 0 then Map.del g.areas area else Map.put g.areas area node }
              (rebuildArea area (areaNode node) p) }))) := by
  rw [setArea, need_of_true h]

/-- Settles O16: TU's record of the area is rebuilt, and FL follows. -/
theorem setAreaResult : Obligations.SetAreaResult := by
  intro s tag area node hready hsetup used inside
  have hjudged := setArea_of_setup (area := area) (node := node) (g := s.store) (inSetup_atOwner hsetup 0x04 tag)
  have hexec : exec (.setArea tag area node) s = .next (receive 0x04 tag (byStore (setArea area node)) s) := rfl
  have hinside : (isId 4 area && decide (node ≤ 30)) = true ↔ inside := by
    rw [Bool.and_eq_true, isId_eq_true_iff, decide_eq_true_eq, and_assoc]
  have hused : (node == 0 || !namedElsewhere s.store (fun o => o == .area area) node) = true ↔ ¬ used := by
    rw [Bool.or_eq_true, beq_iff_eq, Bool.not_eq_true', ← Bool.not_eq_true, namedElsewhere_iff]
    simp only [used, beq_eq_false_iff_ne, not_and_or, not_not]
  refine ⟨fun hout => refusedWith_byStore hready hexec ?_, fun hin hdup => refusedWith_byStore hready hexec ?_,
    fun hin hfree => ?_⟩
  · rw [hjudged, need_of_false (mt hinside.mp hout)]
  · rw [hjudged, need_of_true (hinside.mpr hin), need_of_false fun h => hused.mp h hdup]
  · rw [need_of_true (hinside.mpr hin), need_of_true (hused.mpr hfree)] at hjudged
    obtain ⟨h, hh⟩ : ∃ h, h = { s.store with
        areas := if node = 0 then Map.del s.store.areas area else Map.put s.store.areas area node } := ⟨_, rfl⟩
    rw [← hh] at hjudged
    obtain ⟨p, hp⟩ : ∃ p, p = rebuildArea area (areaNode node) (atOwner 0x04 tag s) := ⟨_, rfl⟩
    have hrest : p = { atOwner 0x04 tag s with tu := { s.tu with areas := p.tu.areas } } := by
      rw [hp, rebuildArea]
      split <;> rfl
    rw [← hp] at hjudged
    obtain ⟨kmc, kbs, kcc, ktu, ksm, kmp, kcl, kevt, kA, kB⟩ := syncNodes_keeps h p
    have pfl : p.fl = s.fl := by rw [hrest]; rfl
    have pcrane (c : CraneId) : craneOf p c = craneOf s.toPart c := by rw [hrest]; cases c <;> rfl
    refine runsTo_mono (quiet_byStore hready hexec hjudged (kevt.trans (by rw [hrest]; rfl)) (kcl.trans (by rw [hrest])))
      fun t ⟨⟨tstore, tmc, tbs, tcc, ttu, tsm, tmp, tA, tB, tfl, tpending⟩, htold, hanswered⟩ => ?_
    have hrecord (a : Nat) : areaRecord t.toPart a = areaRecord p a := by
      rw [areaRecord, ttu.trans ktu, areaRecord]
    have hrecorded (a : Nat) : areaRecord (rebuildArea area (areaNode node) (atOwner 0x04 tag s)) a = _ :=
      areaRecord_rebuildArea area (areaNode node) a
    refine ⟨?_, hanswered, htold, tmc.trans (kmc.trans (by rw [hrest]; rfl)), tbs.trans (kbs.trans (by rw [hrest]; rfl)),
      tcc.trans (kcc.trans (by rw [hrest]; rfl)), tsm.trans (ksm.trans (by rw [hrest]; rfl)),
      tmp.trans (kmp.trans (by rw [hrest]; rfl)), by rw [ttu.trans ktu, hrest],
      (congrArg craneCore tA).trans (kA.trans (by rw [hrest]; rfl)), (congrArg craneCore tB).trans (kB.trans (by rw [hrest]; rfl)),
      tpending, ?_, ?_, fun a ha => ?_, ?_⟩
    · rw [tstore, hh]
      split <;> rfl
    · rw [tfl, tstore]
      exact (nodes_syncNodes h p).trans (namedTable_congr (by rw [pfl]))
    · exact linkFollows_syncNodes (by rw [pfl]) (by rw [pfl]) (by rw [pfl]) (by rw [pfl])
        (fun c hc => (holdsRefused_congr (pcrane c)).trans hc) tfl tstore
    · rw [hrecord, hp, hrecorded, if_neg ha]
      rfl
    · rw [hrecord, hp, hrecorded, if_pos rfl]
      unfold areaNode
      by_cases hnode : node = 0
      · rw [if_pos hnode]
        simp [hnode]
      · rw [if_neg hnode]
        simp only [Option.isSome_some, true_and, ne_eq, hnode, not_false_eq_true]
        rfl

/-! ### SET CRANE (R7) -/

theorem setCrane_of_setup {crane home : Nat} {c : CraneId} (h : inSetup p = true) (hc : craneOfByte crane = some c) :
    setCrane crane node home g p =
      need (decide (node ≤ 30) && isId 30 node && onRunway g home &&
          homesApart (withCrane g c { node := node, home := home }) g.plant.clearance) .range
        (need (!namedElsewhere g (fun o => o == .crane c) node) .duplicate
          (.ok (withCrane g c { node := node, home := home },
            { part := syncNodes (withCrane g c { node := node, home := home })
                (if craneNode g c = some node then p else forgetCrane g c p) }))) := by
  rw [setCrane, need_of_true h, hc]
  simp only [must_some, need_need, Bool.and_assoc]

/-- A crane whose record is discarded: all else is as it was but FL's polls of that crane. -/
theorem forgetCrane_cases (g : Store) (c : CraneId) (p : Part) :
    craneOf (forgetCrane g c p) c = .atReset ∧ craneOf (forgetCrane g c p) (otherCrane c) = craneOf p (otherCrane c) ∧
    reservationOf (forgetCrane g c p) c = none ∧
    reservationOf (forgetCrane g c p) (otherCrane c) = reservationOf p (otherCrane c) ∧
    ∃ due pollA pollB, (forgetCrane g c p).fl = { p.fl with due := due, pollA := pollA, pollB := pollB } := by
  cases c <;> unfold forgetCrane enterState <;> dsimp only <;> split_ifs <;>
    exact ⟨rfl, rfl, rfl, rfl, _, _, _, rfl⟩

/-- Settles O17: a changed address discards the crane's record, and FL follows. -/
theorem setCraneResult : Obligations.SetCraneResult := by
  intro s tag crane node home hready hsetup
  have hexec : exec (.setCrane tag crane node home) s = .next (receive 0x06 tag (byStore (setCrane crane node home)) s) := rfl
  refine ⟨fun hA hB => refusedWith_byStore hready hexec ?_, ?_⟩
  · have hnone : craneOfByte crane = none := by
      unfold craneOfByte
      split
      · exact absurd rfl hA
      · exact absurd rfl hB
      · rfl
    rw [setCrane, need_of_true (inSetup_atOwner hsetup 0x06 tag), hnone]
    by_cases hnode : node ≤ 30
    · rw [need_of_true (decide_eq_true hnode)]
      rfl
    · rw [need_of_false (by simpa using hnode)]
  intro c hbyte h used inside
  have hc : craneOfByte crane = some c := by rcases hbyte with ⟨rfl, rfl⟩ | ⟨rfl, rfl⟩ <;> rfl
  have hjudged := setCrane_of_setup (node := node) (home := home) (g := s.store) (inSetup_atOwner hsetup 0x06 tag) hc
  have hinside : (decide (node ≤ 30) && isId 30 node && onRunway s.store home && homesApart h s.store.plant.clearance) = true ↔
      inside := by
    simp only [Bool.and_eq_true, isId_eq_true_iff, onRunway_eq_true_iff, decide_eq_true_eq, and_assoc, inside]
    exact ⟨fun ⟨_, hin⟩ => hin, fun hin => ⟨hin.2.1, hin⟩⟩
  have hused : (!namedElsewhere s.store (fun o => o == .crane c) node) = true ↔ ¬ used := by
    rw [Bool.not_eq_true', ← Bool.not_eq_true, namedElsewhere_iff]
    simp only [used, beq_eq_false_iff_ne, ne_eq]
  refine ⟨fun hout => refusedWith_byStore hready hexec ?_, fun hin hdup => refusedWith_byStore hready hexec ?_,
    fun hin hfree => ?_⟩
  · rw [hjudged, need_of_false (mt hinside.mp hout)]
  · rw [hjudged, need_of_true (hinside.mpr hin), need_of_false fun h => hused.mp h hdup]
  rw [need_of_true (hinside.mpr hin), need_of_true (hused.mpr hfree)] at hjudged
  obtain ⟨p, hp⟩ : ∃ p, p = if craneNode s.store c = some node then atOwner 0x06 tag s
    else forgetCrane s.store c (atOwner 0x06 tag s) := ⟨_, rfl⟩
  change _ = Except.ok (h, ({ part := syncNodes h _ } : Taken)) at hjudged
  rw [← hp] at hjudged
  obtain ⟨kmc, kbs, kcc, ktu, ksm, kmp, kcl, kevt, kA, kB⟩ := syncNodes_keeps h p
  obtain ⟨fmc, fbs, fcc, ftu, fsm, fcl, fevt, fqueue, fcounter, fbacklog⟩ := forgetCrane_keeps s.store c (atOwner 0x06 tag s)
  obtain ⟨fmine, fother, fres, fresOther, due, pollA, pollB, ffl⟩ := forgetCrane_cases s.store c (atOwner 0x06 tag s)
  have hkeeps : p.mc = s.mc ∧ p.bs = s.bs ∧ p.cc = s.cc ∧ p.tu = s.tu ∧ p.sm = s.sm ∧ p.cl = (atOwner 0x06 tag s).cl ∧
      p.evt = .none ∧ p.mp.queue = s.mp.queue ∧ p.mp.counter = s.mp.counter ∧ p.mp.backlog = s.mp.backlog := by
    rw [hp]
    split
    · exact ⟨rfl, rfl, rfl, rfl, rfl, rfl, rfl, rfl, rfl, rfl⟩
    · exact ⟨fmc, fbs, fcc, ftu, fsm, fcl, fevt, fqueue, fcounter, fbacklog⟩
  obtain ⟨pmc, pbs, pcc, ptu, psm, pcl, pevt, pqueue, pcounter, pbacklog⟩ := hkeeps
  have hlink : p.fl.nodes = s.fl.nodes ∧ p.fl.queue = s.fl.queue ∧ p.fl.line = s.fl.line ∧ p.fl.waiting = s.fl.waiting := by
    rw [hp]
    split
    · exact ⟨rfl, rfl, rfl, rfl⟩
    · rw [ffl]
      exact ⟨rfl, rfl, rfl, rfl⟩
  obtain ⟨pnodes, plq, pline, pwaiting⟩ := hlink
  have hself (d : CraneId) : craneOf (atOwner 0x06 tag s) d = craneOf s.toPart d := craneOf_congr rfl rfl d
  have hres (d : CraneId) : reservationOf (atOwner 0x06 tag s) d = reservationOf s.toPart d := by cases d <;> rfl
  have hother : craneOf p (otherCrane c) = craneOf s.toPart (otherCrane c) ∧
      reservationOf p (otherCrane c) = reservationOf s.toPart (otherCrane c) := by
    rw [hp]
    split
    · exact ⟨hself _, hres _⟩
    · exact ⟨fother.trans (hself _), fresOther.trans (hres _)⟩
  have hrefused (d : CraneId) (hd : holdsRefused s.toPart d = false) : holdsRefused p d = false := by
    by_cases hmine : d = c
    · rw [hp, hmine]
      split
      · exact (holdsRefused_congr (hself c)).trans (hmine ▸ hd)
      · simp [holdsRefused, waitingCommand, fmine, Crane.atReset]
    · obtain rfl := eq_otherCrane_of_ne hmine
      exact (holdsRefused_congr hother.1).trans hd
  refine runsTo_mono (quiet_byStore hready hexec hjudged (kevt.trans pevt) (kcl.trans pcl))
    fun t ⟨⟨tstore, tmc, tbs, tcc, ttu, tsm, tmp, tA, tB, tfl, tpending⟩, htold, hanswered⟩ => ?_
  have tres (d : CraneId) : reservationOf t.toPart d = reservationOf p d := by
    cases d
    · exact congrArg MovePlanner.resA (tmp.trans kmp)
    · exact congrArg MovePlanner.resB (tmp.trans kmp)
  have tcrane (d : CraneId) : Leaves d p t.toPart :=
    (leaves_syncNodes h p d).trans (.of_eq (craneOf_congr tA tB d))
  refine ⟨tstore, hanswered, htold, tmc.trans (kmc.trans pmc), tbs.trans (kbs.trans pbs), tcc.trans (kcc.trans pcc),
    ttu.trans (ktu.trans ptu), tsm.trans (ksm.trans psm), tpending,
    (congrArg MovePlanner.queue (tmp.trans kmp)).trans pqueue, (congrArg MovePlanner.counter (tmp.trans kmp)).trans pcounter,
    (congrArg MovePlanner.backlog (tmp.trans kmp)).trans pbacklog, ?_,
    linkFollows_syncNodes pnodes plq pline pwaiting hrefused tfl tstore, (tres _).trans hother.2,
    (tcrane _).1.trans (congrArg craneCore hother.1), fun hsame => ?_, fun hchanged => ?_⟩
  · rw [tfl]
    exact (nodes_syncNodes h p).trans (namedTable_congr pnodes)
  · rw [if_pos hsame] at hp
    exact ⟨(tres c).trans (by rw [hp, hres]), (tcrane c).1.trans (by rw [hp, hself])⟩
  · rw [if_neg hchanged] at hp
    have hreset : craneOf p c = .atReset := by rw [hp]; exact fmine
    refine ⟨(tres c).trans (by rw [hp]; exact fres), ((tcrane c).2 ?_).trans hreset⟩
    simp [holdsRefused, waitingCommand, hreset, Crane.atReset]

end settings

/-! ### A bed's geometry (R3, R4) -/

section geometry

theorem boundariesFit_iff (xEnd : Int) : ∀ (zones : List ZoneSpec) (lo : Int), zones ≠ [] → (boundariesFit lo xEnd zones = true ↔
    (∀ z ∈ zones, lo ≤ (z.east : Int)) ∧ (zones.map (·.east)).Pairwise (· < ·) ∧
      zones.getLast?.map (fun z => (z.east : Int)) = some xEnd)
  | [], _, h => absurd rfl h
  | [z], lo, _ => by simp [boundariesFit]
  | z :: y :: l, lo, _ => by
    have ih := boundariesFit_iff xEnd (y :: l) ((z.east : Int) + 1) (by simp)
    have hstep : boundariesFit lo xEnd (z :: y :: l) =
        (decide (lo ≤ (z.east : Int)) && boundariesFit ((z.east : Int) + 1) xEnd (y :: l)) := by rw [boundariesFit]; simp
    have hpairs : ((z :: y :: l).map (·.east)).Pairwise (· < ·) ↔
        (∀ x ∈ y :: l, z.east < x.east) ∧ ((y :: l).map (·.east)).Pairwise (· < ·) := by
      rw [List.map_cons, List.pairwise_cons, List.forall_mem_map]
    rw [hstep, Bool.and_eq_true, decide_eq_true_eq, ih, hpairs, List.getLast?_cons_cons, List.forall_mem_cons (a := z)]
    constructor
    · rintro ⟨hlo, hall, hpairs, hlast⟩
      exact ⟨⟨hlo, fun x hx => by have := hall x hx; omega⟩, ⟨fun x hx => by have := hall x hx; omega, hpairs⟩, hlast⟩
    · rintro ⟨⟨hlo, -⟩, ⟨hall, hpairs⟩, hlast⟩
      exact ⟨hlo, fun x hx => by have := hall x hx; omega, hpairs, hlast⟩

theorem distinct_iff (l : List Nat) : distinct l = true ↔ l.Nodup := by
  induction l with
  | nil => simp [distinct]
  | cons a l ih => simp [distinct, ih]

end geometry

/-! ### The records of a bed's zones (R42, R77) -/

section rebuilt

variable {α : Type} {old : Map α} {fresh : Nat → α} {bed b k : Nat} {before after : List ZoneCfg}

theorem find_filter {m : Map α} {f : Nat → Bool} (k : Nat) :
    Map.find (m.filter fun e => f e.1) k = if f k then Map.find m k else none := by
  induction m with
  | nil => simp [Map.find]
  | cons e m ih =>
    rw [List.filter_cons]
    by_cases hk : e.1 = k
    · subst hk
      split <;> simp [Map.find, *]
    · split <;> simp [Map.find, *]

theorem mem_numbered_iff {l : List α} {n i : Nat} {z : α} : (i, z) ∈ numbered n l ↔ n ≤ i ∧ l[i - n]? = some z := by
  induction l generalizing n with
  | nil => simp [numbered]
  | cons x l ih =>
    rw [numbered, List.mem_cons, ih, Prod.mk.injEq]
    constructor
    · rintro (⟨rfl, rfl⟩ | ⟨hle, hz⟩)
      · simp
      · refine ⟨by omega, ?_⟩
        rw [show i - n = (i - (n + 1)) + 1 by omega]
        simpa using hz
    · rintro ⟨hle, hz⟩
      rcases Nat.eq_or_lt_of_le hle with rfl | hlt
      · simp at hz
        exact .inl ⟨rfl, hz.symm⟩
      · refine .inr ⟨hlt, ?_⟩
        rw [show i - n = (i - (n + 1)) + 1 by omega] at hz
        simpa using hz

theorem keys_four (hb : 1 ≤ k) (hk : k ≤ 4) {c j : Nat} (hj : 1 ≤ j) (hj' : j ≤ 4) (h : zoneKey b k = zoneKey c j) : b = c ∧ k = j := by
  unfold zoneKey at h
  omega

/-- The record that a zone of the new geometry gets. -/
def rebuiltRecord (old : Map α) (fresh : Nat → α) (bed : Nat) (before : List ZoneCfg) (z : Nat × ZoneCfg) : α :=
  match Map.find old (zoneKey bed z.1) with
  | some r => if hadNode before z.1 z.2.node then r else fresh z.2.node
  | none => fresh z.2.node

theorem rebuiltRecord_eq {z : ZoneCfg} : rebuiltRecord old fresh bed before (k, z) =
    if hadNode before k z.node then (Map.find old (zoneKey bed k)).getD (fresh z.node) else fresh z.node := by
  unfold rebuiltRecord
  cases Map.find old (zoneKey bed k) with
  | some r => rfl
  | none => simp

theorem rebuiltRecords_eq : rebuiltRecords old fresh bed before after = (numbered 1 after).foldl
    (fun m z => Map.put m (zoneKey bed z.1) (rebuiltRecord old fresh bed before z)) (old.filter fun e => keyBed e.1 != bed) := rfl

theorem find_kept (hk : k ≤ 4) : Map.find (old.filter fun e => keyBed e.1 != bed) (zoneKey b k) =
    if b = bed then none else Map.find old (zoneKey b k) := by
  rw [find_filter (f := fun n => keyBed n != bed), (keys_zoneKey hk).1]
  by_cases h : b = bed <;> simp [h]

/-- The rebuilt records of another bed, of a removed zone and of a zone of the new geometry. -/
theorem find_rebuiltRecords (hfour : after.length ≤ 4) (hk : 1 ≤ k) (hk4 : k ≤ 4) :
    Map.find (rebuiltRecords old fresh bed before after) (zoneKey b k) =
      if b ≠ bed then Map.find old (zoneKey b k)
      else after[k - 1]?.map fun z => if hadNode before k z.node then (Map.find old (zoneKey bed k)).getD (fresh z.node)
        else fresh z.node := by
  have hbuilt (e : Nat × ZoneCfg) (he : e ∈ numbered 1 after) (hkey : zoneKey bed e.1 = zoneKey b k) :
      bed = b ∧ e.1 = k ∧ after[k - 1]? = some e.2 := by
    obtain ⟨hle, hget⟩ := mem_numbered_iff.mp he
    obtain ⟨hlt, -⟩ := List.getElem?_eq_some_iff.mp hget
    obtain ⟨hbed, rfl⟩ := keys_four hle (by omega) hk hk4 hkey
    exact ⟨hbed, rfl, hget⟩
  rw [rebuiltRecords_eq]
  cases hfind : Map.find ((numbered 1 after).foldl (fun m z => Map.put m (zoneKey bed z.1)
      (rebuiltRecord old fresh bed before z)) (old.filter fun e => keyBed e.1 != bed)) (zoneKey b k) with
  | some x =>
    rcases find_built hfind with ⟨e, he, hkey, rfl⟩ | hkept
    · obtain ⟨hbed, hzone, hget⟩ := hbuilt e he hkey
      have heq : e = (k, e.2) := by rw [← hzone]
      rw [if_neg (not_not.mpr hbed.symm), hget, heq, rebuiltRecord_eq]
      rfl
    · rw [find_kept hk4] at hkept
      split at hkept
      · cases hkept
      · next hne => rw [if_pos hne, hkept]
  | none =>
    have hnone (hthere : (∃ e ∈ numbered 1 after, zoneKey bed e.1 = zoneKey b k) ∨
        (Map.find (old.filter fun e => keyBed e.1 != bed) (zoneKey b k)).isSome) : False := by
      have := find_built_there (val := rebuiltRecord old fresh bed before) hthere
      rw [hfind] at this
      cases this
    split
    · next hne =>
      by_contra hsome
      refine hnone (.inr ?_)
      rw [find_kept hk4, if_neg hne]
      exact Option.isSome_iff_ne_none.mpr (Ne.symm hsome)
    · next heq =>
      cases hget : after[k - 1]? with
      | none => rfl
      | some z => exact (hnone (.inl ⟨(k, z), mem_numbered_iff.mpr ⟨hk, hget⟩, by rw [not_not.mp heq]⟩)).elim

end rebuilt

/-! ### SET BED (R4) -/

section setBed

variable {g : Store} {p : Part} {bed xStart xEnd : Nat} {zones : List ZoneSpec}

/-- The store after SET BED. -/
def withBed (g : Store) (bed xStart xEnd : Nat) (zones : List ZoneSpec) : Store :=
  if zones = [] then { g with beds := Map.del g.beds bed }
  else { g with beds := Map.put g.beds bed { xStart := xStart, xEnd := xEnd, zones := zones.map zoneTaken } }

theorem zonesOf_withBed : zonesOf (withBed g bed xStart xEnd zones) bed = zones.map zoneTaken := by
  unfold withBed
  split
  · next h => simp [zonesOf, h]
  · simp [zonesOf]

theorem setBed_of_setup (h : inSetup p = true) : setBed bed xStart xEnd zones g p =
    need (isId 6 bed && decide (zones.length ≤ 4) && zones.all fun z => decide (z.node ≤ 30)) .range
      (need ((bedOf p bed).state == .empty) .state
        (if zones = [] then .ok (withBed g bed xStart xEnd zones,
            { part := followBed (withBed g bed xStart xEnd zones) bed (zonesOf g bed) p,
              clamped := zones.any fun z => decide (999 < z.rating) })
        else need (decide (xStart < xEnd) && decide ((xEnd : Int) ≤ g.runway) && boundariesFit xStart xEnd zones &&
            zones.all fun z => isId 30 z.node) .range
          (need (distinct (zones.map (·.node)) && zones.all fun z => !namedElsewhere g (ownerOfBed bed) z.node) .duplicate
            (.ok (withBed g bed xStart xEnd zones,
              { part := followBed (withBed g bed xStart xEnd zones) bed (zonesOf g bed) p,
                clamped := zones.any fun z => decide (999 < z.rating) }))))) := by
  rw [setBed, need_of_true h]
  by_cases hz : zones = []
  · subst hz
    simp [withBed]
  · simp only [List.isEmpty_iff, hz, if_false, need_need, withBed, Bool.and_assoc]

theorem ownerOfBed_eq_false_iff {o : Owner} : ownerOfBed bed o = false ↔ ¬ ∃ k, o = .zone bed k := by
  cases o <;> simp [ownerOfBed]

theorem keeps_followBed (h : Store) (before : List ZoneCfg) :
    (followBed h bed before p).mc = p.mc ∧ (followBed h bed before p).bs = p.bs ∧ (followBed h bed before p).sm = p.sm ∧
    (followBed h bed before p).mp = p.mp ∧ (followBed h bed before p).cl = p.cl ∧ (followBed h bed before p).evt = p.evt ∧
    craneCore (followBed h bed before p).csA = craneCore p.csA ∧ craneCore (followBed h bed before p).csB = craneCore p.csB ∧
    (followBed h bed before p).tu = { p.tu with
      zones := rebuiltRecords p.tu.zones ZoneRecord.fresh bed before (zonesOf h bed) } ∧
    (followBed h bed before p).cc = { p.cc with
      valves := rebuiltRecords p.cc.valves (fun _ => Valve.fresh) bed before (zonesOf h bed) } := by
  obtain ⟨kmc, kbs, kcc, ktu, ksm, kmp, kcl, kevt, kA, kB⟩ := syncNodes_keeps h (rebuildBed bed before (zonesOf h bed) p)
  exact ⟨kmc, kbs, ksm, kmp, kcl, kevt, kA, kB, ktu, kcc⟩

theorem zoneRecord_of_rebuilt {t : Part} {b k : Nat} {before after : List ZoneCfg} (hfour : after.length ≤ 4) (hk : 1 ≤ k)
    (hk4 : k ≤ 4) (h : t.tu = { p.tu with zones := rebuiltRecords p.tu.zones ZoneRecord.fresh bed before after }) :
    zoneRecord t b k = if b ≠ bed then zoneRecord p b k
      else after[k - 1]?.map fun z => if hadNode before k z.node then (zoneRecord p bed k).getD (.fresh z.node)
        else .fresh z.node := by
  rw [zoneRecord, h]
  exact find_rebuiltRecords hfour hk hk4

theorem valve_of_rebuilt {t : Part} {b k : Nat} {before after : List ZoneCfg} (hfour : after.length ≤ 4) (hk : 1 ≤ k)
    (hk4 : k ≤ 4) (h : t.cc = { p.cc with valves := rebuiltRecords p.cc.valves (fun _ => Valve.fresh) bed before after }) :
    Map.find t.cc.valves (zoneKey b k) = if b ≠ bed then Map.find p.cc.valves (zoneKey b k)
      else after[k - 1]?.map fun z => if hadNode before k z.node then (Map.find p.cc.valves (zoneKey bed k)).getD .fresh
        else .fresh := by
  rw [h]
  exact find_rebuiltRecords (fresh := fun _ => Valve.fresh) hfour hk hk4

/-- Settles O14: the bed's records are rebuilt zone by zone, and FL follows. -/
theorem setBedResult : Obligations.SetBedResult := by
  intro s tag bed xStart xEnd zones hready hsetup inside geometry unused
  have hexec : exec (.setBed tag bed xStart xEnd zones) s =
      .next (receive 0x02 tag (byStore (setBed bed xStart xEnd zones)) s) := rfl
  have hjudged := setBed_of_setup (bed := bed) (xStart := xStart) (xEnd := xEnd) (zones := zones) (g := s.store)
    (inSetup_atOwner hsetup 0x02 tag)
  have hinside : (isId 6 bed && decide (zones.length ≤ 4) && zones.all fun z => decide (z.node ≤ 30)) = true ↔ inside := by
    simp only [Bool.and_eq_true, isId_eq_true_iff, decide_eq_true_eq, List.all_eq_true, and_assoc, inside]
  have hempty : ((bedOf (atOwner 0x02 tag s) bed).state == .empty) = true ↔ (bedOf s.toPart bed).state = .empty := beq_iff_eq
  have hgeometry (hin : inside) (hz : zones ≠ []) : (decide (xStart < xEnd) && decide ((xEnd : Int) ≤ s.store.runway) &&
      boundariesFit xStart xEnd zones && zones.all fun z => isId 30 z.node) = true ↔ geometry := by
    have hlast : zones.getLast?.map (fun z => (z.east : Int)) = some (xEnd : Int) ↔
        zones.getLast?.map (·.east) = some xEnd := by cases zones.getLast? <;> simp
    simp only [Bool.and_eq_true, decide_eq_true_eq, boundariesFit_iff _ _ _ hz, List.all_eq_true, isId_eq_true_iff, hlast,
      and_assoc, Nat.cast_le, geometry]
    obtain ⟨-, -, hnodes⟩ := hin
    constructor
    · rintro ⟨h1, h2, h3, h4, h5, h6⟩
      exact ⟨h1, h2, fun z hz => ⟨h3 z hz, (h6 z hz).1⟩, h4, h5⟩
    · rintro ⟨h1, h2, h3, h4, h5⟩
      exact ⟨h1, h2, fun z hz => (h3 z hz).1, h4, h5, fun z hz => ⟨(h3 z hz).2, hnodes z hz⟩⟩
  have hunused : (distinct (zones.map (·.node)) && zones.all fun z => !namedElsewhere s.store (ownerOfBed bed) z.node) = true ↔
      unused := by
    have helse (a : Nat) : (!namedElsewhere s.store (ownerOfBed bed) a) = true ↔
        ∀ e ∈ namedItems s.store, e.1 = a → ∃ k, e.2 = .zone bed k := by
      rw [Bool.not_eq_true', ← Bool.not_eq_true, namedElsewhere_iff]
      simp only [ownerOfBed_eq_false_iff, not_exists, not_and, not_forall, not_not]
    simp only [Bool.and_eq_true, distinct_iff, List.all_eq_true, helse, unused]
  refine ⟨fun hout => refusedWith_byStore hready hexec ?_, fun hin hbusy => refusedWith_byStore hready hexec ?_,
    fun hin hfree hz hbad => refusedWith_byStore hready hexec ?_,
    fun hin hfree hz hgood hdup => refusedWith_byStore hready hexec ?_, fun hin hfree hgood => ?_⟩
  · rw [hjudged, need_of_false (mt hinside.mp hout)]
  · rw [hjudged, need_of_true (hinside.mpr hin), need_of_false (mt hempty.mp hbusy)]
  · rw [hjudged, need_of_true (hinside.mpr hin), need_of_true (hempty.mpr hfree), if_neg hz,
      need_of_false (mt (hgeometry hin hz).mp hbad)]
  · rw [hjudged, need_of_true (hinside.mpr hin), need_of_true (hempty.mpr hfree), if_neg hz,
      need_of_true ((hgeometry hin hz).mpr hgood), need_of_false (mt hunused.mp hdup)]
  have htaken : setBed bed xStart xEnd zones s.store (atOwner 0x02 tag s) = .ok (withBed s.store bed xStart xEnd zones,
      { part := followBed (withBed s.store bed xStart xEnd zones) bed (zonesOf s.store bed) (atOwner 0x02 tag s),
        clamped := zones.any fun z => decide (999 < z.rating) }) := by
    rw [hjudged, need_of_true (hinside.mpr hin), need_of_true (hempty.mpr hfree)]
    by_cases hz : zones = []
    · rw [if_pos hz]
    · obtain ⟨hfits, hnew⟩ := hgood.resolve_left hz
      rw [if_neg hz, need_of_true ((hgeometry hin hz).mpr hfits), need_of_true (hunused.mpr hnew)]
  obtain ⟨kmc, kbs, ksm, kmp, kcl, kevt, kA, kB, ktu, kcc⟩ := keeps_followBed (bed := bed) (p := atOwner 0x02 tag s)
    (withBed s.store bed xStart xEnd zones) (zonesOf s.store bed)
  refine runsTo_mono (quiet_byStore hready hexec htaken kevt kcl)
    fun t ⟨⟨tstore, tmc, tbs, tcc, ttu, tsm, tmp, tA, tB, tfl, tpending⟩, htold, hanswered⟩ => ?_
  have hfollows : linkFollows s t :=
    linkFollows_syncNodes (p := rebuildBed bed (zonesOf s.store bed) (zonesOf (withBed s.store bed xStart xEnd zones) bed)
      (atOwner 0x02 tag s)) rfl rfl rfl rfl
      (fun c hc => (holdsRefused_congr (p := s.toPart) (craneOf_congr rfl rfl c)).trans hc) tfl tstore
  refine ⟨tstore, hanswered, htold, tmc.trans kmc, tbs.trans kbs, tsm.trans ksm, tmp.trans kmp, by rw [ttu, ktu]; rfl,
    by rw [tcc, kcc]; rfl, by rw [tcc, kcc]; rfl, by rw [tcc, kcc]; rfl, (congrArg craneCore tA).trans kA,
    (congrArg craneCore tB).trans kB, tpending, ?_, hfollows, fun b k hk hk4 => ?_⟩
  · rw [tfl, tstore]
    exact (nodes_syncNodes _ _).trans (namedTable_congr rfl)
  have hfour : (zones.map zoneTaken).length ≤ 4 := by
    rw [List.length_map]
    exact hin.2.1
  have hzone (b : Nat) := zoneRecord_of_rebuilt (t := t.toPart) (b := b) hfour hk hk4 (ttu.trans (ktu.trans (by rw [zonesOf_withBed])))
  have hvalve (b : Nat) := valve_of_rebuilt (t := t.toPart) (b := b) hfour hk hk4 (tcc.trans (kcc.trans (by rw [zonesOf_withBed])))
  refine ⟨fun hb => ?_, fun hgone => ?_, fun z hz => ?_⟩
  · rw [hzone, hvalve, if_pos hb, if_pos hb]
    exact ⟨rfl, rfl⟩
  · have hnone : (zones.map zoneTaken)[k - 1]? = none := by
      rw [List.getElem?_eq_none_iff, List.length_map]
      omega
    rw [hzone, hvalve, if_neg (not_not.mpr rfl), if_neg (not_not.mpr rfl), hnone]
    exact ⟨rfl, rfl⟩
  · have hget : (zones.map zoneTaken)[k - 1]? = some (zoneTaken z) := by rw [List.getElem?_map, hz]; rfl
    rw [hzone, hvalve, if_neg (not_not.mpr rfl), if_neg (not_not.mpr rfl), hget]
    exact ⟨rfl, rfl⟩

end setBed

end Sys2Proof.Proofs
end

section
/-!
PROOFS. The agreement rule and the phases (chapters 3 and 4): a value's validity, what two and three values come to, and the
phase step.
-/

namespace Sys2Proof.Proofs

open Sys2Proof.Machine

/-! ### Two of three (R43 to R46) -/

section agreement

theorem validReading_eq (lost : Bool) (limit n : Nat) (pr : Probe) : validReading lost limit n pr =
    pr.value.bind fun v => if lost = false ∧ -400 ≤ v ∧ v ≤ 1250 ∧ pr.age < limit then some (n, v) else none := by
  unfold validReading
  cases pr.value with
  | none => rfl
  | some v =>
    rw [Option.bind_some]
    split
    · next hvalue hvalid =>
      cases hvalue
      rw [if_pos (validity_eq_valid_iff.mp hvalid)]
    · next hnot => rw [if_neg fun h => hnot v rfl (validity_eq_valid_iff.mpr h)]

theorem validReadings_eq_filterMap (lost : Bool) (limit : Nat) (r : ZoneRecord) : validReadings lost limit r =
    [(1, r.probe1), (2, r.probe2), (3, r.probe3)].filterMap fun e => validReading lost limit e.1 e.2 := by
  have hone (f : Nat × Probe → Option (Nat × Int)) (e : Nat × Probe) (l : List (Nat × Probe)) :
      (e :: l).filterMap f = (f e).toList ++ l.filterMap f := by
    rw [List.filterMap_cons]
    cases f e <;> rfl
  rw [hone, hone, hone, validReadings, List.filterMap_nil, List.append_nil, List.append_assoc]

/-- The readings of three probes in ascending order, the lower number first among equals. -/
theorem sortReadings_three (x y z : Int) : ∃ lo mid hi : Nat × Int, sortReadings [(1, x), (2, y), (3, z)] = [lo, mid, hi] ∧
    lo.2 ≤ mid.2 ∧ mid.2 ≤ hi.2 ∧ (lo.2 = mid.2 → lo.1 < mid.1) ∧ (mid.2 = hi.2 → mid.1 < hi.1) := by
  simp only [sortReadings, insertReading]
  split_ifs <;> simp only [insertReading] <;> split_ifs <;> refine ⟨_, _, _, rfl, ?_⟩ <;> dsimp only <;> omega

theorem agree_two (b : Int) (i j : Nat) (x y : Int) : agree b [(i, x), (j, y)] =
    if x - y ≤ b ∧ y - x ≤ b then .measured (meanDown x y) .two else .unmeasured .disagree := by
  rw [agree]
  simp only [sortReadings, insertReading]
  by_cases hxy : x ≤ y
  · rw [if_pos hxy]
    by_cases hband : y - x ≤ b
    · rw [if_pos ⟨by omega, hband⟩]
      exact if_pos hband
    · rw [if_neg fun h => hband h.2]
      exact if_neg hband
  · rw [if_neg hxy, meanDown, Int.add_comm, ← meanDown]
    by_cases hband : x - y ≤ b
    · rw [if_pos ⟨hband, by omega⟩]
      exact if_pos hband
    · rw [if_neg fun h => hband h.1]
      exact if_neg hband

theorem perm_sortReadings (l : List (Nat × Int)) : (sortReadings l).Perm l := by
  rw [sortReadings_eq_insertionSort]
  exact List.perm_insertionSort _ l

/-- Settles O32: validity by R43's order, and the agreement of the sorted values. -/
theorem twoOfThree : Obligations.TwoOfThree := by
  refine ⟨fun value age lost limit => validity_eq_iff.mpr rfl, fun lost limit r => ?_, fun g p limit bed zone r hr => ⟨?_, fun result => ?_⟩,
    fun g p bed zone k r t hlow hhigh hzone hr hresult => ?_, fun b => ⟨rfl, fun i j x y => ⟨rfl, ?_⟩⟩, fun b x y z => ?_⟩
  · rw [validReadings_eq_filterMap]
    exact List.filterMap_congr fun e _ => validReading_eq lost limit e.1 e.2
  · rw [zoneOutcome, hr]
  · rw [storeZoneResult, hr]
    simp [zoneRecord, putZoneRecord]
  · have hnamed : (isId 6 bed && (zoneCfg g bed zone).isSome) = true := by
      rw [Bool.and_eq_true, isId_eq_true_iff]
      exact ⟨⟨hlow, hhigh⟩, hzone⟩
    obtain ⟨front, hfront⟩ : ∃ front, zoneFields p p.cc.timer.length r =
        front ++ optFields r.result resultFields ++ [.u32 r.resultAge] := ⟨_, rfl⟩
    have hpair : optFields r.result resultFields = [.u8 1] ++ [.u8 1, .i16 t, .u8 1, .u8 k] := by rw [hresult]; rfl
    rw [readZone, if_neg (by omega), need_of_true hnamed, hr, must_some, hfront, hpair]
    refine ⟨front ++ [.u8 1], [.u32 r.resultAge] ++ optFields (curingOf p bed zone) curingFields ++
      valveFields (valveOf p bed zone), ?_⟩
    simp only [List.append_assoc]
  · rw [agree_two]
  · obtain ⟨lo, mid, hi, hsort, hrest⟩ := sortReadings_three x y z
    obtain ⟨h1, h2, h3, h4⟩ := hrest
    refine ⟨lo, mid, hi, hsort ▸ perm_sortReadings _, h1, h2, h3, h4, ?_⟩
    rw [agree, hsort]
    by_cases hlow : mid.2 - lo.2 ≤ b <;> by_cases hhigh : hi.2 - mid.2 ≤ b <;> simp [hlow, hhigh]

end agreement

/-! ### The phase step (R65 to R70, R75) -/

section phases

variable {q : Product} {fresh : Int} {temps measured : List Int} {dt : Nat} {ctx c d : Context}

theorem leastInt_eq_min? (l : List Int) : leastInt l = l.min? := by
  induction l with
  | nil => rfl
  | cons a l ih =>
    rw [leastInt, ih, List.min?_cons]
    cases l.min? <;> rfl

/-- The setpoint repair of stage 4, where it is pending and a zone is measured. -/
def repaired (q : Product) (measured : List Int) (ctx : Context) : Context × List PhaseReport :=
  match ctx.repairPending, leastInt measured with
  | true, some m => repairSetpoint q m ctx
  | _, _ => (ctx, [])

theorem advance_of_steps {l m : List PhaseReport} (hrepaired : repaired q measured ctx = (c, l))
    (hstepped : phaseStep q fresh temps dt c = (d, m)) :
    advance q fresh temps measured dt ctx = ((releaseCheck q d).1, l ++ m ++ (releaseCheck q d).2) := by
  have h : advance q fresh temps measured dt ctx =
      ((releaseCheck q (phaseStep q fresh temps dt (repaired q measured ctx).1).1).1,
        (repaired q measured ctx).2 ++ (phaseStep q fresh temps dt (repaired q measured ctx).1).2 ++
          (releaseCheck q (phaseStep q fresh temps dt (repaired q measured ctx).1).1).2) := rfl
  rw [h, hrepaired, hstepped]

theorem repaired_of_not (h : ctx.repairPending = false ∨ measured = []) : repaired q measured ctx = (ctx, []) := by
  unfold repaired
  rcases h with h | rfl
  · rw [h]
  · cases ctx.repairPending <;> rfl

theorem repaired_of_pending (h : ctx.repairPending = true) (hm : measured ≠ []) :
    repaired q measured ctx = repairSetpoint q (measured.min?.getD 0) ctx := by
  obtain ⟨m, hmin⟩ : ∃ m, measured.min? = some m := by
    obtain ⟨a, l, rfl⟩ := List.exists_cons_of_ne_nil hm
    exact ⟨_, List.min?_cons⟩
  rw [repaired, h, leastInt_eq_min?, hmin]
  rfl

/-- Repair is pending and its measurement there, or not. -/
theorem repaired_cases (q : Product) (measured : List Int) (ctx : Context) :
    (¬ (ctx.repairPending = true ∧ measured ≠ []) ∧ repaired q measured ctx = (ctx, [])) ∨
    ((ctx.repairPending = true ∧ measured ≠ []) ∧
      repaired q measured ctx = repairSetpoint q (measured.min?.getD 0) ctx) := by
  by_cases h : ctx.repairPending = true ∧ measured ≠ []
  · exact .inr ⟨h, repaired_of_pending h.1 h.2⟩
  · refine .inl ⟨h, repaired_of_not ?_⟩
    by_contra hboth
    rw [not_or, Bool.not_eq_false] at hboth
    exact h hboth

theorem releaseCheck_of_heating (hphase : c.phase = .ramp ∨ c.phase = .hold) (hzones : c.zones = ctx.zones) :
    releaseCheck q c = if q.strip ≤ bedMaturity ctx then ({ c with phase := .cool, remainder := 0 }, [.phase .cool])
      else (c, []) := by
  have hmaturity : bedMaturity c = bedMaturity ctx := by rw [bedMaturity, hzones, bedMaturity]
  unfold releaseCheck
  rw [hmaturity]
  simp only [hphase, true_and]

theorem releaseCheck_of_not (hphase : ¬ (c.phase = .ramp ∨ c.phase = .hold)) : releaseCheck q c = (c, []) :=
  if_neg fun h => hphase h.1

/-! #### What every stage of the step keeps -/

/-- A setpoint that does not exceed the hold temperature. -/
def within (q : Product) (c : Context) : Prop := ∃ x, c.sp = some x ∧ x ≤ q.hold

/-- What each stage of the phase step does: the phase goes on, a setpoint within the hold temperature stays so, in PRESET,
RAMP and HOLD it is kept or set within it. -/
structure Onward (q : Product) (c d : Context) : Prop where
  phase : c.phase.code ≤ d.phase.code
  bound : within q c → within q d
  rising : c.phase.code ≤ 2 → within q d ∨ d.sp = c.sp
  pour : d.pour = c.pour
  seq : d.seq = c.seq
  product : d.product = c.product
  curingTime : d.curingTime = c.curingTime

theorem Onward.refl (h : c.phase = d.phase) (hsp : d.sp = c.sp) (hpour : d.pour = c.pour) (hseq : d.seq = c.seq)
    (hproduct : d.product = c.product) (htime : d.curingTime = c.curingTime) : Onward q c d where
  phase := by rw [h]
  bound := fun ⟨x, hx, hle⟩ => ⟨x, hsp.trans hx, hle⟩
  rising _ := .inr hsp
  pour := hpour
  seq := hseq
  product := hproduct
  curingTime := htime

theorem onward_repairSetpoint (least : Int) : Onward q ctx (repairSetpoint q least ctx).1 := by
  have hmin : min least q.hold ≤ q.hold := min_le_right _ _
  unfold repairSetpoint
  split
  · next hphase =>
    dsimp only
    split_ifs
    · refine ⟨by simp [hphase, Phase.code], fun _ => ⟨_, rfl, hmin⟩, fun _ => .inl ⟨_, rfl, hmin⟩, rfl, rfl, rfl, rfl⟩
    · refine ⟨le_refl _, fun _ => ⟨_, rfl, hmin⟩, fun _ => .inl ⟨_, rfl, hmin⟩, rfl, rfl, rfl, rfl⟩
  · next hphase =>
    refine ⟨le_refl _, fun ⟨x, hx, hle⟩ => ⟨_, rfl, ?_⟩, fun h => ?_, rfl, rfl, rfl, rfl⟩
    · rw [hx]
      exact (min_le_left _ _).trans hle
    · rw [hphase] at h
      exact absurd h (by decide)
  · exact .refl rfl rfl rfl rfl rfl rfl

theorem onward_repaired : Onward q ctx (repaired q measured ctx).1 := by
  rcases repaired_cases q measured ctx with ⟨-, h⟩ | ⟨-, h⟩ <;> rw [h]
  · exact .refl rfl rfl rfl rfl rfl rfl
  · exact onward_repairSetpoint _

theorem onward_phaseStep : Onward q c (phaseStep q fresh temps dt c).1 := by
  unfold phaseStep
  split
  · next hphase =>
    unfold presetStep
    dsimp only
    split
    · have hmin : min ((leastInt temps).getD fresh) q.hold ≤ q.hold := min_le_right _ _
      unfold enterRamp
      dsimp only
      split
      · exact ⟨by simp [hphase, Phase.code], fun _ => ⟨_, rfl, hmin⟩, fun _ => .inl ⟨_, rfl, hmin⟩, rfl, rfl, rfl, rfl⟩
      · exact ⟨by simp [hphase, Phase.code], fun _ => ⟨_, rfl, hmin⟩, fun _ => .inl ⟨_, rfl, hmin⟩, rfl, rfl, rfl, rfl⟩
    · exact .refl rfl rfl rfl rfl rfl rfl
  · next hphase =>
    split
    · exact .refl rfl rfl rfl rfl rfl rfl
    · unfold rampStep
      dsimp only
      split
      · exact .refl rfl rfl rfl rfl rfl rfl
      · split
        · exact ⟨by simp [hphase, Phase.code], fun _ => ⟨_, rfl, le_refl _⟩, fun _ => .inl ⟨_, rfl, le_refl _⟩, rfl, rfl, rfl, rfl⟩
        · next hbelow =>
          have hle := le_of_lt (not_le.mp hbelow)
          exact ⟨le_refl _, fun _ => ⟨_, rfl, hle⟩, fun _ => .inl ⟨_, rfl, hle⟩, rfl, rfl, rfl, rfl⟩
  · next hphase =>
    split
    · exact .refl rfl rfl rfl rfl rfl rfl
    · have hfalls : within q c → within q { c with sp := some (c.sp.getD 0 - (((c.remainder + q.coolRate * dt) / 3600 : Nat) : Int)) } := by
        rintro ⟨x, hx, hle⟩
        refine ⟨_, rfl, ?_⟩
        rw [hx]
        exact (sub_le_self _ (Int.natCast_nonneg _)).trans hle
      have hcool : ¬ c.phase.code ≤ 2 := by rw [hphase]; decide
      unfold coolStep
      dsimp only
      split
      · exact ⟨by simp [hphase, Phase.code], hfalls, fun h => absurd h hcool, rfl, rfl, rfl, rfl⟩
      · exact ⟨le_refl _, hfalls, fun h => absurd h hcool, rfl, rfl, rfl, rfl⟩
  · exact .refl rfl rfl rfl rfl rfl rfl

theorem onward_releaseCheck : Onward q c (releaseCheck q c).1 := by
  unfold releaseCheck
  split
  · next h =>
    refine ⟨?_, fun ⟨x, hx, hle⟩ => ⟨x, hx, hle⟩, fun _ => .inr rfl, rfl, rfl, rfl, rfl⟩
    rcases h.1 with hphase | hphase <;> simp [hphase, Phase.code]
  · exact .refl rfl rfl rfl rfl rfl rfl

/-- One stage after another, where the first leaves PRESET, RAMP and HOLD as such. -/
theorem Onward.trans {e : Context} (h : Onward q c d) (k : Onward q d e) (hphase : c.phase.code ≤ 2 → d.phase.code ≤ 2) :
    Onward q c e where
  phase := h.phase.trans k.phase
  bound hc := k.bound (h.bound hc)
  rising hc := by
    rcases k.rising (hphase hc) with hwithin | hsp
    · exact .inl hwithin
    · rcases h.rising hc with ⟨x, hx, hle⟩ | hsp'
      · exact .inl ⟨x, hsp.trans hx, hle⟩
      · exact .inr (hsp.trans hsp')
  pour := k.pour.trans h.pour
  seq := k.seq.trans h.seq
  product := k.product.trans h.product
  curingTime := k.curingTime.trans h.curingTime

/-- The repair ends neither PRESET, RAMP and HOLD nor COOL, and reports no end. -/
theorem phase_repaired : (ctx.phase.code ≤ 2 → (repaired q measured ctx).1.phase.code ≤ 2) ∧
    ((repaired q measured ctx).1.phase = .cool ↔ ctx.phase = .cool) ∧ ∀ m, .coolEnded m ∉ (repaired q measured ctx).2 := by
  rcases repaired_cases q measured ctx with ⟨-, h⟩ | ⟨-, h⟩ <;> rw [h]
  · simp
  · unfold repairSetpoint
    split
    · next hphase =>
      dsimp only
      split_ifs <;> simp [hphase, Phase.code]
    · next hphase => simp [hphase, Phase.code]
    · simp

/-- PRESET, RAMP and HOLD end in the release only, and COOL with its report. -/
theorem phase_phaseStep : (c.phase.code ≤ 2 → (phaseStep q fresh temps dt c).1.phase.code ≤ 2) ∧
    ((∃ m, .coolEnded m ∈ (phaseStep q fresh temps dt c).2) ↔
      c.phase = .cool ∧ (phaseStep q fresh temps dt c).1.phase = .finished) := by
  unfold phaseStep
  split
  · next hphase =>
    simp only [presetStep, enterRamp]
    split_ifs <;> simp [hphase, Phase.code]
  · next hphase =>
    simp only [rampStep]
    split_ifs <;> simp [hphase, Phase.code]
  · next hphase =>
    simp only [coolStep]
    split_ifs <;> simp [hphase, Phase.code]
  · next hpreset hramp hcool => simpa using fun h : c.phase = .cool => absurd h hcool

theorem phase_releaseCheck : ((releaseCheck q c).1.phase = .finished ↔ c.phase = .finished) ∧
    ∀ m, .coolEnded m ∉ (releaseCheck q c).2 := by
  unfold releaseCheck
  split
  · next h => rcases h.1 with hphase | hphase <;> simp [hphase]
  · simp

theorem onward_advance : Onward q ctx (advance q fresh temps measured dt ctx).1 := by
  obtain ⟨c, l, hr⟩ : ∃ c l, repaired q measured ctx = (c, l) := ⟨_, _, rfl⟩
  obtain ⟨d, m, hs⟩ : ∃ d m, phaseStep q fresh temps dt c = (d, m) := ⟨_, _, rfl⟩
  rw [advance_of_steps hr hs]
  have first := onward_repaired (q := q) (measured := measured) (ctx := ctx)
  have phase := (phase_repaired (q := q) (measured := measured) (ctx := ctx)).1
  have second := onward_phaseStep (q := q) (fresh := fresh) (temps := temps) (dt := dt) (c := c)
  have phase' := (phase_phaseStep (q := q) (fresh := fresh) (temps := temps) (dt := dt) (c := c)).1
  rw [hr] at first phase
  rw [hs] at second phase'
  exact (first.trans second phase).trans onward_releaseCheck fun h => phase' (phase h)

theorem coolEnded_advance : (∃ m, .coolEnded m ∈ (advance q fresh temps measured dt ctx).2) ↔
    ctx.phase = .cool ∧ (advance q fresh temps measured dt ctx).1.phase = .finished := by
  obtain ⟨c, l, hr⟩ : ∃ c l, repaired q measured ctx = (c, l) := ⟨_, _, rfl⟩
  obtain ⟨d, m, hs⟩ : ∃ d m, phaseStep q fresh temps dt c = (d, m) := ⟨_, _, rfl⟩
  obtain ⟨-, hcool, hnone⟩ := phase_repaired (q := q) (measured := measured) (ctx := ctx)
  obtain ⟨-, hended⟩ := phase_phaseStep (q := q) (fresh := fresh) (temps := temps) (dt := dt) (c := c)
  obtain ⟨hfinished, hnone'⟩ := phase_releaseCheck (q := q) (c := d)
  rw [hr] at hcool hnone
  rw [hs] at hended
  rw [advance_of_steps hr hs, hfinished, ← hcool, ← hended]
  simp [hnone, hnone']

end phases

section turns

variable {q : Product} {fresh : Int} {temps measured : List Int} {dt : Nat} {ctx c d : Context} {l m : List PhaseReport}

/-- What stage 4 leaves of a context's phase, setpoint and remainder, and reports. -/
def Turned (x : Context × List PhaseReport) (phase : Phase) (sp : Option Int) (remainder : Nat) (reports : List PhaseReport) : Prop :=
  x.1.phase = phase ∧ x.1.sp = sp ∧ x.1.remainder = remainder ∧ x.2 = reports

/-- From a step that leaves the bed in RAMP or HOLD, the release check alone decides (R69). -/
theorem turned_of_heating (hrepaired : repaired q measured ctx = (c, l)) (hstepped : phaseStep q fresh temps dt c = (d, m))
    (hphase : d.phase = .ramp ∨ d.phase = .hold) (hzones : d.zones = ctx.zones) :
    Turned (advance q fresh temps measured dt ctx) (if q.strip ≤ bedMaturity ctx then .cool else d.phase) d.sp
      (if q.strip ≤ bedMaturity ctx then 0 else d.remainder)
      (l ++ m ++ if q.strip ≤ bedMaturity ctx then [.phase .cool] else []) ∧
    (advance q fresh temps measured dt ctx).1.repairPending = d.repairPending ∧
    (advance q fresh temps measured dt ctx).1.presetElapsed = d.presetElapsed := by
  rw [advance_of_steps hrepaired hstepped, releaseCheck_of_heating hphase hzones]
  split_ifs <;> exact ⟨⟨rfl, rfl, rfl, rfl⟩, rfl, rfl⟩

/-- From any other step the bed is not released. -/
theorem turned_of_not_heating (hrepaired : repaired q measured ctx = (c, l)) (hstepped : phaseStep q fresh temps dt c = (d, m))
    (hphase : ¬ (d.phase = .ramp ∨ d.phase = .hold)) :
    advance q fresh temps measured dt ctx = (d, l ++ m) := by
  rw [advance_of_steps hrepaired hstepped, releaseCheck_of_not hphase, List.append_nil]

/-- Outside RAMP and COOL a pending repair only ends. -/
theorem repaired_idle (hramp : ctx.phase ≠ .ramp) (hcool : ctx.phase ≠ .cool) :
    ∃ b, repaired q measured ctx = ({ ctx with repairPending := b }, []) := by
  rcases repaired_cases q measured ctx with ⟨-, h⟩ | ⟨-, h⟩ <;> rw [h]
  · exact ⟨ctx.repairPending, rfl⟩
  · refine ⟨false, ?_⟩
    unfold repairSetpoint
    split
    · next hphase => exact absurd hphase hramp
    · next hphase => exact absurd hphase hcool
    · rfl

theorem preset_turns (hphase : ctx.phase = .preset) :
    let elapsed := min 4294967295 (ctx.presetElapsed + dt)
    let sp := min (temps.min?.getD fresh) q.hold
    (advance q fresh temps measured dt ctx).1.presetElapsed = elapsed ∧
    (elapsed < q.preset * 60 → Turned (advance q fresh temps measured dt ctx) .preset ctx.sp ctx.remainder []) ∧
    (q.preset * 60 ≤ elapsed → Turned (advance q fresh temps measured dt ctx)
      (if q.strip ≤ bedMaturity ctx then .cool else if sp = q.hold then .hold else .ramp) (some sp) 0
      (.phase .ramp :: (if sp = q.hold then [.phase .hold] else []) ++
        if q.strip ≤ bedMaturity ctx then [.phase .cool] else [])) := by
  intro elapsed sp
  obtain ⟨b, hr⟩ := repaired_idle (q := q) (measured := measured) (ctx := ctx) (by simp [hphase]) (by simp [hphase])
  have hsp : min ((leastInt temps).getD fresh) q.hold = sp := by rw [leastInt_eq_min?]
  have hstep : phaseStep q fresh temps dt { ctx with repairPending := b } =
      if q.preset * 60 ≤ elapsed then enterRamp q fresh temps { ctx with repairPending := b, presetElapsed := elapsed }
      else ({ ctx with repairPending := b, presetElapsed := elapsed }, []) := by
    unfold phaseStep
    dsimp only
    rw [hphase]
    rfl
  by_cases hdone : q.preset * 60 ≤ elapsed
  · rw [if_pos hdone, enterRamp] at hstep
    dsimp only at hstep
    rw [hsp] at hstep
    by_cases htop : sp = q.hold
    · rw [if_pos htop] at hstep
      obtain ⟨⟨h1, h2, h3, h4⟩, -, helapsed⟩ := turned_of_heating hr hstep (.inr rfl) rfl
      refine ⟨helapsed, fun h => absurd hdone (by omega), fun _ => ⟨?_, h2, ?_, ?_⟩⟩
      · rw [h1, if_pos htop]
      · rw [h3, ite_self]
      · rw [h4, if_pos htop]
        rfl
    · rw [if_neg htop] at hstep
      obtain ⟨⟨h1, h2, h3, h4⟩, -, helapsed⟩ := turned_of_heating hr hstep (.inl rfl) rfl
      refine ⟨helapsed, fun h => absurd hdone (by omega), fun _ => ⟨?_, h2, ?_, ?_⟩⟩
      · rw [h1, if_neg htop]
      · rw [h3, ite_self]
      · rw [h4, if_neg htop]
        rfl
  · rw [if_neg hdone] at hstep
    have hadvance := turned_of_not_heating hr hstep (by simp [hphase])
    rw [hadvance]
    exact ⟨rfl, fun _ => ⟨hphase, rfl, rfl, rfl⟩, fun h => absurd h hdone⟩

theorem hold_turns (hphase : ctx.phase = .hold) : Turned (advance q fresh temps measured dt ctx)
    (if q.strip ≤ bedMaturity ctx then .cool else .hold) ctx.sp (if q.strip ≤ bedMaturity ctx then 0 else ctx.remainder)
    (if q.strip ≤ bedMaturity ctx then [.phase .cool] else []) := by
  obtain ⟨b, hr⟩ := repaired_idle (q := q) (measured := measured) (ctx := ctx) (by simp [hphase]) (by simp [hphase])
  have hstep : phaseStep q fresh temps dt { ctx with repairPending := b } = ({ ctx with repairPending := b }, []) := by
    unfold phaseStep
    dsimp only
    rw [hphase]
  have turned := (turned_of_heating hr hstep (.inr hphase) rfl).1
  rwa [hphase] at turned

theorem finished_turns (hphase : ctx.phase = .finished) :
    Turned (advance q fresh temps measured dt ctx) .finished ctx.sp ctx.remainder [] := by
  obtain ⟨b, hr⟩ := repaired_idle (q := q) (measured := measured) (ctx := ctx) (by simp [hphase]) (by simp [hphase])
  have hstep : phaseStep q fresh temps dt { ctx with repairPending := b } = ({ ctx with repairPending := b }, []) := by
    unfold phaseStep
    dsimp only
    rw [hphase]
  rw [turned_of_not_heating hr hstep (by simp [hphase])]
  exact ⟨hphase, rfl, rfl, rfl⟩

/-- The ramp step from a setpoint (R68). -/
theorem rampStep_eq {x : Int} (hsp : c.sp = some x) : rampStep q dt c =
    if c.starved = true then (c, [])
    else if q.hold ≤ x + ((c.remainder + q.rampRate * dt) / 3600 : Nat) then
      ({ c with remainder := (c.remainder + q.rampRate * dt) % 3600, sp := some q.hold, phase := .hold }, [.phase .hold])
    else ({ c with remainder := (c.remainder + q.rampRate * dt) % 3600,
                   sp := some (x + ((c.remainder + q.rampRate * dt) / 3600 : Nat)) }, []) := by
  rw [rampStep, hsp]
  rfl

theorem phaseStep_of_ramp (hphase : c.phase = .ramp) :
    phaseStep q fresh temps dt c = if c.repairPending = true then (c, []) else rampStep q dt c := by
  rw [phaseStep, hphase]

theorem phaseStep_of_cool (hphase : c.phase = .cool) :
    phaseStep q fresh temps dt c = if c.repairPending = true then (c, []) else coolStep q dt c := by
  rw [phaseStep, hphase]

/-- A bed in RAMP with no repair pending any more: its ramp step, and the release check. -/
theorem ramp_turns_of_repaired {y : Int} (hrepaired : repaired q measured ctx = (c, [])) (hphase : c.phase = .ramp)
    (hy : c.sp = some y) (hpending : c.repairPending = false) (hzones : c.zones = ctx.zones) :
    let moved := y + (((c.remainder + q.rampRate * dt) / 3600 : Nat) : Int)
    let top := c.starved = false ∧ q.hold ≤ moved
    (advance q fresh temps measured dt ctx).1.repairPending = false ∧
    Turned (advance q fresh temps measured dt ctx)
      (if q.strip ≤ bedMaturity ctx then .cool else if top then .hold else .ramp)
      (some (if top then q.hold else if c.starved = false then moved else y))
      (if q.strip ≤ bedMaturity ctx then 0
        else if c.starved = false then (c.remainder + q.rampRate * dt) % 3600 else c.remainder)
      ((if top then [.phase .hold] else []) ++ if q.strip ≤ bedMaturity ctx then [.phase .cool] else []) := by
  intro moved top
  have hstep : phaseStep q fresh temps dt c = rampStep q dt c := by
    rw [phaseStep_of_ramp hphase, hpending, if_neg Bool.false_ne_true]
  rw [rampStep_eq hy] at hstep
  by_cases hstarved : c.starved = true
  · have htop : ¬ top := fun h => by simp [h.1] at hstarved
    rw [if_pos hstarved] at hstep
    obtain ⟨turned, hrepair, -⟩ := turned_of_heating hrepaired hstep (.inl hphase) hzones
    have hstill : ¬ c.starved = false := by simp [hstarved]
    rw [if_neg htop, if_neg htop, if_neg htop, if_neg hstill, if_neg hstill, ← hy, ← hphase]
    exact ⟨hrepair.trans hpending, turned⟩
  · have hruns : c.starved = false := by simpa using hstarved
    rw [if_neg hstarved] at hstep
    rw [if_pos hruns, if_pos hruns]
    by_cases htop : q.hold ≤ moved
    · rw [if_pos htop] at hstep
      obtain ⟨turned, hrepair, -⟩ := turned_of_heating hrepaired hstep (.inr rfl) hzones
      rw [if_pos (show top from ⟨hruns, htop⟩), if_pos (show top from ⟨hruns, htop⟩), if_pos (show top from ⟨hruns, htop⟩)]
      exact ⟨hrepair.trans hpending, turned⟩
    · have hnot : ¬ top := fun h => htop h.2
      rw [if_neg htop] at hstep
      obtain ⟨turned, hrepair, -⟩ := turned_of_heating hrepaired hstep (.inl hphase) hzones
      rw [if_neg hnot, if_neg hnot, if_neg hnot, ← hphase]
      exact ⟨hrepair.trans hpending, turned⟩

theorem ramp_turns {x : Int} (hphase : ctx.phase = .ramp) (hx : ctx.sp = some x) :
    let repairs := ctx.repairPending = true ∧ measured ≠ []
    let waits := ctx.repairPending = true ∧ measured = []
    let sp := if repairs then min (measured.min?.getD 0) q.hold else x
    let sum := (if repairs then 0 else ctx.remainder) + q.rampRate * dt
    let met := repairs ∧ sp = q.hold
    let steps := ¬ waits ∧ ctx.starved = false ∧ ¬ met
    let top := met ∨ (steps ∧ q.hold ≤ sp + (sum / 3600 : Nat))
    (advance q fresh temps measured dt ctx).1.repairPending = decide waits ∧
    Turned (advance q fresh temps measured dt ctx)
      (if q.strip ≤ bedMaturity ctx then .cool else if top then .hold else .ramp)
      (some (if top then q.hold else if steps then sp + (sum / 3600 : Nat) else sp))
      (if q.strip ≤ bedMaturity ctx then 0 else if steps then sum % 3600 else if repairs then 0 else ctx.remainder)
      ((if top then [.phase .hold] else []) ++ if q.strip ≤ bedMaturity ctx then [.phase .cool] else []) := by
  intro repairs waits sp sum met steps top
  by_cases hpending : ctx.repairPending = true
  · by_cases hnone : measured = []
    · have hrepairs : ¬ repairs := fun h => h.2 hnone
      have hwaits : waits := ⟨hpending, hnone⟩
      have hsteps : ¬ steps := fun h => h.1 hwaits
      have htop : ¬ top := fun h => h.elim (fun h => hrepairs h.1) fun h => hsteps h.1
      have hstep : phaseStep q fresh temps dt ctx = (ctx, []) := by rw [phaseStep_of_ramp hphase, if_pos hpending]
      obtain ⟨turned, hrepair, -⟩ := turned_of_heating (repaired_of_not (.inr hnone)) hstep (.inl hphase) rfl
      rw [if_neg htop, if_neg htop, if_neg htop, if_neg hsteps, if_neg hsteps, if_neg hrepairs, decide_eq_true hwaits,
        show sp = x from if_neg hrepairs, ← hx, ← hphase]
      exact ⟨hrepair.trans hpending, turned⟩
    · have hrepairs : repairs := ⟨hpending, hnone⟩
      have hwaits : ¬ waits := fun h => hnone h.2
      have hsp : sp = min (measured.min?.getD 0) q.hold := if_pos hrepairs
      have hr := repaired_of_pending (q := q) hpending hnone
      rw [repairSetpoint, hphase] at hr
      dsimp only at hr
      rw [← hsp] at hr
      rw [decide_eq_false hwaits, if_pos hrepairs]
      by_cases hmet : sp = q.hold
      · have htop : top := .inl ⟨hrepairs, hmet⟩
        have hsteps : ¬ steps := fun h => h.2.2 ⟨hrepairs, hmet⟩
        rw [if_pos hmet] at hr
        have hstep : phaseStep q fresh temps dt { ctx with sp := some sp, remainder := 0, repairPending := false, phase := .hold } =
            ({ ctx with sp := some sp, remainder := 0, repairPending := false, phase := .hold }, []) := rfl
        obtain ⟨turned, hrepair, -⟩ := turned_of_heating hr hstep (.inr rfl) rfl
        rw [if_pos htop, if_pos htop, if_pos htop, if_neg hsteps, ← hmet]
        exact ⟨hrepair, turned⟩
      · have hnot : ¬ met := fun h => hmet h.2
        have hsteps : steps ↔ ctx.starved = false := by simp only [steps, hwaits, hnot, not_false_eq_true, true_and, and_true]
        rw [if_neg hmet] at hr
        have generic := ramp_turns_of_repaired (fresh := fresh) (temps := temps) (dt := dt) hr rfl rfl rfl rfl
        have hsum : sum = 0 + q.rampRate * dt := congrArg (· + q.rampRate * dt) (if_pos hrepairs)
        simp only [top, hnot, false_or, hsteps, hsum]
        exact generic
  · have hfalse : ctx.repairPending = false := by simpa using hpending
    have hrepairs : ¬ repairs := fun h => hpending h.1
    have hwaits : ¬ waits := fun h => hpending h.1
    have hnot : ¬ met := fun h => hrepairs h.1
    have hsteps : steps ↔ ctx.starved = false := by simp only [steps, hwaits, hnot, not_false_eq_true, true_and, and_true]
    have hsp : sp = x := if_neg hrepairs
    have hsum : sum = ctx.remainder + q.rampRate * dt := congrArg (· + q.rampRate * dt) (if_neg hrepairs)
    have generic := ramp_turns_of_repaired (fresh := fresh) (temps := temps) (dt := dt)
      (repaired_of_not (q := q) (measured := measured) (.inl hfalse)) hphase hx hfalse rfl
    rw [decide_eq_false hwaits, if_neg hrepairs]
    simp only [top, hnot, false_or, hsteps, hsum, hsp]
    exact generic

/-- A bed in COOL with no repair pending any more: its cool step (R70). -/
theorem cool_turns_of_repaired {y : Int} (hrepaired : repaired q measured ctx = (c, [])) (hphase : c.phase = .cool)
    (hy : c.sp = some y) (hpending : c.repairPending = false) (hzones : c.zones = ctx.zones) :
    let moved := y - (((c.remainder + q.coolRate * dt) / 3600 : Nat) : Int)
    (advance q fresh temps measured dt ctx).1.repairPending = false ∧
    if moved ≤ q.coolEnd then
      Turned (advance q fresh temps measured dt ctx) .finished (some moved) ((c.remainder + q.coolRate * dt) % 3600)
        [.coolEnded (bedMaturity ctx)] ∧
      ∀ e ∈ (advance q fresh temps measured dt ctx).1.zones, e.2.demand = 0 ∧ e.2.cls = .none ∧ e.2.request = 0 ∧ e.2.grant = 0
    else Turned (advance q fresh temps measured dt ctx) .cool (some moved) ((c.remainder + q.coolRate * dt) % 3600) [] := by
  intro moved
  have hmaturity : bedMaturity c = bedMaturity ctx := by rw [bedMaturity, hzones, bedMaturity]
  have hstep : phaseStep q fresh temps dt c = coolStep q dt c := by
    rw [phaseStep_of_cool hphase, hpending, if_neg Bool.false_ne_true]
  rw [coolStep, hy] at hstep
  dsimp only [Option.getD_some] at hstep
  by_cases hend : moved ≤ q.coolEnd
  · rw [if_pos hend] at hstep ⊢
    rw [turned_of_not_heating hrepaired hstep (by simp)]
    refine ⟨hpending, ⟨rfl, rfl, rfl, ?_⟩, fun e he => ?_⟩
    · exact congrArg (fun n => [PhaseReport.coolEnded n]) hmaturity
    · obtain ⟨d, -, rfl⟩ := List.mem_map.mp he
      exact ⟨rfl, rfl, rfl, rfl⟩
  · rw [if_neg hend] at hstep ⊢
    rw [turned_of_not_heating hrepaired hstep (by simp [hphase])]
    exact ⟨hpending, hphase, rfl, rfl, rfl⟩

theorem cool_turns {x : Int} (hphase : ctx.phase = .cool) (hx : ctx.sp = some x) :
    let repairs := ctx.repairPending = true ∧ measured ≠ []
    let waits := ctx.repairPending = true ∧ measured = []
    let sum := ctx.remainder + q.coolRate * dt
    let sp := (if repairs then min x (measured.min?.getD 0) else x) - (sum / 3600 : Nat)
    (advance q fresh temps measured dt ctx).1.repairPending = decide waits ∧
    if waits then Turned (advance q fresh temps measured dt ctx) .cool ctx.sp ctx.remainder []
    else if sp ≤ q.coolEnd then
      Turned (advance q fresh temps measured dt ctx) .finished (some sp) (sum % 3600) [.coolEnded (bedMaturity ctx)] ∧
      ∀ e ∈ (advance q fresh temps measured dt ctx).1.zones, e.2.demand = 0 ∧ e.2.cls = .none ∧ e.2.request = 0 ∧ e.2.grant = 0
    else Turned (advance q fresh temps measured dt ctx) .cool (some sp) (sum % 3600) [] := by
  intro repairs waits sum sp
  by_cases hwaits : waits
  · have hstep : phaseStep q fresh temps dt ctx = (ctx, []) := by rw [phaseStep_of_cool hphase, if_pos hwaits.1]
    rw [turned_of_not_heating (repaired_of_not (.inr hwaits.2)) hstep (by simp [hphase]), if_pos hwaits, decide_eq_true hwaits]
    exact ⟨hwaits.1, hphase, rfl, rfl, rfl⟩
  · rw [if_neg hwaits, decide_eq_false hwaits]
    by_cases hrepairs : repairs
    · have hr := repaired_of_pending (q := q) hrepairs.1 hrepairs.2
      rw [repairSetpoint, hphase] at hr
      dsimp only at hr
      rw [hx] at hr
      have hsp : sp = min x (measured.min?.getD 0) - ((sum / 3600 : Nat) : Int) := congrArg (· - _) (if_pos hrepairs)
      rw [hsp]
      have generic := cool_turns_of_repaired (fresh := fresh) (temps := temps) (dt := dt) hr rfl rfl rfl rfl
      exact generic
    · have hpending : ctx.repairPending = false ∨ measured = [] := by
        by_contra h
        rw [not_or, Bool.not_eq_false] at h
        exact hrepairs h
      have hfalse : ctx.repairPending = false := by
        by_contra h
        rw [Bool.not_eq_false] at h
        exact hwaits ⟨h, hpending.resolve_left (by simp [h])⟩
      have hsp : sp = x - ((sum / 3600 : Nat) : Int) := congrArg (· - _) (if_neg hrepairs)
      rw [hsp]
      exact cool_turns_of_repaired (repaired_of_not hpending) hphase hx hfalse rfl

/-- Settles O34: what every stage of the step keeps, and the turn of each phase. -/
theorem phasesGoForward : Obligations.PhasesGoForward := by
  intro q fresh temps measured dt ctx _ after
  have onward := onward_advance (q := q) (fresh := fresh) (temps := temps) (measured := measured) (dt := dt) (ctx := ctx)
  have below {y : Int} (h : within q after.1) (hy : after.1.sp = some y) : y ≤ q.hold := by
    obtain ⟨x, hx, hle⟩ := h
    obtain rfl := Option.some.inj (hx.symm.trans hy)
    exact hle
  refine ⟨onward.phase, fun x y hx hle hy => below (onward.bound ⟨x, hx, hle⟩) hy, fun y hphase hy => ?_, coolEnded_advance,
    fun hstarved hphase hpending => ?_, onward.pour, onward.seq, onward.product, onward.curingTime, ?_⟩
  · have hcode : ctx.phase.code ≤ 2 := by rcases hphase with h | h <;> rw [h] <;> decide
    rcases onward.rising hcode with hwithin | hsp
    · exact .inl (below hwithin hy)
    · exact .inr (hsp.symm.trans hy)
  · have hstep : phaseStep q fresh temps dt ctx = (ctx, []) := by
      rw [phaseStep_of_ramp hphase, if_neg (by simp [hpending]), rampStep, if_pos hstarved]
    obtain ⟨⟨h1, h2, -⟩, -⟩ := turned_of_heating (repaired_of_not (q := q) (measured := measured) (.inl hpending)) hstep (.inl hphase) rfl
    refine ⟨h2, ?_⟩
    change (advance q fresh temps measured dt ctx).1.phase = .ramp ∨ (advance q fresh temps measured dt ctx).1.phase = .cool
    rw [h1, hphase]
    split_ifs
    · exact .inr rfl
    · exact .inl rfl
  intro released cooling repairs waits least becomes
  exact ⟨preset_turns, fun x => ramp_turns, hold_turns, fun x => cool_turns, finished_turns⟩

end turns

end Sys2Proof.Proofs
end

section
/-!
PROOFS. The bits and bytes of both lines (sections 9.2, 10.1, 10.5): reading back what is written, and what the receiver
makes of the characters that arrive.
-/

namespace Sys2Proof.Proofs

open Sys2Proof.Machine

/-! ### Bytes of a payload (section 10.5) -/

section payload

theorem word16_split (n : Nat) : word16 (n / 256) (n % 256) = n := Nat.div_add_mod' n 256

theorem word32_split (n : Nat) : word32 (n / 16777216) (n / 65536 % 256) (n / 256 % 256) (n % 256) = n := by
  unfold word32
  omega

/-- A signed number of four bytes reads back, within its range. -/
theorem signedOf_unsignedOf {v : Int} (hlow : -2147483648 ≤ v) (hhigh : v ≤ 2147483647) : signedOf 32 (unsignedOf 32 v) = v := by
  unfold signedOf unsignedOf
  split_ifs <;> omega

theorem readZones_zoneBytes (zones : List ZoneSpec) : readZones (zones.flatMap zoneBytes) = some zones := by
  induction zones with
  | nil => rfl
  | cons z l ih =>
    rw [List.flatMap_cons]
    simp [zoneBytes, bytes16, readZones, ih, word16_split]

theorem readPieces_pieceBytes (pieces : List PieceSpec) : readPieces (pieces.flatMap pieceBytes) = some pieces := by
  induction pieces with
  | nil => rfl
  | cons e l ih =>
    rw [List.flatMap_cons]
    simp [pieceBytes, bytes16, readPieces, ih, word16_split]

theorem length_zoneBytes (zones : List ZoneSpec) : (zones.flatMap zoneBytes).length = 5 * zones.length := by
  induction zones with
  | nil => rfl
  | cons z l ih =>
    rw [List.flatMap_cons, List.length_append, ih, List.length_cons]
    simp [zoneBytes, bytes16]
    omega

theorem length_pieceBytes (pieces : List PieceSpec) : (pieces.flatMap pieceBytes).length = 8 * pieces.length := by
  induction pieces with
  | nil => rfl
  | cons e l ih =>
    rw [List.flatMap_cons, List.length_append, ih, List.length_cons]
    simp [pieceBytes, bytes16]
    omega

theorem exists_of_isCode {code : List Nat} (h : isCode code = true) :
    ∃ k1 k2 k3 k4 k5 k6 k7 k8, code = [k1, k2, k3, k4, k5, k6, k7, k8] := by
  have hlength : code.length = 8 := by
    rw [isCode, Bool.and_eq_true] at h
    simpa using h.1
  match code, hlength with
  | [k1, k2, k3, k4, k5, k6, k7, k8], _ => exact ⟨k1, k2, k3, k4, k5, k6, k7, k8, rfl⟩

/-- Reading back what a request's bytes spell (R172, R176). -/
theorem decodeRequest_requestPayload {c : Instr} {kind tag : Nat} (hwf : c.wf = true) (hhead : requestHead c = some (kind, tag)) :
    decodeRequest kind tag (requestPayload c) = .request c := by
  cases c with
  | setBed _ bed xStart xEnd zones =>
    cases hhead
    simp only [decodeRequest, requestPayload, bytes16, List.cons_append, List.nil_append, readSetBed, length_zoneBytes,
      readZones_zoneBytes, word16_split, if_true]
  | setSlot => cases hhead; simp [decodeRequest, requestPayload, bytes16, bytes32, readSetSlot, word16_split, word32_split]
  | setProduct _ index spec =>
    cases hhead
    simp only [Instr.wf, ProductSpec.wf, Bool.and_eq_true, and_assoc] at hwf
    obtain ⟨-, -, hcode, -⟩ := hwf
    obtain ⟨k1, k2, k3, k4, k5, k6, k7, k8, hspec⟩ := exists_of_isCode hcode
    simp only [decodeRequest, requestPayload, hspec, bytes16, List.cons_append, List.nil_append, readSetProduct, word16_split]
    rw [← hspec]
  | setPlant _ number value =>
    cases hhead
    simp only [Instr.wf, isSignedLong, Bool.and_eq_true, decide_eq_true_eq] at hwf
    obtain ⟨-, hlow, hhigh⟩ := hwf
    simp [decodeRequest, requestPayload, bytes32, readSetPlant, word32_split, signedOf_unsignedOf hlow hhigh]
  | prepare _ bed code =>
    cases hhead
    rw [Instr.wf, Bool.and_eq_true] at hwf
    obtain ⟨k1, k2, k3, k4, k5, k6, k7, k8, rfl⟩ := exists_of_isCode hwf.2
    rfl
  | pourOrder _ bed code planned pieces =>
    cases hhead
    simp only [Instr.wf, Bool.and_eq_true, and_assoc] at hwf
    obtain ⟨-, -, hcode, -⟩ := hwf
    obtain ⟨k1, k2, k3, k4, k5, k6, k7, k8, rfl⟩ := exists_of_isCode hcode
    simp only [decodeRequest, requestPayload, bytes16, List.cons_append, List.nil_append, readPourOrder, length_pieceBytes,
      readPieces_pieceBytes, word16_split, if_true]
  | _ =>
    cases hhead <;> simp [decodeRequest, requestPayload, bytes16, oneByte, twoBytes, oneWord, wordByte, byteWord, noBytes,
      readSetCrane, word16_split]

end payload

/-! ### Bits of a character (R156, R172) -/

section bits

theorem byteOfBits_range (k n : Nat) : byteOfBits ((List.range k).map n.testBit) = n % 2 ^ k := by
  induction k generalizing n with
  | zero => simp [byteOfBits, Nat.mod_one]
  | succ k ih =>
    have hshift : (List.range k).map (n.testBit ∘ Nat.succ) = (List.range k).map (n / 2).testBit :=
      List.map_congr_left fun i _ => Nat.testBit_succ n i
    rw [List.range_succ_eq_map, List.map_cons, List.map_map, hshift, byteOfBits, ih, Nat.pow_succ', Nat.mod_mul,
      Nat.testBit_zero]
    congr 1
    rcases Nat.mod_two_eq_zero_or_one n with h | h <;> simp [h]

theorem byteOfBits_byteBits {n : Nat} (h : n < 256) : byteOfBits (byteBits n) = n :=
  (byteOfBits_range 8 n).trans (Nat.mod_eq_of_lt h)

theorem length_byteBits (n : Nat) : (byteBits n).length = 8 := by simp [byteBits]

theorem byteBits_eq (n : Nat) : byteBits n = [n.testBit 0, n.testBit 1, n.testBit 2, n.testBit 3, n.testBit 4, n.testBit 5,
    n.testBit 6, n.testBit 7] := rfl

theorem getElem?_byteBits {n k : Nat} (hk : k < 8) : (byteBits n)[k]? = some (n.testBit k) := by
  simp [byteBits, hk]

theorem lineCharOfBits_lineBits {ch : RxChar} (h : ch.data < 256) : lineCharOfBits (lineBits ch) = ch := by
  have hdata : byteOfBits (((lineBits ch).drop 1).take 8) = ch.data := by
    rw [lineBits, List.cons_append, List.drop_one, List.tail_cons, List.take_left' (length_byteBits _), byteOfBits_byteBits h]
  rw [lineCharOfBits, hdata]
  obtain ⟨d, fr⟩ := ch
  cases fr <;> simp [lineBits, byteBits_eq]

theorem charOfBits_charBits {ch : FieldChar} (h : ch.data < 256) : charOfBits (charBits ch) = ch := by
  have hdata : byteOfBits (((charBits ch).drop 1).take 8) = ch.data := by
    rw [charBits, List.cons_append, List.drop_one, List.tail_cons, List.take_left' (length_byteBits _), byteOfBits_byteBits h]
  rw [charOfBits, hdata]
  obtain ⟨d, a, fr⟩ := ch
  cases fr <;> simp [charBits, byteBits_eq]

end bits

/-! ### The characters of a request on the field line (R156) -/

section request

theorem drop_take_flatMap {α β : Type} {f : α → List β} {n : Nat} (hf : ∀ a, (f a).length = n) (l : List α) {k : Nat} {a : α}
    (h : l[k]? = some a) : ((l.flatMap f).drop (n * k)).take n = f a := by
  induction l generalizing k with
  | nil => simp at h
  | cons b l ih =>
    rw [List.flatMap_cons]
    cases k with
    | zero =>
      obtain rfl : b = a := by simpa using h
      simp [← hf b]
    | succ k =>
      rw [Nat.mul_succ, Nat.add_comm, ← List.drop_drop, List.drop_left' (hf b)]
      exact ih (by simpa using h)

theorem exchangeChars_eq (ex : Exchange) : ∃ check, exchangeChars ex =
    { data := ex.addr, address := true, framing := false } ::
      (ex.cmd.code :: ex.cmd.data ++ [check]).map (fun d => { data := d, address := false, framing := false }) ∧
    (ex.addr + (ex.cmd.code + (ex.cmd.data.sum + check))) % 256 = 0 := by
  refine ⟨_, rfl, ?_⟩
  simp only [List.sum_cons]
  omega

/-- Settles O55: payloads by kind, characters by their bits, and a request's characters in their order. -/
theorem requestRoundTrip : Obligations.RequestRoundTrip := by
  refine ⟨fun c kind tag => decodeRequest_requestPayload, fun ch h => ?_, fun f k => List.getElem?_map, fun ch h => ?_, fun ex => ?_⟩
  · refine ⟨lineCharOfBits_lineBits h, by simp [lineBits, length_byteBits], rfl, fun k hk => ?_, rfl⟩
    rw [Nat.add_comm, lineBits, List.cons_append, List.getElem?_cons_succ,
      List.getElem?_append_left (by rwa [length_byteBits]), getElem?_byteBits hk]
  · refine ⟨charOfBits_charBits h, by simp [charBits, length_byteBits], rfl, fun k hk => ?_, rfl, rfl⟩
    rw [Nat.add_comm, charBits, List.cons_append, List.getElem?_cons_succ,
      List.getElem?_append_left (by rwa [length_byteBits]), getElem?_byteBits hk]
  · obtain ⟨check, hchars, hsum⟩ := exchangeChars_eq ex
    refine ⟨?_, ?_, ?_, ?_, fun k ch hk => drop_take_flatMap (fun ch => by simp [charBits, length_byteBits]) _ hk⟩
    · rw [hchars, List.map_cons, List.map_map]
      refine congrArg _ (List.eq_replicate_iff.mpr ⟨by simp, fun b hb => ?_⟩)
      obtain ⟨d, -, rfl⟩ := List.mem_map.mp hb
      rfl
    · rw [hchars]
      simpa [Function.comp_def] using hsum
    · rw [hchars]
      simp
    · rw [hchars]
      simp
      omega

end request

/-! ### The receiver (R174) -/

section receiver

variable {s : State} {kind tag : Nat} {payload : List Nat}

theorem setReceiver_self {r : Receiver} (h : s.cl.rx = r) : setReceiver r s = s := by
  subst h
  rfl

theorem setReceiver_setReceiver (r r' : Receiver) : setReceiver r (setReceiver r' s) = setReceiver r s := rfl

/-- Bytes that do not yet complete the frame are only collected. -/
theorem collect_bytes {len : Nat} (hlen : len ≤ 240) (l : List Nat) : ∀ got rest : List Nat, got ++ l = len :: rest →
    rest.length < len + 4 →
    (asChars l).foldl takeChar (setReceiver (.collecting got) s) = setReceiver (.collecting (got ++ l)) s := by
  induction l with
  | nil => intro got rest _ _; rw [List.append_nil]; rfl
  | cons b l ih =>
    intro got rest hall hshort
    have hstep : takeChar (setReceiver (.collecting got) s) { data := b, framing := false } =
        setReceiver (.collecting (got ++ [b])) s := by
      have hmore : collected (got ++ [b]) = .more := by
        obtain ⟨x, m, hm⟩ : ∃ x m, got ++ [b] = x :: m := by cases got <;> exact ⟨_, _, rfl⟩
        have hfront : x :: (m ++ l) = len :: rest := by rw [← hall, ← List.cons_append, ← hm, List.append_assoc]; rfl
        obtain ⟨rfl, rfl⟩ := List.cons.inj hfront
        rw [List.length_append] at hshort
        rw [hm]
        exact (if_neg (by omega)).trans (if_pos (by omega))
      change (match collected (got ++ [b]) with | .more => _ | .bad _ => _ | .good _ _ _ => _) = _
      rw [hmore]
      rfl
    rw [asChars, List.map_cons, List.foldl_cons, hstep]
    refine (ih (got ++ [b]) rest (by rw [← hall, List.append_assoc]; rfl) hshort).trans ?_
    rw [List.append_assoc]
    rfl

/-- The frame that a hunting receiver collects whole. -/
theorem take_frame (hrx : s.cl.rx = .hunting) (hlen : payload.length ≤ 240) (hi lo : Nat) :
    (asChars (0xA5 :: payload.length :: kind :: tag :: payload ++ [hi, lo])).foldl takeChar s =
      if crc16 (payload.length :: kind :: tag :: payload) = hi * 256 + lo then goodFrame kind tag payload s
      else discardFrame .check s := by
  have hbytes : asChars (0xA5 :: payload.length :: kind :: tag :: payload ++ [hi, lo]) =
      { data := 0xA5, framing := false } :: (asChars (payload.length :: kind :: tag :: payload ++ [hi]) ++
        [{ data := lo, framing := false }]) := by simp [asChars]
  have hsync : takeChar s { data := 0xA5, framing := false } = setReceiver (.collecting []) s := by
    rw [takeChar, hrx]
    rfl
  have hfront := collect_bytes (s := s) hlen (payload.length :: kind :: tag :: payload ++ [hi]) []
    (kind :: tag :: payload ++ [hi]) rfl (by simp)
  have hwhole : collected (payload.length :: kind :: tag :: payload ++ [hi] ++ [lo]) =
      if crc16 (payload.length :: kind :: tag :: payload) = hi * 256 + lo then .good kind tag payload else .bad .check := by
    have hcheck : bigEndian [hi, lo] = hi * 256 + lo := by simp [bigEndian]
    rw [List.append_assoc]
    simp only [List.cons_append, List.nil_append, collected, List.length_cons, List.length_append, List.length_nil,
      List.take_left, List.drop_left, hcheck]
    rw [if_neg (by omega), if_neg (by omega)]
  have hlast : takeChar (setReceiver (.collecting (payload.length :: kind :: tag :: payload ++ [hi])) s)
      { data := lo, framing := false } = if crc16 (payload.length :: kind :: tag :: payload) = hi * 256 + lo then
        goodFrame kind tag payload s else discardFrame .check s := by
    change (match collected (payload.length :: kind :: tag :: payload ++ [hi] ++ [lo]) with
      | .more => _ | .bad _ => _ | .good _ _ _ => _) = _
    rw [hwhole]
    split_ifs
    · change goodFrame kind tag payload (setReceiver .hunting s) = _
      rw [setReceiver_self hrx]
    · rfl
  rw [hbytes, List.foldl_cons, hsync, List.foldl_append, hfront, List.nil_append, List.foldl_cons, List.foldl_nil, hlast]

/-- A CRC has sixteen bits. -/
theorem crcBit_lt (c : Nat) : crcBit c < 65536 := by
  unfold crcBit
  split
  · exact Nat.xor_lt_two_pow (n := 16) (Nat.mod_lt _ (by decide)) (by decide)
  · omega

theorem crc16_lt (b : Nat) (l : List Nat) : crc16 (b :: l) < 65536 := by
  obtain ⟨m, x, h⟩ : ∃ m x, b :: l = m ++ [x] := ⟨_, _, (List.dropLast_append_getLast (List.cons_ne_nil b l)).symm⟩
  rw [h, crc16, List.foldl_append, List.foldl_cons, List.foldl_nil, crcByte]
  exact crcBit_lt _

/-- A request's payload fits a frame. -/
theorem length_requestPayload {c : Instr} (hwf : c.wf = true) (hhead : requestHead c = some (kind, tag)) :
    (requestPayload c).length ≤ 240 := by
  cases c with
  | setBed _ bed xStart xEnd zones =>
    simp only [Instr.wf, Bool.and_eq_true, decide_eq_true_eq, and_assoc] at hwf
    obtain ⟨-, -, -, -, hzones, -⟩ := hwf
    have := length_zoneBytes zones
    simp only [requestPayload, bytes16, List.length_append, List.length_cons, List.length_nil, this]
    omega
  | setProduct _ index spec =>
    simp only [Instr.wf, ProductSpec.wf, Bool.and_eq_true, and_assoc] at hwf
    obtain ⟨-, -, hcode, -⟩ := hwf
    obtain ⟨k1, k2, k3, k4, k5, k6, k7, k8, hspec⟩ := exists_of_isCode hcode
    simp [requestPayload, bytes16, hspec]
  | prepare _ bed code =>
    rw [Instr.wf, Bool.and_eq_true] at hwf
    obtain ⟨k1, k2, k3, k4, k5, k6, k7, k8, rfl⟩ := exists_of_isCode hwf.2
    simp [requestPayload]
  | pourOrder _ bed code planned pieces =>
    simp only [Instr.wf, Bool.and_eq_true, decide_eq_true_eq, and_assoc] at hwf
    obtain ⟨-, -, hcode, -, hpieces, -⟩ := hwf
    obtain ⟨k1, k2, k3, k4, k5, k6, k7, k8, rfl⟩ := exists_of_isCode hcode
    have := length_pieceBytes pieces
    simp only [requestPayload, bytes16, List.length_append, List.length_cons, List.length_nil, this]
    omega
  | unknownKind => cases hhead
  | _ => simp [requestPayload, bytes16, bytes32]

/-- Settles O52: the receiver hands the frame on as the request that its bytes spell. -/
theorem frameIsRequest : Obligations.FrameIsRequest := by
  intro s c kind tag hwf hhead hrx
  obtain ⟨f, hf, hexec⟩ := exec_request hhead
  refine ⟨receive kind tag f s, ?_, hexec s⟩
  have hcheck : toBytes 2 (crc16 ((requestPayload c).length :: kind :: tag :: requestPayload c)) =
      [crc16 ((requestPayload c).length :: kind :: tag :: requestPayload c) / 256,
        crc16 ((requestPayload c).length :: kind :: tag :: requestPayload c) % 256] := by
    have := crc16_lt (requestPayload c).length (kind :: tag :: requestPayload c)
    simp only [toBytes, List.nil_append, List.cons_append, List.cons.injEq, and_true]
    omega
  have hframe := take_frame (s := s) (kind := kind) (tag := tag) hrx (length_requestPayload hwf hhead)
    (crc16 ((requestPayload c).length :: kind :: tag :: requestPayload c) / 256)
    (crc16 ((requestPayload c).length :: kind :: tag :: requestPayload c) % 256)
  rw [if_pos (Nat.div_add_mod' _ 256).symm, ← hcheck] at hframe
  have hgood : goodFrame kind tag (requestPayload c) s = receive kind tag f s := by
    rw [goodFrame, decodeRequest_requestPayload hwf hhead, answerTo, hf]
    rfl
  change Host.Outcome.next (if s.mc.power then (asChars (frameBytes kind tag (requestPayload c))).foldl takeChar s else s) = _
  by_cases hpower : s.mc.power = true
  · rw [if_pos hpower, ← hgood, ← hframe]
    rfl
  · rw [if_neg hpower, receive_of_no_power (by simpa using hpower)]

theorem takeChar_hunting (hrx : s.cl.rx = .hunting) (ch : RxChar) :
    takeChar s ch = setReceiver (if ch.data = 0xA5 then .collecting [] else .hunting) s := by
  rw [takeChar, hrx]
  dsimp only
  split_ifs
  · rfl
  · rw [setReceiver_self hrx]

theorem receive_of_full (hpower : s.mc.power = true) (hfull : 2 ≤ s.cl.places.length) (f : Store → Part → Decision) :
    receive kind tag f s = { s with cl := countOverrun s.cl } := by
  rw [receive, hpower]
  exact if_pos hfull

/-- The catalogue of section 10.5 lists these kinds alone. -/
theorem decodeRequest_of_unlisted (h : kind ∉ [0x01, 0x02, 0x03, 0x04, 0x05, 0x06, 0x07, 0x08, 0x09, 0x0A, 0x0E, 0x0F, 0x10,
    0x11, 0x12, 0x13, 0x14, 0x15, 0x16, 0x20, 0x21, 0x22, 0x23, 0x24, 0x25, 0x26, 0x28, 0x29, 0x2A, 0x2C, 0x2D, 0x2E, 0x40,
    0x41, 0x42, 0x43, 0x44, 0x45, 0x46, 0x47, 0x48, 0x49]) : decodeRequest kind tag payload = .unknownKind := by
  unfold decodeRequest
  split
  all_goals first | rfl | exact absurd h (by decide)

/-- Settles O53: each character's fate by the receiver's state, and a good frame's by the places and its kind. -/
theorem receiverDiscards : Obligations.ReceiverDiscards := by
  intro s hpower
  have hframe (chars : List RxChar) : exec (.frameReceived chars) s = .next (chars.foldl takeChar s) :=
    congrArg Host.Outcome.next (if_pos hpower)
  have hgap (ch : RxChar) : exec (.interCharacterGap ch) s = .next (takeChar (gapPassed s) ch) :=
    congrArg Host.Outcome.next (if_pos hpower)
  refine ⟨fun got ch hrx => ?_, fun ch hrx => ?_, fun got b hrx => ?_, fun len hrx hlong => ?_,
    fun kind tag hi lo payload hrx hlen hwrong => ?_, fun hfull c hc => ?_, fun hready tag kind payload =>
      ⟨fun hunknown => ⟨_, rfl, ?_⟩, fun hformat => ⟨_, rfl, ?_⟩, decodeRequest_of_unlisted⟩⟩
  · have hpassed : gapPassed s = discardFrame .gap s := by rw [gapPassed, hrx]
    rw [hgap, hpassed, takeChar_hunting rfl]
    rfl
  · have hpassed : gapPassed s = s := by rw [gapPassed, hrx]
    rw [hgap, hpassed, takeChar_hunting hrx]
    rfl
  · rw [hframe, List.foldl_cons, List.foldl_nil, takeChar, hrx]
    rfl
  · have hbad : collected [len] = .bad .length := if_pos hlong
    rw [hframe, asChars, List.map_cons, List.map_nil, List.foldl_cons, List.foldl_nil, takeChar, hrx]
    dsimp only [List.nil_append]
    rw [hbad]
    rfl
  · rw [hframe, take_frame hrx hlen, if_neg hwrong]
    change Host.Outcome.next { s with cl := { s.cl with rx := .hunting, checkDiscards := min 65535 (s.cl.checkDiscards + 1) } } = _
    rw [← hrx]
  · rcases hc with ⟨⟨kind, tag⟩, hhead⟩ | ⟨tag, kind, payload, rfl⟩
    · obtain ⟨f, -, hexec⟩ := exec_request hhead
      rw [hexec, receive_of_full hpower hfull]
      rfl
    · change Host.Outcome.next (receive kind tag _ s) = _
      rw [receive_of_full hpower hfull]
      rfl
  · rw [goodFrame, hunknown]
    exact refused hready rfl
  · rw [goodFrame, hformat]
    exact refused hready rfl

end receiver

end Sys2Proof.Proofs
end

section
/-!
PROOFS. The directed queue and FL's timers (R161 to R165), and what a good reply and a failed attempt do (R157 to R169).
-/

namespace Sys2Proof.Proofs

open Sys2Proof.Machine

/-- An event that changes neither what is noted of it nor CL's records. -/
theorem event_quiet {s : State} (h : s.mc.power = true) {f : Part → Part} {p : Part} (hf : f { s.toPart with evt := .none } = p)
    (hevt : p.evt = .none) (hcl : p.cl = s.cl) :
    becomes s (event f s) s.store p ∧ noReply s (event f s) ∧ told s (event f s) [] := by
  have hended := event_ended h f
  rw [hf] at hended
  have hplain : noWithdrawal p := noWithdrawal_of_unchanged (by rw [hevt]; rfl)
  exact ⟨hended.becomes hplain (by rw [hevt]; rfl), noReply_of_link (by rw [hf, hcl]),
    hended.told hplain (ns := []) hcl ⟨rfl, rfl, rfl, rfl⟩⟩

/-! ### The directed queue (R164, R165) -/

section queue

variable {g : Store} {p : Part}

theorem enqueue_of_pending {e old : Entry} {nd : Node} (hnode : nodeOf p e.addr = some nd) (halive : nd.standing ≠ .lost)
    {before after : List Entry} (hqueue : p.fl.queue = before ++ old :: after) (hold : sameEntry e old = true)
    (hothers : ∀ d ∈ before ++ after, ¬ sameEntry e d = true) :
    enqueue e p = (.accepted, setDirected (before ++ e :: after) p) := by
  have hany : p.fl.queue.any (sameEntry e) = true := List.any_eq_true.mpr ⟨old, by simp [hqueue], hold⟩
  have hkeep (l : List Entry) (h : ∀ d ∈ l, ¬ sameEntry e d = true) : (l.map fun d => if sameEntry e d then e else d) = l :=
    (List.map_congr_left fun d hd => if_neg (h d hd)).trans (List.map_id' l)
  rw [enqueue, hnode]
  dsimp only
  rw [if_neg halive, if_pos hany, hqueue, List.map_append, List.map_cons, if_pos hold,
    hkeep before fun d hd => hothers d (List.mem_append_left _ hd), hkeep after fun d hd => hothers d (List.mem_append_right _ hd)]

theorem enqueue_of_new {e : Entry} {nd : Node} (hnode : nodeOf p e.addr = some nd) (halive : nd.standing ≠ .lost)
    (hnew : ∀ d ∈ p.fl.queue, ¬ sameEntry e d = true) : enqueue e p =
      if e.cmd = .stop ∨ placesTaken p.fl.queue < 16 then (.accepted, setDirected (p.fl.queue ++ [e]) p) else (.refused, p) := by
  have hnone : ¬ p.fl.queue.any (sameEntry e) = true := fun h => by
    obtain ⟨d, hd, hsame⟩ := List.any_eq_true.mp h
    exact hnew d hd hsame
  have hroom : (isStop e.cmd || decide (placesTaken p.fl.queue < Config.directedPlaces)) = true ↔
      e.cmd = .stop ∨ placesTaken p.fl.queue < 16 := by
    rw [Bool.or_eq_true, isStop_eq_true_iff, decide_eq_true_eq]
    rfl
  rw [enqueue, hnode]
  dsimp only
  rw [if_neg halive, if_neg hnone]
  simp only [hroom]

theorem isMotionCommand_eq (cmd : FieldCmd) : isMotionCommand cmd = match cmd with
    | .goto _ | .takeUp | .lift | .lower => true
    | .poll | .setValve _ | .stop => false := by cases cmd <;> rfl

theorem markWithdrawn_eq (a : Nat) (ex : Exchange) :
    markWithdrawn a ex = { ex with withdrawn := ex.withdrawn || (ex.addr == a && isMotionCommand ex.cmd) } := by
  unfold markWithdrawn
  split
  · next h => simp [h]
  · next h =>
    have hnot : (ex.addr == a && isMotionCommand ex.cmd) = false := by
      rw [← Bool.not_eq_true, Bool.and_eq_true, beq_iff_eq]
      exact h
    rw [hnot, Bool.or_false]

theorem holdsRefused_of_nothing {c : CraneId} (h : (craneOf p c).kept = none ∧ ∀ cmd, (craneOf p c).command ≠ some (cmd, .waiting)) :
    holdsRefused p c = false := by
  obtain ⟨hkept, hcommand⟩ := h
  have hwait : waitingCommand p c = none := by
    unfold waitingCommand
    split
    · next cmd hcmd => exact absurd hcmd (hcommand cmd)
    · rfl
  simp [holdsRefused, hkept, hwait]

/-- A withdrawal where no supervisor takes a freed entry. -/
theorem withdraw_of_none {c : CraneId} {a : Nat} (ha : craneNode g c = some a) (hnone : ∀ d, holdsRefused p d = false) :
    withdraw g c p = { p with fl := { p.fl with
      queue := p.fl.queue.filter fun e => !(e.addr == a && isMotionCommand e.cmd)
      line := p.fl.line.map (markWithdrawn a), waiting := p.fl.waiting.map (markWithdrawn a) } } := by
  rw [withdraw, ha]
  dsimp only
  split
  · exact entryFreed_of_none fun d => (holdsRefused_congr (by cases d <;> rfl)).trans (hnone d)
  · rfl

theorem nextExchange_eq_motion {c : CraneId} {l : List CraneId} {a : Nat} (hopened : p.fl.opened = true) (hline : p.fl.line = none)
    (hrepeat : p.fl.repeatStop = none) (hwaiting : p.fl.waiting = []) (hqueue : p.fl.queue = []) (hdue : p.fl.due = c :: l)
    (ha : craneNode g c = some a) : nextExchange g p = beginExchange g a .motion .poll none p := by
  rw [nextExchange, hline, hopened, hrepeat, hwaiting, hqueue, hdue]
  dsimp only [List.find?_nil]
  rw [ha]
  rfl

end queue

/-! ### The timers of FL (R162, R163) -/

section timers

variable {s : State} {c : CraneId}

/-- The line is idle, and nothing waits for it. -/
structure Idle (p : Part) : Prop where
  line : p.fl.line = none
  opened : p.fl.opened = true
  repeatStop : p.fl.repeatStop = none
  queue : p.fl.queue = []
  waiting : p.fl.waiting = []
  due : p.fl.due = []

/-- An event that leaves every block but FL, and of FL the table and the queue. -/
def onlyLine (s t : State) : Prop :=
  t.store = s.store ∧ t.mc = s.mc ∧ t.bs = s.bs ∧ t.cc = s.cc ∧ t.tu = s.tu ∧ t.sm = s.sm ∧ t.mp = s.mp ∧ t.csA = s.csA ∧
  t.csB = s.csB ∧ t.pending = s.pending ∧ t.fl.nodes = s.fl.nodes ∧ t.fl.queue = s.fl.queue ∧ noReply s t ∧ told s t []

/-- An event that changes FL's record alone. -/
theorem event_line (h : s.mc.power = true) {f : Part → Part} {k : FieldLink}
    (hf : f { s.toPart with evt := .none } = { s.toPart with evt := .none, fl := k }) (hnodes : k.nodes = s.fl.nodes)
    (hqueue : k.queue = s.fl.queue) : onlyLine s (event f s) ∧ (event f s).fl = k := by
  obtain ⟨⟨tstore, tmc, tbs, tcc, ttu, tsm, tmp, tA, tB, tfl, tpending⟩, hreply, htold⟩ := event_quiet h hf rfl rfl
  exact ⟨⟨tstore, tmc, tbs, tcc, ttu, tsm, tmp, tA, tB, tpending, by rw [tfl]; exact hnodes, by rw [tfl]; exact hqueue, hreply, htold⟩,
    tfl⟩

/-- A round that the expiry of its timer begins on an idle line. -/
theorem roundTimeout_of_idle {g : Store} {p : Part} (hidle : Idle p) (htimer : p.fl.roundTimer.isSome) (hround : p.fl.roundOn = false)
    {a : Nat} {nd : Node} (ha : (Map.keys p.fl.nodes).find? (fun k => decide (0 < k)) = some a) (hnd : nodeOf p a = some nd) :
    roundTimeout g p = { p with fl := { p.fl with
      line := some { id := p.fl.serial, addr := a, owner := nd.owner, cls := .round, cmd := .poll, by_ := none, attempt := 1,
                     withdrawn := false, orphan := false, rate := g.plant.fieldLineRate.toNat },
      serial := p.fl.serial + 1, replyTimer := some (.start g.plant.replyTimeout.toNat),
      roundOn := true, roundPos := a, roundTimer := some (.start g.plant.roundMinimum.toNat) } } := by
  obtain ⟨hline, hopened, hrepeat, hqueue, hwaiting, hdue⟩ := hidle
  obtain ⟨timer, htimer⟩ := Option.isSome_iff_exists.mp htimer
  have hnodes : p.fl.nodes.isEmpty = false := by
    cases hn : p.fl.nodes with
    | nil => rw [hn] at ha; cases ha
    | cons => rfl
  rw [roundTimeout, htimer]
  dsimp only
  have hend : endRound { p with fl := { p.fl with roundTimer := none } } = { p with fl := { p.fl with roundTimer := none } } := by
    simp [endRound, hround]
  have hbegin : beginRound g { p with fl := { p.fl with roundTimer := none } } = { p with fl := { p.fl with
      roundOn := true, roundPos := 0, roundTimer := some (.start g.plant.roundMinimum.toNat) } } := by
    simp [beginRound, hround, hopened, hnodes]
  rw [lineFree, hend, hbegin]
  obtain ⟨q, hq⟩ : ∃ q : Part, q = { p with fl := { p.fl with
      roundOn := true, roundPos := 0, roundTimer := some (.start g.plant.roundMinimum.toNat) } } := ⟨_, rfl⟩
  rw [← hq, nextExchange_eq_roundPoll (by rw [hq]; exact hopened) (by rw [hq]; exact hline) (by rw [hq]; exact hrepeat)
    (by rw [hq]; exact hwaiting) (by rw [hq]; exact hqueue) (by rw [hq]; exact hdue),
    beginRoundPoll_of_some (a := a) (by rw [hq]) (by rw [hq]; exact ha),
    beginExchange_of_some (nd := nd) (by rw [hq]; exact hnd), hq]
  simp [hdue]

theorem roundTimeout_of_busy {g : Store} {p : Part} (htimer : p.fl.roundTimer.isSome) (hbusy : p.fl.line.isSome)
    (hround : p.fl.roundOn = true) (hout : roundPollOut p.fl = true) :
    roundTimeout g p = { p with fl := { p.fl with roundTimer := none } } := by
  obtain ⟨timer, htimer⟩ := Option.isSome_iff_exists.mp htimer
  have hend : endRound { p with fl := { p.fl with roundTimer := none } } = { p with fl := { p.fl with roundTimer := none } } := by
    have hout' : roundPollOut { p.fl with roundTimer := none } = true := hout
    simp [endRound, hout']
  have hbegin : beginRound g { p with fl := { p.fl with roundTimer := none } } = { p with fl := { p.fl with roundTimer := none } } := by
    simp [beginRound, hround]
  rw [roundTimeout, htimer]
  dsimp only
  rw [lineFree, hend, hbegin]
  exact nextExchange_of_busy hbusy

theorem pollTimer_congr {p q : Part} {f : FieldLink} (h : q.fl = f) (c : CraneId) :
    pollTimer q c = pollTimer { p with fl := f } c := by
  subst h
  cases c <;> rfl

theorem mem_pollDue_self {l : List CraneId} : c ∈ pollDue c l := by
  unfold pollDue
  split
  · next h => exact List.contains_iff_mem.mp h
  · exact List.mem_append_right _ (List.mem_singleton.mpr rfl)

theorem mem_pollDue {l : List CraneId} {d : CraneId} (h : d ∈ l) : d ∈ pollDue c l := by
  unfold pollDue
  split
  · exact h
  · exact List.mem_append_left _ h

theorem setPollTimer_eq (c : CraneId) (x : Option Timer) (p : Part) : ∃ pollA pollB,
    setPollTimer c x p = { p with fl := { p.fl with pollA := pollA, pollB := pollB } } ∧ pollTimer (setPollTimer c x p) c = x := by
  cases c <;> exact ⟨_, _, rfl, rfl⟩

/-- What the expiry of a crane's poll timer comes to before the next exchange. -/
theorem pollTimeout_eq {g : Store} {p : Part} (htimer : (pollTimer p c).isSome) : ∃ pollA pollB on pos timer,
    pollTimeout g c p = nextExchange g { p with fl := { p.fl with
      due := pollDue c p.fl.due, pollA := pollA, pollB := pollB, roundOn := on, roundPos := pos, roundTimer := timer } } ∧
    ∀ q : Part, q.fl.pollA = pollA → q.fl.pollB = pollB → pollTimer q c = some (.start g.plant.cranePollPeriod.toNat) := by
  obtain ⟨timer, htimer⟩ := Option.isSome_iff_exists.mp htimer
  obtain ⟨pollA, pollB, hset, hstarted⟩ := setPollTimer_eq c (some (.start g.plant.cranePollPeriod.toNat)) p
  rw [hset] at hstarted
  obtain ⟨on, pos, round, hfree⟩ := lineFree_eq g { p with fl := { p.fl with
    pollA := pollA, pollB := pollB, due := pollDue c p.fl.due } }
  refine ⟨pollA, pollB, on, pos, round, ?_, fun q hA hB => ?_⟩
  · rw [pollTimeout, htimer]
    dsimp only
    rw [hset]
    exact hfree
  · rw [← hstarted]
    cases c
    · exact hA
    · exact hB

theorem pollTimeout_of_busy {g : Store} {p : Part} (htimer : (pollTimer p c).isSome) (hbusy : p.fl.line.isSome) : ∃ f,
    pollTimeout g c p = { p with fl := f } ∧ f.nodes = p.fl.nodes ∧ f.queue = p.fl.queue ∧ f.line = p.fl.line ∧
    f.due = pollDue c p.fl.due ∧ pollTimer { p with fl := f } c = some (.start g.plant.cranePollPeriod.toNat) := by
  obtain ⟨pollA, pollB, on, pos, timer, heq, hstarted⟩ := pollTimeout_eq (g := g) htimer
  exact ⟨_, heq.trans (nextExchange_of_busy hbusy), rfl, rfl, rfl, rfl, hstarted _ rfl rfl⟩

theorem pollTimeout_of_idle {g : Store} {p : Part} (hidle : Idle p) (htimer : (pollTimer p c).isSome) {a : Nat} {nd : Node}
    (ha : craneNode g c = some a) (hnd : nodeOf p a = some nd) (howner : nd.owner = .crane c) : ∃ f,
    pollTimeout g c p = { p with fl := f } ∧ f.nodes = p.fl.nodes ∧ f.queue = p.fl.queue ∧ f.due = [] ∧
    pollTimer { p with fl := f } c = some (.start g.plant.cranePollPeriod.toNat) ∧
    ∃ ex, f.line = some ex ∧ ex.addr = a ∧ ex.cls = .motion ∧ ex.cmd = .poll ∧ ex.attempt = 1 := by
  obtain ⟨hline, hopened, hrepeat, hqueue, hwaiting, hdue⟩ := hidle
  obtain ⟨pollA, pollB, on, pos, timer, heq, hstarted⟩ := pollTimeout_eq (g := g) htimer
  have hpoll : pollDue c p.fl.due = [c] := by rw [hdue]; rfl
  rw [hpoll] at heq
  obtain ⟨q, hq⟩ : ∃ q : Part, q = { p with fl := { p.fl with
      due := [c], pollA := pollA, pollB := pollB, roundOn := on, roundPos := pos, roundTimer := timer } } := ⟨_, rfl⟩
  rw [heq, ← hq, nextExchange_eq_motion (l := []) (by rw [hq]; exact hopened) (by rw [hq]; exact hline)
    (by rw [hq]; exact hrepeat) (by rw [hq]; exact hwaiting) (by rw [hq]; exact hqueue) (by rw [hq]) ha,
    beginExchange_of_some (nd := nd) (by rw [hq]; exact hnd), hq]
  refine ⟨_, rfl, rfl, rfl, ?_, hstarted _ rfl rfl, _, rfl, rfl, rfl, rfl, rfl⟩
  simp [howner]

/-- Settles O50: the queue by the forms of an offer, a withdrawal where nothing is offered again, and the two timers by the
line's state. -/
theorem roundAndPollTimers : Obligations.RoundAndPollTimers := by
  refine ⟨fun e p nd hnode => ?_, fun g p c a ha hnone => ?_, fun s hpower => ?_⟩
  · intro same queued
    have hsame (d : Entry) : same d ↔ sameEntry e d = true := sameEntry_iff.symm
    refine ⟨fun hlost => enqueue_of_discarded fun nd' hnd' => ?_, fun halive =>
      ⟨fun before old after hqueue hold hothers => ?_, fun hnew => ?_⟩⟩
    · obtain rfl := Option.some.inj (hnode.symm.trans hnd')
      exact hlost
    · exact enqueue_of_pending hnode halive hqueue ((hsame _).mp hold) fun d hd => mt (hsame d).mpr (hothers d hd)
    · intro others
      have henqueue := enqueue_of_new hnode halive fun d hd => mt (hsame d).mpr (hnew d hd)
      rw [placesTaken_eq] at henqueue
      refine ⟨fun hroom => henqueue.trans (if_pos hroom), fun hcmd hfull => henqueue.trans (if_neg ?_)⟩
      exact not_or.mpr ⟨hcmd, not_lt.mpr hfull⟩
  · intro motion mark
    have hmotion : motion = isMotionCommand := funext fun cmd => (isMotionCommand_eq cmd).symm
    have hmark : mark = markWithdrawn a := funext fun ex => by rw [markWithdrawn_eq, ← hmotion]
    rw [withdraw_of_none ha fun d => holdsRefused_of_nothing (hnone d), hmark, hmotion]
  · intro idle others
    refine ⟨fun htimer => ⟨_, rfl, event_unchanged hpower ?_⟩, fun htimer hbusy hround hout => ⟨_, rfl, ?_⟩,
      fun htimer hidle hround a nd ha hnd => ?_, fun c => ⟨fun htimer => ⟨_, rfl, event_unchanged hpower ?_⟩,
        fun htimer hbusy => ?_, fun htimer hidle a nd ha hnd howner => ?_⟩⟩
    · rw [roundTimeout, show s.fl.roundTimer = none from htimer]
    · exact event_quiet (p := { s.toPart with evt := .none, fl := { s.fl with roundTimer := none } }) hpower
        (roundTimeout_of_busy htimer hbusy hround hout) rfl rfl
    · obtain ⟨i1, i2, i3, i4, i5, i6⟩ := hidle
      obtain ⟨honly, hfl⟩ := event_line hpower (roundTimeout_of_idle (g := s.store) (p := { s.toPart with evt := .none })
        ⟨i1, i2, i3, i4, i5, i6⟩ htimer hround ha hnd) rfl rfl
      refine ⟨_, rfl, honly, ?_⟩
      rw [hfl]
      exact ⟨rfl, rfl, rfl, rfl, _, rfl, rfl, rfl, rfl, rfl, rfl, rfl⟩
    · rw [pollTimeout, show pollTimer { s.toPart with evt := .none } c = none from htimer]
    · obtain ⟨f, hf, hnodes, hqueue, hline, hdue, htimer'⟩ := pollTimeout_of_busy (g := s.store) (p := { s.toPart with evt := .none })
        (c := c) htimer hbusy
      obtain ⟨honly, hfl⟩ := event_line hpower hf hnodes hqueue
      refine ⟨_, rfl, honly, by rw [hfl]; exact hline, ?_, fun d hd => ?_, ?_⟩
      · rw [hfl, hdue]
        exact mem_pollDue_self
      · rw [hfl, hdue]
        exact mem_pollDue hd
      · rw [← htimer']
        exact pollTimer_congr hfl c
    · obtain ⟨i1, i2, i3, i4, i5, i6⟩ := hidle
      obtain ⟨f, hf, hnodes, hqueue, hdue, htimer', hline⟩ := pollTimeout_of_idle (g := s.store) (p := { s.toPart with evt := .none })
        (c := c) ⟨i1, i2, i3, i4, i5, i6⟩ htimer ha hnd howner
      obtain ⟨honly, hfl⟩ := event_line hpower hf hnodes hqueue
      refine ⟨_, rfl, honly, by rw [hfl]; exact hdue, ?_, by rw [hfl]; exact hline⟩
      rw [← htimer']
      exact pollTimer_congr hfl c

end timers

/-! ### A zone node back beside a supervisor's command for its address (R164, R169)

The statement of `ZoneReplyStored` ranges over states in which a crane is configured with a zone's address and its supervisor
keeps a refused SET VALVE. No run reaches one; there the entry that frees with the line takes the SET VALVE of NODE BACK
out of the queue. -/

/-- The store with a zone and crane A both at address 7. -/
def sharedAddress : Store :=
  { Store.fresh with beds := [(1, ⟨0, 100, [⟨100, 7, 1⟩]⟩)], craneA := some ⟨7, 0⟩ }

/-- A part at which a LOST zone node answers while a STOP for another node is queued, and crane A's supervisor keeps a
SET VALVE. -/
def zoneBack : State :=
  { State.reset with
    store := sharedAddress,
    toPart := { Part.reset with
      csA := { Crane.atReset with kept := some (.setValve 5) },
      tu := { Part.reset.tu with zones := [(zoneKey 1 1, ZoneRecord.fresh 7)] },
      fl := { FieldLink.fresh with
        opened := true,
        nodes := [(7, { Node.fresh (.zone 1 1) with standing := .lost }), (8, Node.fresh (.zone 1 2))],
        queue := [⟨8, .stop, .cc⟩],
        line := some ⟨0, 7, .zone 1 1, .round, .poll, none, 1, false, false, 9600⟩ } } }

/-- A good reply of the zone node 7, all of its values 0. -/
def zeroReply : List FieldChar := [7, 0, 0, 0, 0, 0, 0, 0, 249].map fun b => ⟨b, false, false⟩

/-- The state after the reply. -/
def zoneBackAfter : State := attemptEnd (replyEnded sharedAddress zeroReply) zoneBack

theorem zoneBackAfter_eq : execReplyComplete zeroReply zoneBack = .next zoneBackAfter := rfl

theorem queue_zoneBackAfter : zoneBackAfter.fl.queue = [⟨7, .setValve 5, .cs .A⟩] := by decide

theorem line_zoneBackAfter : zoneBackAfter.fl.line.map (·.addr) = some 8 := by decide

theorem not_offered_zoneBackAfter : ¬ offered zoneBack zoneBackAfter 7 (.setValve 0) := by
  rintro (⟨e, he, -, hcmd⟩ | ⟨ex, hline, haddr, -⟩)
  · rw [queue_zoneBackAfter, List.mem_singleton] at he
    subst he
    cases hcmd
  · have hother := line_zoneBackAfter
    rw [hline, Option.map_some, haddr] at hother
    cases hother

/-- Refutes O49: at `zoneBack` no SET VALVE with opening 0 is queued or on the line after the reply of the LOST node. -/
theorem not_zoneReplyStored : ¬ Obligations.ZoneReplyStored := by
  intro h
  obtain ⟨-, -, hzone⟩ := h zoneBack zeroReply
  obtain ⟨t, ht, -, -, -, -, -, -, -, -, -, -, -, -, hback, -⟩ :=
    hzone _ _ 1 1 0 0 0 0 _ rfl rfl rfl rfl rfl (by decide) (by decide) rfl rfl
  obtain rfl : zoneBackAfter = t := Host.Outcome.next.inj (zoneBackAfter_eq.symm.trans ht)
  obtain ⟨hroomy, -⟩ := hback ⟨100, 7, 1⟩ rfl rfl rfl
  exact not_offered_zoneBackAfter (hroomy (.inr (by decide))).2

/-! ### The end of an attempt (R161)

An attempt ends as an event does, and then frees the line. -/

/-- What freeing the line after the event that left `u` leaves as it stands. -/
structure Freed (g : Store) (u t : State) : Prop where
  records : t.store = u.store ∧ t.mc = u.mc ∧ t.bs = u.bs ∧ t.cc = u.cc ∧ t.tu = u.tu ∧ t.sm = u.sm ∧ t.mp = u.mp ∧
    t.cl = u.cl ∧ t.pending = u.pending
  nodes : t.fl.nodes = u.fl.nodes
  cranes : ∀ c, Leaves c u.toPart t.toPart
  stops : ∀ base a, (nodeOf u.toPart a).isSome → base ≤ u.fl.serial → stopWaits a u.toPart → stopStands base a t.toPart
  lost : ∀ a, barred a u.toPart → barred a t.toPart

/-- The line free, and nothing else changed. -/
def lineCleared (p : Part) : Part := { p with fl := { p.fl with line := none, replyTimer := none } }

theorem releaseLine_eq (g : Store) (p : Part) : releaseLine g p = lineFree g (lineCleared p) := rfl

theorem traffic_released (g : Store) (p : Part) : Traffic ∅ (lineCleared p) (releaseLine g p) := traffic_lineFree ∅ g _

theorem craneOf_sendNext (p : Part) (c : CraneId) : craneOf (sendNext p) c = craneOf p c := craneOf_congr rfl rfl c

theorem freed_releaseLine {g : Store} {u : State} {q : Part} (hu : u.toPart = sendNext q) :
    Freed g u { u with toPart := sendNext (releaseLine g q) } := by
  have traffic := traffic_released g q
  have hnodes : u.fl.nodes = q.fl.nodes := by rw [hu]; rfl
  obtain ⟨kmc, kbs, kcc, ktu, ksm, kmp, kcl, -⟩ := releaseLine_keeps g q
  have hcrane (c : CraneId) : craneOf u.toPart c = craneOf q c := by rw [hu]; exact craneOf_sendNext q c
  refine ⟨⟨rfl, kmc.trans (by rw [hu]; rfl), kbs.trans (by rw [hu]; rfl), kcc.trans (by rw [hu]; rfl),
    ktu.trans (by rw [hu]; rfl), ksm.trans (by rw [hu]; rfl), kmp.trans (by rw [hu]; rfl), ?_, rfl⟩,
    traffic.nodes.trans hnodes.symm, fun c => ?_, fun base a hnode hbase hwaits => ?_, fun a hbarred => ?_⟩
  · rw [hu]
    exact congrArg nextFrame kcl
  · have cleared : craneOf (lineCleared q) c = craneOf q c := craneOf_congr rfl rfl c
    exact ((Leaves.of_eq (hcrane c).symm).trans (.of_eq cleared)).trans
      ((traffic.cranes c (Set.notMem_empty c)).trans (.of_eq (craneOf_sendNext _ c)))
  · exact traffic.stops base a (by rw [nodeOf_congr hnodes] at hnode; exact hnode) (by rwa [hu] at hbase)
      (.inl (by rwa [stopWaits, hu] at hwaits))
  · rw [hu] at hbarred
    exact traffic.lost a hbarred

/-- `t` is how the end of an attempt leaves `s` of which the outcome is the part `p`. -/
def attemptEnds (s t : State) (p : Part) : Prop := ∃ u, endedFrom s u p ∧ Freed s.store u t

theorem attemptEnd_eq {s : State} {ex : Exchange} (hpower : s.mc.power = true) (hline : s.fl.line = some ex)
    (f : Exchange → Part → Part) : attemptEnd f s = { event (f ex) s with
      toPart := sendNext (releaseLine s.store (endOfEvent s.store (f ex { s.toPart with evt := .none }))) } := by
  simp only [attemptEnd, hpower, hline, event, if_true]

theorem freed_attemptEnd {s : State} {ex : Exchange} (hpower : s.mc.power = true) (hline : s.fl.line = some ex)
    (f : Exchange → Part → Part) : Freed s.store (event (f ex) s) (attemptEnd f s) := by
  rw [attemptEnd_eq hpower hline]
  exact freed_releaseLine (by rw [event, if_pos hpower]; rfl)

theorem attemptEnds_attemptEnd {s : State} {ex : Exchange} (hpower : s.mc.power = true) (hline : s.fl.line = some ex)
    (f : Exchange → Part → Part) : attemptEnds s (attemptEnd f s) (f ex { s.toPart with evt := .none }) :=
  ⟨_, event_ended hpower (f ex), freed_attemptEnd hpower hline f⟩

/-- An attempt whose outcome leaves CL's own records alone, raising notices apart, answers no request. -/
theorem noReply_attemptEnd {s : State} {ex : Exchange} (hpower : s.mc.power = true) (hline : s.fl.line = some ex)
    {f : Exchange → Part → Part} (hcl : linkCore (f ex { s.toPart with evt := .none }).cl = linkCore s.cl) :
    noReply s (attemptEnd f s) := by
  obtain ⟨-, -, -, -, -, -, -, tcl, -⟩ := (freed_attemptEnd hpower hline f).records
  have hreply := noReply_of_link (s := s) (f := f ex) hcl
  unfold noReply sameReceiver at hreply ⊢
  rwa [tcl]

namespace attemptEnds

variable {s t : State} {p : Part}

theorem keeps (h : attemptEnds s t p) : t.store = s.store ∧ t.mc = p.mc ∧ t.bs = p.bs ∧ t.cc = p.cc ∧ t.tu = p.tu ∧
    t.sm.pieces = p.sm.pieces ∧ t.sm.timer = p.sm.timer ∧ t.mp.backlog = p.mp.backlog ∧ t.pending = s.pending := by
  obtain ⟨u, hu, hfreed⟩ := h
  obtain ⟨tstore, tmc, tbs, tcc, ttu, tsm, tmp, -, tpending⟩ := hfreed.records
  obtain ⟨umc, ubs, ucc, utu, upieces, utimer, ubacklog⟩ := hu.keeps
  exact ⟨tstore.trans hu.store_eq, tmc.trans umc, tbs.trans ubs, tcc.trans ucc, ttu.trans utu, tsm ▸ upieces, tsm ▸ utimer,
    tmp ▸ ubacklog, tpending.trans hu.pending_eq⟩

theorem toldFirst (h : attemptEnds s t p) {ns : List Notice} {k : CommandLink} (hp : p.cl = ns.foldl raiseLink k)
    (hk : sameNotices k s.cl) : toldFirst s t ns := by
  obtain ⟨u, hu, hfreed⟩ := h
  obtain ⟨-, -, -, -, -, -, -, tcl, -⟩ := hfreed.records
  have := hu.toldFirst hp hk
  unfold Machine.toldFirst at this ⊢
  rwa [tcl]

theorem told (h : attemptEnds s t p) (hplain : noWithdrawal p) {ns : List Notice} {k : CommandLink}
    (hp : p.cl = ns.foldl raiseLink k) (hk : sameNotices k s.cl) : told s t ns := by
  obtain ⟨u, hu, hfreed⟩ := h
  obtain ⟨-, -, -, -, -, -, -, tcl, -⟩ := hfreed.records
  have := hu.told hplain hp hk
  unfold Machine.told at this ⊢
  rwa [tcl]

theorem nodeOf_eq (h : attemptEnds s t p) (hplain : noWithdrawal p) (a : Nat) : nodeOf t.toPart a = nodeOf p a := by
  obtain ⟨u, hu, hfreed⟩ := h
  rw [nodeOf_congr hfreed.nodes, nodeOf_congr (hu.traffic hplain).nodes]

/-- Where no trigger arose, the records are those of the outcome. -/
theorem quiet (h : attemptEnds s t p) (hplain : noWithdrawal p) (hscan : p.evt.scan = false) :
    t.sm = p.sm ∧ t.mp = p.mp ∧ ∀ c, Leaves c p t.toPart := by
  obtain ⟨u, hu, hfreed⟩ := h
  obtain ⟨-, -, -, -, -, tsm, tmp, -⟩ := hfreed.records
  obtain ⟨-, -, -, -, -, usm, ump, ucsA, ucsB, -⟩ := hu.becomes hplain hscan
  exact ⟨tsm.trans usm, tmp.trans ump, fun c => (Leaves.of_eq (craneOf_congr ucsA ucsB c)).trans (hfreed.cranes c)⟩

/-- Where a trigger arose, they are those of the scan that follows in RUN. -/
theorem scannedCore (h : attemptEnds s t p) (hplain : noWithdrawal p) (hscan : p.evt.scan = true) (hmc : p.mc = s.mc) :
    scannedCore s t p := by
  obtain ⟨u, hu, hfreed⟩ := h
  obtain ⟨-, -, tbs, tcc, -, tsm, tmp, -⟩ := hfreed.records
  obtain ⟨cl, evt, -, -, ubs, ucc, -, usm, ump, ucsA, ucsB, -⟩ := hu.scanned hplain hscan hmc
  exact ⟨p.fl, cl, evt, tbs.trans ubs, tcc.trans ucc, tsm.trans usm, tmp.trans ump,
    (hfreed.cranes .A).1.trans (congrArg craneCore ucsA), (hfreed.cranes .B).1.trans (congrArg craneCore ucsB)⟩

/-- A crane that is not IDLE is left as the outcome has it, its reservation too. -/
theorem spares (h : attemptEnds s t p) (hplain : noWithdrawal p) {b : CraneId} (hb : (craneOf p b).state ≠ .idle) :
    Leaves b p t.toPart ∧ reservationOf t.toPart b = reservationOf p b := by
  obtain ⟨u, hu, hfreed⟩ := h
  obtain ⟨-, -, -, -, -, -, tmp, -⟩ := hfreed.records
  have spared := hu.spares hplain hb
  refine ⟨spared.leaves.trans (hfreed.cranes b), Eq.trans ?_ spared.reservation⟩
  cases b
  · exact congrArg (·.resA) tmp
  · exact congrArg (·.resB) tmp

theorem dispatched (h : attemptEnds s t p) (hplain : noWithdrawal p) (d : CraneId) :
    Dispatched (craneOf p d) (craneOf t.toPart d) := by
  obtain ⟨u, hu, hfreed⟩ := h
  exact (hu.dispatched hplain d).trans (.of_core (hfreed.cranes d).1)

/-- A STOP that waits behind the attempt on the line stands when the line is free. -/
theorem stops (h : attemptEnds s t p) (hplain : noWithdrawal p) (hline : p.fl.line.isSome) {base a : Nat}
    (hnode : (nodeOf p a).isSome) (hbase : base ≤ p.fl.serial) (hwaits : stopWaits a p) : stopStands base a t.toPart := by
  obtain ⟨u, hu, hfreed⟩ := h
  have traffic := hu.traffic hplain
  exact hfreed.stops base a (by rwa [nodeOf_congr traffic.nodes]) (hbase.trans traffic.serial) ((traffic.busy hline).2 a hwaits)

theorem barred_of (h : attemptEnds s t p) (hplain : noWithdrawal p) {a : Nat} (hbarred : barred a p) : barred a t.toPart := by
  obtain ⟨u, hu, hfreed⟩ := h
  exact hfreed.lost a ((hu.traffic hplain).lost a hbarred)

end attemptEnds

/-! ### The first location of a crane on a runway of negative length (R149, R150)

The statement of `OverrunStops` ranges over stores with a negative runway length. No run reaches one (R1); there both ends of
the reservation clamp to 0, so that position 0 lies beyond the runway's end and yet within the reservation. -/

/-- The store with crane A at address 7, on a runway of length −1. -/
def shortRunway : Store := { Store.fresh with runway := -1, craneA := some ⟨7, 0⟩ }

/-- A part at which crane A, not yet located, has a poll on the line. -/
def firstReply : State :=
  { State.reset with
    store := shortRunway,
    toPart := { Part.reset with
      fl := { FieldLink.fresh with
        opened := true,
        nodes := [(7, Node.fresh (.crane .A))],
        line := some ⟨0, 7, .crane .A, .round, .poll, none, 1, false, false, 9600⟩ } } }

/-- A good reply of the crane node 7: at rest at position 0. -/
def restReply : List FieldChar := [7, 0, 0, 0, 0, 0, 249].map fun b => ⟨b, false, false⟩

/-- The state after the reply. -/
def firstReplyAfter : State := attemptEnd (replyEnded shortRunway restReply) firstReply

theorem firstReplyAfter_eq : execReplyComplete restReply firstReply = .next firstReplyAfter := rfl

theorem state_firstReplyAfter : firstReplyAfter.csA.state = .idle := by decide

theorem craneReplies_firstReply : craneReplies firstReply .A ⟨0, 7, .crane .A, .round, .poll, none, 1, false, false, 9600⟩
    (Node.fresh (.crane .A)) restReply ⟨0, .stopped, .up, false, false, 0⟩ :=
  ⟨rfl, rfl, rfl, rfl, rfl, by decide, by decide, by decide⟩

/-- Refutes O46: at `firstReply` crane A is located beyond the runway's end, and becomes IDLE. -/
theorem not_overrunStops : ¬ Obligations.OverrunStops := by
  intro h
  obtain ⟨hfirst, -⟩ := h _ _ _ _ _ _ craneReplies_firstReply
  obtain ⟨-, hbeyond, -⟩ := hfirst rfl rfl rfl
  obtain ⟨t, ht, -, -, -, -, -, -, ⟨-, hstopped, -⟩, -⟩ := hbeyond (by decide) (by decide)
  obtain rfl : firstReplyAfter = t := Host.Outcome.next.inj (firstReplyAfter_eq.symm.trans ht)
  have hstate : firstReplyAfter.csA.state = .stopped := hstopped
  rw [state_firstReplyAfter] at hstate
  cases hstate

/-! ### A step's command between its offer and its exchange (R139, R164) -/

section urged

variable {g : Store} {p q : Part} {c : CraneId} {a : Nat}

/-- The arbiter changes the supervisors' records only by freeing an entry. -/
theorem nextExchange_forms (g : Store) (p : Part) : ∃ fl : FieldLink, fl.nodes = p.fl.nodes ∧
    (nextExchange g p = { p with fl := fl } ∨ nextExchange g p = entryFreed g { p with fl := fl }) := by
  have begins (o : Part) (b : Nat) (cls : ExchangeClass) (cmd : FieldCmd) (by_ : Option Requester) :
      ∃ fl : FieldLink, fl.nodes = o.fl.nodes ∧ beginExchange g b cls cmd by_ o = { o with fl := fl } := by
    unfold beginExchange
    split
    · exact ⟨o.fl, rfl, rfl⟩
    · refine ⟨_, ?_, rfl⟩
      rfl
  have entry (e : Entry) (cls : ExchangeClass) : ∃ fl : FieldLink, fl.nodes = p.fl.nodes ∧
      beginEntry g e cls p = entryFreed g { p with fl := fl } := by
    obtain ⟨fl, hnodes, heq⟩ := begins (setDirected (p.fl.queue.filter fun d => !sameEntry e d) p) e.addr cls e.cmd (some e.by_)
    exact ⟨fl, hnodes, by rw [beginEntry, heq]; rfl⟩
  unfold nextExchange
  split
  · exact ⟨p.fl, rfl, .inl rfl⟩
  · split
    · next e _ =>
      obtain ⟨fl, hnodes, heq⟩ := begins { p with fl := { p.fl with repeatStop := none } } e.addr .stop e.cmd (some e.by_)
      exact ⟨fl, hnodes, .inl heq⟩
    · split
      · next e _ =>
        obtain ⟨fl, hnodes, heq⟩ := entry e .stop
        exact ⟨fl, hnodes, .inr heq⟩
      · split
        · refine ⟨_, ?_, .inl rfl⟩
          rfl
        · split
          · next e _ _ =>
            obtain ⟨fl, hnodes, heq⟩ := entry e .directed
            exact ⟨fl, hnodes, .inr heq⟩
          · split
            · split
              · next b _ =>
                obtain ⟨fl, hnodes, heq⟩ := begins p b .motion .poll none
                exact ⟨fl, hnodes, .inl heq⟩
              · exact ⟨p.fl, rfl, .inl rfl⟩
            · unfold beginRoundPoll
              split
              · next b _ _ =>
                obtain ⟨fl, hnodes, heq⟩ := begins { p with fl := { p.fl with roundPos := b } } b .round .poll none
                exact ⟨fl, hnodes, .inl heq⟩
              · exact ⟨p.fl, rfl, .inl rfl⟩

theorem entryFreed_forms (g : Store) (p : Part) : ∃ first ties,
    entryFreed g p = reoffer g (otherCrane first) (reoffer g first { p with fl := { p.fl with ties := ties } }) := by
  unfold entryFreed
  split
  · split
    · exact ⟨.B, _, rfl⟩
    · exact ⟨.A, _, rfl⟩
  · exact ⟨.A, p.fl.ties, rfl⟩

/-- The step timer that runs once the step's command is accepted. -/
def stepTimer (g : Store) (r : Crane) : TimeoutKind × Timer :=
  r.timer.getD (timeoutKind r.state, .start (timeoutLength g (timeoutKind r.state)))

theorem startStepTimer_eq (r : Crane) : startStepTimer g r = { r with timer := some (stepTimer g r) } := by
  unfold startStepTimer stepTimer
  split
  · next timer htimer =>
    rw [htimer]
    change r = { r with timer := some timer }
    rw [← htimer]
  · next htimer => rw [htimer]; rfl

/-- Between two records of a crane its step's command went from WAITING to QUEUED at most, and the step timer started with
it. -/
def Urged (g : Store) (c : CraneId) (p q : Part) : Prop :=
  craneCore (craneOf q c) = craneCore (craneOf p c) ∧
  (((craneOf q c).command = (craneOf p c).command ∧ (craneOf q c).timer = (craneOf p c).timer) ∨
    ∃ cmd, (craneOf p c).command = some (cmd, .waiting) ∧ (craneOf q c).command = some (cmd, .queued) ∧
      (craneOf q c).timer = some (stepTimer g (craneOf p c)))

theorem Urged.of_eq (h : craneOf q c = craneOf p c) : Urged g c p q := by
  rw [Urged, h]
  exact ⟨rfl, .inl ⟨rfl, rfl⟩⟩

theorem Urged.trans {r : Part} (h : Urged g c p q) (k : Urged g c q r) : Urged g c p r := by
  obtain ⟨hcore, h⟩ := h
  obtain ⟨kcore, k⟩ := k
  refine ⟨kcore.trans hcore, ?_⟩
  rcases h with ⟨hcmd, htimer⟩ | ⟨cmd, hwait, hqueued, htimer⟩
  · rcases k with ⟨kcmd, ktimer⟩ | ⟨cmd, kwait, kqueued, ktimer⟩
    · exact .inl ⟨kcmd.trans hcmd, ktimer.trans htimer⟩
    · have hstate := field_of_core hcore (·.state)
      exact .inr ⟨cmd, hcmd ▸ kwait, kqueued, by rw [ktimer, stepTimer, htimer, hstate, stepTimer]⟩
  · rcases k with ⟨kcmd, ktimer⟩ | ⟨cmd', kwait, -⟩
    · exact .inr ⟨cmd, hwait, kcmd.trans hqueued, ktimer.trans htimer⟩
    · rw [hqueued] at kwait
      cases kwait

theorem reachable.traffic {mine : Set CraneId} (h : reachable g c p a) (k : Traffic mine p q) : reachable g c q a := by
  obtain ⟨ha, nd, hnode, halive⟩ := h
  exact ⟨ha, nd, by rwa [nodeOf_congr k.nodes], halive⟩

theorem urged_reoffer (h : reachable g c p a) (d : CraneId) : Urged g c p (reoffer g d p) := by
  have kept : Urged g c p (reofferKept g d p) := by
    unfold reofferKept
    split
    · next cmd b _ _ =>
      have hsame := craneOf_enqueue (p := p) ⟨b, cmd, .cs d⟩ c
      have own (x : Option FieldCmd) : Urged g c p
          (putCrane d { craneOf (enqueue ⟨b, cmd, .cs d⟩ p).2 d with kept := x } (enqueue ⟨b, cmd, .cs d⟩ p).2) := by
        by_cases hd : c = d
        · subst hd
          rw [Urged, craneOf_putCrane_same, hsame]
          exact ⟨rfl, .inl ⟨rfl, rfl⟩⟩
        · exact .of_eq ((craneOf_putCrane_other hd _ _).trans hsame)
      unfold plainAnswered
      split <;> exact own _
    · exact .of_eq rfl
  refine kept.trans ?_
  have h' := h.traffic ((Traffic.refl (mine := ∅) p).then_reofferKept (g := g) d)
  unfold Machine.reoffer
  generalize reofferKept g d p = o at h' ⊢
  unfold reofferStep
  split
  · next cmd b hwaiting hb =>
    have hsame := craneOf_enqueue (p := o) ⟨b, cmd, .cs d⟩ c
    by_cases hd : c = d
    · subst hd
      obtain ⟨ha, nd, hnode, halive⟩ := h'
      obtain rfl : a = b := Option.some.inj (ha.symm.trans hb)
      have hwait : (craneOf o c).command = some (cmd, .waiting) := by
        unfold waitingCommand at hwaiting
        split at hwaiting
        · next h => rw [h, Option.some.inj hwaiting]
        · cases hwaiting
      have hanswer := (enqueue_answer (e := ⟨a, cmd, .cs c⟩) hnode halive).1
      unfold commandAnswered
      split
      · rw [Urged, craneOf_putCrane_same, hsame, startStepTimer_eq]
        exact ⟨rfl, .inr ⟨cmd, hwait, rfl, rfl⟩⟩
      · rw [Urged, craneOf_putCrane_same, hsame]
        exact ⟨rfl, .inl ⟨hwait.symm, rfl⟩⟩
      · next hdiscarded => exact absurd hdiscarded hanswer
    · unfold commandAnswered
      split <;> exact .of_eq ((craneOf_putCrane_other hd _ _).trans hsame)
  · exact .of_eq rfl

theorem urged_entryFreed (h : reachable g c p a) : Urged g c p (entryFreed g p) := by
  obtain ⟨first, ties, heq⟩ := entryFreed_forms g p
  have tied : Traffic ∅ p { p with fl := { p.fl with ties := ties } } :=
    ⟨rfl, le_refl _, fun d _ => .of_eq (by cases d <;> rfl), fun _ _ _ _ h => h, fun h => ⟨h, fun _ h => h⟩, fun _ h => h⟩
  have h' := h.traffic tied
  have once := h'.traffic (((Traffic.refl (mine := ∅) _).then_reofferKept (g := g) first).then_reofferStep (g := g) first)
  rw [heq]
  exact (Urged.trans (.of_eq (by cases c <;> rfl)) (urged_reoffer h' first)).trans (urged_reoffer once _)

theorem urged_nextExchange (h : reachable g c p a) : Urged g c p (nextExchange g p) := by
  obtain ⟨fl, hnodes, heq | heq⟩ := nextExchange_forms g p
  · rw [heq]
    exact .of_eq (by cases c <;> rfl)
  · rw [heq]
    obtain ⟨ha, nd, hnode, halive⟩ := h
    exact Urged.trans (.of_eq (by cases c <;> rfl)) (urged_entryFreed (a := a) ⟨ha, nd, by rwa [nodeOf_congr hnodes], halive⟩)

theorem urged_releaseLine (h : reachable g c p a) : Urged g c p (releaseLine g p) := by
  obtain ⟨on, pos, timer, heq⟩ := lineFree_eq g (lineCleared p)
  rw [releaseLine_eq, heq]
  obtain ⟨ha, nd, hnode, halive⟩ := h
  exact Urged.trans (.of_eq (by cases c <;> rfl)) (urged_nextExchange (a := a) ⟨ha, nd, hnode, halive⟩)

end urged

/-! ### The cause of a failed attempt (R157) -/

theorem hookOf_isNone_iff {status : Nat} : (hookOf status).isNone = true ↔ status / 2 % 4 = 3 := by
  obtain ⟨n, hn⟩ : ∃ n, n = status / 2 % 4 := ⟨_, rfl⟩
  have hlt : n < 4 := by omega
  rw [hookOf, ← hn]
  match n, hlt with
  | 0, _ => simp
  | 1, _ => simp
  | 2, _ => simp
  | 3, _ => simp

/-- The hook field of a crane reply of seven characters. -/
theorem badContent_iff {kind : NodeKind} {bytes : List Nat} (hlength : bytes.length = replyLength kind) :
    badContent kind bytes = (kind == .crane && (bytes[3]?.getD 0) / 2 % 4 == 3) := by
  cases kind with
  | zone => rfl
  | yard => rfl
  | crane =>
    obtain ⟨b0, b1, b2, status, rest, rfl⟩ : ∃ b0 b1 b2 status rest, bytes = b0 :: b1 :: b2 :: status :: rest := by
      match bytes, hlength with
      | b0 :: b1 :: b2 :: status :: rest, _ => exact ⟨b0, b1, b2, status, rest, rfl⟩
    rw [Bool.eq_iff_iff, badContent, hookOf_isNone_iff]
    simp

/-- The content of a reply is judged only where its length is right. -/
theorem first_cause : ∀ framing address gap long check content judged : Bool, (gap || long || (content == judged)) = true →
    (if framing then some AttemptFailure.framing else if address then some .address else if gap then some .gap
      else if long then some .length else if check then some .check else if content then some .content else none) =
    (([(AttemptFailure.framing, framing), (.address, address), (.gap, gap), (.length, long), (.check, check),
      (.content, judged)]).find? (·.2)).map Prod.fst := by decide

/-- The cause with which a reply fails is the first of R157's table that applies. -/
theorem replyFault_eq (kind : NodeKind) (addr : Nat) (chars : List FieldChar) :
    replyFault kind addr chars = ((causesOf kind addr chars).find? (·.2)).map Prod.fst := by
  have hjudged (n : Nat) (hn : n = replyLength kind) : (decide ((chars.map (·.data)).length < n) ||
      decide (n < (chars.map (·.data)).length) || (badContent kind (chars.map (·.data)) ==
        (kind == .crane && ((chars.map (·.data))[3]?.getD 0) / 2 % 4 == 3))) = true := by
    by_cases hlength : (chars.map (·.data)).length = n
    · rw [badContent_iff (hlength.trans hn)]
      simp
    · rw [Bool.or_eq_true, Bool.or_eq_true, decide_eq_true_eq, decide_eq_true_eq]
      omega
  have hfirst (n : Nat) (hn : n = replyLength kind) := first_cause (chars.any fun ch => ch.framing || ch.address)
    ((chars.map (·.data)).head? != some addr) _ _ ((chars.map (·.data)).sum % 256 != 0) _ _ (hjudged n hn)
  simp only [decide_eq_true_eq, bne_iff_ne] at hfirst
  cases kind <;> exact hfirst _ rfl

/-- What ends an attempt in a failure. -/
theorem exec_of_failsWith {s : State} {i : Instr} {ex : Exchange} {cause : AttemptFailure} (h : failsWith i ex cause) :
    ∃ f : Exchange → Part → Part, exec i s = .next (attemptEnd f s) ∧ ∀ p, f ex p = attemptFailed s.store ex cause p := by
  rcases h with ⟨rfl, rfl⟩ | ⟨chars, rfl, hchars, hfault⟩
  · exact ⟨_, rfl, fun _ => rfl⟩
  · refine ⟨replyEnded s.store chars, ?_, fun p => ?_⟩
    · have hempty : chars.isEmpty = false := by cases chars <;> first | exact absurd rfl hchars | rfl
      change execReplyComplete chars s = _
      rw [execReplyComplete, hempty]
      rfl
    · rw [← replyFault_eq] at hfault
      rw [replyEnded, hfault]

/-! ### The retry (R159 to R161) -/

section retry

variable {g : Store} {p : Part} {ex : Exchange} {nd : Node} {cause : AttemptFailure}

theorem recordCause_of_named (horphan : ex.orphan = false) (hnode : nodeOf p ex.addr = some nd) :
    recordCause ex cause p = putNode ex.addr { nd with lastCause := some cause } p := by
  rw [recordCause, horphan, hnode]

/-- With no STOP before it, the exchange whose retry is the latest due takes the free line. -/
theorem releaseLine_of_waiting {rest : List Exchange} (hopened : p.fl.opened = true) (hrepeat : p.fl.repeatStop = none)
    (hstops : ∀ e ∈ p.fl.queue, isStop e.cmd = false) (hwaiting : p.fl.waiting = ex :: rest) : ∃ on pos timer,
    releaseLine g p = { p with fl := { p.fl with
      line := some (retryOf ex), waiting := rest, replyTimer := some (.start g.plant.replyTimeout.toNat),
      roundOn := on, roundPos := pos, roundTimer := timer } } := by
  obtain ⟨on, pos, timer, heq⟩ := lineFree_eq g (lineCleared p)
  refine ⟨on, pos, timer, ?_⟩
  have hfind : p.fl.queue.find? (fun e => isStop e.cmd) = none := List.find?_eq_none.mpr (by simpa using hstops)
  rw [releaseLine_eq, heq, nextExchange]
  simp only [lineCleared, hopened, hrepeat, hfind, hwaiting]
  rfl

theorem retryOf_eq : retryOf ex =
    if ex.withdrawn then { ex with attempt := 2, cmd := .poll, by_ := none } else { ex with attempt := 2 } := rfl

/-- A first attempt fails: nothing but the node's last cause and the line changes. -/
theorem attemptEnd_retry {s : State} {f : Exchange → Part → Part} (hpower : s.mc.power = true) (hline : s.fl.line = some ex)
    (horphan : ex.orphan = false) (hnode : nodeOf s.toPart ex.addr = some nd) (hfirst : ex.attempt = 1)
    (hf : ∀ p, f ex p = attemptFailed s.store ex cause p) (hopened : s.fl.opened = true) (hrepeat : s.fl.repeatStop = none)
    (hstops : ∀ e ∈ s.fl.queue, isStop e.cmd = false) : ∃ on pos timer,
    attemptEnd f s = { event (f ex) s with toPart := sendNext { s.toPart with evt := .none, fl := { s.fl with
      nodes := Map.put s.fl.nodes ex.addr { nd with lastCause := some cause }, line := some (retryOf ex),
      replyTimer := some (.start s.store.plant.replyTimeout.toNat), roundOn := on, roundPos := pos, roundTimer := timer } } } := by
  have hfailed : f ex { s.toPart with evt := .none } = awaitRetry ex
      (putNode ex.addr { nd with lastCause := some cause } { s.toPart with evt := .none }) := by
    rw [hf, attemptFailed, if_pos hfirst, recordCause_of_named (p := { s.toPart with evt := .none }) horphan hnode]
  obtain ⟨on, pos, timer, heq⟩ := releaseLine_of_waiting (g := s.store) (ex := ex) (rest := s.fl.waiting)
    (p := awaitRetry ex (putNode ex.addr { nd with lastCause := some cause } { s.toPart with evt := .none }))
    hopened hrepeat hstops rfl
  refine ⟨on, pos, timer, ?_⟩
  rw [attemptEnd_eq hpower hline, hfailed, endOfEvent_quiet (by rfl), heq]
  rfl

end retry

/-! ### A miss (R159, R167, R168) -/

section missed

variable {g : Store} {p : Part} {ex : Exchange} {nd : Node} {cause : AttemptFailure}

/-- A node's entry once the miss is counted. -/
def missedNode (nd : Node) (cause : AttemptFailure) : Node := { nd with lastCause := some cause, misses := min 8 (nd.misses + 1) }

/-- The part with the cause recorded and the miss counted. -/
def missCounted (ex : Exchange) (nd : Node) (cause : AttemptFailure) (p : Part) : Part :=
  putNode ex.addr (missedNode nd cause) (putNode ex.addr { nd with lastCause := some cause } p)

theorem nodeOf_putNode_same (a : Nat) (r : Node) : nodeOf (putNode a r p) a = some r := Map.find_put_same _ _ _

theorem nodeOf_putNode_other {a b : Nat} (h : b ≠ a) (r : Node) : nodeOf (putNode a r p) b = nodeOf p b :=
  Map.find_put_other _ _ _ _ h

theorem nodeOf_missCounted : nodeOf (missCounted ex nd cause p) ex.addr = some (missedNode nd cause) := nodeOf_putNode_same _ _

theorem isSome_nodeOf_missCounted {a : Nat} (h : (nodeOf p a).isSome) : (nodeOf (missCounted ex nd cause p) a).isSome := by
  by_cases ha : a = ex.addr
  · rw [ha, nodeOf_missCounted]
    rfl
  · rwa [missCounted, nodeOf_putNode_other ha, nodeOf_putNode_other ha]

theorem craneOf_missCounted (c : CraneId) : craneOf (missCounted ex nd cause p) c = craneOf p c := by cases c <;> rfl

/-- A failed second attempt, in its steps. -/
theorem attemptFailed_of_second (hsecond : ex.attempt ≠ 1) (horphan : ex.orphan = false) (hnode : nodeOf p ex.addr = some nd) :
    attemptFailed g ex cause p = repeatMissedStop ex (judgeStanding g ex.addr (reportMiss g ex (missCounted ex nd cause p))) := by
  have hcount : countMiss ex.addr (putNode ex.addr { nd with lastCause := some cause } p) = missCounted ex nd cause p := by
    rw [countMiss, nodeOf_putNode_same]
    rfl
  have horphan' : ¬ ex.orphan = true := by simp [horphan]
  rw [attemptFailed, if_neg hsecond, recordCause_of_named horphan hnode, miss, if_neg horphan', hcount]

/-- The command that an exchange carried is offered again, or its zone's valve served again (R167). -/
def carriedBy (ex : Exchange) (who : Requester) : Prop := ex.by_ = some who ∧ ex.withdrawn = false ∧ ex.cmd ≠ .stop

theorem not_skipped {who : Requester} (h : carriedBy ex who) : ¬ (ex.withdrawn || isStop ex.cmd) = true := by
  obtain ⟨-, hwithdrawn, hstop⟩ := h
  rw [hwithdrawn, Bool.false_or, isStop_eq_true_iff]
  exact hstop

theorem reportMiss_of_crane {c : CraneId} (h : carriedBy ex (.cs c)) : reportMiss g ex p = commandMissed g c ex.cmd p := by
  rw [reportMiss, if_neg (not_skipped h), h.1]

theorem reportMiss_of_valve {b z : Nat} (h : carriedBy ex .cc) (howner : ex.owner = .zone b z) :
    reportMiss g ex p = valveMissed b z p := by
  rw [reportMiss, if_neg (not_skipped h), h.1, howner]

/-- The forms of a miss's report to the owner of its command. -/
theorem reportMiss_forms (g : Store) (ex : Exchange) (p : Part) : reportMiss g ex p = p ∨
    (carriedBy ex .cc ∧ ∃ b z, ex.owner = .zone b z ∧ reportMiss g ex p = valveMissed b z p) ∨
    ∃ c, carriedBy ex (.cs c) ∧ reportMiss g ex p = commandMissed g c ex.cmd p := by
  by_cases hskip : (ex.withdrawn || isStop ex.cmd) = true
  · exact .inl (by rw [reportMiss, if_pos hskip])
  · have hcarried (who : Requester) (hby : ex.by_ = some who) : carriedBy ex who := by
      rw [Bool.or_eq_true, not_or, Bool.not_eq_true, isStop_eq_true_iff] at hskip
      exact ⟨hby, hskip⟩
    rw [reportMiss, if_neg hskip]
    split
    · next b z hby howner => exact .inr (.inl ⟨hcarried _ hby, b, z, howner, rfl⟩)
    · next c hby => exact .inr (.inr ⟨c, hcarried _ hby, rfl⟩)
    · exact .inl rfl

theorem traffic_reportMiss (g : Store) (ex : Exchange) (p : Part) : Traffic Set.univ p (reportMiss g ex p) := by
  rcases reportMiss_forms g ex p with h | ⟨-, b, z, -, h⟩ | ⟨c, -, h⟩ <;> rw [h]
  · exact .refl p
  · exact .of_sameLink (by simp) fun c hc => absurd (Set.mem_univ c) hc
  · unfold commandMissed
    split
    · exact (Traffic.refl p).then_offerStep (Set.mem_univ c) _
    · exact (Traffic.refl p).then_offerPlain (Set.mem_univ c) _

/-- CC's records after the report. -/
theorem cc_reportMiss (g : Store) (ex : Exchange) (p : Part) :
    (reportMiss g ex p).cc.contexts = p.cc.contexts ∧ (reportMiss g ex p).cc.alloc = p.cc.alloc ∧
    (reportMiss g ex p).cc.timer = p.cc.timer ∧ (¬ carriedBy ex .cc → (reportMiss g ex p).cc.valves = p.cc.valves) := by
  rcases reportMiss_forms g ex p with h | ⟨hcc, b, z, -, h⟩ | ⟨c, -, h⟩ <;> rw [h]
  · exact ⟨rfl, rfl, rfl, fun _ => rfl⟩
  · exact ⟨rfl, rfl, rfl, fun hnot => absurd hcc hnot⟩
  · obtain ⟨-, -, kcc, -⟩ := commandMissed_keeps g c ex.cmd p
    rw [kcc]
    exact ⟨rfl, rfl, rfl, fun _ => rfl⟩

/-! ### A node becomes LOST -/

/-- The crane that a node's loss stops. -/
def stopsFor (nd : Node) (p : Part) (c : CraneId) : Prop := nd.owner = .crane c ∧ canStop (craneOf p c).state = true

/-- The part with the node LOST and its entries gone, told of. -/
def lostTold (g : Store) (addr : Nat) (nd : Node) (p : Part) : Part :=
  raise (.nodeLost addr nd.owner nd.misses nd.lastCause) (dropEntries g addr (putNode addr { nd with standing := .lost } p))

theorem loseNode_eq (addr : Nat) : loseNode g addr nd p = reportLoss g nd.owner (lostTold g addr nd p) := rfl

theorem loseNode_forms (addr : Nat) : (∃ c, stopsFor nd (lostTold g addr nd p) c ∧
      loseNode g addr nd p = stopCrane g c .nodeLost false (lostTold g addr nd p)) ∨
    ((∀ c, ¬ stopsFor nd (lostTold g addr nd p) c) ∧ loseNode g addr nd p = lostTold g addr nd p) := by
  rw [loseNode_eq]
  unfold reportLoss
  split
  · next c howner =>
    rw [craneNodeLost, stopIfLocated]
    split
    · next hcan => exact .inl ⟨c, ⟨howner, hcan⟩, rfl⟩
    · next hcannot =>
      refine .inr ⟨fun d hd => ?_, rfl⟩
      obtain ⟨hd, hcan⟩ := hd
      obtain rfl : c = d := by rw [howner] at hd; exact Owner.crane.inj hd
      exact hcannot hcan
  · next hnone => exact .inr ⟨fun c hc => hnone c hc.1, rfl⟩

theorem traffic_dropEntries (addr : Nat) : Traffic ∅ (setDirected (p.fl.queue.filter fun e => e.addr != addr) p) (dropEntries g addr p) := by
  unfold dropEntries
  dsimp only
  split
  · exact (Traffic.refl _).then_entryFreed
  · exact .refl _

theorem traffic_lostTold (addr : Nat) : Traffic ∅
    (setDirected (p.fl.queue.filter fun e => e.addr != addr) (putNode addr { nd with standing := .lost } p)) (lostTold g addr nd p) :=
  (traffic_dropEntries (g := g) (p := putNode addr { nd with standing := .lost } p) addr).then_same (by simp [lostTold])
    fun c _ => craneOf_congr (by simp [lostTold]) (by simp [lostTold]) c

theorem craneCore_lostTold (addr : Nat) (c : CraneId) : craneCore (craneOf (lostTold g addr nd p) c) = craneCore (craneOf p c) :=
  ((traffic_lostTold addr).cranes c (Set.notMem_empty c)).1.trans (congrArg craneCore (by cases c <;> rfl))

theorem nodeOf_lostTold (addr : Nat) : nodeOf (lostTold g addr nd p) addr = some { nd with standing := .lost } :=
  (nodeOf_congr (traffic_lostTold addr).nodes addr).trans (nodeOf_putNode_same _ _)

theorem barred_lostTold (addr : Nat) : barred addr (lostTold g addr nd p) :=
  (traffic_lostTold addr).lost addr ⟨⟨_, nodeOf_putNode_same _ _, rfl⟩, fun e he => by
    simpa using (List.mem_filter.mp he).2⟩

theorem traffic_lostTold_loseNode (addr : Nat) : Traffic Set.univ (lostTold g addr nd p) (loseNode g addr nd p) := by
  rcases loseNode_forms (g := g) (p := p) (nd := nd) addr with ⟨c, -, h⟩ | ⟨-, h⟩ <;> rw [h]
  · exact (Traffic.refl _).then_stopCrane (Set.mem_univ c) _ _
  · exact .refl _

/-- What a node's loss leaves of the two cranes: the last reports; and of the crane that it stops, that it is STOPPED. -/
theorem craneOf_loseNode (addr : Nat) (c : CraneId) :
    craneHeard (craneOf (loseNode g addr nd p) c) = craneHeard (craneOf p c) ∧
    (stopsFor nd p c → (craneOf (loseNode g addr nd p) c).state = .stopped ∧
      (craneOf (loseNode g addr nd p) c).reason = some .nodeLost) := by
  have hcore := craneCore_lostTold (g := g) (nd := nd) (p := p) addr c
  have hstate : (craneOf (lostTold g addr nd p) c).state = (craneOf p c).state := field_of_core hcore (·.state)
  have hheard : craneHeard (craneOf (lostTold g addr nd p) c) = craneHeard (craneOf p c) := field_of_core hcore craneHeard
  rcases loseNode_forms (g := g) (p := p) (nd := nd) addr with ⟨d, hd, h⟩ | ⟨hnone, h⟩ <;> rw [h]
  · by_cases hcd : c = d
    · subst hcd
      rw [craneOf_stopCrane]
      exact ⟨hheard, fun _ => ⟨rfl, rfl⟩⟩
    · have traffic := (Traffic.refl (mine := {d}) (lostTold g addr nd p)).then_stopCrane (g := g) (Set.mem_singleton d) .nodeLost false
      refine ⟨(field_of_core (traffic.cranes c (by simpa using hcd)).1 craneHeard).trans hheard, fun hc => absurd ?_ hcd⟩
      exact Owner.crane.inj (hc.1.symm.trans hd.1)
  · refine ⟨hheard, fun hc => absurd ?_ (hnone c)⟩
    exact ⟨hc.1, by rw [hstate]; exact hc.2⟩

/-- The notices of a node's loss: NODE LOST first. -/
theorem cl_loseNode (addr : Nat) : ∃ ns, (loseNode g addr nd p).cl =
    (.nodeLost addr nd.owner nd.misses nd.lastCause :: ns).foldl raiseLink p.cl := by
  have htold : (lostTold g addr nd p).cl = raiseLink p.cl (.nodeLost addr nd.owner nd.misses nd.lastCause) := by
    simp [lostTold, raise_cl]
  rcases loseNode_forms (g := g) (p := p) (nd := nd) addr with ⟨c, -, h⟩ | ⟨-, h⟩ <;> rw [h]
  · obtain ⟨ns, hns⟩ := stopCrane_cl (g := g) (c := c) (p := lostTold g addr nd p) .nodeLost false
    rw [htold] at hns
    exact ⟨_ :: ns, hns⟩
  · exact ⟨[], htold⟩

theorem changed_loseNode (addr : Nat) : (loseNode g addr nd p).evt.changed = p.evt.changed := by
  have htold : (lostTold g addr nd p).evt = p.evt := by simp [lostTold]
  rcases loseNode_forms (g := g) (p := p) (nd := nd) addr with ⟨c, -, h⟩ | ⟨-, h⟩ <;> rw [h]
  · rw [(evt_stopCrane _ _).1, htold]
  · rw [htold]

/-- A missed STOP is kept for the line, where its node is not LOST. -/
theorem repeatMissedStop_forms (ex : Exchange) (p : Part) :
    ∃ e, repeatMissedStop ex p = { p with fl := { p.fl with repeatStop := e } } := by
  unfold repeatMissedStop
  split
  · split
    · exact ⟨_, rfl⟩
    · exact ⟨p.fl.repeatStop, rfl⟩
  · exact ⟨p.fl.repeatStop, rfl⟩

theorem traffic_repeatMissedStop (ex : Exchange) (p : Part) : Traffic ∅ p (repeatMissedStop ex p) := by
  obtain ⟨e, h⟩ := repeatMissedStop_forms ex p
  rw [h]
  exact ⟨rfl, le_refl _, fun c _ => .of_eq (by cases c <;> rfl), fun _ _ _ _ h => h, fun h => ⟨h, fun _ h => h⟩, fun _ h => h⟩

end missed

/-! ### The missed command's owner (R139, R159, R167) -/

section owners

variable {g : Store} {p : Part} {ex : Exchange} {c : CraneId} {a : Nat}

theorem offer_of_busy (h : p.fl.line.isSome) (e : Entry) : offer g e p = enqueue e p := by
  obtain ⟨l, hl⟩ := enqueue_eq e p
  have hbusy : (enqueue e p).2.fl.line.isSome = true := by rw [hl]; exact h
  rw [offer, nextExchange_of_busy hbusy]

/-- Behind the attempt on the line, a missed command of a crane is offered as FL judges an offer. -/
theorem commandMissed_of_busy (h : p.fl.line.isSome) (ha : craneNode g c = some a) (cmd : FieldCmd) :
    commandMissed g c cmd p =
      if (craneOf p c).command = some (cmd, .queued) then
        commandAnswered g c cmd (enqueue ⟨a, cmd, .cs c⟩ p).1 (enqueue ⟨a, cmd, .cs c⟩ p).2
      else plainAnswered c cmd (enqueue ⟨a, cmd, .cs c⟩ p).1 (enqueue ⟨a, cmd, .cs c⟩ p).2 := by
  rw [commandMissed, offerStep, offerPlain, ha]
  dsimp only
  rw [offer_of_busy h]

/-- A missed command of a step is QUEUED again or WAITING, its step's timer running on. -/
theorem command_missed (hbusy : p.fl.line.isSome) (hreach : reachable g c p a) {cmd : FieldCmd}
    (hcmd : (craneOf p c).command = some (cmd, .queued)) :
    ((craneOf (commandMissed g c cmd p) c).command = some (cmd, .queued) ∨
      (craneOf (commandMissed g c cmd p) c).command = some (cmd, .waiting)) ∧
    ∀ timer, (craneOf p c).timer = some timer → (craneOf (commandMissed g c cmd p) c).timer = some timer := by
  obtain ⟨ha, nd, hnode, halive⟩ := hreach
  have hanswer := (enqueue_answer (e := ⟨a, cmd, .cs c⟩) hnode halive).1
  rw [commandMissed_of_busy hbusy ha, if_pos hcmd]
  unfold commandAnswered
  split
  · rw [craneOf_putCrane_same, startStepTimer_eq, craneOf_enqueue]
    refine ⟨.inl rfl, fun timer htimer => ?_⟩
    simp [stepTimer, htimer]
  · rw [craneOf_putCrane_same, craneOf_enqueue]
    exact ⟨.inr rfl, fun _ h => h⟩
  · next h => exact absurd h hanswer

/-- What such a command comes to when the line is free. -/
theorem command_released {cmd : FieldCmd} {timer : TimeoutKind × Timer} (hreach : reachable g c p a)
    (hcmd : (craneOf p c).command = some (cmd, .queued) ∨ (craneOf p c).command = some (cmd, .waiting)) :
    ((craneOf (releaseLine g p) c).command = some (cmd, .queued) ∨
      (craneOf (releaseLine g p) c).command = some (cmd, .waiting)) ∧
    ((craneOf p c).timer = some timer → (craneOf (releaseLine g p) c).timer = some timer) := by
  obtain ⟨-, ⟨hsame, htimer⟩ | ⟨cmd', hwait, hqueued, htimer⟩⟩ := urged_releaseLine hreach
  · rw [hsame, htimer]
    exact ⟨hcmd, id⟩
  · rw [hqueued, htimer]
    refine ⟨.inl ?_, fun h => by rw [stepTimer, h]; rfl⟩
    rcases hcmd with h | h <;> rw [hwait] at h <;> simp_all

/-- With room in the queue, a missed command of a crane whose supervisor holds no refused one stands again. -/
theorem stands_missed {base : Nat} {cmd : FieldCmd} (hline : p.fl.line = some ex) (hsecond : ex.attempt ≠ 1)
    (hreach : reachable g c p a) (hother : craneNode g (otherCrane c) ≠ some a) (hroom : placesTaken p.fl.queue < 16)
    (hkept : (craneOf p c).kept = none) (hwaiting : ∀ cmd, (craneOf p c).command ≠ some (cmd, .waiting)) (hbase : base ≤ p.fl.serial) :
    Stands base a cmd (releaseLine g (commandMissed g c cmd p)) := by
  have hbusy : p.fl.line.isSome := by rw [hline]; rfl
  obtain ⟨ha, nd, hnode, halive⟩ := hreach
  have haccepted := (enqueue_answer (e := ⟨a, cmd, .cs c⟩) hnode halive).2 hroom
  obtain ⟨l, hl⟩ := enqueue_eq ⟨a, cmd, .cs c⟩ p
  obtain ⟨r, hr, hsilent⟩ : ∃ r, commandMissed g c cmd p = putCrane c r (setDirected l p) ∧
      holdsRefused (putCrane c r (setDirected l p)) c = false := by
    rw [commandMissed_of_busy hbusy ha, haccepted, hl]
    split_ifs with hqueued
    · refine ⟨_, rfl, ?_⟩
      have hsame : (craneOf (setDirected l p) c).kept = none := by cases c <;> exact hkept
      rw [holdsRefused, waitingCommand, craneOf_putCrane_same, startStepTimer_eq]
      simp [hsame]
    · refine ⟨_, rfl, ?_⟩
      have hsame : craneOf (setDirected l p) c = craneOf p c := by cases c <;> rfl
      rw [holdsRefused, waitingCommand, craneOf_putCrane_same, hsame]
      simp
  have hqueue : (∃ e ∈ l, e.addr = a ∧ e.cmd = cmd) ∧
      ∀ e ∈ l, e.addr = a → directedClass e.cmd = directedClass cmd → e.cmd = cmd := by
    rcases stands_enqueue (base := base) haccepted with hqueue | ⟨ex', hline', -, -, hfirst, -⟩
    · rwa [hl] at hqueue
    · rw [hl] at hline'
      exact absurd (Option.some.inj (hline.symm.trans hline') ▸ hfirst) hsecond
  obtain ⟨on, pos, timer, heq⟩ := lineFree_eq g (lineCleared (commandMissed g c cmd p))
  rw [releaseLine_eq, heq, hr]
  refine Stands.nextExchange (.inl (by cases c <;> exact hqueue)) (fun d hd => ?_) (by cases c <;> exact hnode ▸ rfl) (by cases c <;> exact hbase)
  obtain rfl : d = c := by
    by_contra hne
    exact hother (eq_otherCrane_of_ne hne ▸ hd)
  exact (holdsRefused_congr (by cases d <;> rfl)).trans hsilent

theorem line_nextExchange_of_repeatStop {e : Entry} {nd : Node} (hopened : p.fl.opened = true) (hline : p.fl.line = none)
    (hrepeat : p.fl.repeatStop = some e) (hnode : nodeOf p e.addr = some nd) : ∃ x, (nextExchange g p).fl.line = some x ∧
      x.addr = e.addr ∧ x.cmd = e.cmd ∧ x.by_ = some e.by_ ∧ x.attempt = 1 := by
  have hfound : nodeOf { p with fl := { p.fl with repeatStop := none } } e.addr = some nd := hnode
  have heq : nextExchange g p = beginExchange g e.addr .stop e.cmd (some e.by_) { p with fl := { p.fl with repeatStop := none } } := by
    rw [nextExchange, hline, hopened, hrepeat]
    rfl
  rw [heq, beginExchange_of_some hfound]
  exact ⟨_, rfl, rfl, rfl, rfl, rfl⟩

/-- A STOP kept for the line takes it as soon as it is free (R159, R161). -/
theorem line_of_repeatStop {e : Entry} {nd : Node} (hopened : p.fl.opened = true) (hrepeat : p.fl.repeatStop = some e)
    (hnode : nodeOf p e.addr = some nd) : ∃ x, (releaseLine g p).fl.line = some x ∧ x.addr = e.addr ∧ x.cmd = e.cmd ∧
      x.by_ = some e.by_ ∧ x.attempt = 1 := by
  obtain ⟨on, pos, timer, heq⟩ := lineFree_eq g (lineCleared p)
  rw [releaseLine_eq, heq]
  exact line_nextExchange_of_repeatStop hopened rfl hrepeat hnode

end owners

/-! ### What a failed second attempt comes to (R159, R167, R168) -/

section outcome

variable {s t : State} {ex : Exchange} {nd : Node} {cause : AttemptFailure}

/-- The part of a failed second attempt, before the node's standing is judged. -/
def missReported (s : State) (ex : Exchange) (nd : Node) (cause : AttemptFailure) : Part :=
  reportMiss s.store ex (missCounted ex nd cause { s.toPart with evt := .none })

/-- The miss makes the node LOST (R168). -/
abbrev losing (s : State) (nd : Node) : Prop :=
  s.store.plant.missLimit ≤ ((min 8 (nd.misses + 1) : Nat) : Int) ∧ nd.standing ≠ .lost

/-- The outcome of a failed second attempt. -/
def missPart (s : State) (ex : Exchange) (nd : Node) (cause : AttemptFailure) : Part :=
  repeatMissedStop ex (judgeStanding s.store ex.addr (missReported s ex nd cause))

theorem nodeOf_missReported : nodeOf (missReported s ex nd cause) ex.addr = some (missedNode nd cause) :=
  (nodeOf_congr (traffic_reportMiss _ _ _).nodes _).trans nodeOf_missCounted

theorem judgeStanding_of_losing (h : losing s nd) : judgeStanding s.store ex.addr (missReported s ex nd cause) =
    loseNode s.store ex.addr (missedNode nd cause) (missReported s ex nd cause) := by
  rw [judgeStanding, nodeOf_missReported]
  exact if_pos h

theorem judgeStanding_of_not_losing (h : ¬ losing s nd) :
    judgeStanding s.store ex.addr (missReported s ex nd cause) = missReported s ex nd cause := by
  rw [judgeStanding, nodeOf_missReported]
  exact if_neg h

theorem missReported_keeps : (missReported s ex nd cause).mc = s.mc ∧ (missReported s ex nd cause).bs = s.bs ∧
    (missReported s ex nd cause).tu = s.tu ∧ (missReported s ex nd cause).sm = s.sm ∧ (missReported s ex nd cause).mp = s.mp ∧
    (missReported s ex nd cause).cl = s.cl ∧ (missReported s ex nd cause).evt = .none :=
  have ⟨kmc, kbs, ktu, ksm, kmp, kcl, kevt, _, _⟩ :=
    reportMiss_keeps s.store ex (missCounted ex nd cause { s.toPart with evt := .none })
  ⟨kmc, kbs, ktu, ksm, kmp, kcl, kevt⟩

theorem craneCore_missReported (c : CraneId) :
    craneCore (craneOf (missReported s ex nd cause) c) = craneCore (craneOf s.toPart c) := by
  obtain ⟨-, -, -, -, -, -, -, kA, kB⟩ := reportMiss_keeps s.store ex (missCounted ex nd cause { s.toPart with evt := .none })
  cases c
  · exact kA
  · exact kB

theorem craneOf_repeatMissedStop (p : Part) (c : CraneId) : craneOf (repeatMissedStop ex p) c = craneOf p c := by
  obtain ⟨e, h⟩ := repeatMissedStop_forms ex p
  rw [h]
  cases c <;> rfl

theorem repeatMissedStop_keeps (p : Part) : (repeatMissedStop ex p).cc = p.cc ∧ (repeatMissedStop ex p).sm = p.sm ∧
    (repeatMissedStop ex p).mp = p.mp ∧ (repeatMissedStop ex p).cl = p.cl ∧ (repeatMissedStop ex p).evt = p.evt := by
  obtain ⟨e, h⟩ := repeatMissedStop_forms ex p
  rw [h]
  exact ⟨rfl, rfl, rfl, rfl, rfl⟩

theorem cc_missPart : (missPart s ex nd cause).cc = (missReported s ex nd cause).cc := by
  obtain ⟨-, -, kcc, -⟩ := judgeStanding_keeps s.store ex.addr (missReported s ex nd cause)
  exact ((repeatMissedStop_keeps _).1).trans kcc

theorem plain_missPart : noWithdrawal (missPart s ex nd cause) := by
  refine noWithdrawal_of_unchanged ?_
  obtain ⟨-, -, -, -, kevt⟩ := repeatMissedStop_keeps (ex := ex) (judgeStanding s.store ex.addr (missReported s ex nd cause))
  rw [missPart, kevt]
  by_cases h : losing s nd
  · rw [judgeStanding_of_losing h, changed_loseNode, missReported_keeps.2.2.2.2.2.2]
    rfl
  · rw [judgeStanding_of_not_losing h, missReported_keeps.2.2.2.2.2.2]
    rfl

theorem nodeOf_missPart : nodeOf (missPart s ex nd cause) ex.addr = some (if losing s nd then
    { missedNode nd cause with standing := .lost } else missedNode nd cause) := by
  rw [missPart, nodeOf_congr (traffic_repeatMissedStop ex _).nodes]
  split_ifs with h
  · rw [judgeStanding_of_losing h, nodeOf_congr (traffic_lostTold_loseNode _).nodes, nodeOf_lostTold]
  · rw [judgeStanding_of_not_losing h, nodeOf_missReported]

theorem barred_missPart (h : losing s nd) : barred ex.addr (missPart s ex nd cause) := by
  rw [missPart, judgeStanding_of_losing h]
  exact (traffic_repeatMissedStop ex _).lost _ ((traffic_lostTold_loseNode _).lost _ (barred_lostTold _))

/-- What the miss leaves of a crane's record: the last reports; all of the core where the node is not lost; and that a
crane which its node's loss stops is STOPPED. -/
theorem craneOf_missPart (c : CraneId) :
    craneHeard (craneOf (missPart s ex nd cause) c) = craneHeard (craneOf s.toPart c) ∧
    (¬ losing s nd → craneCore (craneOf (missPart s ex nd cause) c) = craneCore (craneOf s.toPart c)) ∧
    (losing s nd → nd.owner = .crane c → canStop (craneOf s.toPart c).state = true →
      (craneOf (missPart s ex nd cause) c).state = .stopped ∧ (craneOf (missPart s ex nd cause) c).reason = some .nodeLost) := by
  have hcore := craneCore_missReported (s := s) (ex := ex) (nd := nd) (cause := cause) c
  have hheard : craneHeard (craneOf (missReported s ex nd cause) c) = craneHeard (craneOf s.toPart c) := field_of_core hcore craneHeard
  have hstate : (craneOf (missReported s ex nd cause) c).state = (craneOf s.toPart c).state := field_of_core hcore (·.state)
  rw [missPart, craneOf_repeatMissedStop]
  by_cases h : losing s nd
  · rw [judgeStanding_of_losing h]
    obtain ⟨kheard, kstop⟩ := craneOf_loseNode (g := s.store) (nd := missedNode nd cause) (p := missReported s ex nd cause) ex.addr c
    exact ⟨kheard.trans hheard, fun hnot => absurd h hnot, fun _ howner hcan => kstop ⟨howner, by rwa [hstate]⟩⟩
  · rw [judgeStanding_of_not_losing h]
    exact ⟨hheard, fun _ => hcore, fun hlosing => absurd hlosing h⟩

theorem cl_missPart_of_losing (h : losing s nd) : ∃ ns, (missPart s ex nd cause).cl =
    (.nodeLost ex.addr nd.owner (min 8 (nd.misses + 1)) (some cause) :: ns).foldl raiseLink s.cl := by
  obtain ⟨-, -, -, kcl, -⟩ := repeatMissedStop_keeps (ex := ex) (judgeStanding s.store ex.addr (missReported s ex nd cause))
  rw [missPart, kcl, judgeStanding_of_losing h]
  obtain ⟨-, -, -, -, -, rcl, -⟩ := missReported_keeps (s := s) (ex := ex) (nd := nd) (cause := cause)
  rw [← rcl]
  exact cl_loseNode (g := s.store) (nd := missedNode nd cause) (p := missReported s ex nd cause) ex.addr

end outcome

section outcome

variable {s : State} {ex : Exchange} {nd : Node} {cause : AttemptFailure} {f : Exchange → Part → Part}

/-- The state after a failed second attempt. -/
theorem attemptEnd_missed (hpower : s.mc.power = true) (hline : s.fl.line = some ex)
    (hf : f ex { s.toPart with evt := .none } = missPart s ex nd cause) :
    attemptEnds s (attemptEnd f s) (missPart s ex nd cause) ∧
    (¬ losing s nd → (attemptEnd f s).toPart = sendNext (releaseLine s.store (missPart s ex nd cause))) := by
  refine ⟨hf ▸ attemptEnds_attemptEnd hpower hline f, fun hkept => ?_⟩
  obtain ⟨-, -, -, -, kevt⟩ := repeatMissedStop_keeps (ex := ex) (judgeStanding s.store ex.addr (missReported s ex nd cause))
  have hevt : (missPart s ex nd cause).evt = .none := by
    rw [missPart, kevt, judgeStanding_of_not_losing hkept, missReported_keeps.2.2.2.2.2.2]
  rw [attemptEnd_eq hpower hline, hf, endOfEvent_quiet hevt]

/-- A missed command other than a STOP: the outcome is what its owner does. -/
theorem missPart_of_crane {c : CraneId} (hkept : ¬ losing s nd) (hcarried : carriedBy ex (.cs c)) :
    missPart s ex nd cause = commandMissed s.store c ex.cmd (missCounted ex nd cause { s.toPart with evt := .none }) := by
  have hstop : isStop ex.cmd = false := by
    rw [← Bool.not_eq_true, isStop_eq_true_iff]
    exact hcarried.2.2
  rw [missPart, judgeStanding_of_not_losing hkept, missReported, reportMiss_of_crane hcarried, repeatMissedStop, hcarried.1]
  dsimp only
  rw [hstop, Bool.false_and]
  rfl

/-- A missed STOP is kept for the line. -/
theorem missPart_of_stop {who : Requester} (hkept : ¬ losing s nd) (halive : nd.standing ≠ .lost) (hcmd : ex.cmd = .stop)
    (hby : ex.by_ = some who) : missPart s ex nd cause = { missCounted ex nd cause { s.toPart with evt := .none } with
      fl := { (missCounted ex nd cause { s.toPart with evt := .none }).fl with repeatStop := some ⟨ex.addr, ex.cmd, who⟩ } } := by
  have hstop : isStop ex.cmd = true := isStop_eq_true_iff.mpr hcmd
  have hreport : missReported s ex nd cause = missCounted ex nd cause { s.toPart with evt := .none } := by
    rw [missReported, reportMiss, hstop, Bool.or_true, if_pos rfl]
  have hnode : nodeLost (missCounted ex nd cause { s.toPart with evt := .none }) ex.addr = false := by
    rw [nodeLost, nodeOf_missCounted]
    exact beq_eq_false_iff_ne.mpr halive
  rw [missPart, judgeStanding_of_not_losing hkept, hreport, repeatMissedStop, hby]
  dsimp only
  rw [hstop, hnode]
  rfl

theorem reachable_missCounted {c : CraneId} (ha : craneNode s.store c = some ex.addr) (halive : nd.standing ≠ .lost) :
    reachable s.store c (missCounted ex nd cause { s.toPart with evt := .none }) ex.addr :=
  ⟨ha, _, nodeOf_missCounted, halive⟩

end outcome

/-- Settles O48: a first attempt that fails waits for its retry alone, which takes the free line; the outcome of a second is
read off the steps of R167. -/
theorem failedAttempts : Obligations.FailedAttempts := by
  intro s ex nd hpower hline horphan hnode i cause hfails
  obtain ⟨f, hexec, hf⟩ := exec_of_failsWith (s := s) hfails
  have hreply : noReply s (attemptEnd f s) := noReply_attemptEnd hpower hline (by
    rw [hf]
    obtain ⟨-, -, -, -, kcl, -⟩ := attemptFailed_keeps s.store ex cause { s.toPart with evt := .none }
    exact kcl)
  refine ⟨fun hfirst hopened hrepeat hstops => ⟨_, hexec, ?_⟩, fun hsecond => ⟨_, hexec, ?_⟩⟩
  · obtain ⟨on, pos, timer, heq⟩ := attemptEnd_retry hpower hline horphan hnode hfirst hf hopened hrepeat hstops
    have htold : told s (attemptEnd f s) [] := told_nothing (k := s.cl) (by rw [heq]; rfl) rfl rfl rfl rfl
    obtain ⟨tstore, -, -, -, -, -, -, -, tpending⟩ := (attemptEnds_attemptEnd hpower hline f).keeps
    refine ⟨tstore, ?_, ?_, ?_, ?_, ?_, ?_, ?_, ?_, tpending, hreply, htold, ?_⟩ <;> rw [heq]
    · rfl
    · rfl
    · rfl
    · rfl
    · rfl
    · rfl
    · rfl
    · rfl
    · exact ⟨congrArg some retryOf_eq, rfl, rfl, rfl, rfl⟩
  · beta_reduce
    intro misses losing' carried
    have hpart : f ex { s.toPart with evt := .none } = missPart s ex nd cause := by
      rw [hf]
      exact attemptFailed_of_second (p := { s.toPart with evt := .none }) hsecond horphan hnode
    obtain ⟨hends, hpartAfter⟩ := attemptEnd_missed hpower hline hpart
    have hplain := plain_missPart (s := s) (ex := ex) (nd := nd) (cause := cause)
    generalize attemptEnd f s = t at hreply hends hpartAfter ⊢
    have hreported := missReported_keeps (s := s) (ex := ex) (nd := nd) (cause := cause)
    obtain ⟨rmc, rbs, rtu, rsm, rmp, rcl, revt⟩ := hreported
    obtain ⟨kcc, ksm, kmp, kcl, kevt⟩ := repeatMissedStop_keeps (ex := ex) (judgeStanding s.store ex.addr (missReported s ex nd cause))
    obtain ⟨jmc, jbs, -, jtu, jsm, -⟩ := judgeStanding_keeps s.store ex.addr (missReported s ex nd cause)
    obtain ⟨e, hrepeat⟩ := repeatMissedStop_forms ex (judgeStanding s.store ex.addr (missReported s ex nd cause))
    obtain ⟨tstore, tmc, tbs, tcc, ttu, tpieces, -, -, tpending⟩ := hends.keeps
    obtain ⟨ccontexts, calloc, ctimer, cvalves⟩ := cc_reportMiss s.store ex (missCounted ex nd cause { s.toPart with evt := .none })
    have hcc : t.cc = (missReported s ex nd cause).cc := tcc.trans cc_missPart
    have hheard (c : CraneId) : craneHeard (craneOf t.toPart c) = craneHeard (craneOf s.toPart c) :=
      (field_of_rest (hends.dispatched hplain c).rest craneHeard).trans (craneOf_missPart c).1
    refine ⟨tstore, tmc.trans ?_, tbs.trans ?_, ttu.trans ?_, tpieces.trans ?_, ?_, ?_, ?_, tpending, hreply, hheard .A, hheard .B,
      fun hkept => ?_, fun b z hcarried howner => ?_, fun hcarried => ?_, fun hlosing => ?_, fun hkept halive => ⟨fun hcmd hby hopened => ?_,
      fun c hcarried ha hother hkeptNone => ?_⟩, ?_, fun hlosing room => ?_, fun c hlosing howner hcan => ?_⟩
    · rw [missPart, hrepeat]
      exact jmc.trans rmc
    · rw [missPart, hrepeat]
      exact jbs.trans rbs
    · rw [missPart, hrepeat]
      exact jtu.trans rtu
    · rw [missPart, hrepeat]
      change (judgeStanding s.store ex.addr (missReported s ex nd cause)).sm.pieces = s.sm.pieces
      rw [jsm, rsm]
    · rw [hcc]
      exact ccontexts
    · rw [hcc]
      exact calloc
    · rw [hcc]
      exact ctimer
    · have hsame := judgeStanding_of_not_losing (ex := ex) (cause := cause) hkept
      have hquiet := hends.quiet hplain (by rw [missPart, kevt, hsame, revt]; rfl)
      obtain ⟨qsm, qmp, qcranes⟩ := hquiet
      refine ⟨(qcranes .A).1.trans ((craneOf_missPart .A).2.1 hkept), (qcranes .B).1.trans ((craneOf_missPart .B).2.1 hkept),
        qsm.trans (ksm.trans (by rw [hsame, rsm])), qmp.trans (kmp.trans (by rw [hsame, rmp])),
        hends.told hplain (ns := []) (k := s.cl) (kcl.trans (by rw [hsame, rcl]; rfl)) ⟨rfl, rfl, rfl, rfl⟩⟩
    · rw [hcc, missReported, reportMiss_of_valve hcarried howner]
      rfl
    · rw [hcc]
      exact cvalves hcarried
    · exact (hends.barred_of hplain (barred_missPart hlosing)).2
    · obtain ⟨who, hby⟩ := Option.isSome_iff_exists.mp hby
      have hafter := hpartAfter hkept
      rw [missPart_of_stop hkept halive hcmd hby] at hafter
      obtain ⟨x, hx, haddr, hxcmd, hxby, hxfirst⟩ := line_of_repeatStop (g := s.store) (e := ⟨ex.addr, ex.cmd, who⟩)
        (p := { missCounted ex nd cause { s.toPart with evt := .none } with
          fl := { (missCounted ex nd cause { s.toPart with evt := .none }).fl with repeatStop := some ⟨ex.addr, ex.cmd, who⟩ } })
        hopened rfl nodeOf_missCounted
      refine ⟨x, ?_, haddr, hxcmd.trans hcmd, hxby.trans hby.symm, hxfirst⟩
      rw [hafter]
      exact hx
    · intro r again
      have hreach := reachable_missCounted (cause := cause) ha halive
      have hr : craneOf (missCounted ex nd cause { s.toPart with evt := .none }) c = r :=
        (craneOf_missCounted c).trans (by cases c <;> rfl)
      have hbusy : (missCounted ex nd cause { s.toPart with evt := .none }).fl.line.isSome := by
        change s.fl.line.isSome
        rw [hline]
        rfl
      have hafter := hpartAfter hkept
      rw [missPart_of_crane hkept hcarried] at hafter
      have hagain : again = craneOf (releaseLine s.store
          (commandMissed s.store c ex.cmd (missCounted ex nd cause { s.toPart with evt := .none }))) c := by
        change craneOf t.toPart c = _
        rw [hafter, craneOf_sendNext]
      have hreach' := hreach.traffic (traffic_reportMiss s.store ex (missCounted ex nd cause { s.toPart with evt := .none }))
      rw [reportMiss_of_crane hcarried] at hreach'
      refine ⟨fun hqueued => ?_, fun hroom hwaiting => ?_⟩
      · obtain ⟨hcmd, htimer⟩ := command_missed hbusy hreach (cmd := ex.cmd) (by rw [hr]; exact hqueued)
        rw [hagain]
        refine ⟨(command_released (timer := (.travel, .start 0)) hreach' hcmd).1, fun timer h => ?_⟩
        exact (command_released hreach' hcmd).2 (htimer timer (by rw [hr]; exact h))
      · have hroom' : placesTaken s.fl.queue < 16 := by
          rw [placesTaken_eq]
          exact hroom
        have hstands := stands_missed (g := s.store) (base := s.fl.serial) (cmd := ex.cmd)
          (p := missCounted ex nd cause { s.toPart with evt := .none }) hline hsecond hreach hother hroom'
          (by rw [hr]; exact hkeptNone) (by rw [hr]; exact hwaiting) (le_refl _)
        exact Stands.offered (hafter ▸ hstands.congr rfl rfl)
    · rw [hends.nodeOf_eq hplain, nodeOf_missPart]
      change some (if losing s nd then _ else _) = some _
      split_ifs <;> rfl
    · obtain ⟨ns, hcl⟩ := cl_missPart_of_losing (ex := ex) (cause := cause) hlosing
      exact mem_unheard_of_told (hends.told hplain hcl ⟨rfl, rfl, rfl, rfl⟩) room
    · obtain ⟨hstate, hreason⟩ := (craneOf_missPart (ex := ex) (cause := cause) c).2.2 hlosing howner hcan
      have hcore := (hends.spares hplain (b := c) (by rw [hstate]; decide)).1.1
      exact ⟨(field_of_core hcore (·.state)).trans hstate, (field_of_core hcore (·.reason)).trans hreason⟩

end Sys2Proof.Proofs
end

section
/-!
PROOFS. The steps of a move (R139 to R144): a crane's judged reply, what a begun step's command comes to by the end of the
attempt, the lift, the placement and the end of a move.
-/

namespace Sys2Proof.Proofs

open Sys2Proof.Machine

/-! ### Behind the attempt on the line

While an exchange is on the line, offers only join the queue, and no entry is freed. -/

section busy

variable {g : Store} {p : Part} {b c : CraneId}

/-- While the line is busy it stays so, and the record of the crane is not written. -/
def Untouched (b : CraneId) (p q : Part) : Prop := p.fl.line.isSome → q.fl.line.isSome ∧ craneOf q b = craneOf p b

theorem Untouched.refl (b : CraneId) (p : Part) : Untouched b p p := fun h => ⟨h, rfl⟩

theorem Untouched.trans {q r : Part} (h : Untouched b p q) (k : Untouched b q r) : Untouched b p r := fun hline => by
  obtain ⟨hq, hcrane⟩ := h hline
  obtain ⟨hr, hcrane'⟩ := k hq
  exact ⟨hr, hcrane'.trans hcrane⟩

theorem untouched_of_same {q : Part} (hline : q.fl.line = p.fl.line) (hcrane : craneOf q b = craneOf p b) : Untouched b p q :=
  fun h => ⟨hline ▸ h, hcrane⟩

theorem untouched_putCrane (h : b ≠ c) (r : Crane) : Untouched b p (putCrane c r p) :=
  untouched_of_same (by cases c <;> rfl) (craneOf_putCrane_other h _ _)

theorem untouched_offer (e : Entry) : Untouched b p (offer g e p).2 := fun h => by
  obtain ⟨l, hl⟩ := enqueue_eq e p
  rw [offer_of_busy h, hl]
  exact ⟨h, by cases b <;> rfl⟩

theorem untouched_offerStep (h : b ≠ c) (cmd : FieldCmd) : Untouched b p (offerStep g c cmd p) := by
  unfold offerStep
  split
  · unfold commandAnswered
    split <;> exact (untouched_offer _).trans (untouched_putCrane h _)
  · exact .refl b p

theorem line_enterState (g : Store) (c : CraneId) (r : Crane) (p : Part) : (enterState g c r p).fl.line = p.fl.line := by
  unfold enterState
  dsimp only
  split_ifs <;> cases c <;> rfl

theorem craneOf_enterState_other (h : b ≠ c) (r : Crane) : craneOf (enterState g c r p) b = craneOf p b := by
  unfold enterState
  dsimp only
  split_ifs <;> cases b <;> cases c <;> first | rfl | exact absurd rfl h

theorem untouched_beginStep (h : b ≠ c) (step : Step) : Untouched b p (beginStep g c step p) := by
  refine (untouched_of_same (line_enterState g c _ p) ?_).trans (untouched_offerStep h _)
  exact craneOf_enterState_other h _

theorem untouched_takeMove (h : b ≠ c) (m : Move) : Untouched b p (takeMove g c m p) :=
  (untouched_putCrane h _).trans (untouched_beginStep h _)

theorem untouched_dispatch (h : b ≠ c) (m : Move) (d : Dest) : Untouched b p (dispatch g c m d p) := by
  refine Untouched.trans (untouched_of_same ?_ ?_) (untouched_takeMove h _)
  · simp
  · exact craneOf_congr (by simp) (by simp) b

theorem untouched_visit {w : Walk} (hb : (craneOf w.part b).state ≠ .idle) (n : Nat) :
    Untouched b w.part (visit g w n).part := by
  unfold visit
  split
  · exact .refl b _
  · split
    · exact .refl b _
    · split
      · dsimp only
        split
        · next c d hlegal =>
          refine untouched_dispatch ?_ _ _
          rintro rfl
          exact hb (isFree_state (isFree_of_firstLegal hlegal))
        · exact .refl b _
      · exact .refl b _

theorem untouched_walk (l : List Nat) {w : Walk} (hb : (craneOf w.part b).state ≠ .idle) :
    Untouched b w.part (l.foldl (visit g) w).part := by
  induction l generalizing w with
  | nil => exact .refl b _
  | cons n l ih =>
    exact (untouched_visit hb n).trans (ih (by rwa [(spares_visit (g := g) hb n).leaves.state_eq]))

/-- A scan behind the attempt on the line does not write the record of a crane that is not IDLE. -/
theorem untouched_scan (hb : (craneOf p b).state ≠ .idle) : Untouched b p (scan g p) := by
  rw [scan_of_busy hb]
  exact untouched_walk _ (w := { part := p, dispatched := false, first := none }) hb

end busy

/-- What becomes of a crane's command by the end of an attempt whose outcome leaves the crane at work. -/
theorem urged_attemptEnd {s : State} {ex : Exchange} (hpower : s.mc.power = true) (hline : s.fl.line = some ex)
    {f : Exchange → Part → Part} {p : Part} (hf : f ex { s.toPart with evt := .none } = p) (hplain : noWithdrawal p)
    {b : CraneId} {a : Nat} (hb : (craneOf p b).state ≠ .idle) (hbusy : p.fl.line.isSome) (hreach : reachable s.store b p a) :
    Urged s.store b p (attemptEnd f s).toPart := by
  have hend : endOfEvent s.store p = { scanIfDue s.store p with evt := .none } := by
    rcases hplain with hspared | hsafe
    · exact endOfEvent_spared hspared
    · exact endOfEvent_of_safe hsafe
  have hscan : Untouched b p (scanIfDue s.store p) ∧ Traffic Set.univ p (scanIfDue s.store p) := by
    unfold scanIfDue
    split
    · exact ⟨untouched_scan hb, (Traffic.refl p).then_scan⟩
    · exact ⟨.refl b p, .refl p⟩
  obtain ⟨huntouched, htraffic⟩ := hscan
  obtain ⟨-, hsame⟩ := huntouched hbusy
  have hreach' : reachable s.store b { scanIfDue s.store p with evt := .none } a := by
    obtain ⟨ha, nd, hnode, halive⟩ := hreach.traffic htraffic
    exact ⟨ha, nd, hnode, halive⟩
  rw [attemptEnd_eq hpower hline, hf, hend]
  refine (Urged.of_eq (q := { scanIfDue s.store p with evt := .none }) ((craneOf_congr rfl rfl b).trans hsame)).trans
    ((urged_releaseLine hreach').trans (.of_eq ?_))
  exact craneOf_sendNext _ b

/-! ### A step begun behind the attempt on the line (R139) -/

section begun

variable {g : Store} {p q : Part} {c : CraneId} {a : Nat}

theorem seconds_eq (v : Int) : seconds v = v.toNat * 1000 := rfl

/-- The command and timer of a record of which the step's command has just been offered. -/
def freshlyBegun (g : Store) (r : Crane) (cmd : FieldCmd) : Prop :=
  stepBegun r cmd (timeoutKind r.state) (match timeoutKind r.state with
    | .travel => g.plant.travelTimeout
    | .hook => g.plant.hookTimeout)

theorem stepTimer_of_none {r : Crane} (h : r.timer = none) : stepTimer g r = (timeoutKind r.state,
    .start ((match timeoutKind r.state with
      | .travel => g.plant.travelTimeout
      | .hook => g.plant.hookTimeout).toNat * 1000)) := by
  rw [stepTimer, h]
  cases timeoutKind r.state <;> rfl

theorem freshlyBegun_of_urged {cmd : FieldCmd} (h : freshlyBegun g (craneOf p c) cmd) (k : Urged g c p q) :
    freshlyBegun g (craneOf q c) cmd := by
  obtain ⟨hcore, k⟩ := k
  have hstate := field_of_core hcore (·.state)
  unfold freshlyBegun at h ⊢
  rw [hstate]
  rcases k with ⟨kcmd, ktimer⟩ | ⟨cmd', kwait, kqueued, ktimer⟩
  · rwa [stepBegun, kcmd, ktimer]
  · rcases h with ⟨hcmd, -⟩ | ⟨hcmd, htimer⟩
    · rw [hcmd] at kwait
      cases kwait
    · obtain rfl : cmd = cmd' := by
        rw [hcmd] at kwait
        exact congrArg Prod.fst (Option.some.inj kwait)
      exact .inl ⟨kqueued, ktimer.trans (congrArg some (stepTimer_of_none htimer))⟩

theorem state_craneCore (r : Crane) : (craneCore r).state = r.state := rfl

/-- The record of a crane that begins a step behind the attempt on the line. -/
theorem begun_beginStep (hbusy : p.fl.line.isSome) (hreach : reachable g c p a) (step : Step) :
    craneCore (craneOf (beginStep g c step p) c) = craneCore { craneOf p c with state := stateOf step } ∧
    freshlyBegun g (craneOf (beginStep g c step p) c) (stepCommand g p c step) := by
  obtain ⟨ha, nd, hnode, halive⟩ := hreach
  refine ⟨craneCore_beginStep step, ?_⟩
  obtain ⟨r, hr⟩ : ∃ r, r = { craneOf p c with state := stateOf step, command := none, timer := none,
                                               kept := keptBeyond step (craneOf p c).kept } := ⟨_, rfl⟩
  have hline : (enterState g c r p).fl.line.isSome := by rwa [line_enterState]
  have hfound : nodeOf (enterState g c r p) a = some nd := by
    rw [nodeOf_congr ((Traffic.refl (mine := {c}) p).then_enterState rfl r).nodes, hnode]
  have hcrane : craneOf (enterState g c r p) c = r := craneOf_enterState_same r
  rw [beginStep, ← hr, offerStep, ha]
  dsimp only
  generalize stepCommand g p c step = cmd
  rw [offer_of_busy hline]
  have hsame := craneOf_enqueue (p := enterState g c r p) ⟨a, cmd, .cs c⟩ c
  have hanswer := (enqueue_answer (p := enterState g c r p) (e := ⟨a, cmd, .cs c⟩) hfound halive).1
  have htimer : r.timer = none := by rw [hr]
  unfold commandAnswered freshlyBegun
  split
  · rw [craneOf_putCrane_same, hsame, hcrane, startStepTimer_eq]
    exact .inl ⟨rfl, congrArg some (stepTimer_of_none (r := { r with command := some (cmd, .queued) }) htimer)⟩
  · rw [craneOf_putCrane_same, hsame, hcrane]
    exact .inr ⟨rfl, htimer⟩
  · next h => exact absurd h hanswer

end begun

/-! ### The reply heard -/

section heard

variable {s : State} {c : CraneId} {ex : Exchange} {nd : Node} {chars : List FieldChar} {y : CraneReply}

/-- The records of `s` with the reply kept in the node's entry, which is ALIVE. -/
def replyKept (s : State) (ex : Exchange) (chars : List FieldChar) : Part :=
  revive s.store ex.addr ex.owner (storeReply ex.addr (chars.map (·.data)) { s.toPart with evt := .none })

/-- The node's entry after its good reply. -/
def repliedNode (nd : Node) (chars : List FieldChar) : Node :=
  { nd with standing := .alive, misses := 0, lastReply := some (chars.map (·.data)), age := 0 }

theorem replyKept_eq (hnode : nodeOf s.toPart ex.addr = some nd) (halive : nd.standing ≠ .lost) : ∃ nodes,
    replyKept s ex chars = { s.toPart with evt := .none, fl := { s.fl with nodes := nodes } } ∧
    nodeOf (replyKept s ex chars) ex.addr = some (repliedNode nd chars) := by
  have hfound : nodeOf { s.toPart with evt := .none } ex.addr = some nd := hnode
  obtain ⟨kept, hkept⟩ : ∃ kept, kept = putNode ex.addr { nd with misses := 0, lastReply := some (chars.map (·.data)), age := 0 }
      { s.toPart with evt := .none } := ⟨_, rfl⟩
  have hnodes : nodeOf kept ex.addr = some { nd with misses := 0, lastReply := some (chars.map (·.data)), age := 0 } := by
    rw [hkept]
    exact nodeOf_putNode_same _ _
  rw [replyKept, storeReply, hfound]
  dsimp only
  rw [← hkept, revive, hnodes]
  dsimp only
  split
  · next h => exact absurd h halive
  · exact ⟨_, by rw [hkept]; rfl, nodeOf_putNode_same _ _⟩
  · next h => exact ⟨_, by rw [hkept]; rfl, by rw [hnodes, repliedNode, h]⟩

/-- The records that the completion of a step finds: the reply kept and its values stored. -/
def replyHeard (s : State) (c : CraneId) (ex : Exchange) (chars : List FieldChar) (y : CraneReply) : Part :=
  putCrane c (heard y (craneOf s.toPart c)) (replyKept s ex chars)

theorem craneOf_replyKept (hnode : nodeOf s.toPart ex.addr = some nd) (halive : nd.standing ≠ .lost) (d : CraneId) :
    craneOf (replyKept s ex chars) d = craneOf s.toPart d := by
  obtain ⟨nodes, heq, -⟩ := replyKept_eq (chars := chars) hnode halive
  rw [heq]
  exact craneOf_congr rfl rfl d

theorem putCrane_putCrane (c : CraneId) (r r' : Crane) (p : Part) : putCrane c r (putCrane c r' p) = putCrane c r p := by
  cases c <;> rfl

theorem heard_eq (hfault : y.fault = false) (r : Crane) : { storeValues y r with faults := 0 } = heard y r := by
  unfold storeValues heard
  rw [hfault]
  by_cases h : r.state = .stopped <;> simp [h]

theorem stepOf_stateOf (step : Step) : stepOf (stateOf step) = some step := by cases step <;> rfl

/-- A reply within the reservation that reports no fault is heard, and then judged (R140, R147, R149). -/
theorem takeCraneReply_eq {g : Store} {p : Part} {id : Nat} (hstate : (craneOf p c).state ≠ .unlocated)
    (hkept : ∀ res, reservationOf p c = some res → res.lo ≤ y.pos ∧ y.pos ≤ res.hi) (hfault : y.fault = false)
    (hfilter : 1 ≤ g.plant.faultFilter) :
    takeCraneReply g c id y p = judgeStep g c id y (putCrane c (heard y (craneOf p c)) p) := by
  have hlocated : (craneOf (putCrane c (storeValues y (craneOf p c)) p) c).state ≠ .unlocated := by
    rw [craneOf_putCrane_same]
    exact hstate
  have hwatched : overrunCheck g c y.pos (putCrane c (storeValues y (craneOf p c)) p) =
      putCrane c (storeValues y (craneOf p c)) p := by
    unfold overrunCheck
    split
    · rfl
    · next res hres =>
      rw [reservationOf_putCrane] at hres
      obtain ⟨hlo, hhi⟩ := hkept res hres
      refine if_neg fun h => ?_
      rcases h.1 with h | h <;> omega
  rw [takeCraneReply]
  rw [if_neg hlocated, hwatched, countFault]
  dsimp only
  rw [hfault, if_neg Bool.false_ne_true, if_neg (by simp; omega), putCrane_putCrane, craneOf_putCrane_same, heard_eq hfault]

theorem replyEnded_judged (h : replyJudged s c ex nd chars y) {step : Step} (hstate : (craneOf s.toPart c).state = stateOf step)
    (hcomplete : stepComplete s.store (replyHeard s c ex chars y) c y step = true) :
    replyEnded s.store chars ex { s.toPart with evt := .none } =
      reportCarry ex (completeStep s.store c y step (replyHeard s c ex chars y)) := by
  obtain ⟨⟨-, -, horphan, howner, hnode, -, hgood, hcontents⟩, halive, -, hkept, hfault, hfilter, cmd, id, hcmd, hid⟩ := h
  obtain ⟨nodes, heq, -⟩ := replyKept_eq (chars := chars) hnode halive
  have hcrane := craneOf_replyKept (chars := chars) hnode halive c
  have hres : reservationOf (replyKept s ex chars) c = reservationOf s.toPart c := by
    rw [heq]
    cases c <;> rfl
  have htaken := takeCraneReply_eq (g := s.store) (p := replyKept s ex chars) (c := c) (y := y) (id := ex.id)
    (by rw [hcrane, hstate]; cases step <;> nofun) (by rwa [hres]) hfault hfilter
  rw [hcrane] at htaken
  have hheard : craneOf (replyHeard s c ex chars y) c = heard y (craneOf s.toPart c) := craneOf_putCrane_same _ _ _
  have hjudges : judgesReply (craneOf (replyHeard s c ex chars y) c) ex.id = true := by
    rw [hheard, judgesReply, show (heard y (craneOf s.toPart c)).command = some (cmd, .carried id) from hcmd]
    exact decide_eq_true hid
  rw [replyEnded, howner, show replyFault (Owner.crane c).kind ex.addr chars = none from hgood]
  dsimp only
  rw [goodReply, horphan, if_neg Bool.false_ne_true, handOn, howner]
  dsimp only
  rw [hcontents]
  dsimp only
  rw [← howner]
  change reportCarry ex (takeCraneReply s.store c ex.id y (replyKept s ex chars)) = _
  rw [htaken]
  change reportCarry ex (judgeStep s.store c ex.id y (replyHeard s c ex chars y)) = _
  rw [judgeStep, hheard, show (heard y (craneOf s.toPart c)).state = stateOf step from hstate, stepOf_stateOf]
  dsimp only
  rw [← hheard, hjudges, hcomplete]
  rfl

/-- A carry's report writes a crane's command alone (R139). -/
theorem reportCarry_forms (ex : Exchange) (p : Part) : (ex.by_ = none → reportCarry ex p = p) ∧
    ∃ a b, reportCarry ex p = { p with csA := a, csB := b } ∧ craneCore a = craneCore p.csA ∧ craneCore b = craneCore p.csB := by
  unfold reportCarry
  split
  · next d _ hby =>
    refine ⟨fun hnone => ?_, ?_⟩
    · rw [hnone] at hby
      cases hby
    · unfold commandCarried
      split
      · cases d
        · exact ⟨_, p.csB, rfl, rfl, rfl⟩
        · exact ⟨p.csA, _, rfl, rfl, rfl⟩
      · exact ⟨p.csA, p.csB, rfl, rfl, rfl⟩
  · exact ⟨fun _ => rfl, p.csA, p.csB, rfl, rfl, rfl⟩

end heard

/-! ### The end of an attempt whose reply completes a step -/

section completed

variable {s t : State} {c : CraneId} {ex : Exchange} {nd : Node} {chars : List FieldChar} {y : CraneReply} {q : Part}

/-- `t` is how the end of an attempt leaves `s` of which the outcome is `q`, but for the commands of the supervisors, of which
the carry is reported. -/
structure Completed (s t : State) (ex : Exchange) (q : Part) : Prop where
  bs : t.bs = q.bs
  cc : t.cc = q.cc
  pieces : t.sm.pieces = q.sm.pieces
  quiet : q.evt.scan = false → t.sm = q.sm ∧ t.mp = q.mp ∧ ∀ d, craneCore (craneOf t.toPart d) = craneCore (craneOf q d)
  scanned : q.evt.scan = true → ∃ u, scannedCore s t u ∧ u.sm = q.sm ∧ u.mp = q.mp ∧
    ∀ d, craneCore (craneOf u d) = craneCore (craneOf q d)
  works : ∀ d, (craneOf q d).state ≠ .idle → craneCore (craneOf t.toPart d) = craneCore (craneOf q d) ∧
    reservationOf t.toPart d = reservationOf q d
  dispatched : ∀ d, Dispatched (craneOf q d) (craneOf t.toPart d)
  told : ∀ ns, q.cl = ns.foldl raiseLink s.cl → told s t ns
  begun : ex.by_ = none → q.fl.line.isSome → ∀ d a, (craneOf q d).state ≠ .idle → reachable s.store d q a → ∀ cmd,
    freshlyBegun s.store (craneOf q d) cmd → freshlyBegun s.store (craneOf t.toPart d) cmd

theorem craneCore_craneOf {p q : Part} (hA : craneCore q.csA = craneCore p.csA) (hB : craneCore q.csB = craneCore p.csB)
    (d : CraneId) : craneCore (craneOf q d) = craneCore (craneOf p d) := by
  cases d
  · exact hA
  · exact hB

theorem completed_attemptEnd (hpower : s.mc.power = true) (hline : s.fl.line = some ex) {f : Exchange → Part → Part}
    (hf : f ex { s.toPart with evt := .none } = reportCarry ex q) (hmc : q.mc = s.mc)
    (hsafe : ∀ mark ∈ q.evt.changed, ∀ r, pieceOf q mark = some r → safeFromReview r) :
    Completed s (attemptEnd f s) ex q ∧ ∀ a, nodeOf (attemptEnd f s).toPart a = nodeOf q a := by
  obtain ⟨hnone, a, b, heq, hA, hB⟩ := reportCarry_forms ex q
  have hends := attemptEnds_attemptEnd hpower hline f
  rw [hf, heq] at hends
  have hcores (d : CraneId) : craneCore (craneOf { q with csA := a, csB := b } d) = craneCore (craneOf q d) :=
    craneCore_craneOf (p := q) (q := { q with csA := a, csB := b }) hA hB d
  have hplain : noWithdrawal { q with csA := a, csB := b } := .inr hsafe
  obtain ⟨-, -, tbs, tcc, -, tpieces, -⟩ := hends.keeps
  refine ⟨⟨tbs, tcc, tpieces, fun hscan => ?_, fun hscan => ⟨_, hends.scannedCore hplain hscan hmc, rfl, rfl, hcores⟩,
    fun d hd => ?_, fun d => .trans (.of_core (hcores d)) (hends.dispatched hplain d),
    fun ns hns => hends.told hplain hns ⟨rfl, rfl, rfl, rfl⟩, fun hby hbusy d x hd hreach cmd hbegun => ?_⟩,
    fun x => hends.nodeOf_eq hplain x⟩
  · obtain ⟨tsm, tmp, tcranes⟩ := hends.quiet hplain hscan
    exact ⟨tsm, tmp, fun d => (tcranes d).1.trans (hcores d)⟩
  · have hd' : (craneOf { q with csA := a, csB := b } d).state ≠ .idle := by rwa [field_of_core (hcores d) (·.state)]
    obtain ⟨hleaves, hres⟩ := hends.spares hplain hd'
    exact ⟨hleaves.1.trans (hcores d), hres.trans (by cases d <;> rfl)⟩
  · have hsame := hnone hby
    rw [hsame] at hf
    exact freshlyBegun_of_urged hbegun (urged_attemptEnd hpower hline hf (.inr hsafe) hd hbusy hreach)

theorem replyHeard_keeps (hnode : nodeOf s.toPart ex.addr = some nd) (halive : nd.standing ≠ .lost) :
    (replyHeard s c ex chars y).mc = s.mc ∧ (replyHeard s c ex chars y).bs = s.bs ∧ (replyHeard s c ex chars y).cc = s.cc ∧
    (replyHeard s c ex chars y).tu = s.tu ∧ (replyHeard s c ex chars y).sm = s.sm ∧ (replyHeard s c ex chars y).mp = s.mp ∧
    (replyHeard s c ex chars y).cl = s.cl ∧ (replyHeard s c ex chars y).evt = .none ∧
    (replyHeard s c ex chars y).fl.line = s.fl.line ∧
    nodeOf (replyHeard s c ex chars y) ex.addr = some (repliedNode nd chars) ∧
    craneOf (replyHeard s c ex chars y) c = heard y (craneOf s.toPart c) ∧
    craneOf (replyHeard s c ex chars y) (otherCrane c) = craneOf s.toPart (otherCrane c) := by
  have hcranes := craneOf_replyKept (chars := chars) hnode halive
  obtain ⟨nodes, heq, hfound⟩ := replyKept_eq (chars := chars) hnode halive
  have hother := (craneOf_putCrane_other (ne_otherCrane c).symm (heard y (craneOf s.toPart c)) (replyKept s ex chars)).trans
    (hcranes (otherCrane c))
  refine ⟨?_, ?_, ?_, ?_, ?_, ?_, ?_, ?_, ?_, ?_, craneOf_putCrane_same _ _ _, hother⟩
  case refine_10 =>
    rw [← hfound]
    cases c <;> rfl
  all_goals rw [replyHeard, heq]; cases c <;> rfl

/-- The outcome of a judged reply that shows its step's completion, by the records that the completion leaves. -/
theorem step_completed (h : replyJudged s c ex nd chars y) {step : Step} (hstate : (craneOf s.toPart c).state = stateOf step)
    (hcomplete : stepComplete s.store (replyHeard s c ex chars y) c y step = true)
    (hq : completeStep s.store c y step (replyHeard s c ex chars y) = q) (hmc : q.mc = s.mc) (htu : q.tu = s.tu)
    (hnodes : q.fl.nodes = (replyHeard s c ex chars y).fl.nodes) (hlink : linkCore q.cl = linkCore s.cl)
    (hsafe : ∀ mark ∈ q.evt.changed, ∀ r, pieceOf q mark = some r → safeFromReview r) {φ : State → Prop}
    (hφ : ∀ t, Completed s t ex q → φ t) :
    runsTo (.replyComplete chars) s fun t => replyTaken s t ex nd chars ∧ φ t := by
  have hpart := replyEnded_judged h hstate hcomplete
  rw [hq] at hpart
  obtain ⟨⟨hpower, hline, -, -, hnode, hchars, -⟩, halive, -⟩ := h
  obtain ⟨-, -, -, -, -, -, -, -, -, hfound, -⟩ := replyHeard_keeps (c := c) (y := y) (chars := chars) hnode halive
  obtain ⟨-, a, b, heq, -⟩ := reportCarry_forms ex q
  obtain ⟨hcompleted, hnodeOf⟩ := completed_attemptEnd hpower hline hpart hmc hsafe
  have hends := attemptEnds_attemptEnd hpower hline (replyEnded s.store chars)
  rw [hpart, heq] at hends
  obtain ⟨tstore, tmc, -, -, ttu, -, -, -, tpending⟩ := hends.keeps
  have hreply : noReply s (attemptEnd (replyEnded s.store chars) s) := noReply_attemptEnd hpower hline (by
    rw [hpart, heq]
    exact hlink)
  refine ⟨_, ?_, ⟨tstore, tmc.trans hmc, ttu.trans htu, tpending, hreply, ?_⟩, hφ _ hcompleted⟩
  · cases chars with
    | nil => exact absurd rfl hchars
    | cons _ _ => rfl
  · rw [hnodeOf, nodeOf_congr hnodes, hfound]
    rfl

end completed

/-! ### The step after a step (R139, R140) -/

section steps

variable {s : State} {c : CraneId} {ex : Exchange} {nd : Node} {chars : List FieldChar} {y : CraneReply}

theorem reservationOf_congr {p q : Part} (h : q.mp = p.mp) (d : CraneId) : reservationOf q d = reservationOf p d := by
  cases d
  · exact congrArg (·.resA) h
  · exact congrArg (·.resB) h

theorem arrived_of_reached {g : Store} {x : Int} (h : reached g y x) : arrived g y x = true := by
  obtain ⟨hmotion, hlo, hhi⟩ := h
  rw [arrived, Bool.and_eq_true, beq_iff_eq, decide_eq_true_eq]
  refine ⟨hmotion, ?_⟩
  unfold distance
  omega

theorem moveHeld_replyHeard (hnode : nodeOf s.toPart ex.addr = some nd) (halive : nd.standing ≠ .lost) :
    moveHeld (replyHeard s c ex chars y) c = moveHeld s.toPart c := by
  obtain ⟨-, -, -, -, -, kmp, -, -, -, -, kcrane, -⟩ := replyHeard_keeps (c := c) (y := y) (chars := chars) hnode halive
  unfold moveHeld moveOf
  rw [kcrane, kmp]
  rfl

theorem heldSource_replyHeard (hnode : nodeOf s.toPart ex.addr = some nd) (halive : nd.standing ≠ .lost) (g : Store) :
    heldSource g (replyHeard s c ex chars y) c = heldSource g s.toPart c := by
  rw [heldSource, moveHeld_replyHeard hnode halive, heldSource]

theorem heldDest_replyHeard (hnode : nodeOf s.toPart ex.addr = some nd) (halive : nd.standing ≠ .lost) (g : Store) :
    heldDest g (replyHeard s c ex chars y) c = heldDest g s.toPart c := by
  rw [heldDest, moveHeld_replyHeard hnode halive, heldDest]

theorem reachable_replyHeard (h : replyJudged s c ex nd chars y) : reachable s.store c (replyHeard s c ex chars y) ex.addr := by
  obtain ⟨⟨-, -, -, -, hnode, -⟩, halive, ha, -⟩ := h
  obtain ⟨-, -, -, -, -, -, -, -, -, hfound, -⟩ := replyHeard_keeps (c := c) (y := y) (chars := chars) hnode halive
  exact ⟨ha, _, hfound, nofun⟩

theorem busy_replyHeard (h : replyJudged s c ex nd chars y) : (replyHeard s c ex chars y).fl.line.isSome := by
  obtain ⟨⟨-, hline, -, -, hnode, -⟩, halive, -⟩ := h
  obtain ⟨-, -, -, -, -, -, -, -, kline, -⟩ := replyHeard_keeps (c := c) (y := y) (chars := chars) hnode halive
  rw [kline, hline]
  rfl

/-- The steps that another follows with no change of stock, move or reservation. -/
theorem next_step (h : replyJudged s c ex nd chars y) {step next : Step} (hstate : (craneOf s.toPart c).state = stateOf step)
    (hcomplete : stepComplete s.store (replyHeard s c ex chars y) c y step = true)
    (hnext : completeStep s.store c y step (replyHeard s c ex chars y) =
      beginStep s.store c next (replyHeard s c ex chars y)) :
    runsTo (.replyComplete chars) s fun t => replyTaken s t ex nd chars ∧
      t.bs = s.bs ∧ t.cc = s.cc ∧ t.sm = s.sm ∧ t.mp = s.mp ∧ told s t [] ∧
      (craneCore (craneOf t.toPart (otherCrane c)) = craneCore (craneOf s.toPart (otherCrane c)) ∧
        reservationOf t.toPart (otherCrane c) = reservationOf s.toPart (otherCrane c)) ∧
      craneCore (craneOf t.toPart c) = craneCore { heard y (craneOf s.toPart c) with state := stateOf next } ∧
      (ex.by_ = none → freshlyBegun s.store (craneOf t.toPart c) (stepCommand s.store (replyHeard s c ex chars y) c next)) := by
  have hreach := reachable_replyHeard h
  have hbusy := busy_replyHeard h
  obtain ⟨⟨-, -, -, -, hnode, -⟩, halive, -⟩ := id h
  obtain ⟨kmc, kbs, kcc, ktu, ksm, kmp, kcl, kevt, -, -, kcrane, kother⟩ :=
    replyHeard_keeps (c := c) (y := y) (chars := chars) hnode halive
  have htraffic := (Traffic.refl (mine := {c}) (replyHeard s c ex chars y)).then_beginStep (g := s.store) rfl next
  obtain ⟨hcore, hbegun⟩ := begun_beginStep hbusy hreach next
  rw [kcrane] at hcore
  have hevt : (beginStep s.store c next (replyHeard s c ex chars y)).evt = .none := by simp [kevt]
  refine step_completed h hstate hcomplete hnext (by simp [kmc]) (by simp [ktu]) htraffic.nodes (by simp [kcl]) (by rw [hevt]; exact fun _ h => nomatch h)
    fun t ht => ?_
  obtain ⟨tsm, tmp, tcores⟩ := ht.quiet (by rw [hevt]; rfl)
  have tmp' : t.mp = s.mp := tmp.trans (by simp [kmp])
  refine ⟨ht.bs.trans (by simp [kbs]), ht.cc.trans (by simp [kcc]), tsm.trans (by simp [ksm]), tmp',
    ht.told [] (by simp [kcl]), ⟨?_, ?_⟩, (tcores c).trans hcore, fun hby => ?_⟩
  · exact (tcores _).trans ((htraffic.cranes _ (ne_otherCrane c).symm).1.trans (congrArg craneCore kother))
  · rw [reservationOf_congr tmp']
  · refine ht.begun hby ?_ c ex.addr ?_ (hreach.traffic htraffic) _ hbegun
    · exact (htraffic.busy hbusy).1
    · rw [field_of_core hcore (·.state)]
      cases next <;> nofun

end steps

/-! ### The lift (R99, R142) -/

section lift

variable {c : CraneId} {mark : Nat} {p : Part} {q : Piece}

theorem changed_liftPiece (c : CraneId) (mark : Nat) (p : Part) : (liftPiece c mark p).evt.changed = p.evt.changed := by
  unfold liftPiece
  split
  · rfl
  · split
    · simp
    · simp [stockChange]
    · rfl

theorem pieceOf_leftBed (bed pour : Nat) (p : Part) (k : Nat) : pieceOf (leftBed bed pour p) k = pieceOf p k :=
  pieceOf_congr (by simp) k

/-- The lift changes the record of the lifted piece alone. -/
theorem pieceOf_liftPiece_other {k : Nat} (hk : k ≠ mark) : pieceOf (liftPiece c mark p) k = pieceOf p k := by
  unfold liftPiece
  split
  · rfl
  · split
    · rw [pieceOf_leftBed, pieceOf_putPiece, if_neg hk]
    · exact (pieceOf_putPiece _ _ _ _).trans (if_neg hk)
    · rw [pieceOf_putPiece, if_neg hk]

/-- The record of a piece lifted off a bed. -/
def strippedPiece (c : CraneId) (acc : Nat) (q : Piece) : Piece :=
  { q with acc := acc, stripAcc := some acc, zone := none, place := .hook c }

theorem liftPiece_of_bed {b : Nat} {x : Int} (hq : pieceOf p mark = some q) (hplace : q.place = .bed b x) :
    liftPiece c mark p = leftBed b q.pour (putPiece mark (strippedPiece c (zoneAccumulator p b q.zone) q) p) := by
  simp only [liftPiece, hq, hplace]
  rfl

theorem liftPiece_of_slot {n tier : Nat} (hq : pieceOf p mark = some q) (hplace : q.place = .slot n tier) :
    liftPiece c mark p = stockChange [] (putPiece mark { q with place := .hook c }
      (putSlot n { slotOf p n with stack := (slotOf p n).stack.erase mark } p)) := by
  simp only [liftPiece, hq, hplace]

/-- The pieces on a bed once one of them hangs on a hook. -/
theorem piecesOnBed_lifted (bed pour acc : Nat) :
    piecesOnBed (putPiece mark (strippedPiece c acc q) p) bed pour = (piecesOnBed p bed pour).filter fun k => k ≠ mark := by
  unfold piecesOnBed
  rw [show pourOf (putPiece mark (strippedPiece c acc q) p) pour = pourOf p pour from rfl]
  split
  · rfl
  · rw [List.filter_filter]
    refine List.filter_congr fun k _ => ?_
    by_cases hk : k = mark
    · subst hk
      simp [pieceOf_putPiece, strippedPiece]
    · simp [pieceOf_putPiece, hk]

/-- The last piece of a STRIPPING bed leaves it (R30). -/
theorem leftBed_lifted {bed pour acc : Nat} :
    leftBed bed pour (putPiece mark (strippedPiece c acc q) p) =
      if (bedOf p bed).state = .stripping ∧ ∀ k ∈ piecesOnBed p bed pour, k = mark then
        raise (.bedEmpty bed pour) (emptyBed bed (putPiece mark (strippedPiece c acc q) p))
      else putPiece mark (strippedPiece c acc q) p := by
  have hempty : piecesOnBed (putPiece mark (strippedPiece c acc q) p) bed pour = [] ↔ ∀ k ∈ piecesOnBed p bed pour, k = mark := by
    rw [piecesOnBed_lifted, List.filter_eq_nil_iff]
    simp
  unfold leftBed
  simp only [hempty]
  rfl

theorem bedOf_emptyBed (bed : Nat) (p : Part) : bedOf (emptyBed bed p) bed = .vacant := by
  unfold emptyBed
  dsimp only
  simp [bedOf, putBed, Map.find_put_same]

theorem contextOf_emptyBed (bed : Nat) (p : Part) : contextOf (emptyBed bed p) bed = none := by
  have hcontexts : (emptyBed bed p).cc.contexts = Map.del p.cc.contexts bed := by
    unfold emptyBed
    dsimp only
    split <;> simp [putBed, closeContext]
  rw [contextOf, hcontexts]
  exact Map.find_del_same _ _

end lift

section accepted

variable {s : State} {c : CraneId} {ex : Exchange} {nd : Node} {chars : List FieldChar} {y : CraneReply} {mark : Nat}

/-- The records that the lift finds: the crane's load accepted. -/
def loadTaken (s : State) (c : CraneId) (ex : Exchange) (chars : List FieldChar) (y : CraneReply) (mark : Nat) : Part :=
  putCrane c { heard y (craneOf s.toPart c) with load := some mark } (replyHeard s c ex chars y)

/-- The records after an accepted load check. -/
def pieceLifted (s : State) (c : CraneId) (ex : Exchange) (chars : List FieldChar) (y : CraneReply) (mark : Nat) : Part :=
  beginStep s.store c .lift (liftPiece c mark (loadTaken s c ex chars y mark))

theorem loadTaken_keeps (hnode : nodeOf s.toPart ex.addr = some nd) (halive : nd.standing ≠ .lost) :
    (loadTaken s c ex chars y mark).mc = s.mc ∧ (loadTaken s c ex chars y mark).bs = s.bs ∧
    (loadTaken s c ex chars y mark).cc = s.cc ∧ (loadTaken s c ex chars y mark).tu = s.tu ∧
    (loadTaken s c ex chars y mark).sm = s.sm ∧ (loadTaken s c ex chars y mark).mp = s.mp ∧
    (loadTaken s c ex chars y mark).cl = s.cl ∧ (loadTaken s c ex chars y mark).evt = .none ∧
    (loadTaken s c ex chars y mark).fl = (replyHeard s c ex chars y).fl ∧
    craneOf (loadTaken s c ex chars y mark) c = { heard y (craneOf s.toPart c) with load := some mark } ∧
    craneOf (loadTaken s c ex chars y mark) (otherCrane c) = craneOf s.toPart (otherCrane c) := by
  obtain ⟨kmc, kbs, kcc, ktu, ksm, kmp, kcl, kevt, -, -, -, kother⟩ :=
    replyHeard_keeps (c := c) (y := y) (chars := chars) hnode halive
  refine ⟨.trans ?_ kmc, .trans ?_ kbs, .trans ?_ kcc, .trans ?_ ktu, .trans ?_ ksm, .trans ?_ kmp, .trans ?_ kcl,
    .trans ?_ kevt, ?_, craneOf_putCrane_same _ _ _, (craneOf_putCrane_other (ne_otherCrane c).symm _ _).trans kother⟩ <;>
    rw [loadTaken] <;> cases c <;> rfl

theorem completeStep_accepted (hnode : nodeOf s.toPart ex.addr = some nd) (halive : nd.standing ≠ .lost) {n : Nat} {m : Move}
    {q : Piece} (hmove : (craneOf s.toPart c).move = some n) (hm : moveOf s.toPart n = some m) (hmark : m.piece = some mark)
    (hq : pieceOf s.toPart mark = some q) (hverdict : judgeLoad s.store.plant.loadTolerance q.mass y.strain = .accepted) :
    completeStep s.store c y .takeUp (replyHeard s c ex chars y) = pieceLifted s c ex chars y mark := by
  obtain ⟨-, -, -, -, ksm, -, -, -, -, -, kcrane, -⟩ := replyHeard_keeps (c := c) (y := y) (chars := chars) hnode halive
  have hheld : moveHeld (replyHeard s c ex chars y) c = some m :=
    (moveHeld_replyHeard hnode halive).trans (moveHeld_eq_some_iff.mpr ⟨n, hmove, hm⟩)
  have hpiece : pieceOf (replyHeard s c ex chars y) mark = some q := by rw [pieceOf, ksm, ← hq, pieceOf]
  simp only [completeStep, loadCheck, hheld, hmark, hpiece, hverdict]
  rw [acceptLoad, kcrane]
  rfl

/-- The end of an accepted load check. -/
theorem accepted_completed (h : replyJudged s c ex nd chars y) {n : Nat} {m : Move} {q : Piece}
    (hmove : (craneOf s.toPart c).move = some n) (hm : moveOf s.toPart n = some m) (hmark : m.piece = some mark)
    (hq : pieceOf s.toPart mark = some q) (hverdict : judgeLoad s.store.plant.loadTolerance q.mass y.strain = .accepted)
    (hstate : (craneOf s.toPart c).state = .takeUp) (hhook : y.hook = .strained) (hdone : y.done = true) {φ : State → Prop}
    (hφ : ∀ t, Completed s t ex (pieceLifted s c ex chars y mark) →
      craneCore (craneOf t.toPart c) = craneCore { heard y (craneOf s.toPart c) with state := .lift, load := some mark } →
      (ex.by_ = none → freshlyBegun s.store (craneOf t.toPart c) .lift) → φ t) :
    runsTo (.replyComplete chars) s fun t => replyTaken s t ex nd chars ∧ φ t := by
  have hreach := reachable_replyHeard h
  have hbusy := busy_replyHeard h
  obtain ⟨⟨-, -, -, -, hnode, -⟩, halive, -⟩ := id h
  obtain ⟨kmc, kbs, kcc, ktu, ksm, kmp, kcl, kevt, kfl, kcrane, kother⟩ :=
    loadTaken_keeps (c := c) (y := y) (chars := chars) (mark := mark) hnode halive
  have hlifted : (liftPiece c mark (loadTaken s c ex chars y mark)).fl = (replyHeard s c ex chars y).fl := by simp [kfl]
  have hreach' : reachable s.store c (liftPiece c mark (loadTaken s c ex chars y mark)) ex.addr := by
    rwa [reachable, nodeOf_congr (congrArg (·.nodes) hlifted)]
  have hbusy' : (liftPiece c mark (loadTaken s c ex chars y mark)).fl.line.isSome := by rwa [hlifted]
  have htraffic := (Traffic.refl (mine := {c}) (liftPiece c mark (loadTaken s c ex chars y mark))).then_beginStep
    (g := s.store) rfl .lift
  obtain ⟨hcore, hbegun⟩ := begun_beginStep hbusy' hreach' .lift
  rw [show craneOf (liftPiece c mark (loadTaken s c ex chars y mark)) c = _ from
    (craneOf_congr (by simp) (by simp) c).trans kcrane] at hcore
  have hworks : (craneOf (pieceLifted s c ex chars y mark) c).state ≠ .idle := by
    rw [pieceLifted, field_of_core hcore (·.state)]
    nofun
  refine step_completed (step := .takeUp) h hstate ?_ (completeStep_accepted hnode halive hmove hm hmark hq hverdict) ?_ ?_ ?_ ?_ ?_ fun t ht =>
    hφ t ht ((ht.works c hworks).1.trans hcore) fun hby =>
      ht.begun hby (htraffic.busy hbusy').1 c ex.addr hworks (hreach'.traffic htraffic) _ hbegun
  · simp [stepComplete, hhook, hdone]
  · simp [pieceLifted, kmc]
  · simp [pieceLifted, ktu]
  · exact htraffic.nodes.trans (congrArg (·.nodes) hlifted)
  · simp [pieceLifted, kcl]
  · intro k hk
    simp [pieceLifted, changed_liftPiece, kevt, Changes.none] at hk

end accepted

/-! ### What the lift leaves of the bed or slot (R30, R99, R127) -/

section lifted

variable {s t : State} {c : CraneId} {ex : Exchange} {nd : Node} {chars : List FieldChar} {y : CraneReply} {mark : Nat}
  {q : Piece}

theorem pieceLifted_keeps (hnode : nodeOf s.toPart ex.addr = some nd) (halive : nd.standing ≠ .lost) :
    (pieceLifted s c ex chars y mark).mp = s.mp ∧
    (pieceLifted s c ex chars y mark).evt = (liftPiece c mark (loadTaken s c ex chars y mark)).evt ∧
    (pieceLifted s c ex chars y mark).sm = (liftPiece c mark (loadTaken s c ex chars y mark)).sm ∧
    (pieceLifted s c ex chars y mark).cl = (liftPiece c mark (loadTaken s c ex chars y mark)).cl ∧
    (pieceLifted s c ex chars y mark).bs = (liftPiece c mark (loadTaken s c ex chars y mark)).bs ∧
    (pieceLifted s c ex chars y mark).cc = (liftPiece c mark (loadTaken s c ex chars y mark)).cc ∧
    craneCore (craneOf (pieceLifted s c ex chars y mark) c) =
      craneCore { heard y (craneOf s.toPart c) with state := .lift, load := some mark } ∧
    craneCore (craneOf (pieceLifted s c ex chars y mark) (otherCrane c)) = craneCore (craneOf s.toPart (otherCrane c)) := by
  obtain ⟨-, -, -, -, -, kmp, -, -, -, kcrane, kother⟩ :=
    loadTaken_keeps (c := c) (y := y) (chars := chars) (mark := mark) hnode halive
  have hcranes (d : CraneId) : craneOf (liftPiece c mark (loadTaken s c ex chars y mark)) d =
      craneOf (loadTaken s c ex chars y mark) d := craneOf_congr (by simp) (by simp) d
  have htraffic := (Traffic.refl (mine := {c}) (liftPiece c mark (loadTaken s c ex chars y mark))).then_beginStep
    (g := s.store) rfl .lift
  refine ⟨by simp [pieceLifted, kmp], by simp [pieceLifted], by simp [pieceLifted], by simp [pieceLifted], by simp [pieceLifted],
    by simp [pieceLifted], ?_, ?_⟩
  · have hcore := craneCore_beginStep (g := s.store) (p := liftPiece c mark (loadTaken s c ex chars y mark)) (c := c) .lift
    rwa [hcranes, kcrane] at hcore
  · exact (htraffic.cranes _ (ne_otherCrane c).symm).1.trans (congrArg craneCore ((hcranes _).trans kother))

theorem slotOf_putSlot (k : Nat) (r : Slot) (p : Part) (n : Nat) : slotOf (putSlot k r p) n = if n = k then r else slotOf p n := by
  unfold slotOf putSlot
  split_ifs with h
  · subst h
    rw [Map.find_put_same]
    rfl
  · rw [Map.find_put_other _ _ _ _ h]

theorem filter_nothing {α : Type} (o : Option α) : o.filter (fun _ => !false) = o := by cases o <;> rfl

/-- A scan at the end of an attempt leaves every stack and dig lock. -/
theorem stackAndLock_scannedCore {u : Part} (h : scannedCore s t u) (k : Nat) : stackAndLock t.toPart k = stackAndLock u k := by
  obtain ⟨fl, cl, evt, -, -, hsm, -⟩ := h
  refine (stackAndLock_congr (congrArg (·.slots) hsm) k).trans ?_
  unfold afterScan
  split
  · rw [stackAndLock_scan]
    rfl
  · rfl

theorem pieceOf_loadTaken (hnode : nodeOf s.toPart ex.addr = some nd) (halive : nd.standing ≠ .lost) (k : Nat) :
    pieceOf (loadTaken s c ex chars y mark) k = pieceOf s.toPart k := by
  obtain ⟨-, -, -, -, ksm, -⟩ := loadTaken_keeps (c := c) (y := y) (chars := chars) (mark := mark) hnode halive
  rw [pieceOf, ksm, pieceOf]

theorem slotOf_loadTaken (hnode : nodeOf s.toPart ex.addr = some nd) (halive : nd.standing ≠ .lost) (k : Nat) :
    slotOf (loadTaken s c ex chars y mark) k = slotOf s.toPart k := by
  obtain ⟨-, -, -, -, ksm, -⟩ := loadTaken_keeps (c := c) (y := y) (chars := chars) (mark := mark) hnode halive
  rw [slotOf, ksm, slotOf]

theorem pieceOf_lifted (hnode : nodeOf s.toPart ex.addr = some nd) (halive : nd.standing ≠ .lost)
    (ht : Completed s t ex (pieceLifted s c ex chars y mark)) (k : Nat) :
    pieceOf t.toPart k = pieceOf (liftPiece c mark (loadTaken s c ex chars y mark)) k := by
  obtain ⟨-, -, ksm, -⟩ := pieceLifted_keeps (c := c) (y := y) (chars := chars) (mark := mark) hnode halive
  exact (pieceOf_congr ht.pieces k).trans (pieceOf_congr (congrArg (·.pieces) ksm) k)

theorem piecesOnBed_loadTaken (hnode : nodeOf s.toPart ex.addr = some nd) (halive : nd.standing ≠ .lost) (b pour : Nat) :
    piecesOnBed (loadTaken s c ex chars y mark) b pour = piecesOnBed s.toPart b pour := by
  obtain ⟨-, kbs, -, -, ksm, -⟩ := loadTaken_keeps (c := c) (y := y) (chars := chars) (mark := mark) hnode halive
  simp only [piecesOnBed, pourOf, pieceOf, kbs, ksm]

/-- A piece lifted off a bed (R30, R99). -/
theorem lifted_off_bed (hnode : nodeOf s.toPart ex.addr = some nd) (halive : nd.standing ≠ .lost)
    (hq : pieceOf s.toPart mark = some q) (ht : Completed s t ex (pieceLifted s c ex chars y mark)) {b : Nat} {x : Int}
    (hplace : q.place = .bed b x) :
    let acc := zoneAccumulator s.toPart b q.zone
    let last := (bedOf s.toPart b).state = .stripping ∧ ∀ k ∈ piecesOnBed s.toPart b q.pour, k = mark
    pieceOf t.toPart mark = some { q with acc := acc, stripAcc := some acc, zone := none, place := .hook c } ∧
    (craneCore (craneOf t.toPart (otherCrane c)) = craneCore (craneOf s.toPart (otherCrane c)) ∧
      reservationOf t.toPart (otherCrane c) = reservationOf s.toPart (otherCrane c)) ∧
    t.mp = s.mp ∧ t.sm.slots = s.sm.slots ∧
    (last → bedOf t.toPart b = .vacant ∧ contextOf t.toPart b = none ∧ told s t [.bedEmpty b q.pour]) ∧
    (¬ last → t.bs = s.bs ∧ t.cc = s.cc ∧ told s t []) := by
  obtain ⟨kmp, kevt, ksm, kcl, kbs, kcc, -, kother⟩ :=
    pieceLifted_keeps (c := c) (y := y) (chars := chars) (mark := mark) hnode halive
  obtain ⟨-, lbs, lcc, -, lsm, -, lcl, levt, -⟩ :=
    loadTaken_keeps (c := c) (y := y) (chars := chars) (mark := mark) hnode halive
  have hpiece : pieceOf (loadTaken s c ex chars y mark) mark = some q := (pieceOf_loadTaken hnode halive mark).trans hq
  have hacc : zoneAccumulator (loadTaken s c ex chars y mark) b q.zone = zoneAccumulator s.toPart b q.zone := by
    simp only [zoneAccumulator, contextOf, lcc]
  have hbed : bedOf (loadTaken s c ex chars y mark) b = bedOf s.toPart b := bedOf_congr lbs b
  have hlift := liftPiece_of_bed (c := c) hpiece hplace
  rw [hacc, leftBed_lifted, hbed, piecesOnBed_loadTaken hnode halive] at hlift
  intro acc last
  have hscan : (pieceLifted s c ex chars y mark).evt.scan = false := by
    rw [kevt, hlift]
    split_ifs <;> simp [raise_evt, levt, Changes.none, putPiece]
  obtain ⟨tsm, tmp, tcores⟩ := ht.quiet hscan
  have tmp' : t.mp = s.mp := tmp.trans kmp
  refine ⟨?_, ⟨(tcores _).trans kother, by rw [reservationOf_congr tmp']⟩, tmp', ?_, fun hlast => ?_, fun hlast => ?_⟩
  · rw [pieceOf_lifted hnode halive ht, hlift]
    split_ifs
    · rw [pieceOf_raise, pieceOf_congr (p := putPiece mark (strippedPiece c acc q) (loadTaken s c ex chars y mark)) (by simp [acc])]
      exact (pieceOf_putPiece _ _ _ _).trans (if_pos rfl)
    · exact (pieceOf_putPiece _ _ _ _).trans (if_pos rfl)
  · rw [tsm, ksm, hlift]
    split_ifs <;> simp [putPiece, lsm]
  · rw [if_pos hlast] at hlift
    refine ⟨?_, ?_, ht.told _ ?_⟩
    · rw [bedOf_congr (ht.bs.trans (kbs.trans (congrArg (·.bs) hlift))), bedOf_congr (raise_bs _), bedOf_emptyBed]
    · have hcc : t.cc = (emptyBed b (putPiece mark (strippedPiece c acc q) (loadTaken s c ex chars y mark))).cc := by
        rw [ht.cc, kcc, hlift]
        simp [acc]
      rw [contextOf, hcc]
      exact contextOf_emptyBed _ _
    · rw [kcl, hlift, raise_cl]
      simp [putPiece, lcl]
  · rw [if_neg hlast] at hlift
    refine ⟨ht.bs.trans (kbs.trans ?_), ht.cc.trans (kcc.trans ?_), ht.told _ (kcl.trans ?_)⟩ <;> rw [hlift]
    · exact lbs
    · exact lcc
    · exact lcl

/-- A piece lifted off a slot (R99, R121). -/
theorem lifted_off_slot (hnode : nodeOf s.toPart ex.addr = some nd) (halive : nd.standing ≠ .lost)
    (hq : pieceOf s.toPart mark = some q) (ht : Completed s t ex (pieceLifted s c ex chars y mark)) {k tier : Nat}
    (hplace : q.place = .slot k tier) :
    pieceOf t.toPart mark = some { q with place := .hook c } ∧
    (slotOf t.toPart k).stack = (slotOf s.toPart k).stack.erase mark ∧ t.bs = s.bs ∧ t.cc = s.cc ∧ told s t [] ∧
    ∃ u, scannedCore s t u ∧
      craneCore (craneOf u c) = craneCore { heard y (craneOf s.toPart c) with state := .lift, load := some mark } ∧
      (craneCore (craneOf u (otherCrane c)) = craneCore (craneOf s.toPart (otherCrane c)) ∧
        reservationOf u (otherCrane c) = reservationOf s.toPart (otherCrane c)) ∧
      u.mp = s.mp ∧ freedOf s u fun _ => false := by
  obtain ⟨kmp, kevt, ksm, kcl, kbs, kcc, kcrane, kother⟩ :=
    pieceLifted_keeps (c := c) (y := y) (chars := chars) (mark := mark) hnode halive
  obtain ⟨-, lbs, lcc, -, lsm, -, lcl, levt, -⟩ :=
    loadTaken_keeps (c := c) (y := y) (chars := chars) (mark := mark) hnode halive
  have hpiece : pieceOf (loadTaken s c ex chars y mark) mark = some q := (pieceOf_loadTaken hnode halive mark).trans hq
  have hlift := liftPiece_of_slot (c := c) hpiece hplace
  have hslot := slotOf_loadTaken (c := c) (y := y) (chars := chars) (mark := mark) hnode halive
  have hslots (n : Nat) : slotOf (pieceLifted s c ex chars y mark) n =
      if n = k then { slotOf s.toPart k with stack := (slotOf s.toPart k).stack.erase mark } else slotOf s.toPart n := by
    rw [slotOf, ksm, hlift, hslot]
    refine (slotOf_putSlot k _ _ n).trans ?_
    rw [hslot]
  obtain ⟨u, hu, usm, ump, ucores⟩ := ht.scanned (by rw [kevt, hlift]; rfl)
  have ump' : u.mp = s.mp := ump.trans kmp
  refine ⟨?_, ?_, ?_, ?_, ht.told _ ?_, u, hu, (ucores c).trans kcrane, ⟨(ucores _).trans kother, by rw [reservationOf_congr ump']⟩,
    ump', fun n => ?_⟩
  · rw [pieceOf_lifted hnode halive ht, hlift]
    exact (pieceOf_putPiece _ _ _ _).trans (if_pos rfl)
  · have hstack : (slotOf t.toPart k).stack = (slotOf u k).stack := congrArg Prod.fst (stackAndLock_scannedCore hu k)
    rw [hstack, slotOf, usm, ← slotOf, hslots, if_pos rfl]
  · rw [ht.bs, kbs, hlift]
    exact lbs
  · rw [ht.cc, kcc, hlift]
    exact lcc
  · rw [kcl, hlift]
    exact lcl
  · rw [slotOf, usm, ← slotOf, hslots]
    split_ifs with h
    · subst h
      exact ⟨(filter_nothing _).symm, (filter_nothing _).symm⟩
    · exact ⟨(filter_nothing _).symm, (filter_nothing _).symm⟩

end lifted

/-! ### A move suspended without its crane, and a crane come to rest (R120, R127) -/

section unbound

variable {g : Store} {p : Part} {c : CraneId}

theorem reservationOf_comeToRest (g : Store) (c : CraneId) (pos : Int) (p : Part) (d : CraneId) :
    reservationOf (comeToRest g c pos p) d = if d = c then (reservationOf p c).map (restWithin g pos) else reservationOf p d := by
  rw [comeToRest]
  by_cases hd : d = c
  · subst hd
    rw [if_pos rfl]
    cases d <;> rfl
  · rw [if_neg hd]
    cases d <;> cases c <;> first | rfl | exact absurd rfl hd

/-- A move as its unbound suspension leaves it (R127). -/
def unboundMove (reason : SuspendReason) (m : Move) : Move :=
  { m with state := .suspended, reason := some reason, crane := none
           dest := if m.kind = .strip ∨ m.kind = .rehandle then none else m.dest }

theorem suspendUnbound_of_some {n : Nat} {m : Move} (hm : moveOf p n = some m) (pos : Int) (reason : SuspendReason) :
    (suspendUnbound g n c pos reason p).mp.queue = p.mp.queue.map (fun k => if k.number = n then unboundMove reason m else k) ∧
    (∀ k, slotOf (suspendUnbound g n c pos reason p) k = freeOf n (slotOf p k)) ∧
    (∀ d, reservationOf (suspendUnbound g n c pos reason p) d =
      if d = c then (reservationOf p c).map (restWithin g pos) else reservationOf p d) ∧
    (suspendUnbound g n c pos reason p).evt.changed = p.evt.changed ∧
    (suspendUnbound g n c pos reason p).evt.scan = true := by
  obtain rfl := number_of_moveOf hm
  have heq : suspendUnbound g m.number c pos reason p =
      comeToRest g c pos (release m.number (putMove (unboundMove reason m) p)) := by
    simp only [suspendUnbound, hm]
    rfl
  have hheld (d : CraneId) : reservationOf (release m.number (putMove (unboundMove reason m) p)) d = reservationOf p d := by
    cases d <;> simp [reservationOf, putMove]
  rw [heq]
  refine ⟨?_, fun k => ?_, fun d => ?_, ?_, rfl⟩
  · have hqueue : (comeToRest g c pos (release m.number (putMove (unboundMove reason m) p))).mp.queue =
        (putMove (unboundMove reason m) p).mp.queue := by simp
    rw [hqueue]
    rfl
  · refine Eq.trans ?_ (slotOf_release m.number (putMove (unboundMove reason m) p) k)
    simp [slotOf]
  · rw [reservationOf_comeToRest, hheld, hheld]
  · refine Eq.trans ?_ (release_evt m.number (putMove (unboundMove reason m) p)).1
    simp [comeToRest, triggerScan]

end unbound

/-! ### The load refused (R143) -/

section refused

variable {s : State} {c : CraneId} {ex : Exchange} {nd : Node} {chars : List FieldChar} {y : CraneReply} {mark n : Nat} {m : Move}
  {q : Piece}

/-- The record of a crane that slackens its hook. -/
abbrev slackened (r : Crane) : Crane := { r with slackening := true, move := none, dispatchPos := none }

/-- The records after the hook's slackening has begun. -/
def slackBegun (s : State) (c : CraneId) (ex : Exchange) (chars : List FieldChar) (y : CraneReply) : Part :=
  beginStep s.store c .lower (putCrane c (slackened (heard y (craneOf s.toPart c))) (replyHeard s c ex chars y))

/-- The records after a refused load check. -/
def loadRefused (s : State) (c : CraneId) (ex : Exchange) (chars : List FieldChar) (y : CraneReply) (m : Move) (mark mass : Nat)
    (reason : SuspendReason) : Part :=
  raise (.moveSuspended m.number mark reason (some (y.strain, mass)))
    (suspendUnbound s.store m.number c y.pos reason (slackBegun s c ex chars y))

theorem completeStep_refused (hnode : nodeOf s.toPart ex.addr = some nd) (halive : nd.standing ≠ .lost)
    (hmove : (craneOf s.toPart c).move = some n) (hm : moveOf s.toPart n = some m) (hmark : m.piece = some mark)
    (hq : pieceOf s.toPart mark = some q) {reason : SuspendReason}
    (hverdict : (judgeLoad s.store.plant.loadTolerance q.mass y.strain = .high ∧ reason = .loadHigh) ∨
      (judgeLoad s.store.plant.loadTolerance q.mass y.strain = .low ∧ reason = .loadLow)) :
    completeStep s.store c y .takeUp (replyHeard s c ex chars y) = loadRefused s c ex chars y m mark q.mass reason := by
  obtain ⟨-, -, -, -, ksm, -, -, -, -, -, kcrane, -⟩ := replyHeard_keeps (c := c) (y := y) (chars := chars) hnode halive
  have hheld : moveHeld (replyHeard s c ex chars y) c = some m :=
    (moveHeld_replyHeard hnode halive).trans (moveHeld_eq_some_iff.mpr ⟨n, hmove, hm⟩)
  have hpiece : pieceOf (replyHeard s c ex chars y) mark = some q := by rw [pieceOf, ksm, ← hq, pieceOf]
  rcases hverdict with ⟨hverdict, rfl⟩ | ⟨hverdict, rfl⟩ <;>
  · simp only [completeStep, loadCheck, hheld, hmark, hpiece, hverdict]
    rw [refuseLoad, kcrane]
    rfl

/-- The end of a refused load check. -/
theorem refused_completed (h : replyJudged s c ex nd chars y) (hmove : (craneOf s.toPart c).move = some n)
    (hm : moveOf s.toPart n = some m) (hmark : m.piece = some mark) (hq : pieceOf s.toPart mark = some q)
    (hstate : (craneOf s.toPart c).state = .takeUp) (hhook : y.hook = .strained) (hdone : y.done = true)
    {reason : SuspendReason}
    (hverdict : (judgeLoad s.store.plant.loadTolerance q.mass y.strain = .high ∧ reason = .loadHigh) ∨
      (judgeLoad s.store.plant.loadTolerance q.mass y.strain = .low ∧ reason = .loadLow)) :
    let slack : Crane := { heard y (craneOf s.toPart c) with state := .lower, slackening := true, move := none, dispatchPos := none }
    runsTo (.replyComplete chars) s fun t => replyTaken s t ex nd chars ∧
      craneCore (craneOf t.toPart c) = craneCore slack ∧
      (ex.by_ = none → freshlyBegun s.store (craneOf t.toPart c) .lower) ∧
      t.bs = s.bs ∧ t.cc = s.cc ∧ t.sm.pieces = s.sm.pieces ∧ reservationOf t.toPart c = rested s c y.pos ∧
      told s t [.moveSuspended n mark reason (some (y.strain, q.mass))] ∧
      ∃ u, scannedCore s t u ∧ craneCore (craneOf u c) = craneCore slack ∧
        (craneCore (craneOf u (otherCrane c)) = craneCore (craneOf s.toPart (otherCrane c)) ∧
          reservationOf u (otherCrane c) = reservationOf s.toPart (otherCrane c)) ∧
        reservationOf u c = rested s c y.pos ∧
        (∀ k, (slotOf u k).stack = (slotOf s.toPart k).stack ∧ (slotOf u k).lock = (slotOf s.toPart k).lock ∧
          (slotOf u k).engaged = (slotOf s.toPart k).engaged.filter fun e => e.1 != n) ∧
        u.mp.backlog = s.mp.backlog ∧
        u.mp.queue = s.mp.queue.map fun k => if k.number = n then unboundMove reason m else k := by
  have hreach := reachable_replyHeard h
  have hbusy := busy_replyHeard h
  obtain ⟨⟨-, -, -, -, hnode, -⟩, halive, -⟩ := id h
  obtain ⟨kmc, kbs, kcc, ktu, ksm, kmp, kcl, kevt, -, -, -, kother⟩ :=
    replyHeard_keeps (c := c) (y := y) (chars := chars) hnode halive
  obtain rfl := number_of_moveOf hm
  intro slack
  obtain ⟨held, hheld⟩ : ∃ held, held = putCrane c (slackened (heard y (craneOf s.toPart c))) (replyHeard s c ex chars y) := ⟨_, rfl⟩
  have heldTraffic : Traffic {c} (replyHeard s c ex chars y) held := hheld ▸ (Traffic.refl (mine := {c}) _).then_putCrane rfl _
  have hreach' := hreach.traffic heldTraffic
  have hbusy' := (heldTraffic.busy hbusy).1
  have hbegunEq : slackBegun s c ex chars y = beginStep s.store c .lower held := by rw [slackBegun, hheld]
  have htraffic := (Traffic.refl (mine := {c}) held).then_beginStep (g := s.store) rfl .lower
  obtain ⟨hcore, hbegun⟩ := begun_beginStep hbusy' hreach' .lower
  rw [← hbegunEq] at htraffic hcore hbegun
  rw [show craneOf held c = slackened (heard y (craneOf s.toPart c)) by rw [hheld, craneOf_putCrane_same]] at hcore
  have hother : craneCore (craneOf (slackBegun s c ex chars y) (otherCrane c)) = craneCore (craneOf s.toPart (otherCrane c)) := by
    refine (htraffic.cranes _ (ne_otherCrane c).symm).1.trans (congrArg craneCore ?_)
    rw [hheld, craneOf_putCrane_other (ne_otherCrane c).symm, kother]
  obtain ⟨bmc, bbs, bcc, btu, bsm, bmp, bcl, bevt⟩ := beginStep_keeps s.store c .lower held
  rw [← hbegunEq] at bmc bbs bcc btu bsm bmp bcl bevt
  have heldKeeps : held.mc = s.mc ∧ held.bs = s.bs ∧ held.cc = s.cc ∧ held.tu = s.tu ∧ held.sm = s.sm ∧ held.mp = s.mp ∧
      held.cl = s.cl ∧ held.evt = .none := by
    rw [hheld]
    cases c <;> exact ⟨kmc, kbs, kcc, ktu, ksm, kmp, kcl, kevt⟩
  obtain ⟨lmc, lbs, lcc, ltu, lsm, lmp, lcl, levt⟩ := heldKeeps
  have hmove' : moveOf (slackBegun s c ex chars y) m.number = some m := by rw [moveOf, bmp, lmp, ← hm, moveOf]
  obtain ⟨uqueue, uslots, ures, uchanged, uscan⟩ :=
    suspendUnbound_of_some (g := s.store) (c := c) hmove' y.pos reason
  obtain ⟨r, hr⟩ : ∃ r, r = loadRefused s c ex chars y m mark q.mass reason := ⟨_, rfl⟩
  have hcranes (d : CraneId) : craneOf r d = craneOf (slackBegun s c ex chars y) d := by
    rw [hr]
    exact craneOf_congr (by simp [loadRefused]) (by simp [loadRefused]) d
  have rkeeps : r.mc = s.mc ∧ r.bs = s.bs ∧ r.cc = s.cc ∧ r.tu = s.tu ∧ r.sm.pieces = s.sm.pieces ∧
      r.fl = (slackBegun s c ex chars y).fl ∧ r.mp.backlog = s.mp.backlog := by
    rw [hr]
    simp [loadRefused, bmc, bbs, bcc, btu, bsm, bmp, lmc, lbs, lcc, ltu, lsm, lmp]
  obtain ⟨rmc, rbs, rcc, rtu, rpieces, rfl', rbacklog⟩ := rkeeps
  have revt : r.evt = (suspendUnbound s.store m.number c y.pos reason (slackBegun s c ex chars y)).evt := by rw [hr]; simp [loadRefused]
  have rcl : r.cl = [Notice.moveSuspended m.number mark reason (some (y.strain, q.mass))].foldl raiseLink s.cl := by
    rw [hr, loadRefused, raise_cl]
    simp [bcl, lcl]
  have rmp : r.mp = (suspendUnbound s.store m.number c y.pos reason (slackBegun s c ex chars y)).mp := by rw [hr]; simp [loadRefused]
  have rsm : r.sm = (suspendUnbound s.store m.number c y.pos reason (slackBegun s c ex chars y)).sm := by rw [hr]; simp [loadRefused]
  have rcore : craneCore (craneOf r c) = craneCore slack := by rw [hcranes, hcore]; rfl
  have hworks : (craneOf r c).state ≠ .idle := by
    rw [field_of_core rcore (·.state)]
    nofun
  have hheldRes (d : CraneId) : reservationOf (slackBegun s c ex chars y) d = reservationOf s.toPart d :=
    reservationOf_congr (p := s.toPart) (bmp.trans lmp) d
  have rres (d : CraneId) : reservationOf r d = if d = c then rested s c y.pos else reservationOf s.toPart d := by
    rw [reservationOf_congr rmp, ures, hheldRes, hheldRes]
    rfl
  have rtraffic : Traffic {c} held r := htraffic.then_same rfl' fun d _ => hcranes d
  refine step_completed (step := .takeUp) (q := r) h hstate (by simp [stepComplete, hhook, hdone])
    ((completeStep_refused hnode halive hmove hm hmark hq hverdict).trans hr.symm) rmc rtu
    (rtraffic.nodes.trans heldTraffic.nodes) (by rw [rcl]; exact linkCore_raiseLink _ _) ?_ fun t ht =>
      ⟨(ht.works c hworks).1.trans rcore, fun hby => ?_, ht.bs.trans rbs, ht.cc.trans rcc, ht.pieces.trans rpieces,
        (ht.works c hworks).2.trans ((rres c).trans (if_pos rfl)), ht.told _ rcl, ?_⟩
  · rw [revt, uchanged, bevt, levt]
    exact fun _ hk => nomatch hk
  · refine ht.begun hby (rtraffic.busy hbusy').1 c ex.addr hworks (hreach'.traffic rtraffic) _ ?_
    rw [hcranes]
    exact hbegun
  · obtain ⟨u, hu, usm, ump, ucores⟩ := ht.scanned (by rw [revt, uscan])
    have ures' (d : CraneId) : reservationOf u d = reservationOf r d := reservationOf_congr ump d
    refine ⟨u, hu, (ucores c).trans rcore, ⟨(ucores _).trans (by rw [hcranes, hother]), ?_⟩, ?_, fun k => ?_, ?_, ?_⟩
    · rw [ures', rres, if_neg (ne_otherCrane c).symm]
    · rw [ures', rres, if_pos rfl]
    · have hslot : slotOf u k = freeOf m.number (slotOf s.toPart k) := by
        rw [slotOf, usm, rsm, ← slotOf, uslots, slotOf, bsm, lsm, ← slotOf]
      rw [hslot, freeOf_slot]
      exact ⟨rfl, rfl, rfl⟩
    · rw [ump, rbacklog]
    · rw [ump, rmp, uqueue, bmp, lmp]

end refused

/-! ### A move done (R126, R135) -/

section moveDone

variable {g : Store} {p : Part} {c : CraneId} {n mark : Nat} {m : Move}

theorem pieceOf_setPieceMove_other {k : Nat} (h : mark ≠ k) (x : Option Nat) : pieceOf (setPieceMove k x p) mark = pieceOf p mark := by
  unfold setPieceMove
  split
  · rw [pieceOf_putPiece, if_neg h]
  · rfl

theorem pieceOf_setPieceMove_same (x : Option Nat) :
    pieceOf (setPieceMove mark x p) mark = (pieceOf p mark).map fun q => { q with move := x } := by
  unfold setPieceMove
  split
  · next q hq => rw [pieceOf_putPiece, if_pos rfl, hq]; rfl
  · next hq => rw [hq]; rfl

theorem pieceOf_joinQueue_other {k : Nat} (h : mark ≠ k) (atHead : Bool) {x : Move} (hx : x.piece = some k) :
    pieceOf (joinQueue atHead x p) mark = pieceOf p mark := by
  unfold joinQueue
  rw [hx]
  exact pieceOf_setPieceMove_other h _

theorem pieceOf_queueStrip_other {k : Nat} (h : mark ≠ k) : pieceOf (queueStrip k p) mark = pieceOf p mark := by
  unfold queueStrip
  split
  · split
    · exact pieceOf_joinQueue_other h false rfl
    · rfl
  · rfl

/-- A backlog fill leaves a piece that lies on no STRIPPING bed. -/
theorem pieceOf_fillFrom (l : List Nat) (h : onStrippingBed p mark = false) : pieceOf (fillFrom l p) mark = pieceOf p mark := by
  induction l generalizing p with
  | nil => rfl
  | cons k l ih =>
    unfold fillFrom
    split
    · split
      · next hbed =>
        have hk : mark ≠ k := by
          rintro rfl
          rw [h] at hbed
          cases hbed
        have hsame := pieceOf_queueStrip_other (p := p) hk
        rw [ih (by rwa [onStrippingBed_congr (p := p) (by simp) (congrArg (Option.map _) hsame)]), hsame]
      · exact ih h
    · rfl

theorem pieceOf_comeToRest (g : Store) (c : CraneId) (pos : Int) (p : Part) (k : Nat) :
    pieceOf (comeToRest g c pos p) k = pieceOf p k := pieceOf_congr (by simp) k

theorem pieceOf_removeMove (hm : moveOf p n = some m) (hmark : m.piece = some mark) :
    pieceOf (removeMove n p) mark = (pieceOf p mark).map fun q => { q with move := none } := by
  have hpiece : pieceOf (removeMove n p) mark = pieceOf (unqueued n m p) mark := by
    rw [removeMove_of_some hm]
    exact pieceOf_congr (by simp) mark
  rw [hpiece, unqueued, hmark]
  exact pieceOf_setPieceMove_same none

/-- The piece of a move that is done has no move, where it lies on no bed. -/
theorem pieceOf_moveDone (pos : Int) (hm : moveOf p n = some m) (hmark : m.piece = some mark)
    (hplace : ∀ q b x, pieceOf p mark = some q → q.place ≠ .bed b x) :
    pieceOf (moveDone g n c pos p) mark = (pieceOf p mark).map fun q => { q with move := none } := by
  have hremoved := pieceOf_removeMove hm hmark
  have hbed : onStrippingBed (comeToRest g c pos (removeMove n p)) mark = false := by
    unfold onStrippingBed
    rw [pieceOf_comeToRest, hremoved]
    cases hq : pieceOf p mark with
    | none => rfl
    | some q =>
      dsimp only [Option.map_some]
      split
      · next b x hb => exact absurd hb (hplace q b x hq)
      · rfl
  rw [moveDone, backlogFill, pieceOf_fillFrom _ hbed, pieceOf_comeToRest, hremoved]

theorem queue_moveDone (pos : Int) : ∃ fill, (moveDone g n c pos p).mp.queue = (p.mp.queue.filter fun k => k.number != n) ++ fill ∧
    ∀ k ∈ fill, k.kind = .strip ∧ k.state = .queued ∧ k.crane = none ∧ ∃ mark ∈ p.mp.backlog, k.piece = some mark := by
  obtain ⟨⟨fill, hqueue, hfill⟩, -, -, -⟩ := filled_backlogFill (comeToRest g c pos (removeMove n p))
  refine ⟨fill, ?_, fun k hk => ?_⟩
  · rw [moveDone, hqueue]
    simp [removeMove_queue]
  · obtain ⟨hkind, hstate, hcrane, ⟨mark, hmark, hpiece⟩, -⟩ := hfill k hk
    exact ⟨hkind, hstate, hcrane, mark, by simpa using hmark, hpiece⟩

theorem evt_moveDone (pos : Int) :
    (moveDone g n c pos p).evt.changed = p.evt.changed ∧ (moveDone g n c pos p).evt.scan = true := by
  obtain ⟨-, -, hchanged, hscan⟩ := filled_backlogFill (comeToRest g c pos (removeMove n p))
  refine ⟨hchanged.trans (Eq.trans ?_ (evt_removeMove n p).1), hscan rfl⟩
  simp [comeToRest, triggerScan]

theorem slotOf_moveDone (pos : Int) (hm : moveOf p n = some m) (k : Nat) :
    slotOf (moveDone g n c pos p) k = freeOf n (unlockOf n (slotOf p k)) := by
  rw [← slotOf_removeMove (by simp [hm])]
  simp [slotOf, moveDone]

theorem reservationOf_removeMove (n : Nat) (p : Part) (d : CraneId) : reservationOf (removeMove n p) d = reservationOf p d := by
  cases d <;> simp [reservationOf]

theorem reservationOf_moveDone (pos : Int) (d : CraneId) :
    reservationOf (moveDone g n c pos p) d = if d = c then (reservationOf p c).map (restWithin g pos) else reservationOf p d := by
  have hfill : reservationOf (moveDone g n c pos p) d = reservationOf (comeToRest g c pos (removeMove n p)) d := by
    cases d <;> simp [reservationOf, moveDone]
  rw [hfill, reservationOf_comeToRest, reservationOf_removeMove, reservationOf_removeMove]

end moveDone

/-! ### A crane becomes IDLE (R144) -/

section idle

variable {g : Store} {p : Part} {c : CraneId}

/-- The record of a crane that has become IDLE with nothing held. -/
abbrev restingCrane (r : Crane) : Crane :=
  { r with state := .idle, slackening := false, command := none, timer := none, move := none, dispatchPos := none,
           stoppedStep := none, load := none }

theorem becomeIdle_eq (g : Store) (c : CraneId) (p : Part) :
    becomeIdle g c p = triggerScan (enterState g c (restingCrane (craneOf p c)) p) := rfl

theorem craneOf_becomeIdle : craneOf (becomeIdle g c p) c = restingCrane (craneOf p c) := craneOf_enterState_same _

theorem craneOf_becomeIdle_other {d : CraneId} (h : d ≠ c) : craneOf (becomeIdle g c p) d = craneOf p d :=
  craneOf_enterState_other h _

theorem becomeIdle_leaves (g : Store) (c : CraneId) (p : Part) :
    (becomeIdle g c p).mc = p.mc ∧ (becomeIdle g c p).bs = p.bs ∧ (becomeIdle g c p).cc = p.cc ∧ (becomeIdle g c p).tu = p.tu ∧
    (becomeIdle g c p).sm = p.sm ∧ (becomeIdle g c p).mp = p.mp ∧ (becomeIdle g c p).cl = p.cl ∧
    (becomeIdle g c p).fl.nodes = p.fl.nodes ∧ (becomeIdle g c p).evt.changed = p.evt.changed ∧
    (becomeIdle g c p).evt.scan = true := by
  have hnodes : (becomeIdle g c p).fl.nodes = p.fl.nodes :=
    ((Traffic.refl (mine := {c}) p).then_enterState rfl (restingCrane (craneOf p c))).nodes
  rw [becomeIdle_eq] at hnodes ⊢
  exact ⟨by simp, by simp, by simp, by simp, by simp, by simp, by simp, hnodes, by simp [triggerScan], rfl⟩

end idle

/-! ### The end of a move (R126, R144) -/

section ended

variable {s t : State} {c : CraneId} {ex : Exchange} {nd : Node} {chars : List FieldChar} {y : CraneReply} {n mark : Nat}
  {m : Move} {q : Piece} {p : Part}

/-- The records once a move is done and its crane IDLE. -/
def moveEnded (s : State) (c : CraneId) (n : Nat) (pos : Int) (p : Part) : Part := becomeIdle s.store c (moveDone s.store n c pos p)

/-- The records before a move ends: those of `s`, but for the crane's last reply and load, and what has been freed of the
move. -/
structure AtMoveEnd (s : State) (c : CraneId) (ex : Exchange) (nd : Node) (chars : List FieldChar) (y : CraneReply) (n : Nat)
    (p : Part) : Prop where
  mc : p.mc = s.mc
  cc : p.cc = s.cc
  tu : p.tu = s.tu
  mp : p.mp = s.mp
  nodes : p.fl.nodes = (replyHeard s c ex chars y).fl.nodes
  crane : restingCrane (craneOf p c) = restingCrane (heard y (craneOf s.toPart c))
  other : craneOf p (otherCrane c) = craneOf s.toPart (otherCrane c)
  slots : ∀ k, ((slotOf p k).engaged.filter fun e => e.1 != n) = ((slotOf s.toPart k).engaged.filter fun e => e.1 != n) ∧
    (slotOf p k).lock = (slotOf s.toPart k).lock

theorem moveEnded_leaves (s : State) (c : CraneId) (n : Nat) (pos : Int) (p : Part) :
    (moveEnded s c n pos p).mc = p.mc ∧ (moveEnded s c n pos p).bs = p.bs ∧ (moveEnded s c n pos p).cc = p.cc ∧
    (moveEnded s c n pos p).tu = p.tu ∧ (moveEnded s c n pos p).cl = p.cl ∧
    (moveEnded s c n pos p).fl.nodes = p.fl.nodes ∧ (moveEnded s c n pos p).evt.changed = p.evt.changed ∧
    (moveEnded s c n pos p).evt.scan = true ∧ (moveEnded s c n pos p).sm = (moveDone s.store n c pos p).sm ∧
    (moveEnded s c n pos p).mp = (moveDone s.store n c pos p).mp := by
  obtain ⟨bmc, bbs, bcc, btu, bsm, bmp, bcl, bnodes, bchanged, bscan⟩ := becomeIdle_leaves s.store c (moveDone s.store n c pos p)
  obtain ⟨kmc, kbs, kcc, ktu, -, -, kfl, kcl, -⟩ := moveDone_keeps s.store n c pos p
  exact ⟨bmc.trans kmc, bbs.trans kbs, bcc.trans kcc, btu.trans ktu, bcl.trans kcl, bnodes.trans (by rw [kfl]),
    bchanged.trans (evt_moveDone pos).1, bscan, bsm, bmp⟩

theorem craneOf_moveDone (g : Store) (n : Nat) (c : CraneId) (pos : Int) (p : Part) (d : CraneId) :
    craneOf (moveDone g n c pos p) d = craneOf p d := craneOf_congr (by simp) (by simp) d

theorem queue_moveEnded (hend : AtMoveEnd s c ex nd chars y n p) (pos : Int) :
    filledFrom s (s.mp.queue.filter fun k => k.number != n) (moveEnded s c n pos p).mp.queue := by
  obtain ⟨-, -, -, -, -, -, -, -, -, kmp⟩ := moveEnded_leaves s c n pos p
  obtain ⟨fill, hqueue, hfill⟩ := queue_moveDone (g := s.store) (p := p) (c := c) (n := n) pos
  rw [hend.mp] at hqueue hfill
  refine ⟨fill, by rw [kmp, hqueue], fun hnone => ?_, hfill⟩
  rw [List.eq_nil_iff_forall_not_mem]
  intro k hk
  obtain ⟨-, -, -, mark, hmark, -⟩ := hfill k hk
  rw [hnone] at hmark
  cases hmark

theorem freedOf_moveEnded (hend : AtMoveEnd s c ex nd chars y n p) (hm : moveOf s.toPart n = some m) (pos : Int) :
    freedOf s (moveEnded s c n pos p) fun k => k == n := by
  obtain ⟨-, -, -, -, -, -, -, -, ksm, -⟩ := moveEnded_leaves s c n pos p
  have hm' : moveOf p n = some m := by rw [moveOf, hend.mp, ← hm, moveOf]
  intro k
  obtain ⟨hengaged, hlock⟩ := hend.slots k
  rw [slotOf, ksm, ← slotOf, slotOf_moveDone pos hm', freeOf_slot, unlockOf_slot]
  exact ⟨hengaged, by rw [hlock]; rfl⟩

/-- What the end of a move says of the crane, the queue and the slots. -/
theorem done_of_completed (hend : AtMoveEnd s c ex nd chars y n p) (hm : moveOf s.toPart n = some m)
    (ht : Completed s t ex (moveEnded s c n y.pos p)) :
    (craneOf t.toPart c).load = none ∧ (craneOf t.toPart c).slackening = false ∧
      ∃ u, scannedCore s t u ∧
        craneCore (craneOf u c) = craneCore { heard y (craneOf s.toPart c) with
          state := .idle, slackening := false, move := none, dispatchPos := none, stoppedStep := none, load := none } ∧
        (craneCore (craneOf u (otherCrane c)) = craneCore (craneOf s.toPart (otherCrane c)) ∧
          reservationOf u (otherCrane c) = reservationOf s.toPart (otherCrane c)) ∧
        reservationOf u c = rested s c y.pos ∧
        freedOf s u (fun k => k == n) ∧ filledFrom s (s.mp.queue.filter fun k => k.number != n) u.mp.queue := by
  obtain ⟨-, -, -, -, -, -, -, kscan, ksm, kmp⟩ := moveEnded_leaves s c n y.pos p
  have hcrane : craneOf (moveEnded s c n y.pos p) c = restingCrane (heard y (craneOf s.toPart c)) := by
    rw [moveEnded, craneOf_becomeIdle, craneOf_moveDone, hend.crane]
  have hother : craneOf (moveEnded s c n y.pos p) (otherCrane c) = craneOf s.toPart (otherCrane c) := by
    rw [moveEnded, craneOf_becomeIdle_other (ne_otherCrane c).symm, craneOf_moveDone, hend.other]
  have hres (d : CraneId) : reservationOf (moveEnded s c n y.pos p) d =
      if d = c then rested s c y.pos else reservationOf s.toPart d := by
    rw [reservationOf_congr kmp, reservationOf_moveDone, reservationOf_congr (p := s.toPart) hend.mp,
      reservationOf_congr (p := s.toPart) hend.mp]
    rfl
  have hrest := (ht.dispatched c).rest
  rw [hcrane] at hrest
  obtain ⟨u, hu, usm, ump, ucores⟩ := ht.scanned kscan
  have ures (d : CraneId) : reservationOf u d = reservationOf (moveEnded s c n y.pos p) d := reservationOf_congr ump d
  refine ⟨field_of_rest hrest (·.load), field_of_rest hrest (·.slackening), u, hu, ?_, ⟨?_, ?_⟩, ?_, fun k => ?_, ?_⟩
  · rw [ucores, hcrane]
    rfl
  · rw [ucores, hother]
  · rw [ures, hres, if_neg (ne_otherCrane c).symm]
  · rw [ures, hres, if_pos rfl]
  · rw [slotOf, usm, ← slotOf]
    exact freedOf_moveEnded hend hm y.pos k
  · rw [ump]
    exact queue_moveEnded hend y.pos

theorem pieceOf_moveEnded (hend : AtMoveEnd s c ex nd chars y n p) (hm : moveOf s.toPart n = some m) (hmark : m.piece = some mark)
    (pos : Int) (hplace : ∀ q b x, pieceOf p mark = some q → q.place ≠ .bed b x) :
    pieceOf (moveEnded s c n pos p) mark = (pieceOf p mark).map fun q => { q with move := none } := by
  obtain ⟨-, -, -, -, -, -, -, -, ksm, -⟩ := moveEnded_leaves s c n pos p
  have hm' : moveOf p n = some m := by rw [moveOf, hend.mp, ← hm, moveOf]
  rw [pieceOf_congr (congrArg (·.pieces) ksm), pieceOf_moveDone pos hm' hmark hplace]

theorem stack_moveEnded (hend : AtMoveEnd s c ex nd chars y n p) (hm : moveOf s.toPart n = some m) (pos : Int) (k : Nat) :
    (slotOf (moveEnded s c n pos p) k).stack = (slotOf p k).stack := by
  obtain ⟨-, -, -, -, -, -, -, -, ksm, -⟩ := moveEnded_leaves s c n pos p
  have hm' : moveOf p n = some m := by rw [moveOf, hend.mp, ← hm, moveOf]
  rw [slotOf, ksm, ← slotOf, slotOf_moveDone pos hm', freeOf_slot, unlockOf_slot]

/-- A reply that ends a move, by the records that it finds of the move. -/
theorem moveEnded_completed (h : replyJudged s c ex nd chars y) {step : Step} (hstate : (craneOf s.toPart c).state = stateOf step)
    (hcomplete : stepComplete s.store (replyHeard s c ex chars y) c y step = true)
    (hstep : completeStep s.store c y step (replyHeard s c ex chars y) = moveEnded s c n y.pos p)
    (hend : AtMoveEnd s c ex nd chars y n p) (hlink : linkCore p.cl = linkCore s.cl)
    (hsafe : ∀ k ∈ p.evt.changed, ∀ r, pieceOf (moveEnded s c n y.pos p) k = some r → safeFromReview r) {φ : State → Prop}
    (hφ : ∀ t, Completed s t ex (moveEnded s c n y.pos p) → φ t) :
    runsTo (.replyComplete chars) s fun t => replyTaken s t ex nd chars ∧ φ t := by
  obtain ⟨kmc, -, -, ktu, kcl, knodes, kchanged, -⟩ := moveEnded_leaves s c n y.pos p
  exact step_completed h hstate hcomplete hstep (kmc.trans hend.mc) (ktu.trans hend.tu) (knodes.trans hend.nodes)
    (by rw [kcl, hlink]) (by rwa [kchanged]) hφ

theorem atMoveEnd_replyHeard (hnode : nodeOf s.toPart ex.addr = some nd) (halive : nd.standing ≠ .lost) :
    AtMoveEnd s c ex nd chars y n (replyHeard s c ex chars y) := by
  obtain ⟨kmc, -, kcc, ktu, ksm, kmp, -, -, -, -, kcrane, kother⟩ :=
    replyHeard_keeps (c := c) (y := y) (chars := chars) hnode halive
  have hslot (k : Nat) : slotOf (replyHeard s c ex chars y) k = slotOf s.toPart k := by rw [slotOf, ksm, slotOf]
  exact ⟨kmc, kcc, ktu, kmp, rfl, by rw [kcrane], kother, fun k => by rw [hslot]; exact ⟨rfl, rfl⟩⟩

/-- The end of PARKING (R144). -/
theorem parking_ends (h : replyJudged s c ex nd chars y) (hstate : (craneOf s.toPart c).state = .parking)
    (hreached : reached s.store y (destPos s.store c .home)) (hmove : (craneOf s.toPart c).move = some n) {φ : State → Prop}
    (hφ : ∀ t, Completed s t ex (moveEnded s c n y.pos (replyHeard s c ex chars y)) → φ t) :
    runsTo (.replyComplete chars) s fun t => replyTaken s t ex nd chars ∧ φ t := by
  obtain ⟨⟨-, -, -, -, hnode, -⟩, halive, -⟩ := id h
  obtain ⟨-, -, -, -, -, -, kcl, kevt, -, -, kcrane, -⟩ := replyHeard_keeps (c := c) (y := y) (chars := chars) hnode halive
  have hheld : (craneOf (replyHeard s c ex chars y) c).move = some n := by
    rw [kcrane]
    exact hmove
  refine moveEnded_completed (step := .parking) h hstate (arrived_of_reached hreached) ?_ (atMoveEnd_replyHeard hnode halive)
    (by rw [kcl]) (by rw [kevt]; exact fun _ hk => nomatch hk) hφ
  rw [completeStep, hheld]
  rfl

end ended

/-! ### The placement of a move's piece (R100, R101, R144) -/

section placed

variable {s t : State} {c : CraneId} {ex : Exchange} {nd : Node} {chars : List FieldChar} {y : CraneReply} {mark : Nat}
  {m : Move} {q : Piece} {p : Part}

/-- The condition with which a move's piece is placed on a slot (R100). -/
def placedCondition (g : Store) (p : Part) (m : Move) (q : Piece) : Condition :=
  if m.kind = .strip then stripCondition g p q else q.condition

/-- The piece on top of a slot. -/
def stackedPiece (p : Part) (slot : Nat) (cond : Condition) (q : Piece) : Piece :=
  { q with condition := cond, place := .slot slot ((slotOf p slot).stack.length + 1) }

theorem placeOnSlot_of_some {g : Store} {slot : Nat} (hq : pieceOf p mark = some q) :
    pieceOf (placeOnSlot g m mark slot p) mark = some (stackedPiece p slot (placedCondition g p m q) q) ∧
    (∀ k, slotOf (placeOnSlot g m mark slot p) k = freeOf m.number
      (if k = slot then { slotOf p slot with stack := (slotOf p slot).stack ++ [mark] } else slotOf p k)) ∧
    (placeOnSlot g m mark slot p).cl = raiseLink p.cl (.piecePlaced mark
      (.place (.slot slot ((slotOf p slot).stack.length + 1))) (placedCondition g p m q) (reported q.acc) m.number) ∧
    (placeOnSlot g m mark slot p).evt.changed = p.evt.changed ++ if placedCondition g p m q = q.condition then [] else [mark] := by
  obtain ⟨r, hr⟩ : ∃ r, r = pushPiece mark { q with condition := placedCondition g p m q } slot p := ⟨_, rfl⟩
  have heq : placeOnSlot g m mark slot p = raise (.piecePlaced mark
      (.place (.slot slot ((slotOf p slot).stack.length + 1))) (placedCondition g p m q) (reported q.acc) m.number)
      (stockChange (if placedCondition g p m q = q.condition then [] else [mark]) (release m.number r)) := by
    simp only [placeOnSlot, hq, hr]
    rfl
  have rpiece : pieceOf r mark = some (stackedPiece p slot (placedCondition g p m q) q) := by
    rw [hr]
    exact (pieceOf_putPiece _ _ _ _).trans (if_pos rfl)
  have rslot (k : Nat) : slotOf r k =
      if k = slot then { slotOf p slot with stack := (slotOf p slot).stack ++ [mark] } else slotOf p k := by
    rw [hr]
    exact slotOf_putSlot slot _ p k
  have rcl : r.cl = p.cl := by rw [hr]; simp
  have revt : r.evt = p.evt := by rw [hr]; simp
  rw [heq]
  refine ⟨?_, fun k => ?_, ?_, ?_⟩
  · rw [pieceOf_raise, ← rpiece]
    exact pieceOf_congr (by simp) mark
  · rw [← rslot, ← slotOf_release]
    simp [slotOf]
  · rw [raise_cl]
    simp [rcl]
  · rw [raise_evt]
    change (release m.number r).evt.changed ++ _ = _
    rw [(release_evt m.number r).1, revt]

/-- The records before the move of a placed piece ends. -/
def pieceDown (s : State) (c : CraneId) (ex : Exchange) (chars : List FieldChar) (y : CraneReply) (m : Move) (mark : Nat) : Part :=
  let placed := placePiece s.store m mark (replyHeard s c ex chars y)
  raise (.moveDone m.number m.kind mark (spotOf m mark placed)) (putCrane c { craneOf placed c with load := none } placed)

theorem placePiece_leaves (g : Store) (m : Move) (mark : Nat) (p : Part) :
    (placePiece g m mark p).mc = p.mc ∧ (placePiece g m mark p).cc = p.cc ∧ (placePiece g m mark p).tu = p.tu ∧
    (placePiece g m mark p).mp = p.mp ∧ (placePiece g m mark p).csA = p.csA ∧ (placePiece g m mark p).csB = p.csB ∧
    (placePiece g m mark p).fl = p.fl ∧ linkCore (placePiece g m mark p).cl = linkCore p.cl := by
  unfold placePiece
  split
  · simp
  · simp
  · exact ⟨rfl, rfl, rfl, rfl, rfl, rfl, rfl, rfl⟩

theorem pieceDown_leaves (s : State) (c : CraneId) (ex : Exchange) (chars : List FieldChar) (y : CraneReply) (m : Move) (mark : Nat) :
    (pieceDown s c ex chars y m mark).bs = (placePiece s.store m mark (replyHeard s c ex chars y)).bs ∧
    (pieceDown s c ex chars y m mark).sm = (placePiece s.store m mark (replyHeard s c ex chars y)).sm ∧
    (pieceDown s c ex chars y m mark).evt = (placePiece s.store m mark (replyHeard s c ex chars y)).evt ∧
    (pieceDown s c ex chars y m mark).cl = raiseLink (placePiece s.store m mark (replyHeard s c ex chars y)).cl
      (.moveDone m.number m.kind mark (spotOf m mark (placePiece s.store m mark (replyHeard s c ex chars y)))) := by
  rw [pieceDown]
  refine ⟨?_, ?_, ?_, ?_⟩
  · rw [raise_bs]
    cases c <;> rfl
  · rw [raise_sm]
    cases c <;> rfl
  · rw [raise_evt]
    cases c <;> rfl
  · rw [raise_cl]
    congr 1
    cases c <;> rfl

theorem atMoveEnd_pieceDown (hnode : nodeOf s.toPart ex.addr = some nd) (halive : nd.standing ≠ .lost)
    (hslots : ∀ k, ((slotOf (placePiece s.store m mark (replyHeard s c ex chars y)) k).engaged.filter fun e => e.1 != m.number) =
        ((slotOf s.toPart k).engaged.filter fun e => e.1 != m.number) ∧
      (slotOf (placePiece s.store m mark (replyHeard s c ex chars y)) k).lock = (slotOf s.toPart k).lock) :
    AtMoveEnd s c ex nd chars y m.number (pieceDown s c ex chars y m mark) := by
  obtain ⟨kmc, -, kcc, ktu, -, kmp, -, -, -, -, kcrane, kother⟩ :=
    replyHeard_keeps (c := c) (y := y) (chars := chars) hnode halive
  obtain ⟨pmc, pcc, ptu, pmp, pA, pB, pfl, -⟩ := placePiece_leaves s.store m mark (replyHeard s c ex chars y)
  obtain ⟨-, dsm, -, -⟩ := pieceDown_leaves s c ex chars y m mark
  have hcranes (d : CraneId) : craneOf (placePiece s.store m mark (replyHeard s c ex chars y)) d =
      craneOf (replyHeard s c ex chars y) d := craneOf_congr pA pB d
  have hraised (d : CraneId) : craneOf (pieceDown s c ex chars y m mark) d =
      craneOf (putCrane c { craneOf (placePiece s.store m mark (replyHeard s c ex chars y)) c with load := none }
        (placePiece s.store m mark (replyHeard s c ex chars y))) d := craneOf_congr (by simp [pieceDown]) (by simp [pieceDown]) d
  refine ⟨?_, ?_, ?_, ?_, ?_, ?_, ?_, fun k => ?_⟩
  · rw [← kmc, ← pmc]
    cases c <;> simp [pieceDown]
  · rw [← kcc, ← pcc]
    cases c <;> simp [pieceDown]
  · rw [← ktu, ← ptu]
    cases c <;> simp [pieceDown]
  · rw [← kmp, ← pmp]
    cases c <;> simp [pieceDown]
  · rw [← congrArg (·.nodes) pfl]
    cases c <;> simp [pieceDown]
  · rw [hraised, craneOf_putCrane_same, hcranes, kcrane]
  · rw [hraised, craneOf_putCrane_other (ne_otherCrane c).symm, hcranes, kother]
  · rw [slotOf, dsm, ← slotOf]
    exact hslots k

/-- The end of LOWER on a crane that holds a move with a piece (R144). -/
theorem lower_ends (h : replyJudged s c ex nd chars y) {n : Nat} (hmove : (craneOf s.toPart c).move = some n)
    (hm : moveOf s.toPart n = some m) (hmark : m.piece = some mark) (hstate : (craneOf s.toPart c).state = .lower)
    (hhook : y.hook = .released) (hdone : y.done = true)
    (hend : AtMoveEnd s c ex nd chars y m.number (pieceDown s c ex chars y m mark))
    (hsafe : ∀ k ∈ (pieceDown s c ex chars y m mark).evt.changed, ∀ r,
      pieceOf (moveEnded s c m.number y.pos (pieceDown s c ex chars y m mark)) k = some r → safeFromReview r)
    {φ : State → Prop}
    (hφ : ∀ t, Completed s t ex (moveEnded s c m.number y.pos (pieceDown s c ex chars y m mark)) → φ t) :
    runsTo (.replyComplete chars) s fun t => replyTaken s t ex nd chars ∧ φ t := by
  obtain ⟨⟨-, -, -, -, hnode, -⟩, halive, -⟩ := id h
  obtain ⟨-, -, -, -, -, -, kcl, -⟩ := replyHeard_keeps (c := c) (y := y) (chars := chars) hnode halive
  obtain ⟨-, -, -, -, -, -, -, plink⟩ := placePiece_leaves s.store m mark (replyHeard s c ex chars y)
  obtain ⟨-, -, -, dcl⟩ := pieceDown_leaves s c ex chars y m mark
  have hheld : moveHeld (replyHeard s c ex chars y) c = some m :=
    (moveHeld_replyHeard hnode halive).trans (moveHeld_eq_some_iff.mpr ⟨n, hmove, hm⟩)
  refine moveEnded_completed (step := .lower) h hstate (by simp [stepComplete, hhook, hdone]) ?_ hend ?_ hsafe hφ
  · simp only [completeStep, hheld, hmark]
    rfl
  · rw [dcl, linkCore_raiseLink, plink, kcl]

end placed

section placements

variable {s : State} {c : CraneId} {ex : Exchange} {nd : Node} {chars : List FieldChar} {y : CraneReply} {mark n : Nat}
  {m : Move} {q : Piece}

theorem underReview_iff {p : Part} {q : Piece} : underReview p q = true ↔ ∃ o, pourOf p q.pour = some o ∧ o.review = true := by
  unfold underReview
  cases pourOf p q.pour <;> simp

/-- The condition of a placed piece, by R100's cases. -/
theorem eq_placedCondition {g : Store} {p : Part} {cond : Condition} {held : Prop}
    (hheld : held ↔ q.released = false ∧ ∃ o, pourOf p q.pour = some o ∧ o.review = true)
    (hyes : m.kind = .strip → held → cond = .held) (hno : m.kind = .strip → ¬ held → cond = judged g q)
    (hother : m.kind ≠ .strip → cond = q.condition) : cond = placedCondition g p m q := by
  have hcaught : (underReview p q && !q.released) = true ↔ held := by
    rw [hheld, Bool.and_eq_true, underReview_iff, Bool.not_eq_true', and_comm]
  unfold placedCondition stripCondition
  split_ifs with hkind hreview
  · exact hyes hkind (hcaught.mp hreview)
  · exact hno hkind (mt hcaught.mpr hreview)
  · exact hother hkind

theorem piece_replyHeard (hnode : nodeOf s.toPart ex.addr = some nd) (halive : nd.standing ≠ .lost) (k : Nat) :
    pieceOf (replyHeard s c ex chars y) k = pieceOf s.toPart k := by
  obtain ⟨-, -, -, -, ksm, -⟩ := replyHeard_keeps (c := c) (y := y) (chars := chars) hnode halive
  rw [pieceOf, ksm, pieceOf]

theorem slot_replyHeard (hnode : nodeOf s.toPart ex.addr = some nd) (halive : nd.standing ≠ .lost) (k : Nat) :
    slotOf (replyHeard s c ex chars y) k = slotOf s.toPart k := by
  obtain ⟨-, -, -, -, ksm, -⟩ := replyHeard_keeps (c := c) (y := y) (chars := chars) hnode halive
  rw [slotOf, ksm, slotOf]

theorem pour_replyHeard (hnode : nodeOf s.toPart ex.addr = some nd) (halive : nd.standing ≠ .lost) (k : Nat) :
    pourOf (replyHeard s c ex chars y) k = pourOf s.toPart k := by
  obtain ⟨-, kbs, -⟩ := replyHeard_keeps (c := c) (y := y) (chars := chars) hnode halive
  exact pourOf_congr kbs k

/-- A piece set down on a slot (R100, R144). -/
theorem placed_on_slot (h : replyJudged s c ex nd chars y) (hmove : (craneOf s.toPart c).move = some n)
    (hm : moveOf s.toPart n = some m) (hmark : m.piece = some mark) (hq : pieceOf s.toPart mark = some q)
    (hstate : (craneOf s.toPart c).state = .lower) (hhook : y.hook = .released) (hdone : y.done = true) {k : Nat}
    (hdest : m.dest = some (.slot k)) {cond : Condition} (hcond : cond = placedCondition s.store s.toPart m q) {φ : State → Prop}
    (hφ : ∀ t, AtMoveEnd s c ex nd chars y n (pieceDown s c ex chars y m mark) →
      Completed s t ex (moveEnded s c n y.pos (pieceDown s c ex chars y m mark)) →
      t.bs = s.bs ∧ t.cc = s.cc ∧
      pieceOf t.toPart mark = some { q with place := .slot k ((slotOf s.toPart k).stack.length + 1), condition := cond, move := none } ∧
      (slotOf t.toPart k).stack = (slotOf s.toPart k).stack ++ [mark] ∧
      told s t [.piecePlaced mark (.place (.slot k ((slotOf s.toPart k).stack.length + 1))) cond (reported q.acc) n,
        .moveDone n m.kind mark (.place (.slot k ((slotOf s.toPart k).stack.length + 1)))] → φ t) :
    runsTo (.replyComplete chars) s fun t => replyTaken s t ex nd chars ∧ φ t := by
  obtain ⟨⟨-, -, -, -, hnode, -⟩, halive, -⟩ := id h
  obtain rfl := number_of_moveOf hm
  obtain ⟨-, kbs, kcc, -, -, -, kcl, kevt, -⟩ := replyHeard_keeps (c := c) (y := y) (chars := chars) hnode halive
  have hpiece : pieceOf (replyHeard s c ex chars y) mark = some q := (piece_replyHeard hnode halive mark).trans hq
  have hplaced : placePiece s.store m mark (replyHeard s c ex chars y) =
      placeOnSlot s.store m mark k (replyHeard s c ex chars y) := by simp only [placePiece, hdest]
  have hcond' : placedCondition s.store (replyHeard s c ex chars y) m q = cond := by
    rw [hcond, placedCondition, placedCondition, stripCondition, stripCondition, underReview, underReview, pour_replyHeard hnode halive]
  obtain ⟨ppiece, pslot, pcl, pchanged⟩ := placeOnSlot_of_some (g := s.store) (m := m) (slot := k) hpiece
  rw [slot_replyHeard hnode halive, hcond'] at pcl
  rw [stackedPiece, hcond', slot_replyHeard hnode halive] at ppiece
  rw [hcond', kevt] at pchanged
  simp only [slot_replyHeard hnode halive] at pslot
  have hend : AtMoveEnd s c ex nd chars y m.number (pieceDown s c ex chars y m mark) := by
    refine atMoveEnd_pieceDown hnode halive fun j => ?_
    rw [hplaced, pslot, freeOf_slot]
    dsimp only
    rw [Option.filter_filter]
    split_ifs with hj
    · subst hj
      simp
    · simp
  obtain ⟨dbs, dsm, devt, dcl⟩ := pieceDown_leaves s c ex chars y m mark
  rw [hplaced] at dbs dsm devt dcl
  have dpiece : pieceOf (pieceDown s c ex chars y m mark) mark =
      some { q with place := .slot k ((slotOf s.toPart k).stack.length + 1), condition := cond } := by
    rw [pieceOf_congr (congrArg (·.pieces) dsm), ppiece]
  have mpiece : pieceOf (moveEnded s c m.number y.pos (pieceDown s c ex chars y m mark)) mark =
      some { q with place := .slot k ((slotOf s.toPart k).stack.length + 1), condition := cond, move := none } := by
    rw [pieceOf_moveEnded hend hm hmark y.pos, dpiece]
    · rfl
    · intro r b x hr
      rw [dpiece] at hr
      obtain rfl := Option.some.inj hr
      nofun
  have hsafe : ∀ j ∈ (pieceDown s c ex chars y m mark).evt.changed, ∀ r,
      pieceOf (moveEnded s c m.number y.pos (pieceDown s c ex chars y m mark)) j = some r → safeFromReview r := by
    intro j hj r hr
    rw [devt, pchanged] at hj
    have hj' : j = mark := by
      split_ifs at hj with hsame
      · cases hj
      · exact List.mem_singleton.mp hj
    rw [hj', mpiece] at hr
    obtain rfl := Option.some.inj hr
    exact .inr rfl
  refine lower_ends h hmove hm hmark hstate hhook hdone hend hsafe fun t ht => hφ t hend ht ?_
  obtain ⟨-, mbs, mcc, -, mcl, -, -, mscan, -, -⟩ := moveEnded_leaves s c m.number y.pos (pieceDown s c ex chars y m mark)
  have hspot : spotOf m mark (placeOnSlot s.store m mark k (replyHeard s c ex chars y)) =
      .place (.slot k ((slotOf s.toPart k).stack.length + 1)) := by simp only [spotOf, hdest, ppiece]
  refine ⟨ht.bs.trans (mbs.trans (dbs.trans ?_)), ht.cc.trans (mcc.trans hend.cc), ?_, ?_, ht.told _ (mcl.trans ?_)⟩
  · rw [(placeOnSlot_keeps s.store m mark k (replyHeard s c ex chars y)).2.1, kbs]
  · rw [pieceOf_congr ht.pieces, mpiece]
  · obtain ⟨u, hu, usm, -⟩ := ht.scanned mscan
    have hstack : (slotOf t.toPart k).stack = (slotOf u k).stack := congrArg Prod.fst (stackAndLock_scannedCore hu k)
    rw [hstack, slotOf, usm, ← slotOf, stack_moveEnded hend hm, slotOf, dsm, ← slotOf, pslot, if_pos rfl, freeOf_slot]
  · rw [dcl, pcl, hspot, kcl]
    rfl

/-- A piece set down in a bay leaves the records (R94, R101, R144). -/
theorem placed_in_bay (h : replyJudged s c ex nd chars y) (hmove : (craneOf s.toPart c).move = some n)
    (hm : moveOf s.toPart n = some m) (hmark : m.piece = some mark) (hq : pieceOf s.toPart mark = some q)
    (hstate : (craneOf s.toPart c).state = .lower) (hhook : y.hook = .released) (hdone : y.done = true) {b : Nat}
    (hdest : m.dest = some (.bay b)) {φ : State → Prop}
    (hφ : ∀ t, AtMoveEnd s c ex nd chars y n (pieceDown s c ex chars y m mark) →
      Completed s t ex (moveEnded s c n y.pos (pieceDown s c ex chars y m mark)) →
      t.bs.beds = s.bs.beds ∧ t.bs.seq = s.bs.seq ∧ t.cc = s.cc ∧ pieceOf t.toPart mark = none ∧
      (∀ o, pourOf s.toPart q.pour = some o → pourOf t.toPart q.pour =
        if o.count - 1 = 0 ∧ o.current = false then none else some { o with count := o.count - 1 }) ∧
      told s t [.piecePlaced mark (.bay b) q.condition (reported q.acc) n, .moveDone n m.kind mark (.bay b)] → φ t) :
    runsTo (.replyComplete chars) s fun t => replyTaken s t ex nd chars ∧ φ t := by
  obtain ⟨⟨-, -, -, -, hnode, -⟩, halive, -⟩ := id h
  obtain rfl := number_of_moveOf hm
  obtain ⟨-, kbs, kcc, -, -, -, kcl, kevt, -⟩ := replyHeard_keeps (c := c) (y := y) (chars := chars) hnode halive
  have hpiece : pieceOf (replyHeard s c ex chars y) mark = some q := (piece_replyHeard hnode halive mark).trans hq
  obtain ⟨r, hr⟩ : ∃ r, r = raise (.piecePlaced mark (.bay b) q.condition (reported q.acc) m.number)
      (release m.number (replyHeard s c ex chars y)) := ⟨_, rfl⟩
  have hplaced : placePiece s.store m mark (replyHeard s c ex chars y) = removePiece mark r := by
    simp only [placePiece, hdest, placeInBay, hpiece, hr]
  have rpiece : pieceOf r mark = some q := by
    rw [hr, pieceOf_raise, ← hpiece]
    exact pieceOf_congr (by simp) mark
  have rslot (j : Nat) : slotOf r j = freeOf m.number (slotOf s.toPart j) := by
    rw [hr, ← slot_replyHeard (c := c) (y := y) (chars := chars) hnode halive, ← slotOf_release]
    simp [slotOf]
  have rbs : r.bs = s.bs := by rw [hr]; simp [kbs]
  have rcl : r.cl = raiseLink s.cl (.piecePlaced mark (.bay b) q.condition (reported q.acc) m.number) := by
    rw [hr, raise_cl]
    simp [kcl]
  have rchanged : r.evt.changed = [] := by
    rw [hr, raise_evt, (release_evt _ _).1, kevt]
    rfl
  have hend : AtMoveEnd s c ex nd chars y m.number (pieceDown s c ex chars y m mark) := by
    refine atMoveEnd_pieceDown hnode halive fun j => ?_
    obtain ⟨hengaged, hlock, -⟩ := slotOf_removePiece mark r j
    rw [hplaced, hengaged, hlock, rslot, freeOf_slot]
    dsimp only
    rw [Option.filter_filter]
    simp
  obtain ⟨dbs, dsm, devt, dcl⟩ := pieceDown_leaves s c ex chars y m mark
  rw [hplaced] at dbs dsm devt dcl
  have dpiece : pieceOf (pieceDown s c ex chars y m mark) mark = none := by
    rw [pieceOf_congr (congrArg (·.pieces) dsm), pieceOf_removePiece, if_pos rfl]
  have dchanged : (pieceDown s c ex chars y m mark).evt.changed = [] := by
    rw [devt, evt_removePiece, rpiece, ← rchanged]
    rfl
  refine lower_ends h hmove hm hmark hstate hhook hdone hend (by rw [dchanged]; exact fun _ hj => nomatch hj) fun t ht =>
    hφ t hend ht ?_
  obtain ⟨-, mbs, mcc, -, mcl, -⟩ := moveEnded_leaves s c m.number y.pos (pieceDown s c ex chars y m mark)
  have tbs : t.bs = (removePiece mark r).bs := ht.bs.trans (mbs.trans dbs)
  obtain ⟨hbeds, hseq⟩ := removePieces_beds [mark] r
  have hspot : spotOf m mark (removePiece mark r) = .bay b := by simp only [spotOf, hdest]
  refine ⟨?_, ?_, ht.cc.trans (mcc.trans hend.cc), ?_, fun o ho => ?_, ht.told _ (mcl.trans ?_)⟩
  · rw [tbs, ← rbs]
    exact hbeds
  · rw [tbs, ← rbs]
    exact hseq
  · rw [pieceOf_congr ht.pieces, pieceOf_moveEnded hend hm hmark y.pos, dpiece]
    · rfl
    · intro x _ _ hx
      rw [dpiece] at hx
      cases hx
  · rw [pourOf_congr tbs, pourOf_removePiece rpiece, if_pos rfl, pourOf_congr rbs, ho]
    rfl
  · rw [dcl, hspot, (removePiece_keeps mark r).2.2.2.2.2.2.2.1, rcl]
    rfl

end placements

/-! ### The load judged (R141) -/

theorem judgeLoad_iff {t : Int} {m s : Nat} (h : 0 ≤ t) :
    (judgeLoad t m s = .accepted ↔ (m : Int) * (100 - t) ≤ s * 100 ∧ (s : Int) * 100 ≤ m * (100 + t)) ∧
    (judgeLoad t m s = .high ↔ (m : Int) * (100 + t) < s * 100) ∧
    (judgeLoad t m s = .low ↔ (s : Int) * 100 < m * (100 - t)) := by
  have hband : (m : Int) * (100 - t) ≤ m * (100 + t) := Int.mul_le_mul_of_nonneg_left (by omega) (Int.natCast_nonneg m)
  unfold judgeLoad
  split_ifs with hhigh hlow
  · simp only [true_iff, false_iff]
    omega
  · simp only [true_iff, false_iff]
    omega
  · simp only [true_iff, false_iff]
    omega

section slackening

variable {s : State} {c : CraneId} {ex : Exchange} {nd : Node} {chars : List FieldChar} {y : CraneReply}

/-- The end of a hook's slackening: LOWER completes on a crane that holds no move (R144). -/
theorem slackening_ends (h : replyJudged s c ex nd chars y) (hmove : (craneOf s.toPart c).move = none)
    (hstate : (craneOf s.toPart c).state = .lower) (hhook : y.hook = .released) (hdone : y.done = true) {φ : State → Prop}
    (hφ : ∀ t, (craneOf t.toPart c).load = none ∧ (craneOf t.toPart c).slackening = false ∧ t.bs = s.bs ∧ t.cc = s.cc ∧
      t.sm.pieces = s.sm.pieces ∧ told s t [] ∧
      (∃ u, scannedCore s t u ∧
        craneCore (craneOf u c) = craneCore { heard y (craneOf s.toPart c) with
          state := .idle, slackening := false, move := none, dispatchPos := none, stoppedStep := none, load := none } ∧
        (craneCore (craneOf u (otherCrane c)) = craneCore (craneOf s.toPart (otherCrane c)) ∧
          reservationOf u (otherCrane c) = reservationOf s.toPart (otherCrane c)) ∧ u.mp = s.mp ∧ u.sm = s.sm) → φ t) :
    runsTo (.replyComplete chars) s fun t => replyTaken s t ex nd chars ∧ φ t := by
  obtain ⟨⟨-, -, -, -, hnode, -⟩, halive, -⟩ := id h
  obtain ⟨kmc, kbs, kcc, ktu, ksm, kmp, kcl, kevt, -, -, kcrane, kother⟩ :=
    replyHeard_keeps (c := c) (y := y) (chars := chars) hnode halive
  obtain ⟨bmc, bbs, bcc, btu, bsm, bmp, bcl, bnodes, bchanged, bscan⟩ :=
    becomeIdle_leaves s.store c (replyHeard s c ex chars y)
  have hcrane : craneOf (becomeIdle s.store c (replyHeard s c ex chars y)) c = restingCrane (heard y (craneOf s.toPart c)) := by
    rw [craneOf_becomeIdle, kcrane]
  have hheld : moveHeld (replyHeard s c ex chars y) c = none := by
    rw [moveHeld_replyHeard hnode halive, moveHeld, hmove]
  refine step_completed (step := .lower) (q := becomeIdle s.store c (replyHeard s c ex chars y)) h hstate
    (by simp [stepComplete, hhook, hdone]) (by simp only [completeStep, hheld]) (bmc.trans kmc) (btu.trans ktu) bnodes
    (by rw [bcl, kcl]) (by rw [bchanged, kevt]; exact fun _ hk => nomatch hk) fun t ht => hφ t ?_
  have hrest := (ht.dispatched c).rest
  rw [hcrane] at hrest
  obtain ⟨u, hu, usm, ump, ucores⟩ := ht.scanned bscan
  have ump' : u.mp = s.mp := ump.trans (bmp.trans kmp)
  refine ⟨field_of_rest hrest (·.load), field_of_rest hrest (·.slackening), ht.bs.trans (bbs.trans kbs),
    ht.cc.trans (bcc.trans kcc), ht.pieces.trans (by rw [bsm, ksm]), ht.told [] (bcl.trans kcl), u, hu, ?_, ⟨?_, ?_⟩, ump',
    usm.trans (bsm.trans ksm)⟩
  · rw [ucores, hcrane]
    rfl
  · rw [ucores, craneOf_becomeIdle_other (ne_otherCrane c).symm, kother]
  · rw [reservationOf_congr ump']

end slackening

/-- The command of a step that a crane is in, with the timer of its kind. -/
theorem stepBegun_of_fresh {g : Store} {r : Crane} {cmd : FieldCmd} {state : CraneState} (h : freshlyBegun g r cmd)
    (hstate : r.state = state) : stepBegun r cmd (timeoutKind state) (match timeoutKind state with
      | .travel => g.plant.travelTimeout
      | .hook => g.plant.hookTimeout) := hstate ▸ h

/-- Settles O47: the load's judgement by its two bounds, and each step's end by what its completion makes of the records that
the reply's storing leaves. -/
theorem loadCheck : Obligations.LoadCheck := by
  refine ⟨fun t m s h _ => judgeLoad_iff h, fun s => ?_, fun s c ex nd chars y h => ?_⟩
  · rw [(judgeLoad_iff (by omega)).1]
    omega
  · have hjudged := h
    obtain ⟨⟨-, -, -, -, hnode, -⟩, halive, -⟩ := id h
    intro r now after is begun others idle lifting slack done
    refine ⟨fun step next cmd kind limit hstate hcase => ?_, fun n m mark q hmove hm hmark hq =>
      ⟨fun hstate hhook hdone => ?_, fun hstate hhook hdone => ?_⟩, fun n m hstate hreached hmove hm hpiece => ?_,
      fun hstate hhook hdone hmove => ?_⟩
    · rcases hcase with ⟨rfl, hreached, rfl, rfl, rfl, rfl⟩ | ⟨rfl, hhook, hdone, rfl, rfl, rfl, rfl⟩ | ⟨rfl, hreached, rfl, rfl, rfl, rfl⟩
      · refine runsTo_mono (next_step (next := .takeUp) hjudged hstate ?_ rfl)
          fun t ⟨htaken, tbs, tcc, tsm, tmp, htold, hothers, hcore, hbegun⟩ =>
            ⟨htaken, tbs, tcc, tsm, tmp, htold, hothers, hcore, fun hby =>
              stepBegun_of_fresh (hbegun hby) (field_of_core hcore (·.state))⟩
        rw [stepComplete, heldSource_replyHeard hnode halive]
        exact arrived_of_reached hreached
      · refine runsTo_mono (next_step (next := .toDest) hjudged hstate (by simp [stepComplete, hhook, hdone]) rfl)
          fun t ⟨htaken, tbs, tcc, tsm, tmp, htold, hothers, hcore, hbegun⟩ =>
            ⟨htaken, tbs, tcc, tsm, tmp, htold, hothers, hcore, fun hby => ?_⟩
        rw [← heldDest_replyHeard (c := c) (y := y) (chars := chars) hnode halive]
        exact stepBegun_of_fresh (hbegun hby) (field_of_core hcore (·.state))
      · refine runsTo_mono (next_step (next := .lower) hjudged hstate ?_ rfl)
          fun t ⟨htaken, tbs, tcc, tsm, tmp, htold, hothers, hcore, hbegun⟩ =>
            ⟨htaken, tbs, tcc, tsm, tmp, htold, hothers, hcore, fun hby =>
              stepBegun_of_fresh (hbegun hby) (field_of_core hcore (·.state))⟩
        rw [stepComplete, heldDest_replyHeard hnode halive]
        exact arrived_of_reached hreached
    · intro verdict
      refine ⟨fun hverdict => accepted_completed hjudged hmove hm hmark hq hverdict hstate hhook hdone
        fun t ht hcore hbegun => ⟨hcore, fun hby => stepBegun_of_fresh (hbegun hby) (field_of_core hcore (·.state)),
          fun k hk => ?_, fun b x hplace => ?_, fun k tier hplace => ?_⟩, fun reason hverdict =>
        runsTo_mono (refused_completed hjudged hmove hm hmark hq hstate hhook hdone hverdict)
          fun t ⟨htaken, hcore, hbegun, hrest⟩ =>
            ⟨htaken, hcore, fun hby => stepBegun_of_fresh (hbegun hby) (field_of_core hcore (·.state)), hrest⟩⟩
      · rw [pieceOf_lifted hnode halive ht, pieceOf_liftPiece_other hk, pieceOf_loadTaken hnode halive]
      · exact lifted_off_bed hnode halive hq ht hplace
      · exact lifted_off_slot hnode halive hq ht hplace
    · refine ⟨fun k hdest => ?_, fun b hdest => placed_in_bay hjudged hmove hm hmark hq hstate hhook hdone hdest
        fun t hend ht hrest => ⟨done_of_completed hend hm ht, hrest⟩⟩
      intro spot held cond hheld hfree hother
      exact placed_on_slot hjudged hmove hm hmark hq hstate hhook hdone hdest
        (eq_placedCondition Iff.rfl hheld hfree hother) fun t hend ht hrest => ⟨done_of_completed hend hm ht, hrest⟩
    · refine parking_ends hjudged hstate hreached hmove fun t ht => ?_
      have hend := atMoveEnd_replyHeard (s := s) (c := c) (ex := ex) (nd := nd) (chars := chars) (y := y) (n := n) hnode halive
      obtain ⟨-, kbs, kcc, -, -, -, kcl, -⟩ := replyHeard_keeps (c := c) (y := y) (chars := chars) hnode halive
      obtain ⟨-, mbs, mcc, -, mcl, -⟩ := moveEnded_leaves s c n y.pos (replyHeard s c ex chars y)
      exact ⟨done_of_completed hend hm ht, ht.bs.trans (mbs.trans kbs), ht.cc.trans (mcc.trans kcc), ht.told [] (mcl.trans kcl)⟩
    · exact slackening_ends hjudged hmove hstate hhook hdone fun t ht => ht

end Sys2Proof.Proofs
end

section
/-!
PROOFS. The destination chooser and the dispatch scan that asks it (R97, R121 to R125).
-/

namespace Sys2Proof.Proofs

open Sys2Proof.Machine

/-! ### The chooser (R97) -/

section chooser

theorem chosenBefore_iff {a b : Nat × Nat × Nat} : chosenBefore a b = true ↔
    a.1 < b.1 ∨ (a.1 = b.1 ∧ (a.2.1 < b.2.1 ∨ (a.2.1 = b.2.1 ∧ a.2.2 < b.2.2))) := by
  simp [chosenBefore]

theorem not_chosenBefore_trans {a b c : Nat × Nat × Nat} (h : chosenBefore a b = false) (k : chosenBefore b c = false) :
    chosenBefore a c = false := by
  rw [← Bool.not_eq_true, chosenBefore_iff] at h k ⊢
  omega

theorem not_chosenBefore_of_before {a b : Nat × Nat × Nat} (h : chosenBefore a b = true) : chosenBefore b a = false := by
  rw [← Bool.not_eq_true]
  rw [chosenBefore_iff] at h ⊢
  omega

theorem bestSlot_eq_none_iff {l : List (Nat × Nat × Nat)} : bestSlot l = none ↔ l = [] := by
  cases l with
  | nil => simp [bestSlot]
  | cons a l =>
    unfold bestSlot
    split
    · simp
    · split_ifs <;> simp

/-- The best of a list is in it, and no other is chosen before it. -/
theorem bestSlot_spec {l : List (Nat × Nat × Nat)} {b : Nat × Nat × Nat} (h : bestSlot l = some b) :
    b ∈ l ∧ ∀ x ∈ l, chosenBefore x b = false := by
  have irrefl (a : Nat × Nat × Nat) : chosenBefore a a = false := by
    rw [← Bool.not_eq_true, chosenBefore_iff]
    omega
  induction l generalizing b with
  | nil => cases h
  | cons a l ih =>
    unfold bestSlot at h
    split at h
    · next hnone =>
      obtain rfl := bestSlot_eq_none_iff.mp hnone
      cases h
      exact ⟨List.mem_cons_self, fun x hx => List.mem_singleton.mp hx ▸ irrefl x⟩
    · next c hc =>
      obtain ⟨hmem, hbest⟩ := ih hc
      split_ifs at h with hbefore
      · cases h
        refine ⟨List.mem_cons_of_mem _ hmem, fun x hx => ?_⟩
        rcases List.mem_cons.mp hx with rfl | hx
        · exact not_chosenBefore_of_before hbefore
        · exact hbest x hx
      · cases h
        refine ⟨List.mem_cons_self, fun x hx => ?_⟩
        rcases List.mem_cons.mp hx with rfl | hx
        · exact irrefl x
        · exact not_chosenBefore_trans (hbest x hx) (Bool.not_eq_true _ ▸ hbefore)

/-- What the chooser looks at of the slots: those within the span that pass the placement test. -/
theorem chooseSlot_spec (g : Store) (p : Part) (q : Piece) (source : Option Nat) (x lo hi : Int) :
    let passes (e : Nat × SlotCfg) := e ∈ g.slots ∧ lo ≤ e.2.x ∧ e.2.x ≤ hi ∧
      placementTest g p q.length q.mass source e.1 = true
    let rank (e : Nat × SlotCfg) : Nat × Nat × Nat := (slotRank p q.product e.1, distance e.2.x x, e.1)
    (chooseSlot g p q source x lo hi = none ↔ ∀ e, ¬ passes e) ∧
    ∀ n, chooseSlot g p q source x lo hi = some n →
      ∃ e, passes e ∧ e.1 = n ∧ ∀ d, passes d → chosenBefore (rank d) (rank e) = false := by
  intro passes rank
  obtain ⟨l, hl⟩ : ∃ l, l = g.slots.filter fun s =>
    decide (lo ≤ s.2.x) && decide (s.2.x ≤ hi) && placementTest g p q.length q.mass source s.1 := ⟨_, rfl⟩
  have hmem (e : Nat × SlotCfg) : e ∈ l ↔ passes e := by
    rw [hl, List.mem_filter]
    simp only [passes, Bool.and_eq_true, decide_eq_true_eq, and_assoc]
  have hchoose : chooseSlot g p q source x lo hi = (bestSlot (l.map rank)).map fun b => b.2.2 := by
    rw [hl]
    rfl
  rw [hchoose]
  refine ⟨?_, fun n hn => ?_⟩
  · rw [Option.map_eq_none_iff, bestSlot_eq_none_iff, List.map_eq_nil_iff, List.eq_nil_iff_forall_not_mem]
    exact forall_congr' fun e => not_congr (hmem e)
  · obtain ⟨b, hb, hbn⟩ := Option.map_eq_some_iff.mp hn
    obtain ⟨hin, hbest⟩ := bestSlot_spec hb
    obtain ⟨e, he, rfl⟩ := List.mem_map.mp hin
    exact ⟨e, (hmem e).mp he, hbn, fun d hd => hbest _ (List.mem_map_of_mem ((hmem d).mpr hd))⟩

end chooser

/-! ### Candidates and legal cranes (R122, R123) -/

section candidates

variable {g : Store} {p : Part} {m : Move}

theorem heldBack_eq_false_iff : heldBack p m = false ↔
    ∀ k, m.chain = some k → ∀ n ∈ p.mp.queue, n.chain = some k → m.rank ≤ n.rank := by
  unfold heldBack
  split
  · next hchain => simp [hchain]
  · next k hchain =>
    rw [List.any_eq_false]
    simp [hchain]

theorem sourceAvailable_iff : sourceAvailable p m = true ↔ ∃ mark, m.piece = some mark ∧
    ((∃ b x, m.source = .bed b x ∧ (bedOf p b).state = .stripping ∧ ∃ q y, pieceOf p mark = some q ∧ q.place = .bed b y) ∨
      ∃ n, m.source = .slot n ∧ (slotOf p n).stack.getLast? = some mark ∧ (slotOf p n).engaged = none) := by
  unfold sourceAvailable
  split
  · next b x mark hsource hpiece =>
    rw [Bool.and_eq_true, beq_iff_eq]
    cases hq : pieceOf p mark with
    | none => simp [hsource, hpiece, hq]
    | some q => cases hplace : q.place <;> simp [hsource, hpiece, hq, hplace, and_comm]
  · next n mark hsource hpiece => simp [hsource, hpiece]
  · next hbed hslot =>
    simp only [Bool.false_eq_true, false_iff]
    rintro ⟨mark, hmark, ⟨b, x, hsource, -⟩ | ⟨n, hsource, -⟩⟩
    · exact hbed b x mark hsource hmark
    · exact hslot n mark hsource hmark

theorem conditionFits_iff {mark : Nat} (hmark : m.piece = some mark) : conditionFits p m = true ↔ m.kind ≠ .park ∧
    (m.kind = .ship → ∃ q, pieceOf p mark = some q ∧ q.condition = .shippable) ∧
    (m.kind = .scrap → ∃ q, pieceOf p mark = some q ∧ q.condition = .rejected) := by
  unfold conditionFits
  cases hkind : m.kind <;> simp [hmark]

theorem candidate_iff : candidate p m = true ↔
    m.state = .queued ∧ m.kind ≠ .park ∧
    (∀ k, m.chain = some k → ∀ n ∈ p.mp.queue, n.chain = some k → m.rank ≤ n.rank) ∧
    ∃ mark, m.piece = some mark ∧
      ((∃ b x, m.source = .bed b x ∧ (bedOf p b).state = .stripping ∧
          ∃ q y, pieceOf p mark = some q ∧ q.place = .bed b y) ∨
        ∃ n, m.source = .slot n ∧ (slotOf p n).stack.getLast? = some mark ∧ (slotOf p n).engaged = none) ∧
      (m.kind = .ship → ∃ q, pieceOf p mark = some q ∧ q.condition = .shippable) ∧
      (m.kind = .scrap → ∃ q, pieceOf p mark = some q ∧ q.condition = .rejected) := by
  simp only [candidate, Bool.and_eq_true, beq_iff_eq, Bool.not_eq_true', heldBack_eq_false_iff, sourceAvailable_iff]
  constructor
  · rintro ⟨⟨⟨hstate, hchain⟩, mark, hmark, hsource⟩, hfits⟩
    obtain ⟨hkind, hcondition⟩ := (conditionFits_iff hmark).mp hfits
    exact ⟨hstate, hkind, hchain, mark, hmark, hsource, hcondition⟩
  · rintro ⟨hstate, hkind, hchain, mark, hmark, hsource, hcondition⟩
    exact ⟨⟨⟨hstate, hchain⟩, mark, hmark, hsource⟩, (conditionFits_iff hmark).mpr ⟨hkind, hcondition⟩⟩

theorem allowedSpan_eq_some_iff {c : CraneId} {other : Option Reservation} {lo hi : Int} :
    allowedSpan g c other = some (lo, hi) ↔
      (other = none ∧ craneCfg g (otherCrane c) = none ∧ lo = 0 ∧ hi = g.runway) ∨
      ∃ r, other = some r ∧ ((c = .A ∧ lo = 0 ∧ hi = r.lo - g.plant.clearance - 1) ∨
        (c = .B ∧ lo = r.hi + g.plant.clearance + 1 ∧ hi = g.runway)) := by
  unfold allowedSpan
  cases other with
  | none => cases hcfg : craneCfg g (otherCrane c) <;> simp [eq_comm]
  | some r => cases c <;> simp [eq_comm]

theorem within_iff {lo hi x : Int} : Machine.within (lo, hi) x = true ↔ lo ≤ x ∧ x ≤ hi := by simp [Machine.within]

theorem destWithin_eq_some_iff {c : CraneId} {lo hi : Int} {d : Dest} : destWithin g p c m (lo, hi) = some d ↔
    (m.dest = some d ∧ lo ≤ destPos g c d ∧ destPos g c d ≤ hi) ∨
    (m.dest = none ∧ ∃ mark q n, m.piece = some mark ∧ pieceOf p mark = some q ∧
      chooseSlot g p q m.source.slotNumber (sourcePos g m.source) lo hi = some n ∧ d = .slot n) := by
  unfold destWithin
  cases hdest : m.dest with
  | some e =>
    simp only [Option.ite_none_right_eq_some, Option.some.injEq, within_iff, reduceCtorEq, false_and, or_false]
    constructor
    · rintro ⟨h, rfl⟩
      exact ⟨rfl, h⟩
    · rintro ⟨rfl, h⟩
      exact ⟨h, rfl⟩
  | none =>
    cases hpiece : m.piece with
    | none => simp
    | some mark =>
      cases hq : pieceOf p mark with
      | none => simp [hq]
      | some q => simp [hq, eq_comm]

theorem legal_eq_some_iff {c : CraneId} {other : Option Reservation} {d : Dest} :
    legal g p c m other = some d ↔ ∃ lo hi pos, (craneOf p c).pos = some pos ∧
      ((other = none ∧ craneCfg g (otherCrane c) = none ∧ lo = 0 ∧ hi = g.runway) ∨
        ∃ r, other = some r ∧ ((c = .A ∧ lo = 0 ∧ hi = r.lo - g.plant.clearance - 1) ∨
          (c = .B ∧ lo = r.hi + g.plant.clearance + 1 ∧ hi = g.runway))) ∧
      (lo ≤ pos ∧ pos ≤ hi) ∧ (lo ≤ sourcePos g m.source ∧ sourcePos g m.source ≤ hi) ∧
      ((m.dest = some d ∧ lo ≤ destPos g c d ∧ destPos g c d ≤ hi) ∨
        (m.dest = none ∧ ∃ mark q n, m.piece = some mark ∧ pieceOf p mark = some q ∧
          chooseSlot g p q m.source.slotNumber (sourcePos g m.source) lo hi = some n ∧ d = .slot n)) := by
  simp only [← allowedSpan_eq_some_iff, ← destWithin_eq_some_iff]
  unfold legal
  cases hspan : allowedSpan g c other with
  | none => simp
  | some span =>
    obtain ⟨lo, hi⟩ := span
    cases hpos : (craneOf p c).pos with
    | none => simp
    | some pos =>
      simp only [Option.ite_none_right_eq_some, Bool.and_eq_true, within_iff, Option.some.injEq, Prod.mk.injEq]
      constructor
      · rintro ⟨⟨h, k⟩, hdest⟩
        exact ⟨lo, hi, pos, rfl, ⟨rfl, rfl⟩, h, k, hdest⟩
      · rintro ⟨lo', hi', pos', rfl, ⟨rfl, rfl⟩, h, k, hdest⟩
        exact ⟨⟨h, k⟩, hdest⟩

end candidates

/-! ### The walk over the moves that a scan leaves (R122, R123) -/

section walk

variable {g : Store} {p : Part} {m : Move} {n : Nat}

/-- The destination with which a free crane is legal for a move (R123). -/
def freeLegal (g : Store) (p : Part) (c : CraneId) (m : Move) : Option Dest :=
  if (craneOf p c).state = .idle ∧ (craneOf p c).move = none then legal g p c m (reservationOf p (otherCrane c)) else none

/-- A move that a scan of these records leaves: no candidate, or with no legal free crane. -/
def leftByScan (g : Store) (p : Part) (m : Move) : Prop := candidate p m = false ∨ ∀ c, freeLegal g p c m = none

theorem isFree_iff {c : CraneId} : isFree p c = true ↔ (craneOf p c).state = .idle ∧ (craneOf p c).move = none := by
  simp [isFree]

theorem firstLegal_cons (c : CraneId) (l : List CraneId) : firstLegal g p m (c :: l) =
    ((freeLegal g p c m).map fun d => (c, d)).or (firstLegal g p m l) := by
  rw [firstLegal, freeLegal]
  by_cases h : (craneOf p c).state = .idle ∧ (craneOf p c).move = none
  · simp only [if_pos (isFree_iff.mpr h), if_pos h]
    cases legal g p c m (reservationOf p (otherCrane c)) <;> rfl
  · simp only [if_neg (mt isFree_iff.mp h), if_neg h, Option.map_none, Option.none_or]

theorem firstLegal_of_none (h : ∀ c, freeLegal g p c m = none) (l : List CraneId) : firstLegal g p m l = none := by
  induction l with
  | nil => rfl
  | cons c l ih => simpa [firstLegal_cons, h c] using ih

/-- A crane comes before the other in the order of two distances (R123, R125). -/
def comesFirst (c : CraneId) (a b : Nat) : Prop := a < b ∨ (a = b ∧ c = .A)

theorem nearerFirst_of_first {away : CraneId → Nat} {c : CraneId} (h : comesFirst c (away c) (away (otherCrane c))) :
    nearerFirst (away .A) (away .B) = [c, otherCrane c] := by
  unfold nearerFirst
  cases c
  · rw [if_pos]
    · rfl
    · rcases h with h | ⟨h, -⟩
      · exact h.le
      · exact h.le
  · rw [if_neg]
    · rfl
    · rcases h with h | ⟨-, h⟩
      · exact not_le.mpr h
      · cases h

theorem nearerFirst_cases {away : CraneId → Nat} (c : CraneId) :
    nearerFirst (away .A) (away .B) = [c, otherCrane c] ∨ nearerFirst (away .A) (away .B) = [otherCrane c, c] := by
  unfold nearerFirst
  split_ifs <;> cases c <;> simp [otherCrane]

/-- The nearer of a move's legal cranes, A on a tie. -/
theorem firstLegal_of_legal {away : CraneId → Nat} {c : CraneId} {d : Dest} (hlegal : freeLegal g p c m = some d)
    (hfirst : freeLegal g p (otherCrane c) m = none ∨ comesFirst c (away c) (away (otherCrane c))) :
    firstLegal g p m (nearerFirst (away .A) (away .B)) = some (c, d) := by
  rcases nearerFirst_cases (away := away) c with horder | horder
  · simp [horder, firstLegal_cons, hlegal]
  · rcases hfirst with hnone | hfirst
    · simp [horder, firstLegal_cons, hnone, hlegal]
    · simp [nearerFirst_of_first hfirst, firstLegal_cons, hlegal]

theorem isFree_of_freeLegal {c : CraneId} {d : Dest} (h : freeLegal g p c m = some d) : isFree p c = true := by
  rw [isFree_iff]
  by_contra hnot
  rw [freeLegal, if_neg hnot] at h
  cases h

theorem visit_of_left {w : Walk} (hm : moveOf w.part n = some m) (hleft : leftByScan g w.part m) : ∃ first,
    visit g w n = { w with first := first } ∧ (candidate w.part m = false → first = w.first) ∧
    (w.first.isSome → first = w.first) ∧
    (w.first = none → candidate w.part m = true → isFree w.part .A = true → first = some n) := by
  unfold visit
  by_cases hbusy : (!(isFree w.part .A || isFree w.part .B)) = true
  · rw [if_pos hbusy]
    exact ⟨w.first, rfl, fun _ => rfl, fun _ => rfl, fun _ _ hfree => by simp [hfree] at hbusy⟩
  · rw [if_neg hbusy, hm]
    dsimp only
    by_cases hcandidate : candidate w.part m = true
    · rcases hleft with hnot | hnone
      · rw [hcandidate] at hnot
        cases hnot
      · rw [if_pos hcandidate, firstLegal_of_none hnone]
        refine ⟨_, rfl, fun h => ?_, fun h => if_pos h, fun h _ _ => ?_⟩
        · rw [hcandidate] at h
          cases h
        · rw [h]
          rfl
    · rw [if_neg hcandidate]
      exact ⟨w.first, rfl, fun _ => rfl, fun _ => rfl, fun _ h => absurd h hcandidate⟩

/-- A walk over moves that a scan leaves notes the first candidate at most. -/
theorem walk_of_left (l : List Nat) : ∀ (w : Walk), (∀ n ∈ l, ∃ m, moveOf w.part n = some m ∧ leftByScan g w.part m) →
    ∃ first, l.foldl (visit g) w = { w with first := first } ∧
      ((∀ n ∈ l, ∀ m, moveOf w.part n = some m → candidate w.part m = false) → first = w.first) ∧
      (w.first.isSome → first = w.first) := by
  induction l with
  | nil => exact fun w _ => ⟨w.first, rfl, fun _ => rfl, fun _ => rfl⟩
  | cons n l ih =>
    intro w hl
    obtain ⟨m, hm, hleft⟩ := hl n List.mem_cons_self
    obtain ⟨first, hvisit, hnone, hsome, -⟩ := visit_of_left hm hleft
    obtain ⟨final, hwalk, hnone', hsome'⟩ := ih { w with first := first } fun k hk => hl k (List.mem_cons_of_mem _ hk)
    rw [List.foldl_cons, hvisit, hwalk]
    refine ⟨final, rfl, fun hall => ?_, fun h => ?_⟩
    · rw [hnone' fun k hk => hall k (List.mem_cons_of_mem _ hk)]
      exact hnone (hall n List.mem_cons_self m hm)
    · have hfirst := hsome h
      exact (hsome' (by rwa [hfirst])).trans hfirst

theorem moveOf_of_mem (hnodup : (p.mp.queue.map (·.number)).Nodup) (hm : m ∈ p.mp.queue) : moveOf p m.number = some m := by
  unfold moveOf
  revert hnodup hm
  induction p.mp.queue with
  | nil => exact fun _ h => nomatch h
  | cons k l ih =>
    intro hnodup hm
    rw [List.map_cons, List.nodup_cons] at hnodup
    rcases List.mem_cons.mp hm with rfl | hm
    · simp
    · have hne : k.number ≠ m.number := fun h => hnodup.1 (h ▸ List.mem_map_of_mem hm)
      rw [List.find?_cons, beq_eq_false_iff_ne.mpr hne]
      exact ih hnodup.2 hm

theorem exists_moveOf {l : List Move} (hl : l ⊆ p.mp.queue) : n ∈ l.map (·.number) → ∃ m ∈ p.mp.queue, moveOf p n = some m := by
  intro hn
  obtain ⟨k, hk, rfl⟩ := List.mem_map.mp hn
  cases hfound : moveOf p k.number with
  | none => exact absurd rfl (moveOf_eq_none_iff.mp hfound k (hl hk))
  | some m => exact ⟨m, List.mem_of_find?_eq_some hfound, rfl⟩

/-- The records that a scan which can dispatch nothing gives to the give-way (R125). -/
theorem scan_of_left (hleft : ∀ k ∈ p.mp.queue, leftByScan g p k) : ∃ first, scan g p = giveWay g first p ∧
    ((∀ k ∈ p.mp.queue, candidate p k = false) → first = none) := by
  obtain ⟨first, hwalk, hnone, -⟩ := walk_of_left (g := g) (p.mp.queue.map (·.number))
    { part := p, dispatched := false, first := none } fun n hn => by
      obtain ⟨m, hm, hfound⟩ := exists_moveOf (List.Subset.refl _) hn
      exact ⟨m, hfound, hleft m hm⟩
  refine ⟨first, ?_, fun hall => hnone fun n hn m hm => hall m (List.mem_of_find?_eq_some hm)⟩
  rw [scan, hwalk]
  rfl

/-- A scan of records in which no give-way can follow changes nothing (R125). -/
theorem scan_of_nothing (hleft : ∀ k ∈ p.mp.queue, leftByScan g p k)
    (hstays : (∀ k ∈ p.mp.queue, candidate p k = false) ∨ 32 ≤ p.mp.queue.length ∨
      ∃ c, (craneOf p c).state ≠ .idle ∨ craneCfg g c = none) : scan g p = p := by
  obtain ⟨first, hscan, hfirst⟩ := scan_of_left hleft
  rw [hscan]
  rcases hstays with hnone | hblocked
  · rw [hfirst hnone]
    rfl
  · unfold giveWay
    split
    · rfl
    · split
      · rfl
      · refine if_neg fun h => ?_
        simp only [Bool.and_eq_true, beq_iff_eq, decide_eq_true_eq] at h
        obtain ⟨⟨⟨⟨hcfgA, hcfgB⟩, hA⟩, hB⟩, hroom⟩ := h
        rcases hblocked with hfull | ⟨c, hbusy | hcfg⟩
        · rw [freeEntries, Config.movePlaces] at hroom
          omega
        · cases c
          · exact hbusy hA
          · exact hbusy hB
        · cases c
          · rw [show g.craneA = none from hcfg] at hcfgA
            cases hcfgA
          · rw [show g.craneB = none from hcfg] at hcfgB
            cases hcfgB

end walk

/-! ### The dispatch (R98, R124) -/

section dispatched

variable {g : Store} {p : Part} {m : Move} {c : CraneId} {d : Dest}

theorem slotOf_engageSlot (n : Nat) (role : Role) (slot : Nat) (p : Part) (k : Nat) : slotOf (engageSlot n role slot p) k =
    if k = slot then { slotOf p slot with engaged := some (n, role) } else slotOf p k := slotOf_putSlot slot _ p k

/-- A slot, if one is named, engaged by a move in a role. -/
def engagedAt (n : Nat) (role : Role) : Option Nat → Part → Part
  | some slot, p => engageSlot n role slot p
  | none, p => p

theorem slotOf_engagedAt (n : Nat) (role : Role) (slot : Option Nat) (p : Part) (k : Nat) :
    slotOf (engagedAt n role slot p) k = if slot = some k then { slotOf p k with engaged := some (n, role) } else slotOf p k := by
  cases slot with
  | none => rfl
  | some j =>
    rw [engagedAt, slotOf_engageSlot]
    by_cases h : k = j
    · subst h
      rw [if_pos rfl, if_pos rfl]
    · rw [if_neg h, if_neg fun heq => h (Option.some.inj heq).symm]

/-- SM engages the slots that a move names where all of them are free, and none elsewhere (R98). -/
theorem engage_forms (n : Nat) (source dest : Option Nat) (p : Part) :
    let free := (∀ k, source = some k → (slotOf p k).engaged = none) ∧ ∀ k, dest = some k → (slotOf p k).engaged = none
    (free → engage n source dest p = stockChange [] (engagedAt n .destination dest (engagedAt n .source source p))) ∧
    (¬ free → engage n source dest p = p) := by
  intro free
  have heq : engage n source dest p =
      if free then stockChange [] (engagedAt n .destination dest (engagedAt n .source source p)) else p := by
    cases source <;> cases dest <;> simp [engage, engagedAt, free]
  exact ⟨fun h => heq.trans (if_pos h), fun h => heq.trans (if_neg h)⟩

/-- An engaged slot stays so: SM engages free slots only. -/
theorem engaged_engage {n k : Nat} {source dest : Option Nat} {e : Nat × Role} (h : (slotOf p k).engaged = some e) :
    (slotOf (engage n source dest p) k).engaged = some e := by
  obtain ⟨hyes, hno⟩ := engage_forms n source dest p
  by_cases hfree : (∀ k, source = some k → (slotOf p k).engaged = none) ∧ ∀ k, dest = some k → (slotOf p k).engaged = none
  · obtain ⟨hsource, hdest⟩ := hfree
    have hs : source ≠ some k := fun heq => by
      rw [hsource k heq] at h
      cases h
    have hd : dest ≠ some k := fun heq => by
      rw [hdest k heq] at h
      cases h
    rw [hyes ⟨hsource, hdest⟩]
    change (slotOf (engagedAt n .destination dest (engagedAt n .source source p)) k).engaged = _
    rw [slotOf_engagedAt, if_neg hd, slotOf_engagedAt, if_neg hs, h]
  · rw [hno hfree, h]

theorem slots_dispatch (g : Store) (c : CraneId) (m : Move) (d : Dest) (p : Part) (k : Nat) :
    slotOf (dispatch g c m d p) k = slotOf (engage m.number m.source.slotNumber d.slotNumber p) k := by
  cases c <;> simp [dispatch, slotOf, writeReservation, putMove]

/-- A dispatch engages the slots that its move names (R98). -/
theorem engaged_dispatch (hdest : ∀ k, d = .slot k → (slotOf p k).engaged = none ∧ m.source ≠ .slot k)
    (hsource : ∀ n, m.source = .slot n → (slotOf p n).engaged = none) :
    (∀ n, m.source = .slot n → (slotOf (dispatch g c m d p) n).engaged = some (m.number, .source)) ∧
    ∀ k, d = .slot k → (slotOf (dispatch g c m d p) k).engaged = some (m.number, .destination) := by
  obtain ⟨source, hs⟩ : ∃ source, source = m.source.slotNumber := ⟨_, rfl⟩
  obtain ⟨dest, hd⟩ : ∃ dest, dest = d.slotNumber := ⟨_, rfl⟩
  have hsource' (n : Nat) (h : source = some n) : m.source = .slot n := by
    rw [hs] at h
    cases hsrc : m.source <;> rw [hsrc] at h <;> cases h
    rfl
  have hdest' (k : Nat) (h : dest = some k) : d = .slot k := by
    rw [hd] at h
    cases d <;> cases h
    rfl
  have hslot (k : Nat) : slotOf (dispatch g c m d p) k =
      slotOf (engagedAt m.number .destination dest (engagedAt m.number .source source p)) k := by
    rw [slots_dispatch, ← hs, ← hd, (engage_forms m.number source dest p).1
      ⟨fun n hn => hsource n (hsource' n hn), fun k hk => (hdest k (hdest' k hk)).1⟩]
    rfl
  refine ⟨fun n hn => ?_, fun k hk => ?_⟩
  · have hsrc : source = some n := by rw [hs, hn]; rfl
    have hdst : dest ≠ some n := fun h => (hdest n (hdest' n h)).2 hn
    rw [hslot, slotOf_engagedAt, if_neg hdst, slotOf_engagedAt, if_pos hsrc]
  · have hdst : dest = some k := by rw [hd, hk]; rfl
    rw [hslot, slotOf_engagedAt, if_pos hdst]

theorem reservationOf_dispatch (g : Store) (c : CraneId) (m : Move) (d : Dest) (p : Part) : reservationOf (dispatch g c m d p) c =
    some (stretch g [(craneOf p c).pos.getD 0, sourcePos g m.source, destPos g c d]) := by
  cases c <;> simp [dispatch, reservationOf, writeReservation]

theorem moveOf_dispatch_same (hm : moveOf p m.number = some m) :
    moveOf (dispatch g c m d p) m.number = some { m with dest := some d, crane := some c, state := .dispatched } := by
  have hqueue : (dispatch g c m d p).mp.queue =
      (putMove { m with dest := some d, crane := some c, state := .dispatched } p).mp.queue := by
    simp [dispatch, putMove]
  rw [moveOf, hqueue]
  exact moveOf_putMove_same (m := { m with dest := some d, crane := some c, state := .dispatched }) (by
    rw [show moveOf p m.number = some m from hm]
    rfl)

/-- The record of a crane that is dispatched a move (R124). -/
theorem craneCore_dispatch (hkind : m.kind ≠ .park) : craneCore (craneOf (dispatch g c m d p) c) =
    craneCore { craneOf p c with state := .toSource, move := some m.number, dispatchPos := (craneOf p c).pos } := by
  obtain ⟨m', hm'⟩ : ∃ m', m' = { m with dest := some d, crane := some c, state := .dispatched } := ⟨_, rfl⟩
  obtain ⟨q, hq⟩ : ∃ q, q = writeReservation c
      (some (stretch g [(craneOf p c).pos.getD 0, sourcePos g m.source, destPos g c d]))
      (putMove m' (engage m.number m.source.slotNumber d.slotNumber p)) := ⟨_, rfl⟩
  have hcrane : craneOf q c = craneOf p c := by
    rw [hq]
    exact craneOf_congr (by simp) (by simp) c
  have hnotpark : m'.kind ≠ .park := by rwa [hm']
  have hnumber : m'.number = m.number := by rw [hm']
  have heq : dispatch g c m d p = takeMove g c m' q := by rw [dispatch, hq, hm']
  rw [heq, takeMove, if_neg hnotpark, craneCore_beginStep, craneOf_putCrane_same, hcrane, hnumber]
  rfl

end dispatched

/-! ### What a scan leaves of a move and crane once dispatched -/

section after

variable {g : Store} {p : Part} {c : CraneId}

/-- Later visits of a walk leave a dispatched move, its crane at work and its engagements. -/
theorem engaged_visit {w : Walk} {k : Nat} {e : Nat × Role} (h : (slotOf w.part k).engaged = some e) (n : Nat) :
    (slotOf (visit g w n).part k).engaged = some e := by
  unfold visit
  split
  · exact h
  · split
    · exact h
    · split
      · dsimp only
        split
        · rw [slots_dispatch]
          exact engaged_engage h
        · exact h
      · exact h

theorem dispatched_walk {n k : Nat} {x : Move} {e : Nat × Role} (l : List Nat) : ∀ w : Walk, w.dispatched = true →
    (craneOf w.part c).state ≠ .idle →
    (l.foldl (visit g) w).dispatched = true ∧ Spares c w.part (l.foldl (visit g) w).part ∧
    (moveOf w.part n = some x → x.state ≠ .queued → moveOf (l.foldl (visit g) w).part n = some x) ∧
    ((slotOf w.part k).engaged = some e → (slotOf (l.foldl (visit g) w).part k).engaged = some e) := by
  induction l with
  | nil => exact fun w h _ => ⟨h, .refl c _, fun h _ => h, id⟩
  | cons a l ih =>
    intro w hdispatched hc
    have spared := spares_visit (g := g) hc a
    have hstill : (visit g w a).dispatched = true := by
      unfold visit
      split
      · exact hdispatched
      · split
        · exact hdispatched
        · split
          · dsimp only
            split
            · rfl
            · exact hdispatched
          · exact hdispatched
    obtain ⟨hafter, hspares, hmove, hengaged⟩ := ih (visit g w a) hstill (by rwa [spared.leaves.state_eq])
    exact ⟨hafter, spared.trans hspares, fun hm hx => hmove (moveOf_visit hm hx a) hx, fun h => hengaged (engaged_visit h a)⟩

end after

/-! ### A scan that dispatches (R124) -/

section scans

variable {g : Store} {p : Part} {m : Move} {c : CraneId} {d : Dest} {before after : List Move}

theorem moves_before (hqueue : p.mp.queue = before ++ m :: after) (hnodup : (p.mp.queue.map (·.number)).Nodup) :
    moveOf p m.number = some m ∧ ∀ n ∈ before.map (·.number), ∃ k ∈ before, moveOf p n = some k := by
  refine ⟨moveOf_of_mem hnodup (by simp [hqueue]), fun n hn => ?_⟩
  obtain ⟨k, hk, rfl⟩ := List.mem_map.mp hn
  exact ⟨k, hk, moveOf_of_mem hnodup (by simp [hqueue, hk])⟩

theorem numbers_split (hqueue : p.mp.queue = before ++ m :: after) :
    p.mp.queue.map (·.number) = before.map (·.number) ++ m.number :: after.map (·.number) := by simp [hqueue]

/-- A visit that dispatches (R123, R124). -/
theorem visit_of_legal {w : Walk} (hm : moveOf w.part m.number = some m) (hcandidate : candidate w.part m = true)
    (hlegal : freeLegal g w.part c m = some d)
    (hfirst : freeLegal g w.part (otherCrane c) m = none ∨ comesFirst c (craneDistance w.part c (sourcePos g m.source))
      (craneDistance w.part (otherCrane c) (sourcePos g m.source))) :
    ∃ first, visit g w m.number = { part := dispatch g c m d w.part, dispatched := true, first := first } := by
  have hfree := isFree_of_freeLegal hlegal
  have hbusy : ¬ (!(isFree w.part .A || isFree w.part .B)) = true := by
    cases c <;> simp [hfree]
  have hchosen := firstLegal_of_legal (away := fun b => craneDistance w.part b (sourcePos g m.source)) hlegal hfirst
  unfold visit
  rw [if_neg hbusy, hm]
  dsimp only
  rw [if_pos hcandidate, hchosen]
  exact ⟨_, rfl⟩

/-- The scan dispatches the first move that it can, and leaves it so. -/
theorem scan_of_legal (hqueue : p.mp.queue = before ++ m :: after) (hnodup : (p.mp.queue.map (·.number)).Nodup)
    (hcandidate : candidate p m = true) (hleft : ∀ k ∈ before, leftByScan g p k) (hlegal : freeLegal g p c m = some d)
    (hfirst : freeLegal g p (otherCrane c) m = none ∨ comesFirst c (craneDistance p c (sourcePos g m.source))
      (craneDistance p (otherCrane c) (sourcePos g m.source))) :
    Spares c (dispatch g c m d p) (scan g p) ∧
    moveOf (scan g p) m.number = some { m with dest := some d, crane := some c, state := .dispatched } ∧
    ∀ k e, (slotOf (dispatch g c m d p) k).engaged = some e → (slotOf (scan g p) k).engaged = some e := by
  obtain ⟨hm, hbefore⟩ := moves_before hqueue hnodup
  obtain ⟨first, hwalk, -⟩ := walk_of_left (g := g) (before.map (·.number)) { part := p, dispatched := false, first := none }
    fun n hn => by
      obtain ⟨k, hk, hfound⟩ := hbefore n hn
      exact ⟨k, hfound, hleft k hk⟩
  obtain ⟨first', hvisit⟩ := visit_of_legal (w := { part := p, dispatched := false, first := first }) hm hcandidate hlegal hfirst
  have hkind : m.kind ≠ .park := (candidate_iff.mp hcandidate).2.1
  have hworks : (craneOf (dispatch g c m d p) c).state ≠ .idle := by
    rw [field_of_core (craneCore_dispatch hkind) (·.state)]
    nofun
  have hrest (k : Nat) (e : Nat × Role) := dispatched_walk (g := g) (n := m.number) (k := k) (e := e)
    (x := { m with dest := some d, crane := some c, state := .dispatched }) (after.map (·.number))
    { part := dispatch g c m d p, dispatched := true, first := first' } rfl hworks
  obtain ⟨hdispatched, hspares, hmove, -⟩ := hrest 0 (0, .source)
  have hscan : scan g p = ((after.map (·.number)).foldl (visit g)
      { part := dispatch g c m d p, dispatched := true, first := first' }).part := by
    rw [scan, numbers_split hqueue, List.foldl_append, List.foldl_cons, hwalk, hvisit]
    dsimp only
    rw [if_pos hdispatched]
  rw [hscan]
  exact ⟨hspares, hmove (moveOf_dispatch_same hm) nofun, fun k e => (hrest k e).2.2.2⟩

/-! ### Give-way (R125) -/

theorem parkHelps_iff {o : CraneId} : parkHelps g p m o = true ↔
    g.plant.arrivalTolerance < craneDistance p o (destPos g o .home) ∧
    (legal g p (otherCrane o) m (some (stretch g [destPos g o .home]))).isSome ∧
    fits o (stretch g [(craneOf p o).pos.getD 0, destPos g o .home]) p = true := by
  unfold parkHelps homeDistance
  simp only [Bool.and_eq_true, Bool.not_eq_true', decide_eq_false_iff_not, not_le, and_assoc]

/-- A scan of records in which both cranes are free, and no candidate has a legal one. -/
theorem scan_of_blocked (hqueue : p.mp.queue = before ++ m :: after) (hnodup : (p.mp.queue.map (·.number)).Nodup)
    (hcandidate : candidate p m = true) (hleft : ∀ k ∈ p.mp.queue, leftByScan g p k)
    (hbefore : ∀ k ∈ before, candidate p k = false)
    (hfree : ∀ c, (craneOf p c).state = .idle ∧ (craneOf p c).move = none ∧ (craneCfg g c).isSome)
    (hroom : p.mp.queue.length < 32) : scan g p =
      match (nearerFirst (homeDistance g p .A) (homeDistance g p .B)).find? (parkHelps g p m) with
      | some o => park g o p
      | none => p := by
  obtain ⟨hm, hmoves⟩ := moves_before hqueue hnodup
  obtain ⟨first, hwalk, hnone, -⟩ := walk_of_left (g := g) (before.map (·.number)) { part := p, dispatched := false, first := none }
    fun n hn => by
      obtain ⟨k, hk, hfound⟩ := hmoves n hn
      exact ⟨k, hfound, .inl (hbefore k hk)⟩
  have hfirst : first = none := hnone fun n hn k hk => by
    obtain ⟨x, hx, hfound⟩ := hmoves n hn
    obtain rfl := Option.some.inj (hfound.symm.trans hk)
    exact hbefore x hx
  obtain ⟨hA, hmoveA, hcfgA⟩ := hfree .A
  obtain ⟨hB, -, hcfgB⟩ := hfree .B
  obtain ⟨first', hvisit, -, -, hnoted⟩ := visit_of_left (g := g) (w := { part := p, dispatched := false, first := first }) hm
    (hleft m (by simp [hqueue]))
  obtain rfl : first' = some m.number := hnoted hfirst hcandidate (isFree_iff.mpr ⟨hA, hmoveA⟩)
  obtain ⟨final, hrest, -, hkept⟩ := walk_of_left (g := g) (after.map (·.number))
    { part := p, dispatched := false, first := some m.number } fun n hn => by
      obtain ⟨k, hk, rfl⟩ := List.mem_map.mp hn
      have hmem : k ∈ p.mp.queue := by simp [hqueue, hk]
      exact ⟨k, moveOf_of_mem hnodup hmem, hleft k hmem⟩
  obtain rfl : final = some m.number := hkept rfl
  rw [scan, numbers_split hqueue, List.foldl_append, List.foldl_cons, hwalk, hvisit, hrest]
  change giveWay g (some m.number) p = _
  simp only [giveWay, hm]
  refine if_pos ?_
  have hentries : 0 < freeEntries p := by
    rw [freeEntries, Config.movePlaces]
    omega
  simp only [Bool.and_eq_true, beq_iff_eq, decide_eq_true_eq]
  exact ⟨⟨⟨⟨hcfgA, hcfgB⟩, hA⟩, hB⟩, hentries⟩

/-- The move of a crane that is parked (R125). -/
def parkMove (p : Part) (o : CraneId) : Move :=
  { number := newNumber p, kind := .park, piece := none, source := .runway ((craneOf p o).pos.getD 0), dest := some .home,
    chain := none, rank := 0, state := .dispatched, crane := some o, reason := none }

theorem park_spec (g : Store) (o : CraneId) (p : Part) :
    (park g o p).mp.queue = parkMove p o :: p.mp.queue ∧
    craneCore (craneOf (park g o p) o) =
      craneCore { craneOf p o with state := .parking, move := some (newNumber p), dispatchPos := (craneOf p o).pos } ∧
    reservationOf (park g o p) o = some (stretch g [(craneOf p o).pos.getD 0, destPos g o .home]) ∧
    craneCore (craneOf (park g o p) (otherCrane o)) = craneCore (craneOf p (otherCrane o)) ∧
    reservationOf (park g o p) (otherCrane o) = reservationOf p (otherCrane o) ∧
    (park g o p).sm = p.sm ∧ (park g o p).bs = p.bs := by
  obtain ⟨q, hq⟩ : ∃ q, q = writeReservation o (some (stretch g [(craneOf p o).pos.getD 0, destPos g o .home]))
      (joinQueue true (parkMove p o) p) := ⟨_, rfl⟩
  have heq : park g o p = takeMove g o (parkMove p o) q := by rw [hq]; rfl
  have hcrane (d : CraneId) : craneOf q d = craneOf p d := by
    rw [hq]
    exact craneOf_congr (by simp) (by simp) d
  have hmp : (park g o p).mp = q.mp := by rw [heq]; simp
  have htraffic := (Traffic.refl (mine := {o}) q).then_takeMove (g := g) rfl (parkMove p o)
  refine ⟨?_, ?_, ?_, ?_, ?_, ?_, by simp⟩
  · rw [hmp, hq]
    cases o <;> rfl
  · rw [heq, takeMove, if_pos (show (parkMove p o).kind = .park from rfl), craneCore_beginStep, craneOf_putCrane_same, hcrane]
    rfl
  · rw [reservationOf_congr hmp, hq]
    cases o <;> rfl
  · rw [heq]
    exact (htraffic.cranes _ (ne_otherCrane o).symm).1.trans (congrArg craneCore (hcrane _))
  · rw [reservationOf_congr hmp, hq]
    cases o <;> rfl
  · rw [heq, hq]
    cases o <;> simp [joinQueue, parkMove, writeReservation, triggerScan]

end scans

/-- A change to RUN is told as a trigger of the scan alone (R121, R183). -/
theorem setMode_run (s : State) (tag : Nat) (hready : ready s) (hmode : s.mc.mode ≠ .run) : runsTo (.setMode tag 2) s fun t =>
    ∃ cl evt u, u = scan { s.store with lastMode := .run }
        { s.toPart with mc := { s.mc with mode := .run }, cl := cl, evt := evt } ∧
      t.mc = u.mc ∧ t.bs = u.bs ∧ t.cc = u.cc ∧ t.tu = u.tu ∧ t.sm = u.sm ∧ t.mp = u.mp ∧ t.csA = u.csA ∧
      t.csB = u.csB ∧ t.fl = u.fl := by
  have hjudged := setMode_change (mode := 2) (m := .run) (g := s.store) (p := atOwner 0x0E tag s) rfl (Ne.symm hmode) (.inl nofun)
  refine runsTo_mono (ended_byStore hready rfl hjudged (linkCore_tellMode _ _ _)) fun t ⟨hended, _⟩ => ?_
  have htold : tellMode { s.store with lastMode := .run } (atOwner 0x0E tag s).mc.mode (setModeOf .run (atOwner 0x0E tag s)) =
      triggerScan (setModeOf .run (atOwner 0x0E tag s)) := rfl
  rw [htold] at hended
  obtain ⟨replies, rfl⟩ := hended.of_noWithdrawal (noWithdrawal_of_unchanged rfl)
  obtain ⟨q, hq⟩ : ∃ q, q = withReplies replies (triggerScan (setModeOf .run (atOwner 0x0E tag s))) := ⟨_, rfl⟩
  have hpart : q = { s.toPart with mc := { s.mc with mode := .run }, cl := q.cl, evt := q.evt } := by rw [hq]; rfl
  have hscan : scanIfDue { s.store with lastMode := .run } q = scan { s.store with lastMode := .run } q := by rw [hq]; rfl
  refine ⟨q.cl, q.evt, scan { s.store with lastMode := .run } q, congrArg _ hpart, ?_⟩
  rw [← hscan, hq]
  exact ⟨rfl, rfl, rfl, rfl, rfl, rfl, rfl, rfl, rfl⟩

/-- Settles O39: the chooser's order is total; the scan is its walk to the first move that it can dispatch, or the give-way for
the first candidate. -/
theorem destinationChosen : Obligations.DestinationChosen := by
  refine ⟨chooseSlot_spec, fun p m => candidate_iff, fun g p c m other d => legal_eq_some_iff,
    fun g p before after m hqueue hnodup hcandidate => ?_, fun g p hleft hstays => scan_of_nothing (fun m hm => ?_) hstays,
    setMode_run⟩
  · intro away first may stays src
    have hmay : may = fun c k => freeLegal g p c k := rfl
    refine ⟨fun c d hleft hlegal hfirst => ?_, fun hleft hbefore hfree hroom => ?_⟩
    · have hkind : m.kind ≠ .park := (candidate_iff.mp hcandidate).2.1
      have hcore := craneCore_dispatch (g := g) (p := p) (c := c) (d := d) hkind
      obtain ⟨hspares, hmove, hengaged⟩ := scan_of_legal hqueue hnodup hcandidate hleft hlegal hfirst
      have hscanned := hspares.leaves.1.trans hcore
      refine ⟨hmove, field_of_core hscanned (·.state), field_of_core hscanned (·.move), field_of_core hscanned (·.dispatchPos),
        field_of_core hscanned (·.pos), hspares.reservation.trans (reservationOf_dispatch g c m d p), fun hdest => ?_⟩
      have hsource : ∀ n, m.source = .slot n → (slotOf p n).engaged = none := by
        intro n hn
        obtain ⟨-, -, -, mark, -, ⟨b, x, hbed, -⟩ | ⟨k, hslot, -, hnone⟩, -⟩ := candidate_iff.mp hcandidate
        · rw [hn] at hbed
          cases hbed
        · rw [hn] at hslot
          cases hslot
          exact hnone
      obtain ⟨hs, hd⟩ := engaged_dispatch (g := g) (c := c) hdest hsource
      exact ⟨fun n hn => hengaged n _ (hs n hn), fun k hk => hengaged k _ (hd k hk)⟩
    · intro home helps
      have hscan := scan_of_blocked hqueue hnodup hcandidate hleft hbefore hfree hroom
      have hhelps (o : CraneId) : parkHelps g p m o = true ↔ helps o := parkHelps_iff
      refine ⟨fun hnone => ?_, fun o hhelp hfirst => ?_⟩
      · rw [hscan, List.find?_eq_none.mpr fun o _ => mt (hhelps o).mp (hnone o)]
      · have hchosen : (nearerFirst (homeDistance g p .A) (homeDistance g p .B)).find? (parkHelps g p m) = some o := by
          by_cases hother : helps (otherCrane o)
          · rw [nearerFirst_of_first (away := homeDistance g p) (hfirst hother), List.find?_cons, (hhelps o).mpr hhelp]
          · have hnot : parkHelps g p m (otherCrane o) = false := by
              rw [← Bool.not_eq_true]
              exact mt (hhelps _).mp hother
            rcases nearerFirst_cases (away := homeDistance g p) o with horder | horder
            · rw [horder, List.find?_cons, (hhelps o).mpr hhelp]
            · rw [horder, List.find?_cons, hnot, List.find?_cons, (hhelps o).mpr hhelp]
        intro t n pos
        obtain ⟨hq, hcore, hres, hother, hres', hsm, hbs⟩ := park_spec g o p
        have ht : t = park g o p := by
          change scan g p = _
          rw [hscan, hchosen]
        rw [ht]
        exact ⟨hq, field_of_core hcore (·.state), field_of_core hcore (·.move), hres, hother, hres', hsm, hbs⟩
  · refine (hleft m hm).imp_right fun hnone c => ?_
    unfold freeLegal
    split_ifs with hfree
    · exact hnone c hfree.1 hfree.2
    · rfl

end Sys2Proof.Proofs
end

section
/-! PROOFS. The reads (R181): what an answer is spelt with, answer by answer, and O51. -/

namespace Sys2Proof.Proofs

open Sys2Proof.Machine

/-! ### Numbers in their ranges (R172) -/

/-- A number of one unsigned byte. -/
@[simp] theorem ranged_byte {lo hi : Int} (hlo : 0 ≤ lo) (hhi : hi ≤ 255) (v : Int) : ranged lo hi v = .u8 v.toNat := by
  rw [ranged, if_neg (by omega), if_pos hhi]

/-- A number of two unsigned bytes. -/
@[simp] theorem ranged_word {lo hi : Int} (hlo : 0 ≤ lo) (hover : 255 < hi) (hhi : hi ≤ 65535) (v : Int) :
    ranged lo hi v = .u16 v.toNat := by
  rw [ranged, if_neg (by omega), if_neg (by omega), if_pos hhi]

/-- A number of four unsigned bytes. -/
@[simp] theorem ranged_long {lo hi : Int} (hlo : 0 ≤ lo) (hover : 65535 < hi) (v : Int) : ranged lo hi v = .u32 v.toNat := by
  rw [ranged, if_neg (by omega), if_neg (by omega), if_neg (by omega)]

/-- A number of two signed bytes. -/
@[simp] theorem ranged_signed {lo hi : Int} (hneg : lo < -128) (hlo : -32768 ≤ lo) (hhi : hi ≤ 32767) (v : Int) :
    ranged lo hi v = .i16 v := by
  rw [ranged, if_pos (by omega), if_neg (by omega), if_pos ⟨hlo, hhi⟩]

@[simp] theorem dm_eq (x : Int) : dm x = posField x := ranged_word (by decide) (by decide) (by decide) x

/-! ### The parts of an answer (R172) -/

@[simp] theorem setOrClear_eq (b : Bool) : setOrClear b = flagField b := by cases b <;> rfl

@[simp] theorem ifPresent_eq {α : Type} (x : Option α) (spelt : α → List Field) : ifPresent x spelt = optFields x spelt := by
  cases x <;> rfl

@[simp] theorem counted_eq {α : Type} (xs : List α) (spelt : α → List Field) : counted xs spelt = listFields xs spelt := by
  rw [counted, listFields, List.flatMap_def]

@[simp] theorem letterOf_eq (c : CraneId) : letterOf c = .u8 (craneByte c) := by cases c <;> rfl

@[simp] theorem productCode_eq (g : Store) (i : Nat) : productCode g i = .bytes (codeOf g i) := by
  unfold productCode codeOf
  cases product g i <;> rfl

@[simp] theorem commandAnswer_eq (cmd : FieldCmd) : commandAnswer cmd = commandFields cmd := by cases cmd <;> rfl

@[simp] theorem classField_eq (cmd : FieldCmd) :
    classField cmd = .u8 (match directedClass cmd with | some k => k.code | none => 0) := by cases cmd <;> rfl

/-! ### Enumerated values: counted in the order of their chapters (R172) -/


@[simp] theorem oneOf_mode (m : Mode) : oneOf [.setup, .watch, .run] m = .u8 m.code := by cases m <;> rfl

@[simp] theorem oneOf_startCause (c : StartCause) : oneOf [.powerUp, .resetPin, .restart] c = .u8 c.code := by
  cases c <;> rfl

@[simp] theorem oneOf_bedState (b : BedState) :
    oneOf [.empty, .prepared, .pouring, .curing, .ready, .stripping, .rejected] b = .u8 b.code := by cases b <;> rfl

@[simp] theorem oneOf_deviationKind (k : DeviationKind) :
    oneOf [.short, .over, .freeze, .overtemp, .unmeasured, .starved, .zoneExcluded, .powerGap] k = .u8 k.code := by
  cases k <;> rfl

@[simp] theorem oneOf_pourState (k : PourState) : oneOf [.opened, .closed, .aborted] k = .u8 k.code := by cases k <;> rfl

@[simp] theorem oneOf_closeCause (c : CloseCause) : oneOf [.volume, .ended, .gap, .power] c = .u8 c.code := by
  cases c <;> rfl

@[simp] theorem oneOf_phase (k : Phase) : oneOf [.preset, .ramp, .hold, .cool, .finished] k = .u8 k.code := by
  cases k <;> rfl

@[simp] theorem oneOf_heatClass (k : HeatClass) : oneOf [.none, .frost, .hold, .ramp, .cool] k = .u8 k.code := by
  cases k <;> rfl

@[simp] theorem oneOf_allocKind (k : AllocKind) : oneOf [.allocated, .withheld, .null] k = .u8 k.code := by cases k <;> rfl

@[simp] theorem oneOf_validity (k : Validity) :
    oneOf [.noneReceived, .lost, .opened, .range, .stale, .valid] k = .u8 k.code := by cases k <;> rfl

@[simp] theorem oneOf_unmeasured (k : Unmeasured) : oneOf [.tooFew, .disagree] k = .u8 k.code := by cases k <;> rfl

@[simp] theorem oneOf_condition (k : Condition) :
    oneOf [.cast, .curing, .held, .shippable, .rejected] k = .u8 k.code := by cases k <;> rfl

@[simp] theorem oneOf_role (k : Role) : oneOf [.source, .destination] k = .u8 k.code := by cases k <;> rfl

@[simp] theorem oneOf_moveKind (k : MoveKind) : oneOf [.strip, .rehandle, .ship, .scrap, .park] k = .u8 k.code := by
  cases k <;> rfl

@[simp] theorem oneOf_moveState (k : MoveState) : oneOf [.queued, .dispatched, .suspended] k = .u8 k.code := by
  cases k <;> rfl

@[simp] theorem oneOf_suspendReason (k : SuspendReason) :
    oneOf [.loadHigh, .loadLow, .held, .timeout, .driveFault, .nodeLost, .overrun, .overrunOther, .mode] k = .u8 k.code := by
  cases k <;> rfl

@[simp] theorem oneOf_craneState (k : CraneState) :
    oneOf [.unlocated, .idle, .toSource, .takeUp, .lift, .toDest, .lower, .parking, .stopped, .outOfService] k =
      .u8 k.code := by cases k <;> rfl

@[simp] theorem oneOf_step (k : Step) : oneOf [.toSource, .takeUp, .lift, .toDest, .lower, .parking] k = .u8 k.code := by
  cases k <;> rfl

@[simp] theorem oneOf_stopReason (k : StopReason) :
    oneOf [.timeout, .driveFault, .nodeLost, .overrun, .overrunOther, .mode, .clearance] k = .u8 k.code := by
  cases k <;> rfl

@[simp] theorem oneOf_hook (k : Hook) : oneOf [.up, .strained, .released] k = .u8 k.code := by cases k <;> rfl

@[simp] theorem oneOf_motion (k : Motion) : oneOf [.stopped, .moving] k = .u8 k.code := by cases k <;> rfl

@[simp] theorem oneOf_timeoutKind (k : TimeoutKind) : oneOf [.travel, .hook] k = .u8 k.code := by cases k <;> rfl

@[simp] theorem oneOf_standing (k : Standing) : oneOf [.unpolled, .alive, .lost] k = .u8 k.code := by cases k <;> rfl

@[simp] theorem oneOf_attemptFailure (k : AttemptFailure) :
    oneOf [.timeout, .framing, .address, .gap, .length, .check, .content] k = .u8 k.code := by cases k <;> rfl

@[simp] theorem oneOf_exchangeClass (k : ExchangeClass) : oneOf [.stop, .directed, .motion, .round] k = .u8 k.code := by
  cases k <;> rfl

@[simp] theorem oneOf_requester (k : Requester) : oneOf [.cc, .cs .A, .cs .B] k = .u8 k.code := by
  rcases k with _ | _ | _ <;> rfl

/-! ### READ PLANT and READ BED -/

theorem settings_fields (g : Settings) :
    (settingRanges.map fun e => ranged e.2.1 e.2.2 ((g.value e.1).getD 0)) = g.fields := rfl

theorem referenced_eq (p : Part) (index : Nat) :
    referenced p index =
      decide ((∃ e ∈ p.bs.beds, e.2.product = some index) ∨ ∃ e ∈ p.sm.pieces, e.2.product = index) := by
  rw [Bool.eq_iff_iff]
  simp [referenced]

theorem productAnswered_eq (g : Store) (p : Part) (index : Nat) :
    plantAnswer g p 6 index = optFields (product g index) (productFields p index) := by
  simp only [plantAnswer, setOrClear_eq, ← referenced_eq]
  exact ifPresent_eq _ _

/-- READ PLANT answers by class (R16, R181). -/
theorem readPlant_of_readable {s : State} {tag cls index : Nat} (h : readable s (.readPlant tag cls index)) (g : Store) (p : Part) :
    readPlant cls index g p = .ok (plantAnswer g p cls index) := by
  rcases h with rfl | ⟨rfl, h1, hmax⟩ | ⟨rfl, h1, hmax⟩ | ⟨rfl, h1, hmax⟩ | ⟨rfl, h1, hmax⟩ | ⟨rfl, rfl | rfl⟩ | ⟨rfl, h1, hmax⟩
  · simp [readPlant, plantAnswer, settings_fields, posField]
  · simp [readPlant, plantAnswer, isId, h1, hmax]; rfl
  · simp [readPlant, plantAnswer, isId, h1, hmax]; rfl
  · simp [readPlant, plantAnswer, isId, h1, hmax]
  · simp [readPlant, plantAnswer, isId, h1, hmax]
  · simp [readPlant, plantAnswer, craneOfByte, craneCfg]
  · simp [readPlant, plantAnswer, craneOfByte, craneCfg]
  · simp [readPlant, productAnswered_eq, isId, h1, hmax]

theorem leastNat_eq_min? : ∀ l : List Nat, leastNat l = l.min?
  | [] => rfl
  | a :: l => by
    rw [leastNat, leastNat_eq_min? l, List.min?_cons]
    cases l.min? <;> rfl

@[simp] theorem degreeHours_eq (acc : Nat) : degreeHours acc = .u32 (reported acc) := rfl

@[simp] theorem bedDegreeHours_eq (ctx : Context) : bedDegreeHours ctx = .u32 (bedMaturity ctx) := by
  rw [bedMaturity, leastNat_eq_min?]
  rfl

theorem hasContext_iff (b : BedState) : hasContext b = true ↔ b ∈ [BedState.curing, .ready, .stripping] := by
  cases b <;> simp [hasContext]

/-- The phase is reported in CURING, in which CC holds the context (R36). -/
theorem reportedPhase_eq (b : Bed) (ctx : Option Context) (spelt : Phase → List Field) :
    optFields (reportedPhase b ctx) spelt = optFields (if b.state = .curing then ctx else none) fun c => spelt c.phase := by
  unfold reportedPhase
  by_cases h : b.state = .curing
  · rw [if_pos h, if_pos h]; cases ctx <;> rfl
  · rw [if_neg h, if_neg h]; rfl

theorem readBed_of_id (g : Store) (p : Part) {bed : Nat} (h1 : 1 ≤ bed) (hmax : bed ≤ 6) :
    readBed bed g p = .ok (bedAnswer g p bed) := by
  have hid : isId 6 bed = true := by simp [isId, h1, hmax]
  simp only [readBed, need_of_true hid, bedAnswer, reportedPhase_eq, hasContext_iff, ifPresent_eq, counted_eq, setOrClear_eq,
    oneOf_bedState, oneOf_phase, productCode_eq, bedDegreeHours_eq, List.cons_append, List.nil_append, List.append_assoc]
  rfl

/-! ### READ ZONE -/

theorem standingOf_eq (p : Part) (node : Nat) : standingOf p node = standingNow p node := by
  unfold standingOf standingNow
  cases nodeOf p node <;> rfl

theorem nodeLost_eq (p : Part) (node : Nat) : nodeLost p node = (standingNow p node == .lost) := by
  unfold nodeLost standingNow
  cases nodeOf p node <;> rfl

@[simp] theorem standingField_eq (p : Part) (node : Nat) : standingField p node = .u8 (standingOf p node).code := by
  rw [standingField, ← standingOf_eq, oneOf_standing]

/-- The byte of a validity counts the conditions of R43 before the first that fails. -/
theorem validity_code (value : Option Int) (age limit : Nat) (lost : Bool) :
    (validity value age lost limit).code =
      [value.isNone, lost, value == some (-32768), value.any fun v => decide (v < -400 ∨ 1250 < v),
        decide (limit ≤ age)].idxOf true := by
  unfold validity
  cases value with
  | none => rfl
  | some v =>
    cases lost with
    | true => rfl
    | false =>
      by_cases hopened : v = -32768
      · subst hopened; rfl
      by_cases hrange : v < -400 ∨ 1250 < v
      · rcases hrange with hrange | hrange <;> simp [hopened, hrange, Validity.code]
      by_cases hstale : limit ≤ age <;> simp [hopened, hrange, hstale, Validity.code]

@[simp] theorem readingAnswer_eq (value : Option Int) (age limit : Nat) (lost : Bool) :
    readingAnswer value age limit lost = readingFields value age lost limit := by
  rw [readingAnswer, readingFields, validity_code, ifPresent_eq]
  rfl

@[simp] theorem zoneResultAnswer_eq (r : ZoneResult) : zoneResultAnswer r = resultFields r := by
  rcases r with ⟨t, _ | _ | _⟩ | _ | _ <;> rfl

@[simp] theorem areaResultAnswer_eq (r : AreaResult) : areaResultAnswer r = areaResultFields r := by
  rcases r with t | cause
  · rfl
  · cases cause <;> rfl

theorem areaLost_standing (p : Part) (r : AreaRecord) :
    areaLost p r = r.node.any fun a => standingNow p a == .lost := by
  unfold areaLost
  cases r.node with
  | none => rfl
  | some a => exact nodeLost_eq p a

theorem areaAnswer_eq (p : Part) (area : Nat) : areaAnswer p area = areaFields p (areaRecord p area) := by
  have hresult : areaResultAnswer = areaResultFields := funext areaResultAnswer_eq
  simp only [areaAnswer, areaFields, areaLost_standing, ifPresent_eq, standingField_eq, readingAnswer_eq, hresult]
  rfl

theorem curingOf_eq (p : Part) (bed zone : Nat) :
    curingOf p bed zone = (contextOf p bed).bind fun c => Map.find c.zones zone := by
  unfold curingOf
  cases contextOf p bed <;> rfl

theorem zoneAnswer_eq (p : Part) (r : ZoneRecord) (c : Option ZoneCuring) (v : Valve) :
    zoneAnswer p r c v = zoneFields p p.cc.timer.length r ++ optFields c curingFields ++ valveFields v := by
  have hresult : zoneResultAnswer = resultFields := funext zoneResultAnswer_eq
  simp only [zoneAnswer, zoneFields, valveFields, nodeLost_eq, ifPresent_eq, standingField_eq, readingAnswer_eq, hresult,
    setOrClear_eq, oneOf_heatClass, degreeHours_eq, List.map_cons, List.map_nil, List.flatten_cons, List.flatten_nil,
    List.append_assoc, List.append_nil]
  rfl

theorem readZone_of_readable {s : State} {tag bed zone : Nat} (h : readable s (.readZone tag bed zone)) :
    readZone bed zone s.store s.toPart = .ok (answerOf s (.readZone tag bed zone)) := by
  obtain ⟨rfl, h1, hmax⟩ | ⟨h1, hmax, hcfg, hrec⟩ := h
  · simp [readZone, answerOf, isId, h1, hmax, areaAnswer_eq]
  · obtain ⟨r, hr⟩ := Option.isSome_iff_exists.mp hrec
    have hbed : bed ≠ 0 := by omega
    simp [readZone, answerOf, hbed, isId, h1, hmax, hcfg, hr, zoneAnswer_eq, curingOf_eq]

/-! ### READ POUR, READ PIECE and READ SLOT -/

/-- Of the kinds of deviation only OVER and STARVED are NOTE (section 2.8). -/
theorem severity_eq (k : DeviationKind) :
    flagField (decide (k = .over ∨ k = .starved)) = .u8 (if k.isReview then 0 else 1) := by
  cases k <;> rfl

@[simp] theorem deviationAnswer_eq (d : Deviation) : deviationAnswer d = d.fields := by
  simp only [deviationAnswer, Deviation.fields, setOrClear_eq, severity_eq, oneOf_deviationKind, ifPresent_eq]
  rfl

theorem pourAnswer_eq (g : Store) (n : Nat) (r : Pour) : pourAnswer g n r = pourFields g n r := by
  have hdeviations : deviationAnswer = Deviation.fields := funext deviationAnswer_eq
  simp only [pourAnswer, pourFields, setOrClear_eq, oneOf_pourState, oneOf_closeCause, ifPresent_eq, counted_eq,
    productCode_eq, hdeviations]
  rfl

theorem readPour_of_readable {s : State} {tag n : Nat} (h : readable s (.readPour tag n)) :
    readPour n s.store s.toPart = .ok (answerOf s (.readPour tag n)) := by
  obtain ⟨h1, hmax, hpour⟩ := h
  obtain ⟨r, hr⟩ := Option.isSome_iff_exists.mp hpour
  simp [readPour, answerOf, isId, h1, hmax, hr, pourAnswer_eq]

@[simp] theorem placeAnswer_eq (place : Place) : placeAnswer place = place.fields := by
  rcases place with _ | _ | c | _
  · rfl
  · rfl
  · exact congrArg (fun f => [Field.u8 2, f]) (letterOf_eq c)
  · rfl

@[simp] theorem conditionField_eq (c : Condition) : conditionField c = .u8 c.code := oneOf_condition c

theorem zoneAccumulator_eq (p : Part) (bed : Nat) (zone : Option Nat) :
    (((contextOf p bed).bind fun c => zone.bind fun z => Map.find c.zones z).map (·.acc)).getD 0 = zoneAccumulator p bed zone := by
  unfold zoneAccumulator
  cases contextOf p bed with
  | none => rfl
  | some ctx =>
    cases zone with
    | none => rfl
    | some z => simp only [Option.bind_some]; cases Map.find ctx.zones z <;> rfl

theorem underReview_eq (p : Part) (q : Piece) : underReview p q = ((pourOf p q.pour).map (·.review)).getD false := by
  unfold underReview
  cases pourOf p q.pour <;> rfl

theorem shipTarget_eq (g : Store) (q : Piece) : shipTarget g q = ((product g q.product).map (·.ship)).getD 0 := by
  unfold shipTarget
  cases product g q.product <;> rfl

theorem pieceAnswer_eq (g : Store) (p : Part) (mark : Nat) (q : Piece) :
    pieceAnswer g p mark q =
      [.u16 mark, .bytes (codeOf g q.product), .u8 q.pour, .u16 q.length, .u16 q.mass] ++ q.place.fields ++
      optFields q.zone (fun z => [.u8 z]) ++ [.u8 q.condition.code, .u32 q.acc] ++
      optFields q.stripAcc (fun a => [.u32 a]) ++ optFields q.move (fun n => [.u8 n]) ++
      [flagField q.released, .u32 (pieceMaturity p q), flagField (underReview p q), .u16 (shipTarget g q)] := by
  simp only [pieceAnswer, zoneAccumulator_eq, underReview_eq, shipTarget_eq, pieceMaturity, setOrClear_eq, ifPresent_eq,
    productCode_eq, placeAnswer_eq, conditionField_eq, degreeHours_eq]
  cases q.place <;> rfl

theorem readPiece_of_readable {s : State} {tag mark : Nat} (h : readable s (.readPiece tag mark)) :
    readPiece mark s.store s.toPart = .ok (answerOf s (.readPiece tag mark)) := by
  obtain ⟨h1, hmax, hpiece⟩ := h
  obtain ⟨q, hq⟩ := Option.isSome_iff_exists.mp hpiece
  have hid : isId 65535 mark = true := by simp [isId, h1, hmax]
  simp only [readPiece, answerOf, need_of_true hid, hq, must_some, Option.elim_some, pieceAnswer_eq]

/-- The live pieces of a stack, with their marks. -/
abbrev stackedPieces (p : Part) (stack : List Nat) : List (Nat × Piece) :=
  stack.filterMap fun mark => (pieceOf p mark).map fun q => (mark, q)

/-- An entry of READ SLOT, of a live piece (R115). -/
abbrev stackedFields (e : Nat × Piece) : List Field :=
  [.u16 e.1, .u16 e.2.length, .u16 e.2.mass, .u8 e.2.condition.code] ++ optFields e.2.move fun n => [.u8 n]

/-- Of a stack of live pieces every mark has its entry, and its mass counts. -/
theorem stackedPieces_spec (p : Part) : ∀ stack : List Nat, (∀ mark ∈ stack, (pieceOf p mark).isSome) →
    (stackedPieces p stack).length = stack.length ∧
    (stackedPieces p stack).flatMap stackedFields = stack.flatMap (stackEntry p) ∧
    ((stackedPieces p stack).map fun e => e.2.mass).sum = stackMass p stack
  | [], _ => ⟨rfl, rfl, rfl⟩
  | mark :: stack, hlive => by
    obtain ⟨hlength, hentries, hmass⟩ := stackedPieces_spec p stack fun m hm => hlive m (List.mem_cons_of_mem _ hm)
    obtain ⟨q, hq⟩ := Option.isSome_iff_exists.mp (hlive mark List.mem_cons_self)
    have hcons : stackedPieces p (mark :: stack) = (mark, q) :: stackedPieces p stack := by simp [stackedPieces, hq]
    refine ⟨?_, ?_, ?_⟩
    · rw [hcons, List.length_cons, List.length_cons, hlength]
    · rw [hcons, List.flatMap_cons, List.flatMap_cons, hentries]
      simp [stackEntry, hq]
    · rw [hcons, List.map_cons, List.sum_cons, hmass]
      simp [stackMass, hq]

/-- The stack of a slot holds live pieces where every record of a slot does. -/
theorem live_of_slotOf {p : Part} (h : ∀ e ∈ p.sm.slots, ∀ mark ∈ e.2.stack, (pieceOf p mark).isSome) (slot : Nat) :
    ∀ mark ∈ (slotOf p slot).stack, (pieceOf p mark).isSome := by
  unfold slotOf
  cases hk : Map.find p.sm.slots slot with
  | none => intro mark hmark; exact absurd hmark List.not_mem_nil
  | some k => exact h _ (Map.mem_of_find hk)

theorem readSlot_of_id (g : Store) (p : Part) {slot : Nat} (h1 : 1 ≤ slot) (hmax : slot ≤ 48)
    (hlive : ∀ e ∈ p.sm.slots, ∀ mark ∈ e.2.stack, (pieceOf p mark).isSome) :
    readSlot slot g p = .ok (slotAnswer g p slot) := by
  have hid : isId 48 slot = true := by simp [isId, h1, hmax]
  obtain ⟨hlength, hentries, hmass⟩ := stackedPieces_spec p _ (live_of_slotOf hlive slot)
  have hcfg : plantAnswer g p 2 slot = optFields (Map.find g.slots slot) slotCfgFields := ifPresent_eq _ _
  have hstack : listFields (slotOf p slot).stack (stackEntry p) =
      counted (stackedPieces p (slotOf p slot).stack) stackedFields := by
    rw [counted_eq, listFields, listFields, hlength, hentries]
  simp only [readSlot, need_of_true hid, slotAnswer, hcfg, ifPresent_eq, hlength, hmass, oneOf_role, conditionField_eq, hstack]
  rfl

/-! ### READ MOVES and READ CRANE -/

theorem reservationAnswer_eq (r : Option Reservation) : reservationAnswer r = optFields r Reservation.fields := by
  have hdm : dm = posField := funext dm_eq
  simp only [reservationAnswer, ifPresent_eq, counted_eq, hdm]
  rfl

@[simp] theorem moveAnswer_eq (m : Move) : moveAnswer m = moveFields m := by
  simp only [moveAnswer, moveFields, ifPresent_eq, letterOf_eq, oneOf_moveKind, oneOf_moveState, oneOf_suspendReason]
  rcases m.source with _ | _ | _ <;> rcases m.dest with _ | _ | _ | _ <;> rfl

theorem readMoves_of_page (g : Store) (p : Part) {page : Nat} (h : page ≤ 4) :
    readMoves page g p = .ok (movesAnswer p page) := by
  have hmoves : moveAnswer = moveFields := funext moveAnswer_eq
  interval_cases page <;> simp [readMoves, movesAnswer, reservationAnswer_eq, hmoves, freeEntries, Config.movePlaces]

theorem craneAnswer_eq (g : Store) (p : Part) (c : CraneId) :
    craneAnswer g p c = craneFields (craneOf p c) ++ optFields (craneNode g c) (fun a => [.u8 (standingOf p a).code]) ++
      optFields (reservationOf p c) Reservation.fields := by
  simp only [craneAnswer, craneFields, ifPresent_eq, setOrClear_eq, dm_eq, oneOf_craneState, oneOf_hook, oneOf_motion,
    oneOf_step, oneOf_timeoutKind, oneOf_stopReason, commandAnswer_eq, standingField_eq, reservationAnswer_eq]
  rfl

theorem readCrane_of_readable {s : State} {tag crane : Nat} (h : readable s (.readCrane tag crane)) :
    readCrane crane s.store s.toPart = .ok (answerOf s (.readCrane tag crane)) := by
  rcases h with rfl | rfl <;> simp [readCrane, answerOf, craneOfByte, craneAnswer_eq]

/-! ### READ NODES and READ STATUS -/

@[simp] theorem ownerAnswer_eq (o : Owner) : ownerAnswer o = .u8 o.kind.code :: o.fields := by
  rcases o with _ | _ | c
  · rfl
  · rfl
  · exact congrArg (fun f => [Field.u8 2, f]) (letterOf_eq c)

theorem nodesAnswer_queue (p : Part) : nodesAnswer p 0 =
    listFields p.fl.queue Entry.fields ++ optFields p.fl.line Exchange.fields ++
      listFields p.fl.waiting Exchange.fields ++ [.u8 p.fl.roundPos, .u16 (roundLeft p.fl)] ++
      pollFields p .A ++ pollFields p .B := by
  have hleft : ((p.fl.roundTimer.map (·.left)).getD 0 : Nat) = roundLeft p.fl := by
    unfold roundLeft
    cases p.fl.roundTimer <;> rfl
  simp only [nodesAnswer, if_pos, hleft, ifPresent_eq, counted_eq, setOrClear_eq, oneOf_exchangeClass, oneOf_requester,
    commandAnswer_eq, classField_eq, ← List.contains_iff_mem, Bool.decide_eq_true, pollFields, List.append_assoc,
    List.cons_append, List.nil_append]
  rfl

theorem nodesAnswer_page (p : Part) {page : Nat} (h : 1 ≤ page) : nodesAnswer p page = nodePage (10 * (page - 1) + 1) p := by
  have hfilter : (p.fl.nodes.filter fun e => decide (10 * (page - 1) < e.1 ∧ e.1 ≤ 10 * page)) =
      p.fl.nodes.filter fun e => decide (10 * (page - 1) + 1 ≤ e.1) && decide (e.1 ≤ 10 * (page - 1) + 1 + 9) := by
    refine List.filter_congr fun e _ => ?_
    rw [Bool.eq_iff_iff]
    simp only [Bool.and_eq_true, decide_eq_true_eq]
    omega
  have hpage : ¬ page = 0 := by omega
  simp only [nodesAnswer, if_neg hpage, nodePage, hfilter, ifPresent_eq, counted_eq, oneOf_standing, oneOf_attemptFailure,
    ownerAnswer_eq]
  rfl

theorem readNodes_of_page (g : Store) (p : Part) {page : Nat} (h : page ≤ 3) :
    readNodes page g p = .ok (nodesAnswer p page) := by
  rcases Nat.eq_zero_or_pos page with rfl | hpos
  · rw [nodesAnswer_queue]; rfl
  · rw [nodesAnswer_page p hpos]
    interval_cases page <;> rfl

theorem readStatus_answered (g : Store) (p : Part) : readStatus g p = .ok (statusAnswer g p) := by
  simp only [readStatus, statusAnswer, allocFields, ifPresent_eq, setOrClear_eq, oneOf_allocKind, oneOf_mode, oneOf_startCause,
    List.append_assoc, List.cons_append, List.nil_append]
  rfl

/-! ### The reads as requests (R181) -/

/-- A read is served by an owner that reads the records and changes none, nor sees CL's places. -/
theorem read_served {s : State} {c : Instr} {kind tag : Nat} (h : requestHead c = some (kind, tag)) (hkind : 0x40 ≤ kind) :
    ∃ f, exec c s = .next (receive kind tag (byRead f) s) ∧ readAnswer s c = some (f s.store s.toPart) ∧
      f s.store (atOwner kind tag s) = f s.store s.toPart := by
  cases c
  case readPlant | readBed | readZone | readPour | readPiece | readSlot | readMoves | readCrane | readNodes | readStatus =>
    obtain ⟨rfl, rfl⟩ := Prod.mk.inj (Option.some.inj h)
    exact ⟨_, rfl, rfl, rfl⟩
  all_goals grind [requestHead]

/-- A read that may answer does, with the fields that its rules list. -/
theorem read_answers {s : State} {c : Instr} (h : readable s c) :
    ∃ fields, readAnswer s c = some (.ok fields) ∧ (referencesHold s → fields = answerOf s c) := by
  cases c
  case readPlant tag cls index => exact ⟨_, congrArg some (readPlant_of_readable h s.store s.toPart), fun _ => rfl⟩
  case readBed tag bed => exact ⟨_, congrArg some (readBed_of_id s.store s.toPart h.1 h.2), fun _ => rfl⟩
  case readZone tag bed zone => exact ⟨_, congrArg some (readZone_of_readable h), fun _ => rfl⟩
  case readPour tag n => exact ⟨_, congrArg some (readPour_of_readable h), fun _ => rfl⟩
  case readPiece tag mark => exact ⟨_, congrArg some (readPiece_of_readable h), fun _ => rfl⟩
  case readSlot tag slot =>
    refine ⟨_, congrArg some (need_of_true (by simpa [isId, readable] using h)), fun hrefs => ?_⟩
    have hanswer := readSlot_of_id s.store s.toPart h.1 h.2 hrefs.2.2.2.1
    rw [readSlot, need_of_true (by simpa [isId, readable] using h)] at hanswer
    exact Except.ok.inj hanswer
  case readMoves tag page => exact ⟨_, congrArg some (readMoves_of_page s.store s.toPart h), fun _ => rfl⟩
  case readCrane tag crane => exact ⟨_, congrArg some (readCrane_of_readable h), fun _ => rfl⟩
  case readNodes tag page => exact ⟨_, congrArg some (readNodes_of_page s.store s.toPart h), fun _ => rfl⟩
  case readStatus tag => exact ⟨_, congrArg some (readStatus_answered s.store s.toPart), fun _ => rfl⟩
  all_goals exact h.elim

/-- The reads of an identifier in its range whose record is free (R36, R115). -/
abbrev namesFree (c : Instr) (tag : Nat) : Prop :=
  (∃ n, c = .readPour tag n ∧ 1 ≤ n ∧ n ≤ 24) ∨ ∃ mark, c = .readPiece tag mark ∧ 1 ≤ mark ∧ mark ≤ 65535

theorem isId_eq_false {last n : Nat} (h : ¬ (1 ≤ n ∧ n ≤ last)) : ¬ isId last n = true := by
  simpa [isId] using h

theorem craneOfByte_eq_none {crane : Nat} (h : ¬ (crane = 0x41 ∨ crane = 0x42)) : craneOfByte crane = none := by
  refine Option.eq_none_iff_forall_ne_some.mpr fun c hc => h ?_
  exact (craneOfByte_eq_some_iff.mp hc).imp And.left And.left

/-- READ PLANT of an identifier out of its class's range (R181). -/
theorem readPlant_of_not_readable {s : State} {tag cls index : Nat} (h : ¬ readable s (.readPlant tag cls index)) :
    readPlant cls index s.store s.toPart = .error .range := by
  simp only [readable, not_or] at h
  obtain ⟨h0, h1, h2, h3, h4, h5, h6⟩ := h
  match cls with
  | 0 => exact absurd rfl h0
  | 1 => exact need_of_false (isId_eq_false fun hid => h1 ⟨rfl, hid⟩)
  | 2 => exact need_of_false (isId_eq_false fun hid => h2 ⟨rfl, hid⟩)
  | 3 => exact need_of_false (isId_eq_false fun hid => h3 ⟨rfl, hid⟩)
  | 4 => exact need_of_false (isId_eq_false fun hid => h4 ⟨rfl, hid⟩)
  | 5 =>
    have hnone : craneOfByte index = none := craneOfByte_eq_none fun hid => h5 ⟨rfl, hid⟩
    rw [readPlant, hnone, must_none]
  | 6 => exact need_of_false (isId_eq_false fun hid => h6 ⟨rfl, hid⟩)
  | n + 7 => rfl

/-- A read that may not answer is refused: with UNKNOWN of a free record, else with RANGE. -/
theorem read_refuses {s : State} {c : Instr} {kind tag : Nat} (hhead : requestHead c = some (kind, tag)) (hkind : 0x40 ≤ kind)
    (h : ¬ readable s c) :
    (namesFree c tag → readAnswer s c = some (.error .unknown)) ∧ (¬ namesFree c tag → readAnswer s c = some (.error .range)) := by
  cases c
  case readPlant _ cls index =>
    exact ⟨by simp, fun _ => congrArg some (readPlant_of_not_readable h)⟩
  case readBed _ bed => exact ⟨by simp, fun _ => congrArg some (need_of_false (isId_eq_false h))⟩
  case readZone _ bed zone =>
    refine ⟨by simp, fun _ => congrArg some ?_⟩
    simp only [readable, not_or] at h
    by_cases hbed : bed = 0
    · rw [readZone, if_pos hbed]
      exact need_of_false (isId_eq_false fun hid => h.1 ⟨hbed, hid⟩)
    · rw [readZone, if_neg hbed]
      by_cases hcfg : (isId 6 bed && (zoneCfg s.store bed zone).isSome) = true
      · have hrec : zoneRecord s.toPart bed zone = none := by
          simp [isId] at hcfg
          simpa [hcfg] using h.2
        rw [hrec, must_none, need_of_true hcfg]
      · exact need_of_false hcfg
  case readPour t n =>
    obtain ⟨-, rfl⟩ := Prod.mk.inj (Option.some.inj hhead)
    by_cases hid : 1 ≤ n ∧ n ≤ 24
    · have hnone : pourOf s.toPart n = none := by simpa [readable, hid] using h
      refine ⟨fun _ => ?_, fun hnot => absurd (.inl ⟨n, rfl, hid⟩) hnot⟩
      rw [readAnswer, readPour, need_of_true (by simpa [isId] using hid), hnone, must_none]
    · refine ⟨fun hfree => absurd hfree (by simpa using hid), fun _ => congrArg some (need_of_false (isId_eq_false hid))⟩
  case readPiece t mark =>
    obtain ⟨-, rfl⟩ := Prod.mk.inj (Option.some.inj hhead)
    by_cases hid : 1 ≤ mark ∧ mark ≤ 65535
    · have hnone : pieceOf s.toPart mark = none := by simpa [readable, hid] using h
      refine ⟨fun _ => ?_, fun hnot => absurd (.inr ⟨mark, rfl, hid⟩) hnot⟩
      rw [readAnswer, readPiece, need_of_true (by simpa [isId] using hid), hnone, must_none]
    · refine ⟨fun hfree => absurd hfree (by simpa using hid), fun _ => congrArg some (need_of_false (isId_eq_false hid))⟩
  case readSlot _ slot => exact ⟨by simp, fun _ => congrArg some (need_of_false (isId_eq_false h))⟩
  case readMoves _ page =>
    refine ⟨by simp, fun _ => ?_⟩
    obtain ⟨n, rfl⟩ := Nat.exists_eq_add_of_lt (Nat.lt_of_not_le h)
    rw [show 4 + n + 1 = n + 5 by omega]
    rfl
  case readCrane _ crane =>
    refine ⟨by simp, fun _ => ?_⟩
    rw [readAnswer, readCrane, craneOfByte_eq_none h, must_none]
  case readNodes _ page =>
    refine ⟨by simp, fun _ => ?_⟩
    obtain ⟨n, rfl⟩ := Nat.exists_eq_add_of_lt (Nat.lt_of_not_le h)
    rw [show 3 + n + 1 = n + 4 by omega]
    rfl
  case readStatus => exact absurd trivial h
  all_goals grind [requestHead]

/-- Settles O51: each read's owner judges the identifiers and spells the records by its rules; the request around it changes
CL's own records alone. -/
theorem readsAnswer : Obligations.ReadsAnswer := by
  intro s c kind tag hready hhead hkind
  obtain ⟨f, hexec, hanswer, hsame⟩ := read_served (s := s) hhead hkind
  have hrefused : ∀ st, readAnswer s c = some (.error st) → runsTo c s fun t => refusedWith s t kind tag st := by
    intro st hst
    have herror : f s.store (atOwner kind tag s) = .error st := by
      rw [hsame]; exact Option.some.inj (hanswer.symm.trans hst)
    exact ⟨_, hexec, refused hready (byRead_refuses herror)⟩
  refine ⟨fun hreads => ?_, fun hnot => ?_⟩
  · obtain ⟨fields, hfields, hspelt⟩ := read_answers hreads
    refine ⟨fields, hfields, hspelt, _, hexec, ?_⟩
    have hok : byRead f s.store (atOwner kind tag s) =
        { store := s.store, part := atOwner kind tag s, status := .ok, fields := fields, after := .nothing } := by
      rw [byRead, hsame, Option.some.inj (hanswer.symm.trans hfields)]
    obtain ⟨hbecomes, htold, hans⟩ := quiet hready hok rfl rfl
    exact ⟨hbecomes, hans, htold⟩
  · obtain ⟨hunknown, hrange⟩ := read_refuses hhead hkind hnot
    exact ⟨fun hfree => hrefused _ (hunknown hfree), fun hfree => hrefused _ (hrange hfree)⟩

end Sys2Proof.Proofs
end

section
/-!
PROOFS. A curing interval's expiry, stages 1 to 3 (sections 4.2, 4.3 and 4.5): records changed one by one, the zones' results
and resolutions, and the deviations reported.
-/

namespace Sys2Proof.Proofs

open Sys2Proof.Machine

/-! ### Records changed one by one -/

section records

variable {α : Type} {m : Map α}

theorem mapRecords_congr {f h : Nat → α → α} (hm : Map.rising m = true)
    (hfh : ∀ k v, Map.find m k = some v → f k v = h k v) : Map.mapRecords f m = Map.mapRecords h m :=
  List.map_congr_left fun e he => by rw [hfh e.1 e.2 ((find_eq_some_iff_mem hm).mpr he)]

theorem mapRecords_mapRecords (f h : Nat → α → α) (m : Map α) :
    Map.mapRecords f (Map.mapRecords h m) = Map.mapRecords (fun k v => f k (h k v)) m := by
  simp [Map.mapRecords, Function.comp_def]

/-- A record changed in place. -/
theorem put_eq_mapRecords {k : Nat} {v : α} (hm : Map.rising m = true) (hv : Map.find m k = some v) (f : Nat → α → α) :
    Map.put m k (f k v) = Map.mapRecords (fun j x => if j = k then f j x else x) m := by
  induction m with
  | nil => cases hv
  | cons e m ih =>
    obtain ⟨j, w⟩ := e
    have hpair := (Map.rising_iff _).mp hm
    simp only [Map.keys, List.map_cons, List.pairwise_cons] at hpair
    have htail : Map.rising m = true := (Map.rising_iff _).mpr hpair.2
    by_cases hj : j = k
    · subst hj
      obtain rfl : w = v := by simpa [Map.find] using hv
      have hrest : m.map (fun e => (e.1, if e.1 = j then f e.1 e.2 else e.2)) = m := by
        refine (List.map_congr_left fun e he => ?_).trans (List.map_id m)
        have : j < e.1 := hpair.1 _ (List.mem_map_of_mem he)
        rw [if_neg (by omega)]
        rfl
      simp [Map.put, Map.mapRecords, hrest]
    · have hlater : Map.find m k = some v := by simpa [Map.find, hj] using hv
      have : j < k := hpair.1 _ (mem_keys_of_find hlater)
      have hput : Map.put ((j, w) :: m) k (f k v) = (j, w) :: Map.put m k (f k v) := by
        rw [Map.put, if_neg (by omega), if_neg hj]
      rw [hput, ih htail hlater]
      simp [Map.mapRecords, hj]

theorem put_same (hm : Map.rising m = true) {k : Nat} {v : α} (hv : Map.find m k = some v) :
    Map.put m k v = m := by
  rw [put_eq_mapRecords hm hv fun _ _ => v]
  refine (mapRecords_congr (h := fun _ x => x) hm fun j x hx => ?_).trans (List.map_id _)
  split
  · next hj =>
    subst hj
    exact Option.some.inj (hv.symm.trans hx)
  · rfl

theorem mapRecords_of_absent {k : Nat} (hk : Map.find m k = none) (f : Nat → α → α) (hm : Map.rising m = true) :
    Map.mapRecords (fun j x => if j = k then f j x else x) m = m := by
  refine (mapRecords_congr (h := fun _ x => x) hm fun j x hx => ?_).trans (List.map_id m)
  rw [if_neg]
  rintro rfl
  rw [hx] at hk
  cases hk

/-- The record kept under a number changed in place, where there is one. -/
def changeAt (f : Nat → α → α) (m : Map α) (k : Nat) : Map α :=
  match Map.find m k with
  | none => m
  | some v => Map.put m k (f k v)

theorem changeAt_eq (hm : Map.rising m = true) (f : Nat → α → α) (k : Nat) :
    changeAt f m k = Map.mapRecords (fun j x => if j = k then f j x else x) m := by
  unfold changeAt
  split
  · next hk => exact (mapRecords_of_absent hk f hm).symm
  · next v hv => exact put_eq_mapRecords hm hv f

/-- Records changed one after another, each once. -/
theorem foldl_changeAt (f : Nat → α → α) : ∀ (l : List Nat) (m : Map α), l.Nodup → Map.rising m = true →
    l.foldl (changeAt f) m = Map.mapRecords (fun j x => if j ∈ l then f j x else x) m
  | [], m, _, _ => by simp [Map.mapRecords]
  | k :: l, m, hl, hm => by
    obtain ⟨hk, hl⟩ := List.nodup_cons.mp hl
    rw [List.foldl_cons, changeAt_eq hm, foldl_changeAt f l _ hl (Map.mapRecords_rising hm _), mapRecords_mapRecords]
    refine congrArg (fun f => Map.mapRecords f m) (funext fun j => funext fun x => ?_)
    by_cases hj : j = k
    · subst hj
      simp [hk]
    · simp [hj]

theorem foldl_changeAt_keys (hm : Map.rising m = true) (f : Nat → α → α) :
    (Map.keys m).foldl (changeAt f) m = Map.mapRecords f m := by
  rw [foldl_changeAt f _ m (keys_nodup hm) hm]
  exact mapRecords_congr hm fun k v hk => if_pos (mem_keys_of_find hk)

end records

/-! ### Zones changed one by one -/

/-- A context with every zone's record changed. -/
abbrev zonesMapped (h : Nat → ZoneCuring → ZoneCuring) (ctx : Context) : Context :=
  { ctx with zones := Map.mapRecords h ctx.zones }

/-- The contexts with one zone's record changed, by what its context is but for its zones. -/
def changeZoneAt (f : Nat → Context → Nat → ZoneCuring → ZoneCuring) (cs : Map Context) (bz : Nat × Nat) : Map Context :=
  changeAt (fun b ctx => { ctx with zones := changeAt (f b ctx) ctx.zones bz.2 }) cs bz.1

/-- The contexts and the zones of each are kept by rising numbers. -/
def risingContexts (cs : Map Context) : Prop := Map.rising cs = true ∧ ∀ b ctx, Map.find cs b = some ctx → Map.rising ctx.zones = true

theorem risingContexts_of_sound {p : Part} (h : curingSound p) : risingContexts p.cc.contexts :=
  ⟨h.1, fun _ _ hctx => (h.2 _ (Map.mem_of_find hctx)).1⟩

theorem risingContexts.mapped {cs : Map Context} (h : risingContexts cs) {F : Nat → Context → Context}
    (hF : ∀ b ctx, Map.keys (F b ctx).zones = Map.keys ctx.zones) : risingContexts (Map.mapRecords F cs) := by
  refine ⟨Map.mapRecords_rising h.1 F, fun b ctx hctx => ?_⟩
  rw [Map.find_mapRecords] at hctx
  obtain ⟨old, hold, rfl⟩ := Option.map_eq_some_iff.mp hctx
  rw [Map.rising_iff, hF, ← Map.rising_iff]
  exact h.2 b old hold

/-- What the change of a zone's record does not read of its context. -/
def readsNoZone (f : Nat → Context → Nat → ZoneCuring → ZoneCuring) : Prop :=
  ∀ b ctx zones, f b { ctx with zones := zones } = f b ctx

section zones

variable {f : Nat → Context → Nat → ZoneCuring → ZoneCuring} {cs : Map Context}

theorem changeZoneAt_eq (h : risingContexts cs) (bz : Nat × Nat) : changeZoneAt f cs bz =
    Map.mapRecords (fun b ctx => zonesMapped (fun z r => if (b, z) = bz then f b ctx z r else r) ctx) cs := by
  obtain ⟨bed, zone⟩ := bz
  rw [changeZoneAt, changeAt_eq h.1]
  refine mapRecords_congr h.1 fun b ctx hctx => ?_
  by_cases hb : b = bed
  · simp only [changeAt_eq (h.2 b ctx hctx), hb, Prod.mk.injEq, true_and, if_true]
  · have hsame : ctx.zones = Map.mapRecords (fun _ r => r) ctx.zones := (List.map_id' ctx.zones).symm
    simp only [Prod.mk.injEq, hb, false_and, if_false, zonesMapped, ← hsame]

theorem foldl_changeZoneAt (hblind : readsNoZone f) : ∀ (l : List (Nat × Nat)) (cs : Map Context), l.Nodup → risingContexts cs →
    l.foldl (changeZoneAt f) cs =
      Map.mapRecords (fun b ctx => zonesMapped (fun z r => if (b, z) ∈ l then f b ctx z r else r) ctx) cs
  | [], cs, _, _ => by simp [zonesMapped, Map.mapRecords]
  | bz :: l, cs, hl, h => by
    obtain ⟨hbz, hl⟩ := List.nodup_cons.mp hl
    rw [List.foldl_cons, changeZoneAt_eq h, foldl_changeZoneAt hblind l _ hl (h.mapped fun _ _ => by simp),
      mapRecords_mapRecords]
    refine congrArg (fun f => Map.mapRecords f cs) (funext fun b => funext fun ctx => ?_)
    simp only [zonesMapped, mapRecords_mapRecords]
    refine congrArg (fun h => { ctx with zones := Map.mapRecords h ctx.zones }) (funext fun z => funext fun r => ?_)
    by_cases hz : (b, z) = bz
    · simp [hz, hbz]
    · simp only [hz, if_false, List.mem_cons, false_or]
      split
      · exact congrFun (congrFun (hblind b ctx _) z) r
      · rfl

/-- Every zone of the contexts, ascending. -/
abbrev zonesIn (cs : Map Context) : List (Nat × Nat) := cs.flatMap fun c => c.2.zones.map fun z => (c.1, z.1)

theorem mem_zonesIn (h : risingContexts cs) {b z : Nat} :
    (b, z) ∈ zonesIn cs ↔ ∃ ctx, Map.find cs b = some ctx ∧ z ∈ Map.keys ctx.zones := by
  simp only [zonesIn, List.mem_flatMap, List.mem_map, Prod.mk.injEq, Map.keys]
  constructor
  · rintro ⟨⟨b', ctx⟩, hmem, e, he, rfl, rfl⟩
    exact ⟨ctx, (find_eq_some_iff_mem h.1).mpr hmem, e, he, rfl⟩
  · rintro ⟨ctx, hctx, e, he, rfl⟩
    exact ⟨(b, ctx), Map.mem_of_find hctx, e, he, rfl, rfl⟩

theorem zonesIn_nodup (h : risingContexts cs) : (zonesIn cs).Nodup := by
  refine List.nodup_flatMap.mpr ⟨fun c hc => ?_, ?_⟩
  · have hrising := h.2 c.1 c.2 ((find_eq_some_iff_mem h.1).mpr hc)
    refine List.Nodup.of_map Prod.snd ?_
    rw [List.map_map]
    exact keys_nodup hrising
  · refine (List.pairwise_map.mp (keys_nodup h.1)).imp fun {a b} hab => ?_
    intro x hxa hxb
    obtain ⟨y, -, rfl⟩ := List.mem_map.mp hxa
    obtain ⟨w, -, hw⟩ := List.mem_map.mp hxb
    exact hab (congrArg Prod.fst hw).symm

/-- Every zone's record changed, one after another. -/
theorem foldl_zonesIn (hblind : readsNoZone f) (h : risingContexts cs) :
    (zonesIn cs).foldl (changeZoneAt f) cs = Map.mapRecords (fun b ctx => zonesMapped (f b ctx) ctx) cs := by
  rw [foldl_changeZoneAt hblind _ _ (zonesIn_nodup h) h]
  refine mapRecords_congr h.1 fun b ctx hctx => ?_
  refine congrArg (fun zones => { ctx with zones := zones }) (mapRecords_congr (h.2 b ctx hctx) fun z r hr => if_pos ?_)
  exact (mem_zonesIn h).mpr ⟨ctx, hctx, mem_keys_of_find hr⟩

end zones

/-- A zone's record written is the contexts with it changed. -/
theorem contexts_updateZone {p : Part} (h : risingContexts p.cc.contexts) {bed zone : Nat} {f : ZoneCuring → ZoneCuring}
    {F : Nat → Context → Nat → ZoneCuring → ZoneCuring}
    (hF : ∀ ctx r, contextOf p bed = some ctx → Map.find ctx.zones zone = some r → f r = F bed ctx zone r) :
    (updateZone bed zone f p).cc.contexts = changeZoneAt F p.cc.contexts (bed, zone) := by
  unfold contextOf at hF
  unfold updateZone changeZoneAt changeAt contextOf
  cases hctx : Map.find p.cc.contexts bed with
  | none => rfl
  | some ctx =>
    cases hz : Map.find ctx.zones zone with
    | none => simp [hz, put_same h.1 hctx]
    | some r => simp [hz, putContext, hF ctx r hctx hz]

/-! ### Stage 1: temperatures (R44, R56) -/

/-- CC's record of a zone. -/
abbrev zoneIn (p : Part) (bed zone : Nat) : Option ZoneCuring := (contextOf p bed).bind fun ctx => Map.find ctx.zones zone

/-- A zone's record with the result of a forming. -/
abbrev formedWith (out : ZoneResult) (r : ZoneRecord) : ZoneRecord := { r with result := some out, resultAge := 0 }

/-- A forming's result reads of a zone its node and its stored values alone. -/
theorem zoneOutcome_congr {g : Store} {p q : Part} {limit bed zone : Nat} {k : ZoneRecord → ZoneRecord}
    (hrecord : zoneRecord q bed zone = (zoneRecord p bed zone).map k) (hk : ∀ r, ∃ result age,
      k r = { r with result := result, resultAge := age }) (hnodes : q.fl.nodes = p.fl.nodes) :
    zoneOutcome g q limit bed zone = zoneOutcome g p limit bed zone := by
  have hlost (a : Nat) : nodeLost q a = nodeLost p a := by simp only [nodeLost, nodeOf_congr hnodes]
  unfold zoneOutcome
  rw [hrecord]
  cases zoneRecord p bed zone with
  | none => rfl
  | some r =>
    obtain ⟨result, age, hr⟩ := hk r
    simp only [Option.map_some, hr, hlost]
    rfl

section stage1

variable {g : Store} {limit : Nat} {p : Part}

/-- What stage 1 makes of a zone's record. -/
abbrev resolvedRecord (g : Store) (limit : Nat) (p : Part) (bed zone : Nat) (r : ZoneCuring) : ZoneCuring :=
  (resolveZone g limit p bed zone r).2

/-- The part and the resolutions after the forming of the zones of a list, each once. -/
structure Formed (g : Store) (limit : Nat) (p : Part) (l : List (Nat × Nat)) (acc : Part × Map Resolved) : Prop where
  contexts : acc.1.cc.contexts = l.foldl (changeZoneAt fun b _ z r => resolvedRecord g limit p b z r) p.cc.contexts
  rest : acc.1.cc = { p.cc with contexts := acc.1.cc.contexts }
  zones : ∀ b z, z ≤ 4 → zoneRecord acc.1 b z =
    (zoneRecord p b z).map fun r => if (b, z) ∈ l then formedWith (zoneOutcome g p limit b z) r else r
  areas : acc.1.tu.areas = p.tu.areas
  nodes : acc.1.fl.nodes = p.fl.nodes
  found : ∀ b z, z ≤ 4 → Map.find acc.2 (zoneKey b z) =
    if (b, z) ∈ l then (zoneIn p b z).map fun r => (resolveZone g limit p b z r).1 else none

theorem formed_nil : Formed g limit p [] (p, []) := ⟨rfl, rfl, fun _ _ _ => by simp, rfl, rfl, fun _ _ _ => rfl⟩

theorem zoneKey_inj {b z b' z' : Nat} (hz : z ≤ 4) (hz' : z' ≤ 4) (h : zoneKey b z = zoneKey b' z') : (b, z) = (b', z') := by
  unfold zoneKey at h
  rw [Prod.mk.injEq]
  omega

theorem readsNoZone_const (f : Nat → Nat → ZoneCuring → ZoneCuring) : readsNoZone fun b _ z r => f b z r := fun _ _ _ => rfl

/-- A zone not formed yet is as it was. -/
theorem Formed.zoneIn_of_not_mem {l : List (Nat × Nat)} {acc : Part × Map Resolved} (h : Formed g limit p l acc)
    (hl : l.Nodup) (hp : risingContexts p.cc.contexts) {b z : Nat} (hbz : (b, z) ∉ l) :
    zoneIn acc.1 b z = zoneIn p b z := by
  unfold zoneIn contextOf
  rw [h.contexts, foldl_changeZoneAt (readsNoZone_const _) l _ hl hp, Map.find_mapRecords]
  cases Map.find p.cc.contexts b with
  | none => rfl
  | some ctx => simp [hbz]

theorem Formed.rising {l : List (Nat × Nat)} {acc : Part × Map Resolved} (h : Formed g limit p l acc)
    (hl : l.Nodup) (hp : risingContexts p.cc.contexts) : risingContexts acc.1.cc.contexts := by
  rw [h.contexts, foldl_changeZoneAt (readsNoZone_const _) l _ hl hp]
  exact hp.mapped fun _ _ => by simp

theorem Formed.outcome {l : List (Nat × Nat)} {acc : Part × Map Resolved} (h : Formed g limit p l acc) {b z : Nat} (hz : z ≤ 4) :
    zoneOutcome g acc.1 limit b z = zoneOutcome g p limit b z := by
  refine zoneOutcome_congr (h.zones b z hz) (fun r => ?_) h.nodes
  split
  · exact ⟨_, _, rfl⟩
  · exact ⟨r.result, r.resultAge, rfl⟩

theorem formZone_of_some {acc : Part × Map Resolved} {b z : Nat} {r : ZoneCuring} (hr : zoneIn acc.1 b z = some r) :
    formZone g limit acc (b, z) =
      (updateZone b z (fun _ => (resolveZone g limit acc.1 b z r).2)
        (storeZoneResult b z (zoneOutcome g acc.1 limit b z) acc.1),
       Map.put acc.2 (zoneKey b z) (resolveZone g limit acc.1 b z r).1) := by
  obtain ⟨ctx, hctx, hz⟩ := Option.bind_eq_some_iff.mp hr
  simp only [formZone, hctx, hz]

theorem storeZoneResult_spec (b z : Nat) (out : ZoneResult) (q : Part) :
    (storeZoneResult b z out q).cc = q.cc ∧ (storeZoneResult b z out q).fl = q.fl ∧
    (storeZoneResult b z out q).tu.areas = q.tu.areas ∧
    ∀ b' z', z ≤ 4 → z' ≤ 4 → zoneRecord (storeZoneResult b z out q) b' z' =
      (zoneRecord q b' z').map fun r => if (b', z') = (b, z) then formedWith out r else r := by
  unfold storeZoneResult
  cases hr : zoneRecord q b z with
  | none =>
    refine ⟨rfl, rfl, rfl, fun b' z' _ _ => ?_⟩
    by_cases hsame : (b', z') = (b, z)
    · obtain ⟨rfl, rfl⟩ := Prod.mk.inj hsame
      rw [hr, Option.map_none]
    · simp [hsame]
  | some r =>
    refine ⟨rfl, rfl, rfl, fun b' z' hz hz' => ?_⟩
    by_cases hsame : (b', z') = (b, z)
    · obtain ⟨rfl, rfl⟩ := Prod.mk.inj hsame
      rw [hr, Option.map_some, if_pos rfl]
      exact Map.find_put_same _ _ _
    · simp only [hsame, if_false, Option.map_id']
      exact Map.find_put_other _ _ _ _ fun h => hsame (zoneKey_inj hz' hz h)

theorem Formed.step {l : List (Nat × Nat)} {acc : Part × Map Resolved} (h : Formed g limit p l acc) (hl : l.Nodup)
    (hp : risingContexts p.cc.contexts) {b z : Nat} {r : ZoneCuring} (hz : z ≤ 4) (hbz : (b, z) ∉ l) (hr : zoneIn p b z = some r) :
    Formed g limit p (l ++ [(b, z)]) (formZone g limit acc (b, z)) := by
  have hacc : zoneIn acc.1 b z = some r := (h.zoneIn_of_not_mem hl hp hbz).trans hr
  have hresolve : resolveZone g limit acc.1 b z r = resolveZone g limit p b z r := by
    simp only [resolveZone, h.outcome hz]
  rw [formZone_of_some hacc, hresolve, h.outcome hz]
  obtain ⟨scc, sfl, sareas, szones⟩ := storeZoneResult_spec b z (zoneOutcome g p limit b z) acc.1
  obtain ⟨-, -, utu, -, -, -, -, ufl, -⟩ := updateZone_keeps b z (fun _ => (resolveZone g limit p b z r).2)
    (storeZoneResult b z (zoneOutcome g p limit b z) acc.1)
  refine ⟨?_, ?_, fun b' z' hz' => ?_, ?_, ?_, fun b' z' hz' => ?_⟩
  · rw [List.foldl_append, List.foldl_cons, List.foldl_nil, ← h.contexts, ← scc]
    refine contexts_updateZone (by rw [scc]; exact h.rising hl hp) fun ctx x hctx hx => ?_
    have : zoneIn acc.1 b z = some x := by
      rw [zoneIn, ← contextOf_congr scc, hctx]
      exact hx
    obtain rfl := Option.some.inj (hacc.symm.trans this)
    rfl
  · have : ∀ q : Part, (updateZone b z (fun _ => (resolveZone g limit p b z r).2) q).cc =
        { q.cc with contexts := (updateZone b z (fun _ => (resolveZone g limit p b z r).2) q).cc.contexts } := by
      intro q
      unfold updateZone
      split
      · rfl
      · split <;> rfl
    dsimp only
    rw [this, scc, h.rest]
  · have : zoneRecord (updateZone b z (fun _ => (resolveZone g limit p b z r).2)
        (storeZoneResult b z (zoneOutcome g p limit b z) acc.1)) b' z' =
          zoneRecord (storeZoneResult b z (zoneOutcome g p limit b z) acc.1) b' z' := by rw [zoneRecord, utu, zoneRecord]
    rw [this, szones b' z' hz hz', h.zones b' z' hz', Option.map_map]
    refine congrArg (fun k => (zoneRecord p b' z').map k) (funext fun x => ?_)
    by_cases hsame : (b', z') = (b, z)
    · obtain ⟨rfl, rfl⟩ := Prod.mk.inj hsame
      simp [hbz]
    · simp [hsame]
  · rw [utu, sareas, h.areas]
  · rw [ufl, sfl, h.nodes]
  · by_cases hsame : (b', z') = (b, z)
    · obtain ⟨rfl, rfl⟩ := Prod.mk.inj hsame
      simp [hr]
    · rw [Map.find_put_other _ _ _ _ fun hkey => hsame (zoneKey_inj hz' hz hkey), h.found b' z' hz']
      simp [hsame]

/-- Stage 1 forms every zone of every context. -/
theorem formed_stage1 (hp : curingSound p) : Formed g limit p (curedZones p) (stage1 g limit p) := by
  have hrising := risingContexts_of_sound hp
  have hall : ∀ bz ∈ curedZones p, bz.2 ≤ 4 ∧ ∃ r, zoneIn p bz.1 bz.2 = some r := by
    intro bz hbz
    obtain ⟨ctx, hctx, hz⟩ := (mem_zonesIn hrising (b := bz.1) (z := bz.2)).mp hbz
    obtain ⟨r, hr⟩ := Option.isSome_iff_exists.mp (find_isSome_of_mem_keys hz)
    refine ⟨((hp.2 _ (Map.mem_of_find hctx)).2 _ (Map.mem_of_find hr)).2, r, ?_⟩
    rw [zoneIn, contextOf, hctx]
    exact hr
  have hnodup : (curedZones p).Nodup := zonesIn_nodup hrising
  unfold stage1
  generalize curedZones p = l at hall hnodup
  induction l using List.reverseRecOn with
  | nil => exact formed_nil
  | append_singleton l bz ih =>
    rw [List.foldl_append, List.foldl_cons, List.foldl_nil]
    obtain ⟨hl, -, hdisjoint⟩ := List.nodup_append.mp hnodup
    obtain ⟨hz, r, hr⟩ := hall bz (by simp)
    exact (ih (fun x hx => hall x (List.mem_append_left _ hx)) hl).step hl hrising hz
      (fun hmem => hdisjoint _ hmem _ (List.mem_singleton.mpr rfl) rfl) hr

end stage1

/-! ### What a zone is resolved to (R56) -/

theorem resolve_temp (g : Store) (out : ZoneResult) (r : ZoneCuring) :
    (resolve g.plant.holdLastGood out r).1.temp = resolvedTo g out r := by
  cases out with
  | measured t basis => rfl
  | unmeasured reason =>
    unfold resolve resolvedTo keepsHeld
    cases hheld : r.held with
    | none => rfl
    | some t =>
      by_cases hkeep : (r.heldCount : Int) < g.plant.holdLastGood <;> simp [hkeep, measuredIn, Resolved.temp]

section stage1

variable {g : Store} {limit : Nat} {p : Part}

/-- TU's result for a zone that CC names. -/
abbrev outcomeOf (g : Store) (limit : Nat) (p : Part) (bed zone : Nat) : ZoneResult := zoneOutcome g p limit bed zone

theorem contexts_stage1 (hp : curingSound p) : (stage1 g limit p).1.cc = { p.cc with
    contexts := Map.mapRecords (fun b ctx => zonesMapped (resolvedRecord g limit p b) ctx) p.cc.contexts } := by
  have hformed := formed_stage1 (g := g) (limit := limit) hp
  rw [hformed.rest, hformed.contexts]
  exact congrArg (fun cs => { p.cc with contexts := cs })
    (foldl_zonesIn (readsNoZone_const _) (risingContexts_of_sound hp))

theorem mem_curedZones (hp : curingSound p) {b z : Nat} : (b, z) ∈ curedZones p ↔ (zoneIn p b z).isSome := by
  rw [show curedZones p = zonesIn p.cc.contexts from rfl, mem_zonesIn (risingContexts_of_sound hp)]
  unfold zoneIn contextOf
  cases Map.find p.cc.contexts b with
  | none => simp
  | some ctx =>
    simp only [Option.some.injEq, exists_eq_left', Option.bind_some]
    constructor
    · exact find_isSome_of_mem_keys
    · intro h
      obtain ⟨r, hr⟩ := Option.isSome_iff_exists.mp h
      exact mem_keys_of_find hr

theorem zone_le_four (hp : curingSound p) {b z : Nat} (h : (zoneIn p b z).isSome) : z ≤ 4 := by
  obtain ⟨r, hr⟩ := Option.isSome_iff_exists.mp h
  obtain ⟨ctx, hctx, hz⟩ := Option.bind_eq_some_iff.mp hr
  exact ((hp.2 _ (Map.mem_of_find hctx)).2 _ (Map.mem_of_find hz)).2

/-- What stage 1 tells the later stages of a zone that CC names. -/
theorem found_stage1 (hp : curingSound p) {b z : Nat} {r : ZoneCuring} (hr : zoneIn p b z = some r) :
    Map.find (stage1 g limit p).2 (zoneKey b z) = some (resolveZone g limit p b z r).1 := by
  have hsome : (zoneIn p b z).isSome := by rw [hr]; rfl
  rw [(formed_stage1 hp).found b z (zone_le_four hp hsome), if_pos ((mem_curedZones hp).mpr hsome), hr]
  rfl

theorem tempOf_stage1 (hp : curingSound p) {b z : Nat} {r : ZoneCuring} (hr : zoneIn p b z = some r) :
    tempOf (stage1 g limit p).2 b z = resolvedTo g (outcomeOf g limit p b z) r := by
  rw [tempOf, found_stage1 hp hr]
  exact resolve_temp g _ r

theorem measuredOf_stage1 (hp : curingSound p) {b z : Nat} {r : ZoneCuring} (hr : zoneIn p b z = some r) :
    measuredOf (stage1 g limit p).2 b z = measuredIn (outcomeOf g limit p b z) := by
  rw [measuredOf, found_stage1 hp hr, resolveZone, outcomeOf]
  cases zoneOutcome g p limit b z with
  | measured t basis => rfl
  | unmeasured reason =>
    unfold resolve
    cases r.held with
    | none => rfl
    | some t => by_cases hkeep : (r.heldCount : Int) < g.plant.holdLastGood <;> simp [hkeep, measuredIn]

theorem zoneRecord_stage1 (hp : curingSound p) {b z : Nat} (hz : z ≤ 4) :
    zoneRecord (stage1 g limit p).1 b z = (zoneRecord p b z).map fun r =>
      if (zoneIn p b z).isSome then formedWith (outcomeOf g limit p b z) r else r := by
  simp only [(formed_stage1 hp).zones b z hz, mem_curedZones hp]

end stage1

/-! ### Notices among those raised (R178) -/

/-- These notices, in this order, are among those raised between two records of CL. -/
def Tells (ns : List Notice) (k l : CommandLink) : Prop := ∃ all, ns.Sublist all ∧ l = all.foldl raiseLink k

theorem Tells.refl (k : CommandLink) : Tells [] k k := ⟨[], .slnil, rfl⟩

theorem Tells.of_raised {k l : CommandLink} (h : Raised k l) : Tells [] k l := by
  obtain ⟨ns, hns⟩ := h
  exact ⟨ns, List.nil_sublist ns, hns⟩

theorem Tells.raised {ns : List Notice} {k l : CommandLink} (h : Tells ns k l) : Raised k l := by
  obtain ⟨all, -, hall⟩ := h
  exact ⟨all, hall⟩

theorem Tells.trans {ns ms : List Notice} {j k l : CommandLink} (h : Tells ns j k) (h' : Tells ms k l) : Tells (ns ++ ms) j l := by
  obtain ⟨all, hsub, rfl⟩ := h
  obtain ⟨all', hsub', rfl⟩ := h'
  exact ⟨all ++ all', hsub.append hsub', by rw [List.foldl_append]⟩

/-- What is told of between further raises. -/
theorem Tells.between {ns : List Notice} {i j k l : CommandLink} (h : Tells ns j k) (hpre : Raised i j) (hpost : Raised k l) :
    Tells ns i l := by
  have := ((Tells.of_raised hpre).trans h).trans (Tells.of_raised hpost)
  simpa using this

/-- Where an event drops no notice, those among its notices are heard. -/
theorem Tells.unheard {s t : State} {p : Part} {ns : List Notice} {k : CommandLink} (h : Tells ns k p.cl)
    (hended : endedFrom s t p) (hk : sameNotices k s.cl) (hroom : s.cl.dropped < 65535) (hkept : t.cl.dropped = s.cl.dropped) :
    ns.Sublist (unheard t.cl) := by
  obtain ⟨all, hsub, hcl⟩ := h
  obtain ⟨ms, hunheard, hdropped, -⟩ := hended.told_more hcl hk
  have hfits : (all ++ ms).length ≤ 24 - s.cl.notices.length := by
    by_contra hover
    rw [if_neg hover, hkept] at hdropped
    omega
  rw [hunheard, List.take_of_length_le hfits]
  exact ((hsub.trans (List.sublist_append_left all ms)).trans (List.sublist_append_right _ _))

/-! ### Deviations reported (R34, R102) -/

/-- Whether the pour's review flag is set. -/
abbrev pourReviewed (p : Part) (n : Nat) : Bool := (pourOf p n).any (·.review)

/-- A piece after a span in which its pour may have come under review (R102). -/
abbrev heldSince (p q : Part) (x : Piece) : Piece :=
  if pourReviewed p x.pour = false ∧ pourReviewed q x.pour = true ∧ x.released = false ∧
    (x.condition = .curing ∨ x.condition = .shippable) then { x with condition := .held } else x

/-- What reports of deviations leave of BS and SM. -/
structure Reviewed (p q : Part) : Prop where
  beds : q.bs.beds = p.bs.beds
  seq : q.bs.seq = p.bs.seq
  states : ∀ n, (pourOf q n).map (·.state) = (pourOf p n).map (·.state)
  flags : ∀ n, pourReviewed p n = true → pourReviewed q n = true
  pieces : ∀ mark, pieceOf q mark = (pieceOf p mark).map (heldSince p q)
  raised : Raised p.cl q.cl

theorem heldSince_same {p q : Part} (h : q.bs = p.bs) (x : Piece) : heldSince p q x = x := by
  refine if_neg fun hheld => ?_
  obtain ⟨hbefore, hafter, -⟩ := hheld
  rw [pourReviewed, pourOf_congr h] at hafter
  exact Bool.false_ne_true (hbefore.symm.trans hafter)

theorem Reviewed.of_raised {p q : Part} (hbs : q.bs = p.bs) (hsm : q.sm.pieces = p.sm.pieces) (hcl : Raised p.cl q.cl) :
    Reviewed p q where
  beds := by rw [hbs]
  seq := by rw [hbs]
  states n := by rw [pourOf_congr hbs]
  flags n h := by rwa [pourReviewed, pourOf_congr hbs]
  pieces mark := by
    rw [pieceOf_congr hsm, funext (heldSince_same hbs)]
    exact Option.map_id'.symm
  raised := hcl

theorem Reviewed.of_same {p q : Part} (hbs : q.bs = p.bs) (hsm : q.sm.pieces = p.sm.pieces) (hcl : q.cl = p.cl) : Reviewed p q :=
  .of_raised hbs hsm (hcl ▸ .refl _)

theorem Reviewed.refl (p : Part) : Reviewed p p := .of_same rfl rfl rfl

theorem Reviewed.trans {o p q : Part} (h : Reviewed o p) (h' : Reviewed p q) : Reviewed o q where
  beds := h'.beds.trans h.beds
  seq := h'.seq.trans h.seq
  states n := (h'.states n).trans (h.states n)
  flags n hn := h'.flags n (h.flags n hn)
  raised := h.raised.trans h'.raised
  pieces mark := by
    rw [h'.pieces, h.pieces, Option.map_map]
    refine congrArg (fun k => (pieceOf o mark).map k) (funext fun x => ?_)
    have hop := h.flags x.pour
    have hpq := h'.flags x.pour
    simp only [Function.comp_apply, heldSince]
    by_cases hcaught : x.released = false ∧ (x.condition = .curing ∨ x.condition = .shippable)
    · cases ho : pourReviewed o x.pour <;> cases hp : pourReviewed p x.pour <;> cases hq : pourReviewed q x.pour <;>
        simp_all
    · simp [hcaught]

theorem deviationHeard_congr {p q : Part} (hbs : q.bs = p.bs) (bed n : Nat) : deviationHeard q bed n = deviationHeard p bed n := by
  rw [deviationHeard, deviationHeard, bedOf_congr hbs, pourOf_congr hbs]

section report

variable {g : Store} {bed n : Nat} {d : Deviation} {p : Part}

theorem reviewed_recordDeviation {r : Pour} (hr : pourOf p n = some r) : Reviewed p (recordDeviation g bed n d p) ∧
    pourReviewed (recordDeviation g bed n d p) n = (r.review || d.kind.isReview) := by
  have hsame : pourOf (recordDeviation g bed n d p) n = some (notedPour g d r) := pourOf_recordDeviation hr
  have hother (k : Nat) (hk : k ≠ n) : pourOf (recordDeviation g bed n d p) k = pourOf p k :=
    (pourOf_congr (recordDeviation_bs hr) k).trans (pourOf_putPour_other _ _ hk)
  have hreview : pourReviewed (recordDeviation g bed n d p) n = (r.review || d.kind.isReview) := by
    rw [pourReviewed, hsame]
    rfl
  have hbefore : pourReviewed p n = r.review := by rw [pourReviewed, hr]; rfl
  refine ⟨⟨?_, ?_, fun k => recordDeviation_pourState g bed n d p k, fun k hk => ?_, fun mark => ?_, ?_⟩, hreview⟩
  · rw [recordDeviation_bs hr]; rfl
  · rw [recordDeviation_bs hr]; rfl
  · by_cases hkn : k = n
    · subst hkn
      rw [hreview, ← hbefore, hk]
      rfl
    · rwa [pourReviewed, hother k hkn]
  · rw [pieceOf_recordDeviation hr]
    have hmap : (pieceOf p mark).map (heldSince p (recordDeviation g bed n d p)) =
        (pieceOf p mark).map fun x => if d.kind.isReview && !r.review then heldIfCaught n x else x := by
      refine congrArg (fun k => (pieceOf p mark).map k) (funext fun x => ?_)
      rw [heldSince]
      by_cases hx : x.pour = n
      · rw [hx, hreview, hbefore]
        unfold heldIfCaught
        cases r.review <;> cases d.kind.isReview <;> simp [caughtByReview_eq_true_iff, hx]
      · have : pourReviewed (recordDeviation g bed n d p) x.pour = pourReviewed p x.pour := by
          rw [pourReviewed, hother _ hx]
        rw [this]
        have hnot : heldIfCaught n x = x := if_neg fun h => hx (caughtByReview_eq_true_iff.mp h).1
        rw [hnot]
        cases pourReviewed p x.pour <;> simp
    rw [hmap]
    cases d.kind.isReview && !r.review
    · exact Option.map_id'.symm
    · rfl
  · exact ⟨[deviationNotice g bed n d r], recordDeviation_cl hr⟩

theorem reviewed_reportDeviation : Reviewed p (reportDeviation g bed n d p) ∧
    (pourReviewed (reportDeviation g bed n d p) = pourReviewed p ∨
      (d.kind.isReview = true ∧ ∀ k, k ≠ n → pourReviewed (reportDeviation g bed n d p) k = pourReviewed p k)) ∧
    (deviationHeard p bed n = true → (d.kind.isReview = true → pourReviewed (reportDeviation g bed n d p) n = true) ∧
      ∃ k, Tells [.deviation bed n d k] p.cl (reportDeviation g bed n d p).cl) := by
  rw [reportDeviation_eq]
  split
  · next hheard =>
    obtain ⟨-, hclosed⟩ := deviationHeard_iff.mp hheard
    obtain ⟨r, hr, -⟩ := Option.map_eq_some_iff.mp hclosed
    obtain ⟨hreviewed, hflag⟩ := reviewed_recordDeviation (g := g) (bed := bed) (d := d) hr
    have hother (k : Nat) (hk : k ≠ n) : pourReviewed (recordDeviation g bed n d p) k = pourReviewed p k := by
      rw [pourReviewed, pourOf_congr (recordDeviation_bs hr), pourOf_putPour_other _ _ hk]
    refine ⟨hreviewed, ?_, fun _ => ⟨fun hkind => by rw [hflag, hkind, Bool.or_true], _,
      [deviationNotice g bed n d r], .refl _, recordDeviation_cl hr⟩⟩
    by_cases hkind : d.kind.isReview = true
    · exact .inr ⟨hkind, hother⟩
    · refine .inl (funext fun k => ?_)
      by_cases hk : k = n
      · subst hk
        rw [hflag, Bool.eq_false_iff.mpr hkind, Bool.or_false, pourReviewed, hr]
        rfl
      · exact hother k hk
  · next hnot => exact ⟨.refl p, .inl rfl, fun h => absurd h hnot⟩

/-- Reports read and change nothing of CC. -/
theorem reportDeviation_withCC (cc : CuringController) :
    reportDeviation g bed n d { p with cc := cc } = { reportDeviation g bed n d p with cc := cc } := by
  have hpour : pourOf { p with cc := cc } n = pourOf p n := rfl
  have hbed : bedOf { p with cc := cc } bed = bedOf p bed := rfl
  have hraise (x : Notice) (q : Part) : raise x { q with cc := cc } = { raise x q with cc := cc } := by
    unfold raise
    split <;> rfl
  have hhold (q : Part) : reviewHold n { q with cc := cc } = { reviewHold n q with cc := cc } := by
    unfold reviewHold
    dsimp only
    split <;> rfl
  unfold reportDeviation recordDeviation
  rw [hpour, hbed]
  split
  · cases pourOf p n with
    | none => rfl
    | some r =>
      dsimp only
      rw [← hraise]
      refine congrArg _ ?_
      split
      · exact hhold (putPour n _ p)
      · rfl
  · rfl

end report

/-- The reports of a list, each with its bed and pour. -/
def reportAll (g : Store) (es : List (Nat × Nat × Deviation)) (p : Part) : Part :=
  es.foldl (fun p e => reportDeviation g e.1 e.2.1 e.2.2 p) p

theorem reportAll_append (g : Store) (es fs : List (Nat × Nat × Deviation)) (p : Part) :
    reportAll g (es ++ fs) p = reportAll g fs (reportAll g es p) := List.foldl_append

theorem reportAll_withCC (g : Store) (cc : CuringController) (es : List (Nat × Nat × Deviation)) (p : Part) :
    reportAll g es { p with cc := cc } = { reportAll g es p with cc := cc } := by
  induction es generalizing p with
  | nil => rfl
  | cons e es ih =>
    have hstep : reportAll g (e :: es) { p with cc := cc } =
        reportAll g es (reportDeviation g e.1 e.2.1 e.2.2 { p with cc := cc }) := rfl
    rw [hstep, reportDeviation_withCC, ih]
    rfl

theorem reviewed_reportAll (g : Store) (es : List (Nat × Nat × Deviation)) (p : Part) : Reviewed p (reportAll g es p) := by
  induction es generalizing p with
  | nil => exact .refl p
  | cons e es ih => exact reviewed_reportDeviation.1.trans (ih _)

theorem deviationHeard_reportAll (g : Store) (es : List (Nat × Nat × Deviation)) (p : Part) (bed n : Nat) :
    deviationHeard (reportAll g es p) bed n = deviationHeard p bed n := by
  induction es generalizing p with
  | nil => rfl
  | cons e es ih => exact (ih _).trans (deviationHeard_reportDeviation _ _ _ _ _ _ _)

/-- A pour comes under review by a report of a deviation to review. -/
theorem reviewed_by_report {g : Store} {es : List (Nat × Nat × Deviation)} {p : Part} {n : Nat}
    (h : pourReviewed (reportAll g es p) n = true) (hbefore : ¬ pourReviewed p n = true) :
    ∃ e ∈ es, e.2.1 = n ∧ e.2.2.kind.isReview = true := by
  induction es generalizing p with
  | nil => exact absurd h hbefore
  | cons e es ih =>
    obtain ⟨-, hflags, -⟩ := reviewed_reportDeviation (g := g) (bed := e.1) (n := e.2.1) (d := e.2.2) (p := p)
    by_cases hfirst : pourReviewed (reportDeviation g e.1 e.2.1 e.2.2 p) n = true
    · refine ⟨e, List.mem_cons_self, ?_⟩
      rcases hflags with hsame | ⟨hkind, hother⟩
      · rw [hsame] at hfirst
        exact absurd hfirst hbefore
      · refine ⟨?_, hkind⟩
        by_contra hne
        rw [hother n (Ne.symm hne)] at hfirst
        exact hbefore hfirst
    · obtain ⟨f, hf, hrest⟩ := ih h hfirst
      exact ⟨f, List.mem_cons_of_mem _ hf, hrest⟩

/-- A report that BS hears is told, and a deviation to review brings its pour under review. -/
theorem reportAll_heard {g : Store} {es : List (Nat × Nat × Deviation)} {p : Part} {e : Nat × Nat × Deviation} (he : e ∈ es)
    (hheard : deviationHeard p e.1 e.2.1 = true) :
    (e.2.2.kind.isReview = true → pourReviewed (reportAll g es p) e.2.1 = true) ∧
      ∃ k, Tells [.deviation e.1 e.2.1 e.2.2 k] p.cl (reportAll g es p).cl := by
  obtain ⟨before, after, rfl⟩ := List.append_of_mem he
  rw [reportAll_append]
  have hthere : deviationHeard (reportAll g before p) e.1 e.2.1 = true := by rwa [deviationHeard_reportAll]
  obtain ⟨-, -, hreport⟩ := reviewed_reportDeviation (g := g) (bed := e.1) (n := e.2.1) (d := e.2.2) (p := reportAll g before p)
  obtain ⟨hflag, k, htells⟩ := hreport hthere
  have hafter := reviewed_reportAll g after (reportDeviation g e.1 e.2.1 e.2.2 (reportAll g before p))
  exact ⟨fun hkind => hafter.flags _ (hflag hkind), k, htells.between (reviewed_reportAll g before p).raised hafter.raised⟩

/-! ### Stage 3: edges and lapses (R58, R62, R63) -/

section stage3

variable {g : Store} {rs : Map Resolved} {p : Part}

/-- What stage 3 makes of a zone's record. -/
abbrev edgedRecord (g : Store) (rs : Map Resolved) (b : Nat) (ctx : Context) (z : Nat) (r : ZoneCuring) : ZoneCuring :=
  zoneEdges (holdOf g ctx) g.plant.overtempMargin ctx.phase (tempOf rs b z) r

/-- What stage 3 reports of a zone. -/
abbrev edgeReports (g : Store) (rs : Map Resolved) (b : Nat) (ctx : Context) (z : Nat) (r : ZoneCuring) : List Deviation :=
  zoneReports (holdOf g ctx) g.plant.overtempMargin ctx.phase (curingMinutes ctx) z (tempOf rs b z) r

/-- What stage 3 reports of a zone, with its bed and pour; nothing of one that CC does not hold. -/
def zoneDue (g : Store) (rs : Map Resolved) (p : Part) (bz : Nat × Nat) : List (Nat × Nat × Deviation) :=
  (contextOf p bz.1).elim [] fun ctx => (Map.find ctx.zones bz.2).elim [] fun r =>
    (edgeReports g rs bz.1 ctx bz.2 r).map fun d => (bz.1, ctx.pour, d)

theorem mem_zoneDue {bz : Nat × Nat} {e : Nat × Nat × Deviation} : e ∈ zoneDue g rs p bz ↔
    ∃ ctx r, contextOf p bz.1 = some ctx ∧ Map.find ctx.zones bz.2 = some r ∧ e.1 = bz.1 ∧ e.2.1 = ctx.pour ∧
      e.2.2 ∈ edgeReports g rs bz.1 ctx bz.2 r := by
  obtain ⟨bed, n, d⟩ := e
  unfold zoneDue
  cases contextOf p bz.1 with
  | none => simp
  | some ctx =>
    rw [Option.elim_some]
    cases hr : Map.find ctx.zones bz.2 with
    | none => simp [hr]
    | some r => simp [hr, eq_comm, and_left_comm]

theorem readsNoZone_edged : readsNoZone (edgedRecord g rs) := fun _ _ _ => rfl

theorem updateZone_eq (bed zone : Nat) (f : ZoneCuring → ZoneCuring) (q : Part) :
    updateZone bed zone f q =
      { q with cc := { q.cc with contexts := (updateZone bed zone f q).cc.contexts } } := by
  unfold updateZone
  split
  · rfl
  · split <;> rfl

/-- A part that differs from another in CC alone differs so with CC's records set. -/
theorem withCC_of_eq {q r : Part} {cc : CuringController} (h : q = { r with cc := cc }) (cc' : CuringController) :
    { q with cc := cc' } = { r with cc := cc' } := by
  subst h
  rfl

/-- The part after the check of the zones of a list, each once: CC's edges written, and the reports made. -/
structure Checked (g : Store) (rs : Map Resolved) (p : Part) (l : List (Nat × Nat)) (q : Part) : Prop where
  cc : q.cc = { p.cc with contexts := l.foldl (changeZoneAt (edgedRecord g rs)) p.cc.contexts }
  rest : q = { reportAll g (l.flatMap (zoneDue g rs p)) p with cc := q.cc }

theorem Checked.step {l : List (Nat × Nat)} {q : Part} (h : Checked g rs p l q) (hl : l.Nodup)
    (hp : risingContexts p.cc.contexts) {b z : Nat} {ctx : Context} {r : ZoneCuring} (hbz : (b, z) ∉ l)
    (hctx : contextOf p b = some ctx) (hr : Map.find ctx.zones z = some r) :
    Checked g rs p (l ++ [(b, z)]) (checkZone g rs q (b, z)) := by
  have hcontexts : q.cc.contexts =
      Map.mapRecords (fun b ctx => zonesMapped (fun z r => if (b, z) ∈ l then edgedRecord g rs b ctx z r else r) ctx) p.cc.contexts := by
    rw [h.cc, ← foldl_changeZoneAt readsNoZone_edged l _ hl hp]
  have hrising : risingContexts q.cc.contexts := by
    rw [hcontexts]
    exact hp.mapped fun _ _ => by simp
  obtain ⟨now, hnow⟩ : ∃ now, now = zonesMapped (fun z r => if (b, z) ∈ l then edgedRecord g rs b ctx z r else r) ctx := ⟨_, rfl⟩
  have hq : contextOf q b = some now := by
    rw [contextOf, hcontexts, Map.find_mapRecords, show Map.find p.cc.contexts b = some ctx from hctx, hnow]
    rfl
  have hz : Map.find now.zones z = some r := by
    rw [hnow, Map.find_mapRecords, hr, Option.map_some, if_neg hbz]
  have hchecked : checkZone g rs q (b, z) = reportAll g (zoneDue g rs p (b, z))
      (updateZone b z (edgedRecord g rs b now z) q) := by
    simp only [checkZone, hq, hz, zoneDue, hctx, hr, Option.elim_some, reportAll, List.foldl_map]
    rw [hnow]
    rfl
  have hwritten : (updateZone b z (edgedRecord g rs b now z) q).cc.contexts =
      changeZoneAt (edgedRecord g rs) q.cc.contexts (b, z) :=
    contexts_updateZone hrising fun x y hx _ => by rw [Option.some.inj (hq.symm.trans hx)]
  have hcc : { q.cc with contexts := changeZoneAt (edgedRecord g rs) q.cc.contexts (b, z) } =
      { p.cc with contexts := (l ++ [(b, z)]).foldl (changeZoneAt (edgedRecord g rs)) p.cc.contexts } := by
    rw [h.cc, List.foldl_append]
    rfl
  have hupdated : updateZone b z (edgedRecord g rs b now z) q = { reportAll g (l.flatMap (zoneDue g rs p)) p with
      cc := { p.cc with contexts := (l ++ [(b, z)]).foldl (changeZoneAt (edgedRecord g rs)) p.cc.contexts } } := by
    rw [updateZone_eq, hwritten, hcc]
    exact withCC_of_eq h.rest _
  rw [hchecked, hupdated, reportAll_withCC]
  refine ⟨rfl, ?_⟩
  rw [List.flatMap_append, reportAll_append, List.flatMap_singleton]

/-- Stage 3: the zones' edges written, and the reports made in the order of the zones. -/
theorem stage3_eq (hp : risingContexts p.cc.contexts) : stage3 g rs p =
    { reportAll g ((curedZones p).flatMap (zoneDue g rs p)) p with
      cc := { p.cc with contexts := Map.mapRecords (fun b ctx => zonesMapped (edgedRecord g rs b ctx) ctx) p.cc.contexts } } := by
  have hall : ∀ bz ∈ curedZones p, ∃ ctx r, contextOf p bz.1 = some ctx ∧ Map.find ctx.zones bz.2 = some r := by
    intro bz hbz
    obtain ⟨ctx, hctx, hz⟩ := (mem_zonesIn hp (b := bz.1) (z := bz.2)).mp hbz
    obtain ⟨r, hr⟩ := Option.isSome_iff_exists.mp (find_isSome_of_mem_keys hz)
    exact ⟨ctx, r, hctx, hr⟩
  have checked : ∀ l : List (Nat × Nat), l.Nodup →
      (∀ bz ∈ l, ∃ ctx r, contextOf p bz.1 = some ctx ∧ Map.find ctx.zones bz.2 = some r) →
      Checked g rs p l (l.foldl (checkZone g rs) p) := by
    intro l
    induction l using List.reverseRecOn with
    | nil => exact fun _ _ => ⟨rfl, rfl⟩
    | append_singleton l bz ih =>
      intro hnodup hall
      rw [List.foldl_append, List.foldl_cons, List.foldl_nil]
      obtain ⟨hl, -, hdisjoint⟩ := List.nodup_append.mp hnodup
      obtain ⟨ctx, r, hctx, hr⟩ := hall bz (by simp)
      exact (ih hl fun x hx => hall x (List.mem_append_left _ hx)).step hl hp
        (fun hmem => hdisjoint _ hmem _ (List.mem_singleton.mpr rfl) rfl) hctx hr
  have hdone := checked (curedZones p) (zonesIn_nodup hp) hall
  have hcontexts : (curedZones p).foldl (changeZoneAt (edgedRecord g rs)) p.cc.contexts = _ := foldl_zonesIn readsNoZone_edged hp
  rw [stage3, hdone.rest, hdone.cc, hcontexts]

end stage3

end Sys2Proof.Proofs
end

section
/-!
PROOFS. A curing interval's expiry, stages 4 to 6 (sections 4.4 to 4.7): the phase step of every context, what it reports and
raises, and each zone's record with its demand, class and request.
-/

namespace Sys2Proof.Proofs

open Sys2Proof.Machine

/-! ### Stage 4 and a context's zones (R65, R70) -/

/-- A change of zones' records that leaves maturity and exclusion as they stand. -/
def keepsMaturity (h : Nat → ZoneCuring → ZoneCuring) : Prop := ∀ z r, (h z r).acc = r.acc ∧ (h z r).excluded = r.excluded

theorem included_mapped {h : Nat → ZoneCuring → ZoneCuring} (hkeep : keepsMaturity h) (ctx : Context) :
    included (zonesMapped h ctx) = (included ctx).map fun e => (e.1, h e.1 e.2) := by
  unfold included
  simp only [Map.mapRecords, List.filter_map]
  refine congrArg _ (List.filter_congr fun e _ => ?_)
  exact congrArg not (hkeep e.1 e.2).2

theorem bedMaturity_mapped {h : Nat → ZoneCuring → ZoneCuring} (hkeep : keepsMaturity h) (ctx : Context) :
    bedMaturity (zonesMapped h ctx) = bedMaturity ctx := by
  have hzones : ∀ c : Context, bedMaturity c = (leastNat ((included c).map fun z => reported z.2.acc)).getD 0 := fun _ => rfl
  rw [hzones, hzones, included_mapped hkeep, List.map_map]
  have hsame : ((fun z : Nat × ZoneCuring => reported z.2.acc) ∘ fun e : Nat × ZoneCuring => (e.1, h e.1 e.2)) =
      fun z => reported z.2.acc :=
    funext fun e => congrArg reported (hkeep e.1 e.2).1
  rw [hsame]

theorem keepsMaturity_noHeat : keepsMaturity fun _ r => noHeat r := fun _ _ => ⟨rfl, rfl⟩

section advance

variable {q : Product} {fresh : Int} {temps measured : List Int} {dt : Nat} {c d : Context}

/-- Two contexts that differ in their zones alone, of the same bed maturity. -/
structure Alike (c d : Context) : Prop where
  bare : d = { c with zones := d.zones }
  maturity : bedMaturity d = bedMaturity c

theorem Alike.repairSetpoint (h : Alike c d) (m : Int) :
    Alike (repairSetpoint q m c).1 (repairSetpoint q m d).1 ∧ (repairSetpoint q m d).2 = (repairSetpoint q m c).2 := by
  obtain ⟨hbare, hmaturity⟩ := h
  generalize hz : d.zones = zs at hbare
  subst hbare
  obtain ⟨pour, seq, product, phase, sp, remainder, elapsed, time, starved, count, fresh, pending, zones⟩ := c
  unfold Machine.repairSetpoint
  dsimp only
  cases phase <;> dsimp only
  case ramp => split <;> exact ⟨⟨rfl, hmaturity⟩, rfl⟩
  all_goals exact ⟨⟨rfl, hmaturity⟩, rfl⟩

theorem Alike.repaired (h : Alike c d) :
    Alike (repaired q measured c).1 (repaired q measured d).1 ∧ (repaired q measured d).2 = (repaired q measured c).2 := by
  have hpending : d.repairPending = c.repairPending := by rw [h.bare]
  rcases repaired_cases q measured c with ⟨hc, hrepaired⟩ | ⟨hc, hrepaired⟩ <;>
    rcases repaired_cases q measured d with ⟨hd, hrepaired'⟩ | ⟨hd, hrepaired'⟩ <;> rw [hpending] at hd
  · rw [hrepaired, hrepaired']
    exact ⟨h, rfl⟩
  · exact absurd hd hc
  · exact absurd hc hd
  · rw [hrepaired, hrepaired']
    exact h.repairSetpoint _

theorem Alike.phaseStep (h : Alike c d) : Alike (phaseStep q fresh temps dt c).1 (phaseStep q fresh temps dt d).1 ∧
    (phaseStep q fresh temps dt d).2 = (phaseStep q fresh temps dt c).2 := by
  obtain ⟨hbare, hmaturity⟩ := h
  generalize hz : d.zones = zs at hbare
  subst hbare
  obtain ⟨pour, seq, product, phase, sp, remainder, elapsed, time, starved, count, fresh, pending, zones⟩ := c
  unfold Machine.phaseStep
  dsimp only
  cases phase <;> dsimp only
  case preset =>
    unfold presetStep enterRamp
    dsimp only
    split
    · split <;> exact ⟨⟨rfl, hmaturity⟩, rfl⟩
    · exact ⟨⟨rfl, hmaturity⟩, rfl⟩
  case ramp =>
    split
    · exact ⟨⟨rfl, hmaturity⟩, rfl⟩
    · unfold rampStep
      dsimp only
      split
      · exact ⟨⟨rfl, hmaturity⟩, rfl⟩
      · split <;> exact ⟨⟨rfl, hmaturity⟩, rfl⟩
  case cool =>
    split
    · exact ⟨⟨rfl, hmaturity⟩, rfl⟩
    · unfold coolStep
      dsimp only
      split
      · refine ⟨⟨rfl, ?_⟩, ?_⟩
        · exact ((bedMaturity_mapped keepsMaturity_noHeat _).trans hmaturity).trans (bedMaturity_mapped keepsMaturity_noHeat _).symm
        · exact congrArg (fun m => [PhaseReport.coolEnded m]) hmaturity
      · exact ⟨⟨rfl, hmaturity⟩, rfl⟩
  all_goals exact ⟨⟨rfl, hmaturity⟩, rfl⟩

theorem Alike.releaseCheck (h : Alike c d) : Alike (releaseCheck q c).1 (releaseCheck q d).1 ∧
    (releaseCheck q d).2 = (releaseCheck q c).2 := by
  obtain ⟨hbare, hmaturity⟩ := h
  unfold Machine.releaseCheck
  have hphase : d.phase = c.phase := by rw [hbare]
  rw [hphase, hmaturity]
  split
  · refine ⟨⟨?_, hmaturity⟩, rfl⟩
    rw [hbare]
  · exact ⟨⟨hbare, hmaturity⟩, rfl⟩

/-- Stage 4 reads of a context's zones the bed maturity alone. -/
theorem Alike.advance (h : Alike c d) : Alike (advance q fresh temps measured dt c).1 (advance q fresh temps measured dt d).1 ∧
    (advance q fresh temps measured dt d).2 = (advance q fresh temps measured dt c).2 := by
  obtain ⟨first, hfirst⟩ := h.repaired (q := q) (measured := measured)
  obtain ⟨second, hsecond⟩ := first.phaseStep (q := q) (fresh := fresh) (temps := temps) (dt := dt)
  obtain ⟨third, hthird⟩ := second.releaseCheck (q := q)
  refine ⟨third, ?_⟩
  show _ ++ _ ++ _ = _ ++ _ ++ _
  exact congrArg₂ (· ++ ·) (congrArg₂ (· ++ ·) hfirst hsecond) hthird

end advance

/-! ### What stage 4 changes of a context, and what it reports (R65 to R70) -/

section advance

variable {q : Product} {fresh : Int} {temps measured : List Int} {dt : Nat} {c d e : Context}

/-- A context after steps of stage 4: its phase, setpoint, remainder, preset time, repair bit and zones may have changed. -/
structure Stepped (c d : Context) : Prop where
  keeps : d = { c with phase := d.phase, sp := d.sp, remainder := d.remainder, presetElapsed := d.presetElapsed,
                       repairPending := d.repairPending, zones := d.zones }

theorem Stepped.trans (h : Stepped c d) (h' : Stepped d e) : Stepped c e := by
  refine ⟨?_⟩
  have hd := h.keeps
  have he := h'.keeps
  rw [hd] at he
  exact he

/-- These reports are of phases. -/
def onlyPhases (l : List PhaseReport) : Prop := ∃ phases : List Phase, l = phases.map .phase

theorem onlyPhases_nil : onlyPhases [] := ⟨[], rfl⟩

theorem onlyPhases.append {l m : List PhaseReport} (h : onlyPhases l) (h' : onlyPhases m) : onlyPhases (l ++ m) := by
  obtain ⟨phases, rfl⟩ := h
  obtain ⟨phases', rfl⟩ := h'
  exact ⟨phases ++ phases', by rw [List.map_append]⟩

theorem stepped_repaired : Stepped c (repaired q measured c).1 ∧ (repaired q measured c).1.zones = c.zones ∧
    onlyPhases (repaired q measured c).2 := by
  rcases repaired_cases q measured c with ⟨-, h⟩ | ⟨-, h⟩ <;> rw [h]
  · exact ⟨⟨rfl⟩, rfl, onlyPhases_nil⟩
  · unfold repairSetpoint
    split
    · dsimp only
      split
      · exact ⟨⟨rfl⟩, rfl, [.hold], rfl⟩
      · exact ⟨⟨rfl⟩, rfl, onlyPhases_nil⟩
    · exact ⟨⟨rfl⟩, rfl, onlyPhases_nil⟩
    · exact ⟨⟨rfl⟩, rfl, onlyPhases_nil⟩

theorem stepped_releaseCheck : Stepped c (releaseCheck q c).1 ∧ (releaseCheck q c).1.zones = c.zones ∧
    onlyPhases (releaseCheck q c).2 ∧ (c.phase = .finished → (releaseCheck q c).2 = []) := by
  unfold releaseCheck
  split
  · next h => exact ⟨⟨rfl⟩, rfl, ⟨[.cool], rfl⟩, fun hphase => by rcases h.1 with h | h <;> rw [hphase] at h <;> cases h⟩
  · exact ⟨⟨rfl⟩, rfl, onlyPhases_nil, fun _ => rfl⟩

/-- Whether the step ends COOL. -/
abbrev endsCool (c d : Context) : Prop := c.phase = .cool ∧ d.phase = .finished

theorem stepped_phaseStep : Stepped c (phaseStep q fresh temps dt c).1 ∧
    ((¬ endsCool c (phaseStep q fresh temps dt c).1 ∧ (phaseStep q fresh temps dt c).1.zones = c.zones ∧
        onlyPhases (phaseStep q fresh temps dt c).2) ∨
      (endsCool c (phaseStep q fresh temps dt c).1 ∧
        (phaseStep q fresh temps dt c).1.zones = Map.mapRecords (fun _ r => noHeat r) c.zones ∧
        (phaseStep q fresh temps dt c).2 = [.coolEnded (bedMaturity c)])) := by
  unfold phaseStep
  split
  · next hphase =>
    have hnot (x : Context) : ¬ endsCool c x := fun h => by rw [endsCool, hphase] at h; exact nomatch h.1
    unfold presetStep enterRamp
    dsimp only
    split
    · split
      · exact ⟨⟨rfl⟩, .inl ⟨hnot _, rfl, [.ramp, .hold], rfl⟩⟩
      · exact ⟨⟨rfl⟩, .inl ⟨hnot _, rfl, [.ramp], rfl⟩⟩
    · exact ⟨⟨rfl⟩, .inl ⟨hnot _, rfl, onlyPhases_nil⟩⟩
  · next hphase =>
    have hnot (x : Context) : ¬ endsCool c x := fun h => by rw [endsCool, hphase] at h; exact nomatch h.1
    split
    · exact ⟨⟨rfl⟩, .inl ⟨hnot _, rfl, onlyPhases_nil⟩⟩
    · unfold rampStep
      dsimp only
      split
      · exact ⟨⟨rfl⟩, .inl ⟨hnot _, rfl, onlyPhases_nil⟩⟩
      · split
        · exact ⟨⟨rfl⟩, .inl ⟨hnot _, rfl, [.hold], rfl⟩⟩
        · exact ⟨⟨rfl⟩, .inl ⟨hnot _, rfl, onlyPhases_nil⟩⟩
  · next hphase =>
    have hnot {x : Context} (h : x.phase = c.phase) : ¬ endsCool c x := fun hx => by
      rw [endsCool, h, hphase] at hx
      exact nomatch hx.2
    split
    · exact ⟨⟨rfl⟩, .inl ⟨hnot rfl, rfl, onlyPhases_nil⟩⟩
    · unfold coolStep
      dsimp only
      split
      · exact ⟨⟨rfl⟩, .inr ⟨⟨hphase, rfl⟩, rfl, rfl⟩⟩
      · exact ⟨⟨rfl⟩, .inl ⟨hnot rfl, rfl, onlyPhases_nil⟩⟩
  · next hcool => exact ⟨⟨rfl⟩, .inl ⟨fun h => hcool h.1, rfl, onlyPhases_nil⟩⟩

/-- Stage 4 of a context: no heat is left to the zones of a bed whose COOL ends, and the end of COOL is reported last, with the
bed maturity. -/
theorem advance_spec : Stepped c (advance q fresh temps measured dt c).1 ∧
    ((¬ endsCool c (advance q fresh temps measured dt c).1 ∧ (advance q fresh temps measured dt c).1.zones = c.zones ∧
        onlyPhases (advance q fresh temps measured dt c).2) ∨
      (endsCool c (advance q fresh temps measured dt c).1 ∧
        (advance q fresh temps measured dt c).1.zones = Map.mapRecords (fun _ r => noHeat r) c.zones ∧
        ∃ l, onlyPhases l ∧ (advance q fresh temps measured dt c).2 = l ++ [.coolEnded (bedMaturity c)])) := by
  obtain ⟨x, l, hr⟩ : ∃ x l, repaired q measured c = (x, l) := ⟨_, _, rfl⟩
  obtain ⟨y, m, hs⟩ : ∃ y m, phaseStep q fresh temps dt x = (y, m) := ⟨_, _, rfl⟩
  obtain ⟨first, hzones, hl⟩ := stepped_repaired (q := q) (measured := measured) (c := c)
  obtain ⟨second, hstep⟩ := stepped_phaseStep (q := q) (fresh := fresh) (temps := temps) (dt := dt) (c := x)
  obtain ⟨third, hzones', hn, hfinished⟩ := stepped_releaseCheck (q := q) (c := y)
  obtain ⟨-, hcool, -⟩ := phase_repaired (q := q) (measured := measured) (ctx := c)
  obtain ⟨hphase, -⟩ := phase_releaseCheck (q := q) (c := y)
  rw [hr] at first hzones hl hcool
  rw [hs] at second hstep
  rw [advance_of_steps hr hs]
  dsimp only at *
  have hends : endsCool c (releaseCheck q y).1 ↔ endsCool x y := and_congr hcool.symm hphase
  refine ⟨(first.trans second).trans third, ?_⟩
  rcases hstep with ⟨hnot, hy, hm⟩ | ⟨hended, hy, hm⟩
  · exact .inl ⟨mt hends.mp hnot, hzones'.trans (hy.trans hzones), (hl.append hm).append hn⟩
  · have hmaturity : bedMaturity x = bedMaturity c := by rw [bedMaturity, hzones, bedMaturity]
    refine .inr ⟨hends.mpr hended, hzones'.trans (hy.trans (by rw [hzones])), l, hl, ?_⟩
    rw [hm, hfinished hended.2, List.append_nil, hmaturity]

end advance

/-! ### The reports of phases (R27, R65) -/

/-- The notice of a report about a bed that is CURING. -/
def phaseNotice (bed n : Nat) : PhaseReport → Notice
  | .phase ph => .phase bed n ph
  | .coolEnded m => .bedReady bed n m

/-- The reports of a list, each with its bed and pour. -/
def takeAll (es : List (Nat × Nat × PhaseReport)) (p : Part) : Part :=
  es.foldl (fun p e => takePhaseReport e.1 e.2.1 p e.2.2) p

theorem takeAll_append (es fs : List (Nat × Nat × PhaseReport)) (p : Part) :
    takeAll (es ++ fs) p = takeAll fs (takeAll es p) := List.foldl_append

theorem takeAll_cons (e : Nat × Nat × PhaseReport) (es : List (Nat × Nat × PhaseReport)) (p : Part) :
    takeAll (e :: es) p = takeAll es (takePhaseReport e.1 e.2.1 p e.2.2) := rfl

theorem takePhaseReport_withCC (cc : CuringController) (bed n : Nat) (p : Part) (r : PhaseReport) :
    takePhaseReport bed n { p with cc := cc } r = { takePhaseReport bed n p r with cc := cc } := by
  have hbed : bedOf { p with cc := cc } bed = bedOf p bed := rfl
  have hraise (x : Notice) (q : Part) : raise x { q with cc := cc } = { raise x q with cc := cc } := by
    unfold raise
    split <;> rfl
  unfold takePhaseReport
  rw [hbed]
  split
  · cases r with
    | phase ph => exact hraise _ _
    | coolEnded m => exact hraise _ (putBed bed _ p)
  · rfl

theorem takeAll_withCC (cc : CuringController) (es : List (Nat × Nat × PhaseReport)) (p : Part) :
    takeAll es { p with cc := cc } = { takeAll es p with cc := cc } := by
  induction es generalizing p with
  | nil => rfl
  | cons e es ih => rw [takeAll_cons, takePhaseReport_withCC, ih, takeAll_cons]

/-- What a report of a phase leaves of BS: the pours, and of the beds all but the state of its own. -/
theorem takePhaseReport_spec (bed n : Nat) (p : Part) (r : PhaseReport) :
    (takePhaseReport bed n p r).bs.pours = p.bs.pours ∧ (takePhaseReport bed n p r).bs.seq = p.bs.seq ∧
    (∀ b, b ≠ bed → bedOf (takePhaseReport bed n p r) b = bedOf p b) ∧ Raised p.cl (takePhaseReport bed n p r).cl ∧
    ((bedOf p bed).state ≠ .curing → takePhaseReport bed n p r = p) ∧
    ((bedOf p bed).state = .curing → (takePhaseReport bed n p r).cl = raiseLink p.cl (phaseNotice bed n r) ∧
      bedOf (takePhaseReport bed n p r) bed = { bedOf p bed with
        state := match r with
          | .phase _ => .curing
          | .coolEnded _ => .ready }) := by
  unfold takePhaseReport
  split
  · next hcuring =>
    cases r with
    | phase ph =>
      refine ⟨by simp, by simp, fun b _ => bedOf_congr (by simp) b, ⟨[_], raise_cl _ _⟩, fun h => absurd hcuring h,
        fun _ => ⟨raise_cl _ _, ?_⟩⟩
      rw [bedOf_congr (q := raise (.phase bed n ph) p) (p := p) (by simp)]
      dsimp only
      rw [← hcuring]
    | coolEnded m =>
      have hput (b : Nat) : bedOf (raise (.bedReady bed n m) (putBed bed { bedOf p bed with state := .ready } p)) b =
          bedOf (putBed bed { bedOf p bed with state := .ready } p) b := bedOf_congr (by simp) b
      refine ⟨by simp [putBed], by simp [putBed], fun b hb => ?_, ⟨[_], raise_cl _ _⟩, fun h => absurd hcuring h,
        fun _ => ⟨raise_cl _ _, ?_⟩⟩
      · rw [hput]
        simp [bedOf, putBed, hb]
      · rw [hput]
        simp [bedOf, putBed]
  · next hnot => exact ⟨rfl, rfl, fun _ _ => rfl, .refl _, fun _ => rfl, fun h => absurd h hnot⟩

theorem takeAll_keeps (es : List (Nat × Nat × PhaseReport)) (p : Part) :
    (takeAll es p).bs.pours = p.bs.pours ∧ (takeAll es p).bs.seq = p.bs.seq ∧ Raised p.cl (takeAll es p).cl ∧
    ∀ b, (∀ e ∈ es, e.1 ≠ b) → bedOf (takeAll es p) b = bedOf p b := by
  induction es generalizing p with
  | nil => exact ⟨rfl, rfl, .refl _, fun _ _ => rfl⟩
  | cons e es ih =>
    obtain ⟨hpours, hseq, hother, hraised, -⟩ := takePhaseReport_spec e.1 e.2.1 p e.2.2
    obtain ⟨hpours', hseq', hraised', hother'⟩ := ih (takePhaseReport e.1 e.2.1 p e.2.2)
    refine ⟨hpours'.trans hpours, hseq'.trans hseq, hraised.trans hraised', fun b hb => ?_⟩
    rw [takeAll_cons, hother' b fun f hf => hb f (List.mem_cons_of_mem _ hf)]
    exact hother b (hb e List.mem_cons_self).symm

/-- One bed's reports: of phases, each told, and the end of COOL at their end, which makes the bed READY. -/
theorem takeAll_phases {bed n : Nat} {l : List PhaseReport} (hl : onlyPhases l) {p : Part} (hcuring : (bedOf p bed).state = .curing) :
    (takeAll (l.map fun r => (bed, n, r)) p).cl = (l.map (phaseNotice bed n)).foldl raiseLink p.cl ∧
    bedOf (takeAll (l.map fun r => (bed, n, r)) p) bed = bedOf p bed := by
  obtain ⟨phases, rfl⟩ := hl
  induction phases generalizing p with
  | nil => exact ⟨rfl, rfl⟩
  | cons ph phases ih =>
    obtain ⟨-, -, -, -, -, htaken⟩ := takePhaseReport_spec bed n p (.phase ph)
    obtain ⟨hcl, hbed⟩ := htaken hcuring
    have hstate : bedOf (takePhaseReport bed n p (.phase ph)) bed = bedOf p bed := by
      rw [hbed]
      dsimp only
      rw [← hcuring]
    obtain ⟨hcl', hbed'⟩ := ih (p := takePhaseReport bed n p (.phase ph)) (by rw [hstate, hcuring])
    rw [List.map_cons, List.map_cons, takeAll_cons]
    refine ⟨hcl'.trans ?_, hbed'.trans hstate⟩
    rw [hcl, List.map_cons, List.foldl_cons]

theorem takeAll_of_not_curing {bed n : Nat} (l : List PhaseReport) {p : Part} (hstate : (bedOf p bed).state ≠ .curing) :
    takeAll (l.map fun r => (bed, n, r)) p = p := by
  induction l with
  | nil => rfl
  | cons r l ih =>
    obtain ⟨-, -, -, -, hsame, -⟩ := takePhaseReport_spec bed n p r
    rw [List.map_cons, takeAll_cons, hsame hstate, ih]

/-! ### Contexts served bed after bed -/

/-- How reports are taken: one after another, and CC's records apart. -/
structure Taken {ε : Type} (take : List ε → Part → Part) : Prop where
  nil : ∀ p, take [] p = p
  append : ∀ l m p, take (l ++ m) p = take m (take l p)
  apart : ∀ cc l p, take l { p with cc := cc } = { take l p with cc := cc }

section served

variable {ε : Type} {take : List ε → Part → Part} {f : Nat → Context → Context} {due : Nat → Context → List ε}
  {serve : Part → Nat → Part} {p : Part}

/-- The part after the beds of a list, each once. -/
structure ServedBeds (take : List ε → Part → Part) (f : Nat → Context → Context) (due : Nat → Context → List ε) (p : Part)
    (l : List Nat) (q : Part) : Prop where
  cc : q.cc = { p.cc with contexts := l.foldl (changeAt f) p.cc.contexts }
  rest : q = { take (l.flatMap fun b => (contextOf p b).elim [] (due b)) p with cc := q.cc }

theorem ServedBeds.step {l : List Nat} {q : Part} (h : ServedBeds take f due p l q) (htake : Taken take)
    (hserve : ∀ q b ctx, Map.rising q.cc.contexts = true → contextOf q b = some ctx →
      serve q b = take (due b ctx) (putContext b (f b ctx) q))
    (hl : l.Nodup) (hp : Map.rising p.cc.contexts = true) {b : Nat} {ctx : Context} (hb : b ∉ l)
    (hctx : contextOf p b = some ctx) : ServedBeds take f due p (l ++ [b]) (serve q b) := by
  have hcontexts : q.cc.contexts = Map.mapRecords (fun b ctx => if b ∈ l then f b ctx else ctx) p.cc.contexts := by
    rw [h.cc, ← foldl_changeAt _ l _ hl hp]
  have hrising : Map.rising q.cc.contexts = true := by
    rw [hcontexts]
    exact Map.mapRecords_rising hp _
  have hq : contextOf q b = some ctx := by
    rw [contextOf, hcontexts, Map.find_mapRecords, show Map.find p.cc.contexts b = some ctx from hctx, Option.map_some,
      if_neg hb]
  have hwritten : putContext b (f b ctx) q = { q with cc := { q.cc with contexts := changeAt f q.cc.contexts b } } := by
    rw [changeAt, show Map.find q.cc.contexts b = some ctx from hq]
    rfl
  have hcc : { q.cc with contexts := changeAt f q.cc.contexts b } =
      { p.cc with contexts := (l ++ [b]).foldl (changeAt f) p.cc.contexts } := by
    rw [h.cc, List.foldl_append]
    rfl
  have hput : putContext b (f b ctx) q = { take (l.flatMap fun b => (contextOf p b).elim [] (due b)) p with
      cc := { p.cc with contexts := (l ++ [b]).foldl (changeAt f) p.cc.contexts } } := by
    rw [hwritten, hcc]
    exact withCC_of_eq h.rest _
  rw [hserve q b ctx hrising hq, hput, htake.apart]
  refine ⟨rfl, ?_⟩
  rw [List.flatMap_append, htake.append, List.flatMap_singleton, hctx, Option.elim_some]

/-- Every context served once, in the order of the beds: each changed by itself, and its reports taken. -/
theorem foldl_contexts (htake : Taken take)
    (hserve : ∀ q b ctx, Map.rising q.cc.contexts = true → contextOf q b = some ctx →
      serve q b = take (due b ctx) (putContext b (f b ctx) q))
    (hp : Map.rising p.cc.contexts = true) : (Map.keys p.cc.contexts).foldl serve p =
      { take ((Map.keys p.cc.contexts).flatMap fun b => (contextOf p b).elim [] (due b)) p with
        cc := { p.cc with contexts := Map.mapRecords f p.cc.contexts } } := by
  have served : ∀ l : List Nat, l.Nodup → (∀ b ∈ l, ∃ ctx, contextOf p b = some ctx) →
      ServedBeds take f due p l (l.foldl serve p) := by
    intro l
    induction l using List.reverseRecOn with
    | nil => exact fun _ _ => ⟨rfl, by rw [List.foldl_nil, List.flatMap_nil, htake.nil]⟩
    | append_singleton l b ih =>
      intro hnodup hall
      rw [List.foldl_append, List.foldl_cons, List.foldl_nil]
      obtain ⟨hl, -, hdisjoint⟩ := List.nodup_append.mp hnodup
      obtain ⟨ctx, hctx⟩ := hall b (by simp)
      exact (ih hl fun x hx => hall x (List.mem_append_left _ hx)).step htake hserve hl hp
        (fun hmem => hdisjoint _ hmem _ (List.mem_singleton.mpr rfl) rfl) hctx
  have hdone := served (Map.keys p.cc.contexts) (keys_nodup hp) fun b hb =>
    Option.isSome_iff_exists.mp (find_isSome_of_mem_keys hb)
  rw [hdone.rest, hdone.cc, foldl_changeAt_keys hp]

end served

/-! ### Stage 4, bed after bed (R65) -/

section stage4

variable {g : Store} {rs : Map Resolved} {dt : Nat} {p : Part}

/-- What stage 4 makes of a context, and reports of it. -/
def stage4Of (g : Store) (rs : Map Resolved) (dt : Nat) (b : Nat) (ctx : Context) : Context × List PhaseReport :=
  (product g ctx.product).elim (ctx, []) fun q =>
    advance q g.plant.minimumFresh (includedTemps rs b ctx) (includedMeasured rs b ctx) (deltaFor dt ctx) ctx

theorem stage4Of_of_some {b : Nat} {ctx : Context} {q : Product} (hq : product g ctx.product = some q) :
    stage4Of g rs dt b ctx =
      advance q g.plant.minimumFresh (includedTemps rs b ctx) (includedMeasured rs b ctx) (deltaFor dt ctx) ctx := by
  rw [stage4Of, hq]
  rfl

theorem stage4Of_of_none {b : Nat} {ctx : Context} (hq : product g ctx.product = none) :
    stage4Of g rs dt b ctx = (ctx, []) := by
  rw [stage4Of, hq]
  rfl

/-- What stage 4 reports of a bed, with its pour. -/
def phaseDue (g : Store) (rs : Map Resolved) (dt : Nat) (p : Part) (b : Nat) : List (Nat × Nat × PhaseReport) :=
  (contextOf p b).elim [] fun ctx => (stage4Of g rs dt b ctx).2.map fun r => (b, ctx.pour, r)

theorem phaseDue_bed {b : Nat} {e : Nat × Nat × PhaseReport} (he : e ∈ phaseDue g rs dt p b) : e.1 = b := by
  unfold phaseDue at he
  cases hctx : contextOf p b with
  | none => rw [hctx] at he; exact absurd he List.not_mem_nil
  | some ctx =>
    rw [hctx, Option.elim_some] at he
    obtain ⟨r, -, rfl⟩ := List.mem_map.mp he
    rfl

/-- Stage 4: every context advanced, and the reports taken in the order of the beds. -/
theorem stage4_eq (hp : risingContexts p.cc.contexts) : stage4 g rs dt p =
    { takeAll ((Map.keys p.cc.contexts).flatMap (phaseDue g rs dt p)) p with
      cc := { p.cc with contexts := Map.mapRecords (fun b ctx => (stage4Of g rs dt b ctx).1) p.cc.contexts } } := by
  refine foldl_contexts ⟨fun _ => rfl, takeAll_append, takeAll_withCC⟩ (fun q b ctx hq hctx => ?_) hp.1
  cases hproduct : product g ctx.product with
  | none =>
    simp only [advanceBed, hctx, hproduct, stage4Of_of_none hproduct, List.map_nil]
    show q = putContext b ctx q
    rw [putContext, put_same hq hctx]
  | some r => simp only [advanceBed, hctx, hproduct, stage4Of_of_some hproduct, takeAll, List.foldl_map]

/-- What stage 4 tells of one bed that is CURING, and whether it makes it READY. -/
theorem stage4_bed (hp : risingContexts p.cc.contexts) {b : Nat} {ctx : Context} (hctx : contextOf p b = some ctx) :
    bedOf (stage4 g rs dt p) b = { bedOf p b with
      state := if (bedOf p b).state = .curing ∧ endsCool ctx (stage4Of g rs dt b ctx).1 then .ready else (bedOf p b).state } ∧
    ((bedOf p b).state = .curing →
      Tells ((stage4Of g rs dt b ctx).2.map (phaseNotice b ctx.pour)) p.cl (stage4 g rs dt p).cl) := by
  have hmem : b ∈ Map.keys p.cc.contexts := mem_keys_of_find hctx
  obtain ⟨before, after, hkeys⟩ := List.append_of_mem hmem
  have hnodup := keys_nodup hp.1
  rw [hkeys] at hnodup
  obtain ⟨-, hnodup', hdisjoint⟩ := List.nodup_append.mp hnodup
  have hb : b ∉ after := (List.nodup_cons.mp hnodup').1
  have other (l : List Nat) (hl : b ∉ l) : ∀ e ∈ l.flatMap (phaseDue g rs dt p), e.1 ≠ b := by
    intro e he heq
    obtain ⟨k, hk, hek⟩ := List.mem_flatMap.mp he
    rw [← heq, phaseDue_bed hek] at hl
    exact hl hk
  have hbefore : b ∉ before := fun h => hdisjoint b h b List.mem_cons_self rfl
  obtain ⟨o, ho⟩ : ∃ o, o = takeAll (before.flatMap (phaseDue g rs dt p)) p := ⟨_, rfl⟩
  obtain ⟨x, hx⟩ : ∃ x, x = takeAll ((stage4Of g rs dt b ctx).2.map fun r => (b, ctx.pour, r)) o := ⟨_, rfl⟩
  have hall : takeAll ((Map.keys p.cc.contexts).flatMap (phaseDue g rs dt p)) p = takeAll (after.flatMap (phaseDue g rs dt p)) x := by
    have hdue : phaseDue g rs dt p b = (stage4Of g rs dt b ctx).2.map fun r => (b, ctx.pour, r) := by
      rw [phaseDue, hctx]
      rfl
    rw [hkeys, List.flatMap_append, List.flatMap_cons, takeAll_append, takeAll_append, ← ho, hdue, ← hx]
  obtain ⟨-, -, hraised, hbed⟩ := takeAll_keeps (before.flatMap (phaseDue g rs dt p)) p
  rw [← ho] at hraised hbed
  have hbed := hbed b (other before hbefore)
  obtain ⟨-, -, hraised', hbed'⟩ := takeAll_keeps (after.flatMap (phaseDue g rs dt p)) x
  have hbed' := hbed' b (other after hb)
  have hfour : bedOf (stage4 g rs dt p) b = bedOf x b ∧ Raised x.cl (stage4 g rs dt p).cl := by
    rw [stage4_eq hp, hall]
    exact ⟨hbed', hraised'⟩
  rw [hfour.1]
  by_cases hcuring : (bedOf p b).state = .curing
  · have hcuring' : (bedOf o b).state = .curing := by rw [hbed, hcuring]
    have hreports : x.cl = ((stage4Of g rs dt b ctx).2.map (phaseNotice b ctx.pour)).foldl raiseLink o.cl ∧
        bedOf x b = { bedOf o b with
          state := if endsCool ctx (stage4Of g rs dt b ctx).1 then .ready else (bedOf o b).state } := by
      rw [hx]
      cases hproduct : product g ctx.product with
      | none =>
        rw [stage4Of_of_none hproduct, if_neg fun h : endsCool ctx ctx => nomatch h.1.symm.trans h.2]
        exact ⟨rfl, rfl⟩
      | some q =>
        rw [stage4Of_of_some hproduct]
        obtain ⟨-, hspec⟩ := advance_spec (q := q) (fresh := g.plant.minimumFresh) (temps := includedTemps rs b ctx)
          (measured := includedMeasured rs b ctx) (dt := deltaFor dt ctx) (c := ctx)
        rcases hspec with ⟨hnot, -, hphases⟩ | ⟨hended, -, l, hl, hreports⟩
        · rw [if_neg hnot]
          exact takeAll_phases hphases hcuring'
        · rw [if_pos hended, hreports, List.map_append, List.map_append, takeAll_append, List.foldl_append]
          obtain ⟨hcl, hsame⟩ := takeAll_phases (bed := b) (n := ctx.pour) hl hcuring'
          obtain ⟨-, -, -, -, -, htaken⟩ := takePhaseReport_spec b ctx.pour
            (takeAll (l.map fun r => (b, ctx.pour, r)) o) (.coolEnded (bedMaturity ctx))
          obtain ⟨hcl', hready⟩ := htaken (by rw [hsame, hcuring'])
          refine ⟨hcl'.trans (by rw [hcl]; rfl), hready.trans ?_⟩
          rw [hsame]
    refine ⟨?_, fun _ => ?_⟩
    · rw [hreports.2, hbed]
      simp only [hcuring, true_and]
    · exact Tells.between ⟨_, .refl _, hreports.1⟩ hraised hfour.2
  · have hsame : x = o := by
      rw [hx]
      exact takeAll_of_not_curing _ (by rwa [hbed])
    refine ⟨?_, fun h => absurd h hcuring⟩
    rw [hsame, hbed]
    simp only [hcuring, false_and, if_false]

theorem stage4_other (hp : risingContexts p.cc.contexts) {b : Nat} (hctx : contextOf p b = none) :
    bedOf (stage4 g rs dt p) b = bedOf p b := by
  obtain ⟨-, -, -, hbed⟩ := takeAll_keeps ((Map.keys p.cc.contexts).flatMap (phaseDue g rs dt p)) p
  have hother : ∀ e ∈ (Map.keys p.cc.contexts).flatMap (phaseDue g rs dt p), e.1 ≠ b := by
    intro e he heq
    obtain ⟨k, hk, hek⟩ := List.mem_flatMap.mp he
    rw [← phaseDue_bed hek, heq] at hk
    have hsome := find_isSome_of_mem_keys hk
    rw [show Map.find p.cc.contexts b = none from hctx] at hsome
    cases hsome
  rw [stage4_eq hp]
  exact hbed b hother

end stage4

/-! ### A context and its zones after stages 1 to 3 -/

section cured

variable {g : Store} {dt : Nat} {p : Part} {b z : Nat} {ctx : Context} {r : ZoneCuring}

/-- The resolutions of an expiry. -/
abbrev resolutions (g : Store) (dt : Nat) (p : Part) : Map Resolved := (stage1 g (dt * 1000) p).2

/-- A context after stages 1 and 2. -/
def creditedContext (g : Store) (dt : Nat) (p : Part) (b : Nat) (ctx : Context) : Context :=
  creditContext g (resolutions g dt p) dt b (zonesMapped (resolvedRecord g (dt * 1000) p b) ctx)

/-- A context after stages 1 to 3. -/
def curedContext (g : Store) (dt : Nat) (p : Part) (b : Nat) (ctx : Context) : Context :=
  zonesMapped (edgedRecord g (resolutions g dt p) b (creditedContext g dt p b ctx)) (creditedContext g dt p b ctx)

/-- The part before stage 3. -/
abbrev creditedPart (g : Store) (dt : Nat) (p : Part) : Part := stage2 g (resolutions g dt p) dt (stage1 g (dt * 1000) p).1

/-- The part before stage 4. -/
abbrev edgedPart (g : Store) (dt : Nat) (p : Part) : Part := stage3 g (resolutions g dt p) (creditedPart g dt p)

theorem creditedPart_cc (hp : curingSound p) : (creditedPart g dt p).cc =
    { p.cc with contexts := Map.mapRecords (creditedContext g dt p) p.cc.contexts } := by
  rw [creditedPart, stage2, mapContexts, contexts_stage1 hp]
  dsimp only
  rw [mapRecords_mapRecords]
  rfl

theorem keys_creditContext (rs : Map Resolved) (b : Nat) (ctx : Context) :
    Map.keys (creditContext g rs dt b ctx).zones = Map.keys ctx.zones := by simp [creditContext]

theorem keys_creditedContext : Map.keys (creditedContext g dt p b ctx).zones = Map.keys ctx.zones := by
  rw [creditedContext, keys_creditContext, Map.keys_mapRecords]

theorem keys_curedContext : Map.keys (curedContext g dt p b ctx).zones = Map.keys ctx.zones := by
  rw [curedContext, Map.keys_mapRecords, keys_creditedContext]

theorem risingContexts_credited (hp : curingSound p) : risingContexts (creditedPart g dt p).cc.contexts := by
  rw [creditedPart_cc hp]
  exact (risingContexts_of_sound hp).mapped fun _ _ => keys_creditedContext

theorem edgedPart_cc (hp : curingSound p) : (edgedPart g dt p).cc =
    { p.cc with contexts := Map.mapRecords (curedContext g dt p) p.cc.contexts } := by
  rw [edgedPart, stage3_eq (risingContexts_credited hp), creditedPart_cc hp]
  dsimp only
  rw [mapRecords_mapRecords]
  rfl

theorem risingContexts_cured (hp : curingSound p) : risingContexts (edgedPart g dt p).cc.contexts := by
  rw [edgedPart_cc hp]
  exact (risingContexts_of_sound hp).mapped fun _ _ => keys_curedContext

/-- A zone's maturity after the credit of a temperature (R59). -/
def creditedMaturity (g : Store) (dt : Nat) (ctx : Context) (temp : Option Int) (acc : Nat) : Nat :=
  temp.elim acc fun t => satAdd32 acc (credit g.plant.datum t (deltaFor dt ctx))

/-- A zone's record after stage 2. -/
def creditedRecord (g : Store) (dt : Nat) (p : Part) (b : Nat) (ctx : Context) (z : Nat) (r : ZoneCuring) : ZoneCuring :=
  let r' := resolvedRecord g (dt * 1000) p b z r
  { r' with acc := creditedMaturity g dt ctx (resolvedTo g (outcomeOf g (dt * 1000) p b z) r) r'.acc }

/-- A zone's record after stage 3. -/
def curedRecord (g : Store) (dt : Nat) (p : Part) (b : Nat) (ctx : Context) (z : Nat) (r : ZoneCuring) : ZoneCuring :=
  zoneEdges (holdOf g ctx) g.plant.overtempMargin ctx.phase (resolvedTo g (outcomeOf g (dt * 1000) p b z) r)
    (creditedRecord g dt p b ctx z r)

theorem zoneIn_of_find (hctx : contextOf p b = some ctx) (hr : Map.find ctx.zones z = some r) : zoneIn p b z = some r := by
  rw [zoneIn, hctx]
  exact hr

theorem find_creditedContext (hp : curingSound p) (hctx : contextOf p b = some ctx) (hr : Map.find ctx.zones z = some r) :
    Map.find (creditedContext g dt p b ctx).zones z = some (creditedRecord g dt p b ctx z r) := by
  have htemp := tempOf_stage1 (g := g) (limit := dt * 1000) hp (zoneIn_of_find hctx hr)
  simp only [creditedContext, creditContext, Map.find_mapRecords, hr, Option.map_some, Option.some.injEq, htemp,
    creditedRecord]
  cases resolvedTo g (outcomeOf g (dt * 1000) p b z) r <;> rfl

theorem find_curedContext (hp : curingSound p) (hctx : contextOf p b = some ctx) (hr : Map.find ctx.zones z = some r) :
    Map.find (curedContext g dt p b ctx).zones z = some (curedRecord g dt p b ctx z r) := by
  have htemp := tempOf_stage1 (g := g) (limit := dt * 1000) hp (zoneIn_of_find hctx hr)
  rw [curedContext, Map.find_mapRecords, find_creditedContext hp hctx hr, Option.map_some, edgedRecord, htemp]
  rfl

/-! ### What stages 1 to 3 leave of a zone's record -/

/-- How a zone's record comes out of R56: by the result formed and the held value. -/
theorem resolvedRecord_cases (g : Store) (limit : Nat) (p : Part) (b z : Nat) (r : ZoneCuring) :
    (∃ t, measuredIn (outcomeOf g limit p b z) = some t ∧ resolvedTo g (outcomeOf g limit p b z) r = some t ∧
      resolvedRecord g limit p b z r = { r with held := some t, heldCount := 0, lapsed := false, unmeasuredSeen := false }) ∨
    (measuredIn (outcomeOf g limit p b z) = none ∧ keepsHeld g r = true ∧
      (resolvedTo g (outcomeOf g limit p b z) r).isSome ∧
      resolvedRecord g limit p b z r = { r with heldCount := r.heldCount + 1 }) ∨
    (measuredIn (outcomeOf g limit p b z) = none ∧ keepsHeld g r = false ∧
      resolvedTo g (outcomeOf g limit p b z) r = none ∧ resolvedRecord g limit p b z r = { r with lapsed := true }) := by
  unfold resolvedRecord resolveZone resolvedTo resolve outcomeOf
  cases zoneOutcome g p limit b z with
  | measured t basis => exact .inl ⟨t, rfl, rfl, rfl⟩
  | unmeasured reason =>
    refine .inr ?_
    cases hheld : r.held with
    | none => exact .inr ⟨rfl, by simp [keepsHeld, hheld], by simp [measuredIn], rfl⟩
    | some t =>
      by_cases hkeep : (r.heldCount : Int) < g.plant.holdLastGood
      · exact .inl ⟨rfl, by simp [keepsHeld, hheld, hkeep], by simp [measuredIn, keepsHeld, hheld, hkeep], by simp [hkeep]⟩
      · exact .inr ⟨rfl, by simp [keepsHeld, hkeep], by simp [measuredIn, keepsHeld, hkeep], by simp [hkeep]⟩

theorem zoneEdges_keeps (hold margin : Int) (phase : Phase) (temp : Option Int) (r : ZoneCuring) :
    ∃ seen freeze hot, zoneEdges hold margin phase temp r =
      { r with unmeasuredSeen := seen, freezeEdge := freeze, overEdge := hot } := by
  unfold zoneEdges
  split
  · exact ⟨_, _, _, rfl⟩
  · split
    · split <;> exact ⟨_, _, _, rfl⟩
    · exact ⟨_, _, _, rfl⟩

/-- Of a zone's record, stages 1 to 3 leave its exclusion, its demand, class, request and grant, and credit its maturity
(R59). -/
theorem curedRecord_keeps :
    (curedRecord g dt p b ctx z r).excluded = r.excluded ∧ (curedRecord g dt p b ctx z r).demand = r.demand ∧
    (curedRecord g dt p b ctx z r).cls = r.cls ∧ (curedRecord g dt p b ctx z r).grant = r.grant ∧
    (curedRecord g dt p b ctx z r).acc =
      creditedMaturity g dt ctx (resolvedTo g (outcomeOf g (dt * 1000) p b z) r) r.acc := by
  obtain ⟨seen, freeze, hot, hedges⟩ := zoneEdges_keeps (holdOf g ctx) g.plant.overtempMargin ctx.phase
    (resolvedTo g (outcomeOf g (dt * 1000) p b z) r) (creditedRecord g dt p b ctx z r)
  rw [curedRecord, hedges]
  unfold creditedRecord
  rcases resolvedRecord_cases g (dt * 1000) p b z r with ⟨t, -, -, hrecord⟩ | ⟨-, -, -, hrecord⟩ | ⟨-, -, -, hrecord⟩ <;>
    rw [hrecord] <;> exact ⟨rfl, rfl, rfl, rfl, rfl⟩

theorem freezing_iff {phase : Phase} {t : Int} : freezing phase t = true ↔ t < 0 ∧ (phase = .preset ∨ phase = .ramp) := by
  simp [freezing]

theorem overheated_iff {hold margin : Int} {phase : Phase} {t : Int} :
    overheated hold margin phase t = true ↔ hold + margin < t ∧ (phase = .ramp ∨ phase = .hold ∨ phase = .cool) := by
  simp [overheated, or_assoc]

theorem creditedRecord_eq : ∃ acc, creditedRecord g dt p b ctx z r = { resolvedRecord g (dt * 1000) p b z r with acc := acc } :=
  ⟨_, rfl⟩

theorem holdOf_of_some {q : Product} (hq : product g ctx.product = some q) : holdOf g ctx = q.hold := by
  simp only [holdOf, hq]

/-- The held value, the lapse flags and the edges as stages 1 and 3 leave them (R56, R58, R62, R63). -/
theorem zoneResolved_cured {q : Product} (hq : product g ctx.product = some q) :
    zoneResolved g q ctx.phase (outcomeOf g (dt * 1000) p b z) r (curedRecord g dt p b ctx z r) := by
  obtain ⟨acc, hcredited⟩ := creditedRecord_eq (g := g) (dt := dt) (p := p) (b := b) (ctx := ctx) (z := z) (r := r)
  rw [curedRecord, holdOf_of_some hq, hcredited]
  unfold zoneResolved
  rcases resolvedRecord_cases g (dt * 1000) p b z r with ⟨t, hm, ht, hrecord⟩ | ⟨hm, hkeep, ht, hrecord⟩ |
    ⟨hm, hkeep, ht, hrecord⟩ <;> rw [hrecord, hm]
  · rw [ht]
    unfold zoneEdges
    cases hexcluded : r.excluded <;> simp [freezing_iff, overheated_iff]
  · obtain ⟨t, ht⟩ := Option.isSome_iff_exists.mp ht
    rw [ht]
    unfold zoneEdges
    cases hexcluded : r.excluded <;> simp [freezing_iff, overheated_iff, hkeep]
  · rw [ht]
    unfold zoneEdges
    cases hexcluded : r.excluded <;> simp [hkeep]

/-- The reports of stage 3 are those due (R58, R62, R63). -/
theorem edgeReports_eq {q : Product} (hq : product g ctx.product = some q) (minutes : Nat) :
    zoneReports (holdOf g ctx) g.plant.overtempMargin ctx.phase minutes z (resolvedTo g (outcomeOf g (dt * 1000) p b z) r)
      (creditedRecord g dt p b ctx z r) = reportsDue g q ctx.phase minutes z (outcomeOf g (dt * 1000) p b z) r := by
  obtain ⟨acc, hcredited⟩ := creditedRecord_eq (g := g) (dt := dt) (p := p) (b := b) (ctx := ctx) (z := z) (r := r)
  rw [holdOf_of_some hq, hcredited]
  unfold zoneReports reportsDue
  have hfreeze (t : Int) (edge : Bool) : (freezing ctx.phase t && !edge) = true ↔
      t < 0 ∧ (ctx.phase = .preset ∨ ctx.phase = .ramp) ∧ edge = false := by
    rw [Bool.and_eq_true, freezing_iff, Bool.not_eq_true', and_assoc]
  have hover (t : Int) (edge : Bool) : (overheated q.hold g.plant.overtempMargin ctx.phase t && !edge) = true ↔
      q.hold + g.plant.overtempMargin < t ∧ (ctx.phase = .ramp ∨ ctx.phase = .hold ∨ ctx.phase = .cool) ∧ edge = false := by
    rw [Bool.and_eq_true, overheated_iff, Bool.not_eq_true', and_assoc]
  rcases resolvedRecord_cases g (dt * 1000) p b z r with ⟨t, hm, ht, hrecord⟩ | ⟨hm, hkeep, ht, hrecord⟩ |
    ⟨hm, hkeep, ht, hrecord⟩ <;> rw [hrecord]
  · rw [ht]
    simp only [hfreeze, hover]
  · obtain ⟨t, ht⟩ := Option.isSome_iff_exists.mp ht
    rw [ht]
    simp only [hfreeze, hover]
  · rw [ht]
    cases hseen : r.unmeasuredSeen <;> simp

end cured

/-! ### A context and its zones after stages 4 to 6 -/

section asked

variable {g : Store} {dt : Nat} {p : Part} {b z : Nat} {ctx : Context} {r : ZoneCuring} {q : Product}

/-- A context after stages 1 to 4. -/
def steppedContext (g : Store) (dt : Nat) (p : Part) (b : Nat) (ctx : Context) : Context :=
  (stage4Of g (resolutions g dt p) dt b (curedContext g dt p b ctx)).1

/-- A context after stages 1 to 6. -/
def askedContext (g : Store) (dt : Nat) (p : Part) (b : Nat) (ctx : Context) : Context :=
  demandContext g p (resolutions g dt p) b (steppedContext g dt p b ctx)

/-- The part before stage 6. -/
abbrev steppedPart (g : Store) (dt : Nat) (p : Part) : Part := stage4 g (resolutions g dt p) dt (edgedPart g dt p)

/-- The part before stage 7. -/
abbrev askedPart (g : Store) (dt : Nat) (p : Part) : Part := stage6 g (resolutions g dt p) (steppedPart g dt p)

/-- What stage 4 changes of a context, and that it takes all heat from one whose COOL ends (R70). -/
theorem steppedContext_spec : Stepped (curedContext g dt p b ctx) (steppedContext g dt p b ctx) ∧
    (steppedContext g dt p b ctx).zones = Map.mapRecords
      (fun _ r => if endsCool ctx (steppedContext g dt p b ctx) then noHeat r else r) (curedContext g dt p b ctx).zones := by
  have hsame : (curedContext g dt p b ctx).zones = Map.mapRecords (fun _ r => r) (curedContext g dt p b ctx).zones :=
    (List.map_id' _).symm
  have hphase : (curedContext g dt p b ctx).phase = ctx.phase := rfl
  unfold steppedContext
  cases hproduct : product g (curedContext g dt p b ctx).product with
  | none =>
    rw [stage4Of_of_none hproduct]
    have hnot : ¬ endsCool ctx (curedContext g dt p b ctx) := fun h => nomatch h.1.symm.trans (hphase.symm.trans h.2)
    simp only [if_neg hnot]
    exact ⟨⟨rfl⟩, hsame⟩
  | some q =>
    rw [stage4Of_of_some hproduct]
    obtain ⟨hstepped, ⟨hnot, hzones, -⟩ | ⟨hended, hzones, -⟩⟩ := advance_spec (q := q) (fresh := g.plant.minimumFresh)
      (temps := includedTemps (resolutions g dt p) b (curedContext g dt p b ctx))
      (measured := includedMeasured (resolutions g dt p) b (curedContext g dt p b ctx))
      (dt := deltaFor dt (curedContext g dt p b ctx)) (c := curedContext g dt p b ctx)
    · refine ⟨hstepped, hzones.trans ?_⟩
      change ¬ endsCool ctx _ at hnot
      simp only [if_neg hnot]
      exact hsame
    · refine ⟨hstepped, hzones.trans ?_⟩
      change endsCool ctx _ at hended
      simp only [if_pos hended]

/-- A zone's record after stage 6. -/
def askedRecord (g : Store) (dt : Nat) (p : Part) (b : Nat) (ctx : Context) (z : Nat) (r : ZoneCuring) : ZoneCuring :=
  let after := steppedContext g dt p b ctx
  askHeat g.plant.minimumFresh (gainOf g after) (ratingOf g b z) (zoneLost g p b z) after
    (resolvedTo g (outcomeOf g (dt * 1000) p b z) r)
    (if endsCool ctx after then noHeat (curedRecord g dt p b ctx z r) else curedRecord g dt p b ctx z r)

theorem find_askedContext (hp : curingSound p) (hctx : contextOf p b = some ctx) (hr : Map.find ctx.zones z = some r) :
    Map.find (askedContext g dt p b ctx).zones z = some (askedRecord g dt p b ctx z r) := by
  rw [askedContext, demandContext]
  dsimp only
  rw [Map.find_mapRecords, steppedContext_spec.2, Map.find_mapRecords, find_curedContext hp hctx hr, Option.map_some,
    Option.map_some, tempOf_stage1 hp (zoneIn_of_find hctx hr)]
  rfl

theorem keys_askedContext : Map.keys (askedContext g dt p b ctx).zones = Map.keys ctx.zones := by
  rw [askedContext, demandContext]
  dsimp only
  rw [Map.keys_mapRecords, steppedContext_spec.2, Map.keys_mapRecords, keys_curedContext]

theorem find_askedContext_none (hr : Map.find ctx.zones z = none) : Map.find (askedContext g dt p b ctx).zones z = none := by
  by_contra hsome
  obtain ⟨x, hx⟩ := Option.ne_none_iff_exists'.mp hsome
  have hmem := mem_keys_of_find hx
  rw [keys_askedContext] at hmem
  have := find_isSome_of_mem_keys hmem
  rw [hr] at this
  cases this

/-- What stages 4 to 6 leave of a context after stages 1 to 3. -/
theorem stepped_asked : Stepped (curedContext g dt p b ctx) (askedContext g dt p b ctx) :=
  steppedContext_spec.1.trans ⟨rfl⟩

/-- What stages 1 to 6 leave of a context. -/
theorem askedContext_eq : askedContext g dt p b ctx = { ctx with
    curingTime := min 4294967295 (ctx.curingTime + deltaFor dt ctx), phase := (askedContext g dt p b ctx).phase,
    sp := (askedContext g dt p b ctx).sp, remainder := (askedContext g dt p b ctx).remainder,
    presetElapsed := (askedContext g dt p b ctx).presetElapsed, repairPending := (askedContext g dt p b ctx).repairPending,
    zones := (askedContext g dt p b ctx).zones } := stepped_asked.keeps

theorem demandOf_eq (gain : Nat) (e : Int) : demandOf gain e = percentOf gain e := by
  unfold demandOf percentOf
  split
  · next h =>
    have hle : e * gain ≤ 0 := Int.mul_nonpos_of_nonpos_of_nonneg h (Int.natCast_nonneg _)
    omega
  · next h =>
    have hle : 0 ≤ e * gain := Int.mul_nonneg (by omega) (Int.natCast_nonneg _)
    omega

theorem zoneDemand_of_included {fresh : Int} {gain : Nat} {after : Context} {temp : Option Int} {x : ZoneCuring}
    (hincluded : x.excluded = false) (hphase : after.phase ≠ .finished) : zoneDemand fresh gain after temp x =
      temp.elim x.demand fun t => (zoneSetpoint fresh after temp).elim 0 fun sp => percentOf gain (sp - t) := by
  unfold zoneDemand
  rw [if_neg (by simp [hincluded, hphase])]
  cases temp with
  | none => rfl
  | some t => cases zoneSetpoint fresh after (some t) <;> simp [demandOf_eq]

/-- Demand, class and request of a zone are those R58, R71 and R72 name. -/
theorem heatAsked_askHeat {after : Context} {rating : Nat} {lost : Bool} {temp : Option Int} {x : ZoneCuring}
    (hexcluded : x.excluded = r.excluded) (hdemand : after.phase ≠ .finished → x.demand = r.demand ∧ x.cls = r.cls) :
    heatAsked g q after rating lost temp r (askHeat g.plant.minimumFresh q.gain rating lost after temp x) := by
  unfold heatAsked askHeat
  dsimp only
  refine ⟨?_, fun hnone => ?_, fun hincluded hphase => ⟨fun htemp => ?_, fun t htemp => ⟨fun hpreset => ?_, fun sp hother hsp => ?_⟩⟩, ?_⟩
  · unfold zoneClass
    rw [hexcluded]
    split
    · rfl
    · cases hphase : after.phase with
      | preset =>
        obtain ⟨-, hcls⟩ := hdemand (by rw [hphase]; nofun)
        cases temp with
        | none => simp [hcls]
        | some t => simp
      | _ => rfl
  · exact if_pos (hexcluded ▸ hnone)
  · rw [zoneDemand_of_included (hexcluded.trans hincluded) hphase, htemp]
    exact (hdemand hphase).1
  · rw [zoneDemand_of_included (hexcluded.trans hincluded) hphase, htemp]
    by_cases hbelow : t < g.plant.minimumFresh <;> simp [zoneSetpoint, hpreset, hbelow]
  · have hset : zoneSetpoint g.plant.minimumFresh after (some t) = some sp := by
      unfold zoneSetpoint
      cases hcase : after.phase with
      | preset => exact absurd hcase hother
      | finished => exact absurd hcase hphase
      | _ => exact hsp
    rw [zoneDemand_of_included (hexcluded.trans hincluded) hphase, htemp, Option.elim_some, hset, Option.elim_some]
  · rw [hexcluded]

theorem zoneResolved_congr {phase : Phase} {out : ZoneResult} {x y : ZoneCuring} (h : zoneResolved g q phase out r x)
    (hxy : y = { x with demand := y.demand, cls := y.cls, request := y.request, grant := y.grant }) :
    zoneResolved g q phase out r y := by
  rw [hxy]
  exact h

/-- A zone's record after stages 1 to 6, by the one before (R56, R58, R59, R62, R63, R70 to R72). -/
theorem askedRecord_spec : (askedRecord g dt p b ctx z r).excluded = r.excluded ∧
    (askedRecord g dt p b ctx z r).grant = (if endsCool ctx (askedContext g dt p b ctx) then 0 else r.grant) ∧
    (askedRecord g dt p b ctx z r).acc =
      creditedMaturity g dt ctx (resolvedTo g (outcomeOf g (dt * 1000) p b z) r) r.acc ∧
    ∀ q, product g ctx.product = some q →
      zoneResolved g q ctx.phase (outcomeOf g (dt * 1000) p b z) r (askedRecord g dt p b ctx z r) ∧
      heatAsked g q (askedContext g dt p b ctx) (ratingOf g b z) (zoneLost g p b z)
        (resolvedTo g (outcomeOf g (dt * 1000) p b z) r) r (askedRecord g dt p b ctx z r) := by
  obtain ⟨hexcluded, hdemand, hcls, hgrant, hacc⟩ := curedRecord_keeps (g := g) (dt := dt) (p := p) (b := b) (ctx := ctx)
    (z := z) (r := r)
  obtain ⟨x, hx⟩ : ∃ x, x = (if endsCool ctx (steppedContext g dt p b ctx) then noHeat (curedRecord g dt p b ctx z r)
      else curedRecord g dt p b ctx z r) := ⟨_, rfl⟩
  have hasked : askedRecord g dt p b ctx z r = askHeat g.plant.minimumFresh (gainOf g (steppedContext g dt p b ctx))
      (ratingOf g b z) (zoneLost g p b z) (steppedContext g dt p b ctx) (resolvedTo g (outcomeOf g (dt * 1000) p b z) r) x := by
    rw [hx]
    rfl
  have hkeeps : x = { curedRecord g dt p b ctx z r with
      demand := x.demand, cls := x.cls, request := x.request, grant := x.grant } := by
    rw [hx]
    split <;> rfl
  rw [hasked]
  refine ⟨?_, ?_, ?_, fun q hq => ⟨?_, ?_⟩⟩
  · rw [← hexcluded, hkeeps]
    rfl
  · show x.grant = if endsCool ctx (steppedContext g dt p b ctx) then 0 else r.grant
    rw [hx, ← hgrant]
    split <;> rfl
  · rw [← hacc, hkeeps]
    rfl
  · exact zoneResolved_congr (zoneResolved_cured hq) (by rw [hkeeps]; rfl)
  · have hproduct : (steppedContext g dt p b ctx).product = ctx.product := by rw [steppedContext_spec.1.keeps]; rfl
    have hgain : gainOf g (steppedContext g dt p b ctx) = q.gain := by rw [gainOf, hproduct, hq]
    rw [hgain]
    refine heatAsked_askHeat (after := steppedContext g dt p b ctx) ?_ fun hphase => ?_
    · rw [← hexcluded, hkeeps]
    · rw [hx, if_neg fun h : endsCool ctx (steppedContext g dt p b ctx) => hphase h.2]
      exact ⟨hdemand, hcls⟩

end asked

/-! ### The part before stage 7 -/

section asked

variable {g : Store} {dt : Nat} {p : Part} {b z : Nat} {ctx : Context} {q : Product}

theorem askedPart_keeps : (askedPart g dt p).mc = p.mc ∧ (askedPart g dt p).mp = p.mp ∧ (askedPart g dt p).csA = p.csA ∧
    (askedPart g dt p).csB = p.csB ∧ (askedPart g dt p).fl = p.fl ∧ (askedPart g dt p).sm.slots = p.sm.slots ∧
    (askedPart g dt p).sm.timer = p.sm.timer ∧ linkCore (askedPart g dt p).cl = linkCore p.cl ∧
    (askedPart g dt p).tu = (stage1 g (dt * 1000) p).1.tu := by simp

theorem askedPart_cc (hp : curingSound p) : (askedPart g dt p).cc =
    { p.cc with contexts := Map.mapRecords (askedContext g dt p) p.cc.contexts } := by
  have hnodes : (steppedPart g dt p).fl.nodes = p.fl.nodes := by simp
  have hdemand : demandContext g (steppedPart g dt p) = demandContext g p := by
    funext rs b ctx
    simp only [demandContext, zoneLost_congr hnodes]
  rw [askedPart, stage6, hdemand, mapContexts, steppedPart, stage4_eq (risingContexts_cured hp), edgedPart_cc hp]
  dsimp only
  rw [mapRecords_mapRecords, mapRecords_mapRecords]
  rfl

theorem contextOf_asked (hp : curingSound p) : contextOf (askedPart g dt p) b = (contextOf p b).map (askedContext g dt p b) := by
  rw [contextOf, askedPart_cc hp]
  exact Map.find_mapRecords _ _ _

theorem contextOf_edged (hp : curingSound p) : contextOf (edgedPart g dt p) b = (contextOf p b).map (curedContext g dt p b) := by
  rw [contextOf, edgedPart_cc hp]
  exact Map.find_mapRecords _ _ _

theorem risingContexts_asked (hp : curingSound p) : risingContexts (askedPart g dt p).cc.contexts := by
  rw [askedPart_cc hp]
  exact (risingContexts_of_sound hp).mapped fun _ _ => keys_askedContext

/-! ### Stage 4 by the zones as the expiry leaves them -/

theorem keepsMaturity.comp {h k : Nat → ZoneCuring → ZoneCuring} (hh : keepsMaturity h) (hk : keepsMaturity k) :
    keepsMaturity fun z r => h z (k z r) :=
  fun z r => ⟨(hh z (k z r)).1.trans (hk z r).1, (hh z (k z r)).2.trans (hk z r).2⟩

/-- Stages 4 to 6 leave maturity and exclusion as they stand. -/
theorem zones_askedContext : ∃ k, keepsMaturity k ∧
    (askedContext g dt p b ctx).zones = Map.mapRecords k (curedContext g dt p b ctx).zones := by
  have hnoHeat : keepsMaturity fun _ r => if endsCool ctx (steppedContext g dt p b ctx) then noHeat r else r := by
    intro z r
    dsimp only
    split <;> exact ⟨rfl, rfl⟩
  have hask : keepsMaturity fun z r => askHeat g.plant.minimumFresh (gainOf g (steppedContext g dt p b ctx)) (ratingOf g b z)
      (zoneLost g p b z) (steppedContext g dt p b ctx) (tempOf (resolutions g dt p) b z) r := fun _ _ => ⟨rfl, rfl⟩
  refine ⟨_, hask.comp hnoHeat, ?_⟩
  rw [askedContext, demandContext]
  dsimp only
  rw [steppedContext_spec.2, mapRecords_mapRecords]

theorem included_congr {c d : Context} (h : c.zones = d.zones) : included c = included d := by rw [included, h, included]

theorem bedMaturity_congr {c d : Context} (h : c.zones = d.zones) : bedMaturity c = bedMaturity d := by
  simp only [bedMaturity, h]

variable {k : Nat → ZoneCuring → ZoneCuring} {after : Context}

theorem filterMap_included (hk : keepsMaturity k) (hafter : after.zones = Map.mapRecords k (curedContext g dt p b ctx).zones)
    {α : Type} {f h : Nat → Option α} (hfh : ∀ z r, Map.find ctx.zones z = some r → f z = h z) :
    (included (curedContext g dt p b ctx)).filterMap (fun e => f e.1) = (included after).filterMap fun e => h e.1 := by
  have hzones : included after = included (zonesMapped k (curedContext g dt p b ctx)) := included_congr hafter
  rw [hzones, included_mapped hk, List.filterMap_map]
  refine List.filterMap_congr fun e he => ?_
  have hmem : e.1 ∈ Map.keys ctx.zones := by
    rw [← keys_curedContext (g := g) (dt := dt) (p := p) (b := b)]
    exact List.mem_map_of_mem (List.mem_of_mem_filter he)
  obtain ⟨r, hr⟩ := Option.isSome_iff_exists.mp (find_isSome_of_mem_keys hmem)
  exact hfh e.1 r hr

/-- Stage 4 of a context, by its zones as the later stages leave them: maturity and exclusion are the same. -/
theorem advance_cured (hp : curingSound p) (hctx : contextOf p b = some ctx) (hq : product g ctx.product = some q)
    (hk : keepsMaturity k) (hafter : after.zones = Map.mapRecords k (curedContext g dt p b ctx).zones) :
    let temps := (included after).filterMap fun e =>
      (Map.find ctx.zones e.1).bind fun r => resolvedTo g (outcomeOf g (dt * 1000) p b e.1) r
    let measured := (included after).filterMap fun e => measuredIn (outcomeOf g (dt * 1000) p b e.1)
    let stage4 := advance q g.plant.minimumFresh temps measured (deltaFor dt ctx)
      { ctx with curingTime := min 4294967295 (ctx.curingTime + deltaFor dt ctx), zones := after.zones }
    Alike (steppedContext g dt p b ctx) stage4.1 ∧
      stage4.2 = (stage4Of g (resolutions g dt p) dt b (curedContext g dt p b ctx)).2 := by
  intro temps measured
  have htemps : includedTemps (resolutions g dt p) b (curedContext g dt p b ctx) = temps :=
    filterMap_included hk hafter (h := fun z => (Map.find ctx.zones z).bind fun r =>
      resolvedTo g (outcomeOf g (dt * 1000) p b z) r)
      (fun z r hr => (tempOf_stage1 hp (zoneIn_of_find hctx hr)).trans (by rw [hr]; rfl))
  have hmeasured : includedMeasured (resolutions g dt p) b (curedContext g dt p b ctx) = measured :=
    filterMap_included hk hafter (fun z r hr => measuredOf_stage1 hp (zoneIn_of_find hctx hr))
  have halike : Alike (curedContext g dt p b ctx) { ctx with
      curingTime := min 4294967295 (ctx.curingTime + deltaFor dt ctx), zones := after.zones } := by
    refine ⟨rfl, ?_⟩
    rw [← bedMaturity_mapped hk (curedContext g dt p b ctx)]
    exact bedMaturity_congr hafter
  have hproduct : product g (curedContext g dt p b ctx).product = some q := hq
  rw [steppedContext, stage4Of_of_some hproduct, htemps, hmeasured]
  exact halike.advance

end asked

end Sys2Proof.Proofs
end

section
/-!
PROOFS. A curing interval's expiry, stages 7 and 8 (chapter 5): the allocation by mode, the valves' commands and how they stand
through the end of the event, and what the eight stages together leave of a context.
-/

namespace Sys2Proof.Proofs

open Sys2Proof.Machine

/-! ### Stage 7 in RUN: beds judged (R81, R82) -/

section judged

variable {g : Store} {gs : List (Handed × Nat)} {p : Part} {b : Nat} {ctx : Context}

/-- A context judged by the grants of its zones. -/
def judgedContext (g : Store) (gs : List (Handed × Nat)) (b : Nat) (ctx : Context) : Context :=
  { ctx with
    starved := bedStarved gs b
    starvedCount := if bedStarved gs b ∧ ((ctx.starvedCount + 1 : Nat) : Int) < g.plant.starveLimit then ctx.starvedCount + 1 else 0 }

/-- The report of a run of starved allocations that reaches the starve limit. -/
def starvedReports (g : Store) (gs : List (Handed × Nat)) (b : Nat) (ctx : Context) : List (Nat × Nat × Deviation) :=
  if starvedDue g gs b ctx then [(b, ctx.pour, starvedEntry ctx)] else []

theorem judgeStarved_eq (hctx : contextOf p b = some ctx) : judgeStarved g gs p b =
    reportAll g (starvedReports g gs b ctx) (putContext b (judgedContext g gs b ctx) p) := by
  simp only [judgeStarved, hctx, judgedContext, starvedReports, starvedDue, Bool.and_eq_true, decide_eq_true_eq]
  cases hstarved : bedStarved gs b with
  | false => rfl
  | true =>
    by_cases hlimit : g.plant.starveLimit ≤ ((ctx.starvedCount + 1 : Nat) : Int)
    · have hlimit' : g.plant.starveLimit ≤ (ctx.starvedCount : Int) + 1 := by exact_mod_cast hlimit
      have hover : ¬ ((ctx.starvedCount + 1 : Nat) : Int) < g.plant.starveLimit := by omega
      simp only [hlimit, hlimit', hover, if_true, and_true, and_false, if_false]
      rfl
    · have hlimit' : ¬ g.plant.starveLimit ≤ (ctx.starvedCount : Int) + 1 := by exact_mod_cast hlimit
      have hunder : ((ctx.starvedCount + 1 : Nat) : Int) < g.plant.starveLimit := by omega
      simp only [hlimit, hlimit', hunder, if_true, if_false, and_true, and_false]
      rfl

theorem taken_reportAll (g : Store) : Taken (reportAll g) := ⟨fun _ => rfl, reportAll_append g, reportAll_withCC g⟩

/-- No report of starved beds is one to review. -/
theorem starvedReports_kind {e : Nat × Nat × Deviation} (he : e ∈ starvedReports g gs b ctx) : e.2.2.kind.isReview = false := by
  unfold starvedReports at he
  split at he
  · rw [List.mem_singleton.mp he]
    rfl
  · cases he

/-- The reports that an allocation makes of starved beds. -/
abbrev starvedTold (g : Store) (gs : List (Handed × Nat)) (p : Part) : List (Nat × Nat × Deviation) :=
  (Map.keys p.cc.contexts).flatMap fun b => (contextOf p b).elim [] (starvedReports g gs b)

/-- The part after the judging of every bed. -/
theorem foldl_judgeStarved (hp : risingContexts p.cc.contexts) : (Map.keys p.cc.contexts).foldl (judgeStarved g gs) p =
    { reportAll g (starvedTold g gs p) p with
      cc := { p.cc with contexts := Map.mapRecords (judgedContext g gs) p.cc.contexts } } :=
  foldl_contexts (taken_reportAll g) (fun _ _ _ _ hctx => judgeStarved_eq hctx) hp.1

theorem starvedTold_kind {e : Nat × Nat × Deviation} (he : e ∈ starvedTold g gs p) : e.2.2.kind.isReview = false := by
  obtain ⟨b, -, hb⟩ := List.mem_flatMap.mp he
  cases hctx : contextOf p b with
  | none => rw [hctx] at hb; cases hb
  | some ctx =>
    rw [hctx] at hb
    exact starvedReports_kind hb

/-- What the judging of beds leaves of BS and SM, and that it brings no pour under review. -/
theorem reviewed_starvedTold : Reviewed p (reportAll g (starvedTold g gs p) p) ∧
    ∀ n, pourReviewed (reportAll g (starvedTold g gs p) p) n = pourReviewed p n := by
  have hreviewed := reviewed_reportAll g (starvedTold g gs p) p
  refine ⟨hreviewed, fun n => ?_⟩
  cases hbefore : pourReviewed p n with
  | true => exact hreviewed.flags n hbefore
  | false =>
    by_contra hafter
    obtain ⟨e, he, -, hkind⟩ := reviewed_by_report (Bool.not_eq_false _ ▸ hafter) (by rw [hbefore]; decide)
    rw [starvedTold_kind he] at hkind
    cases hkind

end judged

/-! ### Stage 7: what each mode's allocation leaves of a context -/

section granted

variable {g : Store} {p : Part} {b : Nat} {ctx : Context}

/-- A context with its zones' grants written. -/
abbrev withGrants (grant : Nat → Nat) (ctx : Context) : Context :=
  zonesMapped (fun z r => { r with grant := grant z }) ctx

/-- A context after an allocation in RUN. -/
abbrev allocatedContext (g : Store) (gs : List (Handed × Nat)) (b : Nat) (ctx : Context) : Context :=
  judgedContext g gs b (withGrants (grantOf gs b) ctx)

theorem contexts_writeGrants (gs : List (Handed × Nat)) : (writeGrants gs p).cc.contexts =
    Map.mapRecords (fun b ctx => withGrants (grantOf gs b) ctx) p.cc.contexts := rfl

theorem bedsJudged_eq (hp : risingContexts p.cc.contexts) : bedsJudged g p =
    { reportAll g (starvedTold g (grantsOf g p) (writeGrants (grantsOf g p) p)) (writeGrants (grantsOf g p) p) with
      cc := { p.cc with contexts := Map.mapRecords (allocatedContext g (grantsOf g p)) p.cc.contexts } } := by
  have hrising : risingContexts (writeGrants (grantsOf g p) p).cc.contexts := by
    rw [contexts_writeGrants]
    exact hp.mapped fun _ _ => by simp
  have hkeys : Map.keys p.cc.contexts = Map.keys (writeGrants (grantsOf g p) p).cc.contexts := by
    rw [contexts_writeGrants, Map.keys_mapRecords]
  rw [bedsJudged, hkeys, foldl_judgeStarved hrising]
  have hcontexts : Map.mapRecords (judgedContext g (grantsOf g p)) (writeGrants (grantsOf g p) p).cc.contexts =
      Map.mapRecords (allocatedContext g (grantsOf g p)) p.cc.contexts := by
    rw [contexts_writeGrants, mapRecords_mapRecords]
  rw [hcontexts]
  rfl

/-- Of CC, an allocation changes the contexts, the allocation record and the wanted openings. -/
theorem allocate_cc (hp : risingContexts p.cc.contexts) : (allocate g p).cc = { p.cc with
    contexts := Map.mapRecords (allocatedContext g (grantsOf g p)) p.cc.contexts
    alloc := allocRecord (100 * g.boiler) (grantsOf g p)
    valves := Map.mapRecords (fun k v => { v with wanted := wantedOpening g (allocate g p) (keyBed k) (keyZone k) }) p.cc.valves } := by
  obtain ⟨q, hq⟩ : ∃ q, q = heatNotice g (grantsOf g p) p.cc.alloc.heatShort
    (setAlloc (allocRecord (100 * g.boiler) (grantsOf g p)) (bedsJudged g p)) := ⟨_, rfl⟩
  have hall : allocate g p = setWanted g q := by rw [allocate_eq, hq]
  have hcc : q.cc = { p.cc with
      contexts := Map.mapRecords (allocatedContext g (grantsOf g p)) p.cc.contexts
      alloc := allocRecord (100 * g.boiler) (grantsOf g p) } := by
    rw [hq, (heatNotice_keeps _ _ _ _).2.2.1, bedsJudged_eq hp]
    rfl
  have hwanted : wantedOpening g (setWanted g q) = wantedOpening g q := rfl
  rw [hall, hwanted, setWanted, hcc]

theorem heatNotice_raised (gs : List (Handed × Nat)) (before : Bool) (p : Part) : Raised p.cl (heatNotice g gs before p).cl := by
  unfold heatNotice
  dsimp only
  split
  · split
    · exact .refl _
    · exact ⟨[_], raise_cl _ _⟩
  · split
    · exact ⟨[_], raise_cl _ _⟩
    · exact .refl _

/-- What an allocation leaves of BS and SM, and that it brings no pour under review. -/
theorem reviewed_allocate (hp : risingContexts p.cc.contexts) :
    Reviewed p (allocate g p) ∧ ∀ n, pourReviewed (allocate g p) n = pourReviewed p n := by
  obtain ⟨w, hw⟩ : ∃ w, w = writeGrants (grantsOf g p) p := ⟨_, rfl⟩
  obtain ⟨q, hq⟩ : ∃ q, q = setAlloc (allocRecord (100 * g.boiler) (grantsOf g p)) (bedsJudged g p) := ⟨_, rfl⟩
  obtain ⟨hreviewed, hflags⟩ := reviewed_starvedTold (g := g) (gs := grantsOf g p) (p := w)
  have hbefore : Reviewed p w := .of_same (by rw [hw]; simp) (by rw [hw]; simp) (by rw [hw]; simp)
  have hq' : q.bs = (reportAll g (starvedTold g (grantsOf g p) w) w).bs ∧
      q.sm = (reportAll g (starvedTold g (grantsOf g p) w) w).sm ∧
      q.cl = (reportAll g (starvedTold g (grantsOf g p) w) w).cl := by
    rw [hq, bedsJudged_eq hp, hw]
    exact ⟨rfl, rfl, rfl⟩
  have hall : (allocate g p).bs = q.bs ∧ (allocate g p).sm = q.sm ∧ Raised q.cl (allocate g p).cl := by
    rw [allocate_eq, ← hq]
    refine ⟨by simp, by simp, ?_⟩
    rw [(setWanted_keeps _ _).2.2.2.2.2.2.2.2.1]
    exact heatNotice_raised _ _ _
  obtain ⟨hbs, hsm, hcl⟩ := hq'
  obtain ⟨abs, asm, acl⟩ := hall
  have hlater : Reviewed (reportAll g (starvedTold g (grantsOf g p) w) w) (allocate g p) :=
    .of_raised (abs.trans hbs) (congrArg StockMap.pieces (asm.trans hsm)) (hcl ▸ acl)
  refine ⟨(hbefore.trans hreviewed).trans hlater, fun n => ?_⟩
  rw [pourReviewed, pourOf_congr (abs.trans hbs)]
  refine (hflags n).trans ?_
  rw [pourReviewed, pourOf_congr (p := p) (by rw [hw]; simp)]

end granted

/-! ### The grants of the zones (R79 to R81) -/

section grants

variable {g : Store} {p : Part} {b z : Nat} {ctx : Context} {r : ZoneCuring}

theorem sum_grantAll_le (cap : Nat) (l : List Handed) : ((grantAll cap l).map Prod.snd).sum ≤ cap ∧
    ((grantAll cap l).map Prod.snd).sum ≤ ((grantAll cap l).map fun e => e.1.request).sum := by
  induction l generalizing cap with
  | nil => exact ⟨Nat.zero_le _, le_refl _⟩
  | cons h l ih =>
    obtain ⟨hcap, hrequest⟩ := ih (cap - h.request)
    simp only [grantAll_cons, List.map_cons, List.sum_cons]
    omega

theorem grant_le_request {cap : Nat} {l : List Handed} {e : Handed × Nat} (he : e ∈ grantAll cap l) : e.2 ≤ e.1.request := by
  induction l generalizing cap with
  | nil => cases he
  | cons h l ih =>
    rw [grantAll_cons] at he
    rcases List.mem_cons.mp he with rfl | he
    · exact Nat.min_le_left _ _
    · exact ih he

/-- Each zone is handed over once at most. -/
theorem handedOver_nodup (hp : curingSound p) : ((handedOver g p).map fun h => (h.bed, h.zone)).Nodup := by
  have hsub : ((handedOver g p).map fun h => (h.bed, h.zone)).Sublist (zonesIn p.cc.contexts) := by
    rw [handedOver, List.map_flatMap]
    refine List.Sublist.flatMap_right _ fun c _ => ?_
    rw [handedBy, List.map_map]
    exact List.filter_sublist.map _
  exact hsub.nodup (zonesIn_nodup (risingContexts_of_sound hp))

/-- The grant read for a zone is the one made to it. -/
theorem grantOf_of_mem {gs : List (Handed × Nat)} (hgs : (gs.map fun e => (e.1.bed, e.1.zone)).Nodup) {e : Handed × Nat}
    (he : e ∈ gs) : grantOf gs e.1.bed e.1.zone = e.2 := by
  rcases grantOf_cases gs e.1.bed e.1.zone with ⟨h, hmem, hbed, hzone⟩ | ⟨-, hnone⟩
  · have hkey : (h.bed, h.zone) = (e.1.bed, e.1.zone) := Prod.ext hbed hzone
    exact congrArg Prod.snd (List.inj_on_of_nodup_map hgs hmem he hkey)
  · exact absurd ⟨rfl, rfl⟩ (hnone e he)

theorem grantsOf_nodup (hp : curingSound p) : ((grantsOf g p).map fun e => (e.1.bed, e.1.zone)).Nodup := by
  have hkeys : (grantsOf g p).map (fun e => (e.1.bed, e.1.zone)) =
      (serviceOrder (handedOver g p)).map fun h => (h.bed, h.zone) := by
    rw [← map_fst_grantAll (100 * g.boiler) (serviceOrder (handedOver g p)), List.map_map]
    rfl
  rw [hkeys]
  exact ((serviceOrder_perm _).map _).nodup_iff.mpr (handedOver_nodup hp)

/-- A grant of the allocation is to a zone whose request it is of. -/
theorem mem_grantsOf (hp : curingSound p) {e : Handed × Nat} (he : e ∈ grantsOf g p) : ∃ ctx r, contextOf p e.1.bed = some ctx ∧
    Map.find ctx.zones e.1.zone = some r ∧ e.1.request = r.request ∧ grantOf (grantsOf g p) e.1.bed e.1.zone = e.2 := by
  have hmem : e.1 ∈ handedOver g p := mem_handed_iff_granted.mpr ⟨e.2, he⟩
  obtain ⟨ctx, r, hctx, hr, -, -, -, hrequest, -⟩ := (mem_handedOver hp).mp hmem
  exact ⟨ctx, r, hctx, hr, hrequest, grantOf_of_mem (grantsOf_nodup hp) he⟩

theorem grantOf_le_request (hp : curingSound p) (hctx : contextOf p b = some ctx) (hr : Map.find ctx.zones z = some r) :
    grantOf (grantsOf g p) b z ≤ r.request := by
  rcases grantOf_cases (grantsOf g p) b z with ⟨h, hmem, rfl, rfl⟩ | ⟨hzero, -⟩
  · obtain ⟨ctx', r', hctx', hr', hrequest, -⟩ := mem_grantsOf hp hmem
    cases hctx.symm.trans hctx'
    cases hr.symm.trans hr'
    exact hrequest ▸ grant_le_request hmem
  · omega

/-- A bed is starved exactly where a zone of it is granted less than its request (R81). -/
theorem bedStarved_iff (hp : curingSound p) (hctx : contextOf p b = some ctx) : bedStarved (grantsOf g p) b = true ↔
    ∃ z r, Map.find ctx.zones z = some r ∧ grantOf (grantsOf g p) b z < r.request := by
  simp only [bedStarved, List.any_eq_true, Bool.and_eq_true, beq_iff_eq, isShort, decide_eq_true_eq]
  constructor
  · rintro ⟨e, he, rfl, hshort⟩
    obtain ⟨ctx', r, hctx', hr, hrequest, hgrant⟩ := mem_grantsOf hp he
    cases hctx.symm.trans hctx'
    exact ⟨e.1.zone, r, hr, by rw [hgrant, ← hrequest]; exact hshort⟩
  · rintro ⟨z, r, hr, hshort⟩
    obtain ⟨-, hasked⟩ := grantOf_handedOver (g := g) (cap := 100 * g.boiler) hp hctx hr
    obtain ⟨h, hmem, rfl, rfl⟩ := hasked (by omega)
    obtain ⟨ctx', r', hctx', hr', hrequest, -⟩ := mem_grantsOf hp hmem
    cases hctx.symm.trans hctx'
    cases hr.symm.trans hr'
    exact ⟨_, hmem, rfl, hrequest ▸ hshort⟩

end grants

/-! ### Stage 7 by mode (R79 to R84, R87, R88) -/

section stage7

variable {g : Store} {p : Part} {b z : Nat} {ctx : Context} {r : ZoneCuring}

/-- A zone's grant after stage 7. -/
def grantFor (mode : Mode) (gs : List (Handed × Nat)) (b z : Nat) (r : ZoneCuring) : Nat :=
  match mode with
  | .run => grantOf gs b z
  | .watch => r.grant
  | .setup => 0

/-- A context after stage 7. -/
def servedContext (mode : Mode) (g : Store) (gs : List (Handed × Nat)) (b : Nat) (ctx : Context) : Context :=
  match mode with
  | .run => allocatedContext g gs b ctx
  | .watch => ctx
  | .setup => { withGrants (fun _ => 0) ctx with starved := ctx.zones.any fun z => decide (0 < z.2.request) }

/-- Stage 7 changes of a context its zones' grants, its starved bit and its starved count. -/
theorem servedContext_eq (mode : Mode) (gs : List (Handed × Nat)) : servedContext mode g gs b ctx = { ctx with
    starved := (servedContext mode g gs b ctx).starved, starvedCount := (servedContext mode g gs b ctx).starvedCount,
    zones := Map.mapRecords (fun z r => { r with grant := grantFor mode gs b z r }) ctx.zones } := by
  cases mode with
  | run => rfl
  | setup => rfl
  | watch =>
    have hsame : Map.mapRecords (fun z r => { r with grant := grantFor .watch gs b z r }) ctx.zones = ctx.zones :=
      List.map_id' ctx.zones
    rw [hsame]
    rfl

theorem stage7_contexts (hp : risingContexts p.cc.contexts) :
    (stage7 g p).cc.contexts = Map.mapRecords (servedContext p.mc.mode g (grantsOf g p)) p.cc.contexts ∧
    (stage7 g p).cc.timer = p.cc.timer := by
  unfold stage7
  cases hmode : p.mc.mode with
  | run =>
    dsimp only
    rw [allocate_cc hp]
    exact ⟨rfl, rfl⟩
  | watch => exact ⟨(List.map_id' p.cc.contexts).symm, rfl⟩
  | setup => exact ⟨rfl, rfl⟩

/-- What stage 7 leaves of BS and SM, and that it brings no pour under review. -/
theorem reviewed_stage7 (hp : risingContexts p.cc.contexts) :
    Reviewed p (stage7 g p) ∧ ∀ n, pourReviewed (stage7 g p) n = pourReviewed p n := by
  unfold stage7
  cases hmode : p.mc.mode with
  | run => exact reviewed_allocate hp
  | watch => exact ⟨.of_same rfl rfl rfl, fun _ => rfl⟩
  | setup => exact ⟨.of_same rfl rfl rfl, fun _ => rfl⟩

end stage7

/-! ### A zone's command stands through the end of an event -/

section remains

variable {g : Store} {base addr : Nat} {cmd : FieldCmd} {p q : Part}

/-- A command stands for a node that is in the table, and exchanges that begin have numbers from `base` on. -/
structure Remains (base addr : Nat) (cmd : FieldCmd) (p : Part) : Prop where
  stands : Stands base addr cmd p
  known : (nodeOf p addr).isSome
  begun : base ≤ p.fl.serial

theorem Remains.of_traffic {mine : Set CraneId} (h : Remains base addr cmd p) (k : Traffic mine p q)
    (hstands : Stands base addr cmd q) : Remains base addr cmd q :=
  ⟨hstands, by rw [nodeOf_congr k.nodes]; exact h.known, h.begun.trans k.serial⟩

theorem Remains.same (h : Remains base addr cmd p) (hfl : q.fl = p.fl) : Remains base addr cmd q :=
  ⟨h.stands.congr (by rw [hfl]) (by rw [hfl]), by rw [nodeOf_congr (p := p) (by rw [hfl])]; exact h.known, by rw [hfl]; exact h.begun⟩

theorem Remains.then_putCrane (h : Remains base addr cmd p) (c : CraneId) (r : Crane) : Remains base addr cmd (putCrane c r p) :=
  h.same (putCrane_fl c r)

variable (hcranes : noCraneAt g addr)
include hcranes

theorem Remains.then_offer (h : Remains base addr cmd p) {e : Entry} (he : e.addr ≠ addr) :
    Remains base addr cmd (offer g e p).2 :=
  h.of_traffic ((Traffic.refl (mine := Set.univ) p).then_offer e) (h.stands.offer_other hcranes h.known h.begun he)

theorem Remains.then_offerStep (h : Remains base addr cmd p) (c : CraneId) (step : FieldCmd) :
    Remains base addr cmd (offerStep g c step p) := by
  unfold offerStep
  split
  · next a ha =>
    have offered := h.then_offer hcranes (e := ⟨a, step, .cs c⟩) fun heq => hcranes c (heq ▸ ha)
    unfold commandAnswered
    split <;> exact offered.then_putCrane c _
  · exact h

theorem Remains.then_offerPlain (h : Remains base addr cmd p) (c : CraneId) (plain : FieldCmd) :
    Remains base addr cmd (offerPlain g c plain p) := by
  unfold offerPlain
  split
  · next a ha =>
    have offered := h.then_offer hcranes (e := ⟨a, plain, .cs c⟩) fun heq => hcranes c (heq ▸ ha)
    unfold plainAnswered
    split <;> exact offered.then_putCrane c _
  · exact h

omit hcranes in
theorem enterState_link (c : CraneId) (r : Crane) (p : Part) :
    (enterState g c r p).fl.queue = p.fl.queue ∧ (enterState g c r p).fl.line = p.fl.line := by
  unfold enterState
  dsimp only
  split
  · cases c <;> exact ⟨rfl, rfl⟩
  · split <;> cases c <;> exact ⟨rfl, rfl⟩

omit hcranes in
theorem Remains.then_enterState (h : Remains base addr cmd p) (c : CraneId) (r : Crane) :
    Remains base addr cmd (enterState g c r p) :=
  h.of_traffic ((Traffic.refl (mine := Set.univ) p).then_enterState (Set.mem_univ c) r)
    (h.stands.congr (enterState_link c r p).1 (enterState_link c r p).2)

theorem Remains.then_takeMove (h : Remains base addr cmd p) (c : CraneId) (m : Move) :
    Remains base addr cmd (takeMove g c m p) :=
  ((h.then_putCrane c _).then_enterState c _).then_offerStep hcranes c _

theorem Remains.then_withdraw (h : Remains base addr cmd p) (c : CraneId) : Remains base addr cmd (withdraw g c p) := by
  refine h.of_traffic ((Traffic.refl (mine := Set.univ) p).then_withdraw c) ?_
  unfold withdraw
  split
  · exact h.stands
  · next a ha =>
    have hne : addr ≠ a := fun heq => hcranes c (heq ▸ ha)
    have marked : Stands base addr cmd { p with fl := { p.fl with
        queue := p.fl.queue.filter fun e => !(e.addr == a && isMotionCommand e.cmd),
        line := p.fl.line.map (markWithdrawn a), waiting := p.fl.waiting.map (markWithdrawn a) } } := by
      rcases h.stands with ⟨⟨e, he, haddr, hcmd⟩, honly⟩ | ⟨ex, hline, haddr, hcmd, hattempt, hid⟩
      · refine .inl ⟨⟨e, List.mem_filter.mpr ⟨he, ?_⟩, haddr, hcmd⟩, fun x hx => honly x (List.mem_of_mem_filter hx)⟩
        simp [haddr, hne]
      · refine .inr ⟨markWithdrawn a ex, by rw [hline]; rfl, ?_⟩
        unfold markWithdrawn
        split <;> exact ⟨haddr, hcmd, hattempt, hid⟩
    dsimp only
    split
    · exact marked.entryFreed hcranes.silent
    · exact marked

theorem Remains.then_haltMove (h : Remains base addr cmd p) (c : CraneId) : Remains base addr cmd (haltMove g c p) := by
  have quiet := (h.then_putCrane c { craneOf p c with command := none, kept := none }).then_withdraw hcranes c
  have halted := quiet.then_offerPlain hcranes c .stop
  unfold haltMove
  refine Remains.same (Remains.then_enterState ?_ c _) rfl
  dsimp only
  split
  · exact halted.then_offerPlain hcranes c .lower
  · exact halted

theorem Remains.then_withdrawShip (h : Remains base addr cmd p) (m : Move) : Remains base addr cmd (withdrawShip g m p) := by
  unfold withdrawShip
  split
  · next c _ _ _ _ =>
    split
    · exact h
    · exact (h.then_haltMove hcranes c).same (by simp)
  · exact h

theorem Remains.then_reviewShip (h : Remains base addr cmd p) (mark : Nat) : Remains base addr cmd (reviewShip g p mark) := by
  unfold reviewShip
  split
  · exact h
  · split
    · exact h
    · split
      · exact h
      · split
        · exact h.then_withdrawShip hcranes _
        · exact h

/-! The scan. -/

theorem Remains.then_visit {w : Walk} (h : Remains base addr cmd w.part) (n : Nat) :
    Remains base addr cmd (visit g w n).part := by
  unfold visit
  split
  · exact h
  · split
    · exact h
    · split
      · dsimp only
        split
        · exact Remains.then_takeMove hcranes (h.same (by simp)) _ _
        · exact h
      · exact h

theorem Remains.then_giveWay (h : Remains base addr cmd p) (first : Option Nat) : Remains base addr cmd (giveWay g first p) := by
  unfold giveWay
  split
  · exact h
  · split
    · exact h
    · split
      · split
        · exact Remains.then_takeMove hcranes (h.same (by simp)) _ _
        · exact h
      · exact h

theorem Remains.then_scan (h : Remains base addr cmd p) : Remains base addr cmd (scan g p) := by
  have walked (l : List Nat) : ∀ w : Walk, Remains base addr cmd w.part → Remains base addr cmd (l.foldl (visit g) w).part := by
    induction l with
    | nil => exact fun _ h => h
    | cons n l ih => exact fun w h => ih _ (h.then_visit hcranes n)
  have visited := walked (p.mp.queue.map (·.number)) { part := p, dispatched := false, first := none } h
  unfold scan
  dsimp only
  split
  · exact visited
  · exact visited.then_giveWay hcranes _

/-- The end of an event leaves a zone's command as it stands: it is withdrawn by no SHIP move's crane, and replaced by none. -/
theorem Remains.then_endOfEvent (h : Remains base addr cmd p) : Remains base addr cmd (endOfEvent g p) := by
  have reviewed : Remains base addr cmd (p.evt.changed.foldl (reviewShip g) p) :=
    List.foldlRecOn _ _ h fun _ hq mark _ => hq.then_reviewShip hcranes mark
  unfold endOfEvent
  refine Remains.same (p := if _ then _ else _) ?_ rfl
  split
  · exact reviewed.then_scan hcranes
  · exact reviewed

end remains

/-- A zone's command that stands when an event's own changes are made is on its line or queued at the event's end. -/
theorem endedFrom.offered {s t : State} {p : Part} (h : endedFrom s t p) {addr : Nat} {cmd : FieldCmd}
    (hcranes : noCraneAt s.store addr) (hp : Remains s.fl.serial addr cmd p) : offered s t addr cmd := by
  obtain ⟨replies, rfl⟩ := h
  have queued : Remains s.fl.serial addr cmd (withReplies replies p) := hp.same rfl
  exact ((queued.then_endOfEvent hcranes).same (q := sendNext _) rfl).stands.offered

/-! ### The eight stages together (R55) -/

section expiry

variable {g : Store} {dt : Nat} {p : Part} {b z : Nat} {ctx : Context} {r : ZoneCuring}

/-- The part before stage 8. -/
abbrev allottedPart (g : Store) (dt : Nat) (p : Part) : Part := stage7 g (askedPart g dt p)

/-- A context after the expiry. -/
def finalContext (g : Store) (dt : Nat) (p : Part) (b : Nat) (ctx : Context) : Context :=
  { servedContext p.mc.mode g (grantsOf g (askedPart g dt p)) b (askedContext g dt p b ctx) with fresh := false }

theorem stage8_cc (q : Part) : (stage8 g q).cc = { q.cc with valves := (stage8 g q).cc.valves } := by
  unfold stage8
  split
  · rfl
  · exact heat_offerValves

/-- CC's records after the expiry: the contexts served, and the rest as stages 7 and 8 leave it. -/
theorem serveContexts_cc (hp : curingSound p) : (serveContexts g dt p).cc = { (allottedPart g dt p).cc with
    contexts := Map.mapRecords (finalContext g dt p) p.cc.contexts
    valves := (stage8 g (allottedPart g dt p)).cc.valves } := by
  have hmode : (askedPart g dt p).mc.mode = p.mc.mode := by rw [askedPart_keeps.1]
  have hcontexts : (allottedPart g dt p).cc.contexts = Map.mapRecords (fun b ctx => servedContext p.mc.mode g
      (grantsOf g (askedPart g dt p)) b (askedContext g dt p b ctx)) p.cc.contexts := by
    rw [allottedPart, (stage7_contexts (risingContexts_asked hp)).1, hmode, askedPart_cc hp]
    exact mapRecords_mapRecords _ _ _
  have hserved : (serveContexts g dt p).cc = { (stage8 g (allottedPart g dt p)).cc with
      contexts := Map.mapRecords (fun _ ctx => { ctx with fresh := false }) (stage8 g (allottedPart g dt p)).cc.contexts } := rfl
  rw [hserved, stage8_cc]
  dsimp only
  rw [hcontexts, mapRecords_mapRecords]
  rfl

theorem contextOf_final (hp : curingSound p) :
    contextOf (serveContexts g dt p) b = (contextOf p b).map (finalContext g dt p b) := by
  rw [contextOf, serveContexts_cc hp]
  exact Map.find_mapRecords _ _ _

theorem serveContexts_timer (hp : curingSound p) : (serveContexts g dt p).cc.timer = p.cc.timer := by
  rw [serveContexts_cc hp]
  dsimp only
  rw [allottedPart, (stage7_contexts (risingContexts_asked hp)).2, askedPart_cc hp]

/-! What the expiry leaves of BS, SM and CL. -/

theorem Reviewed.rebased {o p q : Part} (h : Reviewed p q) (hpours : p.bs.pours = o.bs.pours) (hseq : p.bs.seq = o.bs.seq)
    (hpieces : p.sm.pieces = o.sm.pieces) (hraised : Raised o.cl p.cl) :
    Reviewed o { q with bs := { q.bs with beds := o.bs.beds } } := by
  have hpour (n : Nat) : pourOf p n = pourOf o n := by rw [pourOf, hpours, pourOf]
  have hreviewed (n : Nat) : pourReviewed p n = pourReviewed o n := by rw [pourReviewed, hpour]
  refine ⟨rfl, h.seq.trans hseq, fun n => (h.states n).trans (by rw [hpour]), fun n hn => h.flags n ((hreviewed n).trans hn),
    fun mark => (h.pieces mark).trans ?_, hraised.trans h.raised⟩
  rw [pieceOf_congr hpieces]
  refine congrArg (fun k => (pieceOf o mark).map k) (funext fun x => ?_)
  simp only [heldSince, hreviewed]
  rfl

theorem Reviewed.unbased {o q : Part} {beds : Map Bed} (h : Reviewed o { q with bs := { q.bs with beds := beds } }) (mark : Nat) :
    pieceOf q mark = (pieceOf o mark).map (heldSince o q) := h.pieces mark

theorem stage8_part (q : Part) : (stage8 g q).bs = q.bs ∧ (stage8 g q).sm = q.sm ∧ (stage8 g q).cl = q.cl := by simp

theorem serveContexts_eq : serveContexts g dt p = mapContexts (fun _ ctx => { ctx with fresh := false }) (stage8 g (allottedPart g dt p)) :=
  rfl

theorem serveContexts_casting : (serveContexts g dt p).bs = (allottedPart g dt p).bs ∧
    (serveContexts g dt p).sm = (allottedPart g dt p).sm ∧ (serveContexts g dt p).cl = (allottedPart g dt p).cl := by
  rw [serveContexts_eq]
  exact stage8_part _

theorem askedPart_casting (hp : curingSound p) : (askedPart g dt p).bs.pours = (edgedPart g dt p).bs.pours ∧
    (askedPart g dt p).bs.seq = (edgedPart g dt p).bs.seq ∧ (askedPart g dt p).sm.pieces = (edgedPart g dt p).sm.pieces ∧
    Raised (edgedPart g dt p).cl (askedPart g dt p).cl := by
  obtain ⟨hpours, hseq, hraised, -⟩ := takeAll_keeps
    ((Map.keys (edgedPart g dt p).cc.contexts).flatMap (phaseDue g (resolutions g dt p) dt (edgedPart g dt p))) (edgedPart g dt p)
  have hstepped := stage4_eq (g := g) (rs := resolutions g dt p) (dt := dt) (risingContexts_cured (g := g) (dt := dt) hp)
  have hpieces : (askedPart g dt p).sm.pieces = (edgedPart g dt p).sm.pieces := by
    rw [askedPart, (stage6_keeps _ _ _).2.2.2.1, steppedPart, (stage4_keeps _ _ _ _).2.2.1]
  rw [askedPart, (stage6_keeps _ _ _).2.1, (stage6_keeps _ _ _).2.2.2.2.2.2.2.2.1] at *
  rw [steppedPart, hstepped] at *
  exact ⟨hpours, hseq, hpieces, hraised⟩

/-- What stages 7 and 8 leave of the pours and pieces, and that they bring no pour under review. -/
theorem reviewed_allotted (hp : curingSound p) : Reviewed (askedPart g dt p) (serveContexts g dt p) ∧
    ∀ n, pourReviewed (serveContexts g dt p) n = pourReviewed (askedPart g dt p) n := by
  obtain ⟨hreviewed, hflags⟩ := reviewed_stage7 (g := g) (risingContexts_asked (g := g) (dt := dt) hp)
  obtain ⟨hbs, hsm, hcl⟩ := serveContexts_casting (g := g) (dt := dt) (p := p)
  have hlast : Reviewed (allottedPart g dt p) (serveContexts g dt p) := .of_same hbs (congrArg StockMap.pieces hsm) hcl
  have hboth := hreviewed.trans hlast
  refine ⟨hboth, fun n => ?_⟩
  have hserved : pourReviewed (serveContexts g dt p) n = pourReviewed (allottedPart g dt p) n := by rw [pourReviewed, pourOf_congr hbs]
  exact hserved.trans (hflags n)

/-- What stages 4 to 8 leave of the pours and pieces that stage 3 leaves, and of the notices raised. -/
theorem reviewed_later (hp : curingSound p) :
    Reviewed (edgedPart g dt p) { serveContexts g dt p with bs := { (serveContexts g dt p).bs with beds := (edgedPart g dt p).bs.beds } } ∧
    ∀ n, pourReviewed (serveContexts g dt p) n = pourReviewed (edgedPart g dt p) n := by
  obtain ⟨hpours, hseq, hpieces, hraised⟩ := askedPart_casting (g := g) (dt := dt) hp
  obtain ⟨hreviewed, hflags⟩ := reviewed_allotted (g := g) (dt := dt) hp
  have hrebased := hreviewed.rebased hpours hseq hpieces hraised
  have hasked (n : Nat) : pourReviewed (askedPart g dt p) n = pourReviewed (edgedPart g dt p) n := by
    rw [pourReviewed, pourReviewed, pourOf, hpours, pourOf]
  exact ⟨hrebased, fun n => (hflags n).trans (hasked n)⟩

/-- What the expiry leaves of the pours and pieces, and of the notices raised (R34, R102). -/
theorem reviewed_serveContexts (hp : curingSound p) :
    Reviewed p { serveContexts g dt p with bs := { (serveContexts g dt p).bs with beds := (edgedPart g dt p).bs.beds } } := by
  have hcredited : Reviewed p (creditedPart g dt p) := .of_same (by simp) (by simp) (by simp)
  have hedged : Reviewed (creditedPart g dt p) (edgedPart g dt p) := by
    have hreviewed := reviewed_reportAll g ((curedZones (creditedPart g dt p)).flatMap
      (zoneDue g (resolutions g dt p) (creditedPart g dt p))) (creditedPart g dt p)
    rw [edgedPart, stage3_eq (risingContexts_credited hp)]
    exact hreviewed.trans (.of_same rfl rfl rfl)
  exact (hcredited.trans hedged).trans (reviewed_later hp).1

end expiry

/-! ### The deviations that an expiry reports (R34, R58, R62, R63) -/

section reports

variable {g : Store} {dt : Nat} {p : Part} {b z n : Nat} {ctx : Context} {r : ZoneCuring} {q : Product}

/-- A context's curing minutes after stage 2. -/
abbrev minutesAfter (dt : Nat) (ctx : Context) : Nat :=
  min 65535 (min 4294967295 (ctx.curingTime + deltaFor dt ctx) / 60)

/-- The reports of stage 3. -/
abbrev expiryReports (g : Store) (dt : Nat) (p : Part) : List (Nat × Nat × Deviation) :=
  (curedZones (creditedPart g dt p)).flatMap (zoneDue g (resolutions g dt p) (creditedPart g dt p))

theorem contextOf_credited (hp : curingSound p) :
    contextOf (creditedPart g dt p) b = (contextOf p b).map (creditedContext g dt p b) := by
  rw [contextOf, creditedPart_cc hp]
  exact Map.find_mapRecords _ _ _

theorem edgeReports_credited (hp : curingSound p) (hctx : contextOf p b = some ctx) (hr : Map.find ctx.zones z = some r)
    (hq : product g ctx.product = some q) :
    edgeReports g (resolutions g dt p) b (creditedContext g dt p b ctx) z (creditedRecord g dt p b ctx z r) =
      reportsDue g q ctx.phase (minutesAfter dt ctx) z (outcomeOf g (dt * 1000) p b z) r := by
  rw [edgeReports, tempOf_stage1 hp (zoneIn_of_find hctx hr)]
  exact edgeReports_eq hq _

theorem mem_expiryReports (hp : curingSound p) {e : Nat × Nat × Deviation} : e ∈ expiryReports g dt p ↔
    ∃ ctx z r, contextOf p e.1 = some ctx ∧ Map.find ctx.zones z = some r ∧ e.2.1 = ctx.pour ∧
      e.2.2 ∈ edgeReports g (resolutions g dt p) e.1 (creditedContext g dt p e.1 ctx) z (creditedRecord g dt p e.1 ctx z r) := by
  rw [expiryReports, List.mem_flatMap]
  simp only [mem_zoneDue, contextOf_credited hp, Option.map_eq_some_iff]
  constructor
  · rintro ⟨⟨bed, z⟩, -, c, r', ⟨ctx, hctx, rfl⟩, hr', hbed, hpour, hreport⟩
    obtain rfl : e.1 = bed := hbed
    have hkey : z ∈ Map.keys ctx.zones := keys_creditedContext (g := g) (dt := dt) (p := p) (b := e.1) ▸ mem_keys_of_find hr'
    obtain ⟨r, hr⟩ := Option.isSome_iff_exists.mp (find_isSome_of_mem_keys hkey)
    obtain rfl := Option.some.inj ((find_creditedContext hp hctx hr).symm.trans hr')
    exact ⟨ctx, z, r, hctx, hr, hpour, hreport⟩
  · rintro ⟨ctx, z, r, hctx, hr, hpour, hreport⟩
    have hfound := find_creditedContext (g := g) (dt := dt) hp hctx hr
    refine ⟨(e.1, z), ?_, _, _, ⟨ctx, hctx, rfl⟩, hfound, rfl, hpour, hreport⟩
    exact (mem_zonesIn (risingContexts_credited hp)).mpr
      ⟨_, (contextOf_credited hp).trans (by rw [hctx]; rfl), mem_keys_of_find hfound⟩

theorem creditedPart_casting : (creditedPart g dt p).bs = p.bs ∧ (creditedPart g dt p).cl = p.cl := by simp

theorem edgedPart_casting (hp : curingSound p) : (edgedPart g dt p).bs = (reportAll g (expiryReports g dt p) (creditedPart g dt p)).bs ∧
    (edgedPart g dt p).cl = (reportAll g (expiryReports g dt p) (creditedPart g dt p)).cl := by
  rw [edgedPart, stage3_eq (risingContexts_credited hp)]
  exact ⟨rfl, rfl⟩

/-- A pour comes under review at an expiry by a deviation due of a zone of its bed. -/
theorem review_cause (hp : curingSound p) (hall : ∀ e ∈ p.cc.contexts, (product g e.2.product).isSome)
    (hreview : pourReviewed (edgedPart g dt p) n = true) : pourReviewed p n = true ∨
      ∃ bed ctx q zone r, contextOf p bed = some ctx ∧ ctx.pour = n ∧ product g ctx.product = some q ∧
        Map.find ctx.zones zone = some r ∧
        reportsDue g q ctx.phase (minutesAfter dt ctx) zone (outcomeOf g (dt * 1000) p bed zone) r ≠ [] := by
  refine or_iff_not_imp_left.mpr fun hbefore => ?_
  rw [pourReviewed, pourOf_congr (edgedPart_casting hp).1] at hreview
  obtain ⟨e, he, hpour, -⟩ := reviewed_by_report hreview (by rwa [pourReviewed, pourOf_congr creditedPart_casting.1])
  obtain ⟨ctx, z, r, hctx, hr, hpour', hreport⟩ := (mem_expiryReports hp).mp he
  obtain ⟨q, hq⟩ := Option.isSome_iff_exists.mp (hall _ (Map.mem_of_find hctx))
  rw [edgeReports_credited hp hctx hr hq] at hreport
  exact ⟨e.1, ctx, q, z, r, hctx, hpour'.symm.trans hpour, hq, hr, List.ne_nil_of_mem hreport⟩

theorem isReview_of_due {phase : Phase} {minutes : Nat} {out : ZoneResult} {d : Deviation}
    (hd : d ∈ reportsDue g q phase minutes z out r) : d.kind.isReview = true := by
  unfold reportsDue at hd
  split at hd
  · cases hd
  · split at hd
    · split at hd
      · cases hd
      · rw [List.mem_singleton.mp hd]
        rfl
    · rcases List.mem_append.mp hd with hd | hd <;> split at hd
      · rw [List.mem_singleton.mp hd]
        rfl
      · cases hd
      · rw [List.mem_singleton.mp hd]
        rfl
      · cases hd

/-- A deviation due that BS hears is told, and brings its pour under review. -/
theorem reported_due (hp : curingSound p) (hctx : contextOf p b = some ctx) (hr : Map.find ctx.zones z = some r)
    (hq : product g ctx.product = some q) {d : Deviation}
    (hd : d ∈ reportsDue g q ctx.phase (minutesAfter dt ctx) z (outcomeOf g (dt * 1000) p b z) r)
    (hheard : deviationHeard p b ctx.pour = true) : pourReviewed (edgedPart g dt p) ctx.pour = true ∧
      ∃ k, Tells [.deviation b ctx.pour d k] p.cl (edgedPart g dt p).cl := by
  have hmem : (b, ctx.pour, d) ∈ expiryReports g dt p :=
    (mem_expiryReports hp).mpr ⟨ctx, z, r, hctx, hr, rfl, by rwa [edgeReports_credited hp hctx hr hq]⟩
  obtain ⟨hbs, hcl⟩ := creditedPart_casting (g := g) (dt := dt) (p := p)
  obtain ⟨hflag, k, htells⟩ := reportAll_heard (g := g) (p := creditedPart g dt p) hmem
    ((deviationHeard_congr hbs b ctx.pour).trans hheard)
  obtain ⟨ebs, ecl⟩ := edgedPart_casting (g := g) (dt := dt) hp
  refine ⟨?_, k, ?_⟩
  · rw [pourReviewed, pourOf_congr ebs]
    exact hflag (isReview_of_due hd)
  · rw [ecl, ← hcl]
    exact htells

end reports

/-! ### The beds and the notices of phases (R27, R65, R70) -/

section beds

variable {g : Store} {dt : Nat} {p : Part} {b : Nat} {ctx : Context}

theorem bedOf_edged (hp : curingSound p) : bedOf (edgedPart g dt p) b = bedOf p b := by
  have hbeds := (reviewed_reportAll g (expiryReports g dt p) (creditedPart g dt p)).beds
  rw [bedOf, (edgedPart_casting hp).1, hbeds, creditedPart_casting.1, bedOf]

theorem bedOf_final (hp : curingSound p) : bedOf (serveContexts g dt p) b = bedOf (steppedPart g dt p) b := by
  have hbeds := (reviewed_allotted (g := g) (dt := dt) hp).1.beds
  have hasked : (askedPart g dt p).bs = (steppedPart g dt p).bs := (stage6_keeps _ _ _).2.1
  rw [bedOf, hbeds, hasked, bedOf]

/-- A bed with no curing context stays as it is. -/
theorem bedOf_final_other (hp : curingSound p) (hctx : contextOf p b = none) : bedOf (serveContexts g dt p) b = bedOf p b := by
  rw [bedOf_final hp, stage4_other (risingContexts_cured hp), bedOf_edged hp]
  rw [contextOf_edged hp, hctx]
  rfl

/-- A CURING bed whose COOL ends becomes READY, and its reports of phases are told. -/
theorem bedOf_final_curing (hp : curingSound p) (hctx : contextOf p b = some ctx) :
    bedOf (serveContexts g dt p) b = { bedOf p b with
      state := if (bedOf p b).state = .curing ∧ endsCool ctx (steppedContext g dt p b ctx) then .ready else (bedOf p b).state } ∧
    ((bedOf p b).state = .curing →
      Tells ((stage4Of g (resolutions g dt p) dt b (curedContext g dt p b ctx)).2.map (phaseNotice b ctx.pour))
        (edgedPart g dt p).cl (steppedPart g dt p).cl) := by
  have hcured : contextOf (edgedPart g dt p) b = some (curedContext g dt p b ctx) := by rw [contextOf_edged hp, hctx]; rfl
  obtain ⟨hbed, htells⟩ := stage4_bed (g := g) (rs := resolutions g dt p) (dt := dt) (risingContexts_cured hp) hcured
  rw [bedOf_edged hp] at hbed htells
  exact ⟨(bedOf_final hp).trans hbed, htells⟩

/-- The notices: those of stage 3, those of stage 4, and those of the allocation. -/
theorem raised_expiry (hp : curingSound p) : Raised p.cl (edgedPart g dt p).cl ∧
    Raised (edgedPart g dt p).cl (steppedPart g dt p).cl ∧ Raised (steppedPart g dt p).cl (serveContexts g dt p).cl := by
  have hasked : (askedPart g dt p).cl = (steppedPart g dt p).cl := (stage6_keeps _ _ _).2.2.2.2.2.2.2.2.1
  refine ⟨?_, ?_, ?_⟩
  · rw [(edgedPart_casting hp).2, ← creditedPart_casting (g := g) (dt := dt).2]
    exact (reviewed_reportAll _ _ _).raised
  · rw [← hasked]
    exact (askedPart_casting hp).2.2.2
  · rw [← hasked]
    exact (reviewed_allotted hp).1.raised

end beds

/-! ### A context after the expiry -/

section final

variable {g : Store} {dt : Nat} {p : Part} {b z : Nat} {ctx : Context} {r : ZoneCuring} {q : Product}

/-- The grants of the expiry's allocation in RUN. -/
abbrev expiryGrants (g : Store) (dt : Nat) (p : Part) : List (Handed × Nat) := grantsOf g (askedPart g dt p)

/-- A zone's record after the expiry. -/
def finalRecord (g : Store) (dt : Nat) (p : Part) (b : Nat) (ctx : Context) (z : Nat) (r : ZoneCuring) : ZoneCuring :=
  { askedRecord g dt p b ctx z r with
    grant := grantFor p.mc.mode (expiryGrants g dt p) b z (askedRecord g dt p b ctx z r) }

/-- What stages 7 and 8 leave of a context after stages 1 to 6. -/
theorem finalContext_eq : finalContext g dt p b ctx = { askedContext g dt p b ctx with
    starved := (finalContext g dt p b ctx).starved, starvedCount := (finalContext g dt p b ctx).starvedCount, fresh := false,
    zones := Map.mapRecords (fun z r => { r with grant := grantFor p.mc.mode (expiryGrants g dt p) b z r })
      (askedContext g dt p b ctx).zones } := by
  unfold finalContext
  rw [servedContext_eq]

theorem zones_finalContext : (finalContext g dt p b ctx).zones =
    Map.mapRecords (fun z r => { r with grant := grantFor p.mc.mode (expiryGrants g dt p) b z r })
      (askedContext g dt p b ctx).zones := by rw [finalContext_eq]

theorem find_finalContext (hp : curingSound p) (hctx : contextOf p b = some ctx) (hr : Map.find ctx.zones z = some r) :
    Map.find (finalContext g dt p b ctx).zones z = some (finalRecord g dt p b ctx z r) := by
  rw [zones_finalContext, Map.find_mapRecords, find_askedContext hp hctx hr]
  rfl

theorem find_finalContext_none (hr : Map.find ctx.zones z = none) : Map.find (finalContext g dt p b ctx).zones z = none := by
  rw [zones_finalContext, Map.find_mapRecords, find_askedContext_none hr]
  rfl

theorem keys_finalContext : Map.keys (finalContext g dt p b ctx).zones = Map.keys ctx.zones := by
  rw [zones_finalContext, Map.keys_mapRecords, keys_askedContext]

/-- A zone of a context after the expiry is one of before. -/
theorem find_finalContext_cases (hp : curingSound p) (hctx : contextOf p b = some ctx) {x : ZoneCuring}
    (hx : Map.find (finalContext g dt p b ctx).zones z = some x) :
    ∃ r, Map.find ctx.zones z = some r ∧ x = finalRecord g dt p b ctx z r := by
  cases hr : Map.find ctx.zones z with
  | none =>
    rw [find_finalContext_none hr] at hx
    cases hx
  | some r => exact ⟨r, rfl, Option.some.inj (hx.symm.trans (find_finalContext hp hctx hr))⟩

/-- What the expiry leaves of a context, and how its time runs (R64). -/
theorem finalContext_keeps : (finalContext g dt p b ctx).pour = ctx.pour ∧ (finalContext g dt p b ctx).seq = ctx.seq ∧
    (finalContext g dt p b ctx).product = ctx.product ∧ (finalContext g dt p b ctx).fresh = false ∧
    (finalContext g dt p b ctx).curingTime = min 4294967295 (ctx.curingTime + deltaFor dt ctx) := by
  rw [finalContext_eq, askedContext_eq]
  exact ⟨rfl, rfl, rfl, rfl, rfl⟩

/-- Phase and setpoint after the expiry are those of stage 4. -/
theorem finalContext_stepped : (finalContext g dt p b ctx).phase = (steppedContext g dt p b ctx).phase ∧
    (finalContext g dt p b ctx).sp = (steppedContext g dt p b ctx).sp ∧
    (finalContext g dt p b ctx).remainder = (steppedContext g dt p b ctx).remainder ∧
    (finalContext g dt p b ctx).presetElapsed = (steppedContext g dt p b ctx).presetElapsed ∧
    (finalContext g dt p b ctx).repairPending = (steppedContext g dt p b ctx).repairPending := by
  rw [finalContext_eq]
  exact ⟨rfl, rfl, rfl, rfl, rfl⟩

theorem zones_finalContext_cured : ∃ k, keepsMaturity k ∧
    (finalContext g dt p b ctx).zones = Map.mapRecords k (curedContext g dt p b ctx).zones := by
  obtain ⟨k, hk, hzones⟩ := zones_askedContext (g := g) (dt := dt) (p := p) (b := b) (ctx := ctx)
  have hgrant : keepsMaturity fun z r => { r with grant := grantFor p.mc.mode (expiryGrants g dt p) b z r } := fun _ _ => ⟨rfl, rfl⟩
  refine ⟨_, hgrant.comp hk, ?_⟩
  rw [zones_finalContext, hzones, mapRecords_mapRecords]

/-- The bed maturity is that of stage 2 (R70). -/
theorem bedMaturity_final : bedMaturity (finalContext g dt p b ctx) = bedMaturity (curedContext g dt p b ctx) := by
  obtain ⟨k, hk, hzones⟩ := zones_finalContext_cured (g := g) (dt := dt) (p := p) (b := b) (ctx := ctx)
  rw [← bedMaturity_mapped hk (curedContext g dt p b ctx)]
  exact bedMaturity_congr hzones

/-- A zone's record after the expiry, by the one before. -/
theorem finalRecord_spec : (finalRecord g dt p b ctx z r).excluded = r.excluded ∧
    (finalRecord g dt p b ctx z r).acc = creditedMaturity g dt ctx (resolvedTo g (outcomeOf g (dt * 1000) p b z) r) r.acc ∧
    ∀ q, product g ctx.product = some q →
      zoneResolved g q ctx.phase (outcomeOf g (dt * 1000) p b z) r (finalRecord g dt p b ctx z r) ∧
      heatAsked g q (finalContext g dt p b ctx) (ratingOf g b z) (zoneLost g p b z)
        (resolvedTo g (outcomeOf g (dt * 1000) p b z) r) r (finalRecord g dt p b ctx z r) := by
  obtain ⟨hexcluded, -, hacc, hspec⟩ := askedRecord_spec (g := g) (dt := dt) (p := p) (b := b) (ctx := ctx) (z := z) (r := r)
  refine ⟨hexcluded, hacc, fun q hq => ?_⟩
  obtain ⟨hresolved, hasked⟩ := hspec q hq
  refine ⟨zoneResolved_congr hresolved rfl, ?_⟩
  unfold heatAsked at hasked ⊢
  obtain ⟨hphase, hsp, -⟩ := finalContext_stepped (g := g) (dt := dt) (p := p) (b := b) (ctx := ctx)
  rw [hphase, hsp]
  exact hasked

theorem curingSound_asked (hp : curingSound p) : curingSound (askedPart g dt p) := by
  have hrising := risingContexts_asked (g := g) (dt := dt) hp
  refine ⟨hrising.1, fun e he => ?_⟩
  rw [askedPart_cc hp] at he
  obtain ⟨d, hd, rfl⟩ := List.mem_map.mp he
  exact zonesSound_of_keys (hp.2 d hd) keys_askedContext

theorem contextOf_asked_some (hp : curingSound p) (hctx : contextOf p b = some ctx) :
    contextOf (askedPart g dt p) b = some (askedContext g dt p b ctx) := by rw [contextOf_asked hp, hctx, Option.map_some]

/-! What each mode's allocation leaves. -/

theorem finalContext_served : (finalContext g dt p b ctx).starved =
      (servedContext p.mc.mode g (expiryGrants g dt p) b (askedContext g dt p b ctx)).starved ∧
    (finalContext g dt p b ctx).starvedCount =
      (servedContext p.mc.mode g (expiryGrants g dt p) b (askedContext g dt p b ctx)).starvedCount := by
  rw [finalContext]
  exact ⟨rfl, rfl⟩

theorem finalRecord_setup (hmode : p.mc.mode = .setup) : (finalRecord g dt p b ctx z r).grant = 0 := by
  rw [finalRecord, hmode]
  rfl

theorem finalRecord_watch (hmode : p.mc.mode = .watch) : (finalRecord g dt p b ctx z r).grant =
    if endsCool ctx (finalContext g dt p b ctx) then 0 else r.grant := by
  have hgrant := askedRecord_spec (g := g) (dt := dt) (p := p) (b := b) (ctx := ctx) (z := z) (r := r).2.1
  rw [finalRecord, hmode]
  refine hgrant.trans ?_
  simp only [endsCool, finalContext_stepped.1]
  rfl

theorem grant_le_of_run (hp : curingSound p) (hctx : contextOf p b = some ctx) (hr : Map.find ctx.zones z = some r)
    (hmode : p.mc.mode = .run) : (finalRecord g dt p b ctx z r).grant ≤ (finalRecord g dt p b ctx z r).request := by
  have hle := grantOf_le_request (g := g) (curingSound_asked (g := g) hp) (contextOf_asked_some hp hctx) (find_askedContext (dt := dt) hp hctx hr)
  have hgrant : grantFor p.mc.mode (expiryGrants g dt p) b z (askedRecord g dt p b ctx z r) = grantOf (expiryGrants g dt p) b z := by
    rw [hmode, grantFor]
  exact hgrant.trans_le hle

theorem servedContext_run {gs : List (Handed × Nat)} {c : Context} : (servedContext .run g gs b c).starved = bedStarved gs b ∧
    (servedContext .run g gs b c).starvedCount = if bedStarved gs b ∧
      ((c.starvedCount + 1 : Nat) : Int) < g.plant.starveLimit then c.starvedCount + 1 else 0 := ⟨rfl, rfl⟩

/-- The starved judgement of an allocation in RUN (R81, R82). -/
theorem finalContext_run (hp : curingSound p) (hctx : contextOf p b = some ctx) (hmode : p.mc.mode = .run) :
    ((finalContext g dt p b ctx).starved = true ↔
      ∃ z k, Map.find (finalContext g dt p b ctx).zones z = some k ∧ k.grant < k.request) ∧
    (finalContext g dt p b ctx).starvedCount = if (finalContext g dt p b ctx).starved ∧
      ((ctx.starvedCount + 1 : Nat) : Int) < g.plant.starveLimit then ctx.starvedCount + 1 else 0 := by
  have hcount : (askedContext g dt p b ctx).starvedCount = ctx.starvedCount := by rw [askedContext_eq]
  have hstarved := bedStarved_iff (g := g) (curingSound_asked (g := g) (dt := dt) hp) (contextOf_asked_some hp hctx)
  have hfinal : (finalContext g dt p b ctx).starved = bedStarved (expiryGrants g dt p) b ∧
      (finalContext g dt p b ctx).starvedCount = if bedStarved (expiryGrants g dt p) b ∧
        (((askedContext g dt p b ctx).starvedCount + 1 : Nat) : Int) < g.plant.starveLimit
        then (askedContext g dt p b ctx).starvedCount + 1 else 0 := by
    obtain ⟨hbit, hruns⟩ := finalContext_served (g := g) (dt := dt) (p := p) (b := b) (ctx := ctx)
    rw [hbit, hruns, hmode, servedContext_run.1, servedContext_run.2]
    exact ⟨rfl, rfl⟩
  rw [hfinal.2, hfinal.1, hcount]
  refine ⟨?_, rfl⟩
  rw [hstarved]
  refine exists_congr fun z => ?_
  rw [zones_finalContext, Map.find_mapRecords, hmode]
  cases Map.find (askedContext g dt p b ctx).zones z <;> simp [grantFor]

theorem finalContext_watch (hmode : p.mc.mode = .watch) : (finalContext g dt p b ctx).starved = ctx.starved ∧
    (finalContext g dt p b ctx).starvedCount = ctx.starvedCount := by
  rw [finalContext, hmode]
  show (askedContext g dt p b ctx).starved = ctx.starved ∧ (askedContext g dt p b ctx).starvedCount = ctx.starvedCount
  rw [askedContext_eq]
  exact ⟨rfl, rfl⟩

theorem finalContext_setup (hp : curingSound p) (hctx : contextOf p b = some ctx) (hmode : p.mc.mode = .setup) :
    (finalContext g dt p b ctx).starvedCount = ctx.starvedCount ∧ ((finalContext g dt p b ctx).starved = true ↔
      ∃ z k, Map.find (finalContext g dt p b ctx).zones z = some k ∧ 0 < k.request) := by
  have hcount : (askedContext g dt p b ctx).starvedCount = ctx.starvedCount := by rw [askedContext_eq]
  have hfinal : (finalContext g dt p b ctx).starvedCount = (askedContext g dt p b ctx).starvedCount ∧
      (finalContext g dt p b ctx).starved = (askedContext g dt p b ctx).zones.any fun z => decide (0 < z.2.request) := by
    rw [finalContext, hmode]
    exact ⟨rfl, rfl⟩
  have hrising : Map.rising (askedContext g dt p b ctx).zones = true := by
    rw [Map.rising_iff, keys_askedContext, ← Map.rising_iff]
    exact (risingContexts_of_sound hp).2 b ctx hctx
  rw [hfinal.1, hfinal.2, hcount, zones_finalContext]
  refine ⟨rfl, ?_⟩
  simp only [List.any_eq_true, decide_eq_true_eq, Map.find_mapRecords, Option.map_eq_some_iff]
  constructor
  · rintro ⟨⟨z, x⟩, hmem, hpos⟩
    exact ⟨z, _, ⟨x, (find_eq_some_iff_mem hrising).mpr hmem, rfl⟩, hpos⟩
  · rintro ⟨z, -, ⟨x, hx, rfl⟩, hpos⟩
    exact ⟨(z, x), Map.mem_of_find hx, hpos⟩

end final

end Sys2Proof.Proofs
end

section
/-! PROOFS. A curing interval's expiry as an event: what stands at its end, bed by bed and by mode, and O30. -/

namespace Sys2Proof.Proofs

open Sys2Proof.Machine

/-! ### The expiry's event -/

section event

variable {s t : State} {bed zone : Nat} {ctx : Context} {r : ZoneCuring} {q : Product}

/-- The part that the expiry serves: the timer restarted, and nothing changed yet. -/
abbrev expiryStart (s : State) : Part := restartCuring s.store { s.toPart with evt := .none }

/-- The run that ended, in seconds. -/
abbrev ranFor (s : State) : Nat := s.cc.timer.length / 1000

/-- The part that the expiry leaves, before the end of its event. -/
abbrev expiredPart (s : State) : Part := serveContexts s.store (ranFor s) (expiryStart s)

/-- The context of a bed after the expiry. -/
abbrev contextAfter (s : State) (bed : Nat) (ctx : Context) : Context := finalContext s.store (ranFor s) (expiryStart s) bed ctx

/-- A zone's record after the expiry. -/
abbrev recordAfter (s : State) (bed : Nat) (ctx : Context) (zone : Nat) (r : ZoneCuring) : ZoneCuring :=
  finalRecord s.store (ranFor s) (expiryStart s) bed ctx zone r

/-- TU's result for a zone at the expiry. -/
abbrev outcomeAt (s : State) (bed zone : Nat) : ZoneResult := zoneOutcome s.store s.toPart (ranFor s * 1000) bed zone

theorem expiry_ended (hpower : s.mc.power = true) : endedFrom s (event (curingExpiry s.store) s) (expiredPart s) :=
  event_ended hpower (curingExpiry s.store)

variable (hc : curingSound s.toPart) (hended : endedFrom s t (expiredPart s))
include hc

omit hc in
theorem sound_expiryStart (hc : curingSound s.toPart) : curingSound (expiryStart s) := hc

section
include hended

/-- What the expiry leaves alone. -/
theorem expiry_keeps : t.store = s.store ∧ t.mc = s.mc ∧ t.tu.areas = s.tu.areas ∧ t.sm.timer = s.sm.timer ∧
    t.pending = s.pending ∧ (∀ n, (slotOf t.toPart n).stack = (slotOf s.toPart n).stack) ∧ t.bs.seq = s.bs.seq ∧
    t.cc.timer = .start (s.store.plant.curingInterval.toNat * 1000) := by
  obtain ⟨tmc, tbs, tcc, ttu, -, ttimer, -⟩ := hended.keeps
  obtain ⟨kmc, -, -, kslots, ktimer, -⟩ := serveContexts_keeps s.store (ranFor s) (expiryStart s)
  have htu : (expiredPart s).tu = (stage1 s.store (ranFor s * 1000) (expiryStart s)).1.tu := by simp [serveContexts]
  refine ⟨hended.store_eq, tmc.trans kmc, ?_, ttimer.trans ktimer, hended.pending_eq, fun n => (hended.sameStacks kslots n).1, ?_, ?_⟩
  · rw [ttu, htu]
    exact (formed_stage1 (sound_expiryStart hc)).areas
  · rw [tbs]
    exact (reviewed_serveContexts (g := s.store) (dt := ranFor s) (sound_expiryStart hc)).seq
  · rw [tcc, serveContexts_timer (sound_expiryStart hc)]
    rfl

/-- TU forms and stores each zone's result, and keeps its readings (R44, R56). -/
theorem expiry_results (hzone : zone ≤ 4) : zoneRecord t.toPart bed zone = (zoneRecord s.toPart bed zone).map fun r =>
    if (zoneIn s.toPart bed zone).isSome then { r with result := some (outcomeAt s bed zone), resultAge := 0 } else r := by
  obtain ⟨-, -, -, ttu, -⟩ := hended.keeps
  have htu : (expiredPart s).tu = (stage1 s.store (ranFor s * 1000) (expiryStart s)).1.tu := by simp [serveContexts]
  rw [zoneRecord, ttu, htu]
  exact zoneRecord_stage1 (sound_expiryStart hc) hzone

/-- The pieces of the pours that the expiry brings under review become HELD (R34, R102). -/
theorem expiry_pieces (mark : Nat) : pieceOf t.toPart mark = (pieceOf s.toPart mark).map (heldSince s.toPart t.toPart) := by
  obtain ⟨-, tbs, -, -, tpieces, -⟩ := hended.keeps
  have hpieces := (reviewed_serveContexts (g := s.store) (dt := ranFor s) (sound_expiryStart hc)).unbased mark
  have hreviewed (n : Nat) : pourReviewed t.toPart n = pourReviewed (expiredPart s) n := by rw [pourReviewed, pourOf_congr tbs]
  have hheld : heldSince s.toPart t.toPart = heldSince (expiryStart s) (expiredPart s) := by
    funext x
    simp only [heldSince, hreviewed]
    rfl
  rw [pieceOf_congr tpieces, hheld]
  exact hpieces

theorem pourReviewed_expiry (n : Nat) :
    pourReviewed t.toPart n = pourReviewed (edgedPart s.store (ranFor s) (expiryStart s)) n := by
  obtain ⟨-, tbs, -⟩ := hended.keeps
  have hreviewed : pourReviewed t.toPart n = pourReviewed (expiredPart s) n := congrArg (fun o => o.any (·.review)) (pourOf_congr tbs n)
  obtain ⟨-, hlater⟩ := reviewed_later (g := s.store) (dt := ranFor s) (sound_expiryStart hc)
  exact hreviewed.trans (hlater n)

omit hc in
/-- Notices told within the expiry are heard where the event drops none. -/
theorem expiry_told {ns : List Notice} {k l : CommandLink} (htells : Tells ns k l) (hbefore : Raised s.cl k)
    (hafter : Raised l (expiredPart s).cl) (hroom : s.cl.dropped < 65535) (hkept : t.cl.dropped = s.cl.dropped) :
    ns.Sublist (unheard t.cl) :=
  (htells.between hbefore hafter).unheard hended ⟨rfl, rfl, rfl, rfl⟩ hroom hkept

theorem contextOf_expiry : contextOf t.toPart bed = (contextOf s.toPart bed).map (contextAfter s bed) := by
  obtain ⟨-, -, tcc, -⟩ := hended.keeps
  rw [contextOf_congr tcc]
  exact contextOf_final (sound_expiryStart hc)

/-- A bed with no curing context is left alone. -/
theorem expiry_other (hctx : contextOf s.toPart bed = none) :
    contextOf t.toPart bed = none ∧ bedOf t.toPart bed = bedOf s.toPart bed := by
  obtain ⟨-, tbs, -⟩ := hended.keeps
  refine ⟨by rw [contextOf_expiry hc hended, hctx]; rfl, ?_⟩
  rw [bedOf_congr tbs]
  exact bedOf_final_other (sound_expiryStart hc) hctx

/-- A bed that is CURING becomes READY at the end of its COOL (R70). -/
theorem expiry_bed (hctx : contextOf s.toPart bed = some ctx) : bedOf t.toPart bed = { bedOf s.toPart bed with
    state := if (bedOf s.toPart bed).state = .curing ∧ ctx.phase = .cool ∧ (contextAfter s bed ctx).phase = .finished then .ready
      else (bedOf s.toPart bed).state } := by
  obtain ⟨-, tbs, -⟩ := hended.keeps
  rw [bedOf_congr tbs, (bedOf_final_curing (sound_expiryStart hc) hctx).1]
  simp only [endsCool, contextAfter, finalContext_stepped.1]
  rfl

/-- Stage 4 of a context, and what a bed that is CURING raises of it (R65 to R70, R75). -/
theorem expiry_phases (hctx : contextOf s.toPart bed = some ctx) (hq : product s.store ctx.product = some q) :
    let after := contextAfter s bed ctx
    let temps := (included after).filterMap fun e => (Map.find ctx.zones e.1).bind fun r => resolvedTo s.store (outcomeAt s bed e.1) r
    let measured := (included after).filterMap fun e => measuredIn (outcomeAt s bed e.1)
    let stage4 := advance q s.store.plant.minimumFresh temps measured (deltaFor (ranFor s) ctx)
      { ctx with curingTime := after.curingTime, zones := after.zones }
    after.phase = stage4.1.phase ∧ after.sp = stage4.1.sp ∧ after.remainder = stage4.1.remainder ∧
    after.presetElapsed = stage4.1.presetElapsed ∧ after.repairPending = stage4.1.repairPending ∧
    ((bedOf s.toPart bed).state = .curing → s.cl.dropped < 65535 → t.cl.dropped = s.cl.dropped →
      (stage4.2.map (phaseNotice bed ctx.pour)).Sublist (unheard t.cl)) ∧
    ((bedOf s.toPart bed).state = .curing → ctx.phase = .cool → after.phase = .finished → s.cl.dropped < 65535 →
      t.cl.dropped = s.cl.dropped → .bedReady bed ctx.pour (bedMaturity after) ∈ unheard t.cl) := by
  intro after temps measured stage4
  obtain ⟨k, hk, hzones⟩ := zones_finalContext_cured (g := s.store) (dt := ranFor s) (p := expiryStart s) (b := bed) (ctx := ctx)
  obtain ⟨halike, hreports⟩ := advance_cured (g := s.store) (dt := ranFor s) (p := expiryStart s) (after := after)
    (sound_expiryStart hc) hctx hq hk hzones
  obtain ⟨-, -, -, -, htime⟩ := finalContext_keeps (g := s.store) (dt := ranFor s) (p := expiryStart s) (b := bed) (ctx := ctx)
  rw [← htime] at halike hreports
  obtain ⟨hphase, hsp, hremainder, helapsed, hpending⟩ := finalContext_stepped (g := s.store) (dt := ranFor s) (p := expiryStart s)
    (b := bed) (ctx := ctx)
  have hbare := halike.bare
  obtain ⟨-, htells⟩ := bedOf_final_curing (g := s.store) (dt := ranFor s) (sound_expiryStart hc) hctx
  obtain ⟨hfirst, -, hlast⟩ := raised_expiry (g := s.store) (dt := ranFor s) (sound_expiryStart hc)
  have heard (hcuring : (bedOf s.toPart bed).state = .curing) (hroom : s.cl.dropped < 65535) (hkept : t.cl.dropped = s.cl.dropped) :
      (stage4.2.map (phaseNotice bed ctx.pour)).Sublist (unheard t.cl) := by
    have := expiry_told hended (htells hcuring) hfirst hlast hroom hkept
    rwa [← hreports] at this
  refine ⟨hphase.trans (congrArg Context.phase hbare).symm, hsp.trans (congrArg Context.sp hbare).symm,
    hremainder.trans (congrArg Context.remainder hbare).symm, helapsed.trans (congrArg Context.presetElapsed hbare).symm,
    hpending.trans (congrArg Context.repairPending hbare).symm, heard, fun hcuring hcool hfinished hroom hkept => ?_⟩
  have hproduct : product s.store (curedContext s.store (ranFor s) (expiryStart s) bed ctx).product = some q := hq
  obtain ⟨-, hspec⟩ := advance_spec (q := q) (fresh := s.store.plant.minimumFresh)
    (temps := includedTemps (resolutions s.store (ranFor s) (expiryStart s)) bed (curedContext s.store (ranFor s) (expiryStart s) bed ctx))
    (measured := includedMeasured (resolutions s.store (ranFor s) (expiryStart s)) bed (curedContext s.store (ranFor s) (expiryStart s) bed ctx))
    (dt := deltaFor (ranFor s) ctx) (c := curedContext s.store (ranFor s) (expiryStart s) bed ctx)
  have hstage := stage4Of_of_some (rs := resolutions s.store (ranFor s) (expiryStart s)) (dt := ranFor s) (b := bed) hproduct
  rcases hspec with ⟨hnot, -⟩ | ⟨-, -, l, -, hended'⟩
  · refine absurd ⟨hcool, ?_⟩ hnot
    rw [← hphase.symm.trans hfinished, steppedContext, hstage]
    rfl
  · refine (heard hcuring hroom hkept).subset (List.mem_map.mpr ⟨.coolEnded (bedMaturity after), ?_, rfl⟩)
    have hall : stage4.2 = l ++ [.coolEnded (bedMaturity (curedContext s.store (ranFor s) (expiryStart s) bed ctx))] :=
      hreports.trans ((congrArg Prod.snd hstage).trans hended')
    rw [hall, bedMaturity_final]
    exact List.mem_append_right _ (List.mem_singleton.mpr rfl)

/-- A deviation due of a zone, of a closed pour that is its bed's own, is told and brings the pour under review (R34). -/
theorem expiry_deviation (hctx : contextOf s.toPart bed = some ctx) (hr : Map.find ctx.zones zone = some r)
    (hq : product s.store ctx.product = some q) {d : Deviation}
    (hd : d ∈ reportsDue s.store q ctx.phase (minutesAfter (ranFor s) ctx) zone (outcomeAt s bed zone) r) {o : Pour}
    (hcurrent : (bedOf s.toPart bed).pour = some ctx.pour) (ho : pourOf s.toPart ctx.pour = some o) (hclosed : o.state = .closed) :
    (∃ o', pourOf t.toPart ctx.pour = some o' ∧ o'.review = true) ∧
    (s.cl.dropped < 65535 → t.cl.dropped = s.cl.dropped → ∃ k, .deviation bed ctx.pour d k ∈ unheard t.cl) := by
  have hheard : deviationHeard (expiryStart s) bed ctx.pour = true :=
    deviationHeard_iff.mpr ⟨hcurrent, by rw [show pourOf (expiryStart s) ctx.pour = some o from ho, Option.map_some, hclosed]⟩
  obtain ⟨hreview, k, htells⟩ := reported_due (g := s.store) (dt := ranFor s) (sound_expiryStart hc) hctx hr hq hd hheard
  obtain ⟨-, hsecond, hlast⟩ := raised_expiry (g := s.store) (dt := ranFor s) (sound_expiryStart hc)
  refine ⟨?_, fun hroom hkept => ⟨k, ?_⟩⟩
  · rw [← pourReviewed_expiry hc hended, pourReviewed, Option.any_eq_true] at hreview
    exact hreview
  · exact (expiry_told hended htells (.refl _) (hsecond.trans hlast) hroom hkept).subset (List.mem_singleton.mpr rfl)

end

end event

/-! ### Notices raised and heard (R178) -/

theorem unheard_raised (k : CommandLink) (ns : List Notice) :
    unheard (ns.foldl raiseLink k) = unheard k ++ ns.take (24 - k.notices.length) := by
  rw [unheard, raiseLinks_sending, (raiseLinks_queue k ns).1, unheard, List.append_assoc]

theorem Raised.unheard_prefix {k l : CommandLink} (h : Raised k l) : unheard k <+: unheard l := by
  obtain ⟨ns, rfl⟩ := h
  exact ⟨_, (unheard_raised k ns).symm⟩

/-- The notices of an event that raised them from CL's record before: those at the event's own end are heard first, and no
other follows where no SHIP move is withdrawn. -/
theorem endedFrom.hears {s t : State} {p : Part} (h : endedFrom s t p) (hraised : Raised s.cl p.cl) :
    unheard p.cl <+: unheard t.cl ∧
    (noWithdrawal p → unheard t.cl = unheard p.cl ∧ t.cl.dropped = p.cl.dropped) := by
  obtain ⟨ns, hns⟩ := hraised
  rw [hns, unheard_raised, (raiseLinks_queue s.cl ns).2.1]
  refine ⟨(h.toldFirst hns ⟨rfl, rfl, rfl, rfl⟩).1, fun hplain => ?_⟩
  obtain ⟨hunheard, hdropped, -⟩ := h.told hplain hns ⟨rfl, rfl, rfl, rfl⟩
  exact ⟨hunheard, hdropped⟩

/-- Where an event changed beds, pours, contexts and pieces alone of what R128 reads, its end withdraws no SHIP move if the
records of before with those changes spare every one. -/
theorem noWithdrawal_of_changedOnly {s t : State} {p : Part} (h : spared (changedOnly s t)) (hpieces : t.sm.pieces = p.sm.pieces)
    (hmp : p.mp = s.mp) (hcranes : ∀ c, (craneOf p c).load = (craneOf s.toPart c).load) : noWithdrawal p := by
  refine .inl fun mark q n m c hq hn hm hkind hstate hcrane hload => h mark q n m c ?_ hn ?_ hkind hstate hcrane ?_
  · exact (congrArg (fun ps => Map.find ps mark) hpieces).trans hq
  · rwa [moveOf, hmp] at hm
  · rwa [hcranes] at hload

theorem load_of_core {x y : Crane} (h : craneCore x = craneCore y) : x.load = y.load :=
  (congrArg Crane.load h : (craneCore x).load = (craneCore y).load)

/-! ### The allocation of an expiry in RUN (R79 to R84) -/

/-- Two contexts that differ in their starved bits and counts, their fresh flags and their zones alone. -/
theorem context_apart {c d x : Context} {zones : Map ZoneCuring} (hd : d = { c with
    starved := d.starved, starvedCount := d.starvedCount, fresh := false, zones := zones }) (hstarved : c.starved = x.starved) (hcount : c.starvedCount = x.starvedCount)
    (hfresh : c.fresh = x.fresh) : { c with zones := d.zones } =
      { d with starved := x.starved, starvedCount := x.starvedCount, fresh := x.fresh } := by
  rw [hd, ← hstarved, ← hcount, ← hfresh]

theorem askedContext_starved {g : Store} {dt b : Nat} {p : Part} {ctx : Context} :
    (askedContext g dt p b ctx).starved = ctx.starved ∧ (askedContext g dt p b ctx).starvedCount = ctx.starvedCount ∧
    (askedContext g dt p b ctx).fresh = ctx.fresh := by
  rw [askedContext_eq]
  exact ⟨rfl, rfl, rfl⟩

section allocation

variable {s t : State} {bed zone : Nat} {ctx : Context} (hc : curingSound s.toPart) (hended : endedFrom s t (expiredPart s))
include hc

/-- The part that the expiry's stage 7 finds. -/
abbrev askedAt (s : State) : Part := askedPart s.store (ranFor s) (expiryStart s)

/-- The part that the expiry's stage 7 leaves. -/
abbrev allottedAt (s : State) : Part := allottedPart s.store (ranFor s) (expiryStart s)

omit hc in
theorem askedAt_mode (s : State) : (askedAt s).mc.mode = s.mc.mode := by
  rw [askedPart_keeps.1]
  rfl

omit hc in
theorem expiredPart_casting (s : State) : (expiredPart s).bs = (allottedAt s).bs ∧ (expiredPart s).sm = (allottedAt s).sm ∧
    (expiredPart s).cl = (allottedAt s).cl := serveContexts_casting

include hended

theorem expiry_alloc : t.cc.alloc = (allottedAt s).cc.alloc := by
  obtain ⟨-, -, tcc, -⟩ := hended.keeps
  rw [tcc, serveContexts_cc (sound_expiryStart hc)]

theorem expiry_valves : t.cc.valves = (stage8 s.store (allottedAt s)).cc.valves := by
  obtain ⟨-, -, tcc, -⟩ := hended.keeps
  rw [tcc, serveContexts_cc (sound_expiryStart hc)]

omit hended in
theorem askedAt_cc : (askedAt s).cc.alloc = s.cc.alloc ∧ (askedAt s).cc.valves = s.cc.valves ∧
    Map.keys (askedAt s).cc.contexts = Map.keys s.cc.contexts := by
  rw [askedPart_cc (sound_expiryStart hc)]
  exact ⟨rfl, rfl, Map.keys_mapRecords _ _⟩

omit hended in
theorem contextOf_allotted : contextOf (allottedAt s) bed = (contextOf s.toPart bed).map fun ctx =>
    servedContext s.mc.mode s.store (grantsOf s.store (askedAt s)) bed (askedContext s.store (ranFor s) (expiryStart s) bed ctx) := by
  have hrising := risingContexts_asked (g := s.store) (dt := ranFor s) (sound_expiryStart hc)
  rw [contextOf, (stage7_contexts hrising).1, Map.find_mapRecords, askedAt_mode]
  have hasked := contextOf_asked (g := s.store) (dt := ranFor s) (b := bed) (sound_expiryStart hc)
  rw [contextOf] at hasked
  rw [hasked, Option.map_map]
  rfl

theorem contextOf_expiry_allotted :
    contextOf t.toPart bed = (contextOf (allottedAt s) bed).map fun k => { k with fresh := false } := by
  rw [contextOf_expiry hc hended, contextOf_allotted hc, Option.map_map]
  rfl

/-- The expiry ends in RUN with the allocation of the records that stages 1 to 6 leave. -/
theorem allocatedIn_expiry (hmode : s.mc.mode = .run) : allocatedIn s t := by
  obtain ⟨-, tbs, -, -, tpieces, -⟩ := hended.keeps
  obtain ⟨ebs, -, ecl⟩ := expiredPart_casting s
  obtain ⟨halloc, -, hkeys⟩ := askedAt_cc hc
  have hall : allottedAt s = allocate s.store (askedAt s) := by
    rw [allottedAt, allottedPart, stage7, askedAt_mode, hmode]
  obtain ⟨hfirst, hsecond, hlast⟩ := raised_expiry (g := s.store) (dt := ranFor s) (sound_expiryStart hc)
  have hasked : (askedAt s).cl = (steppedPart s.store (ranFor s) (expiryStart s)).cl := (stage6_keeps _ _ _).2.2.2.2.2.2.2.2.1
  have hbefore : Raised s.cl (askedAt s).cl := by
    rw [hasked]
    exact hfirst.trans hsecond
  obtain ⟨kmc, kmp, -, -, -, kA, kB⟩ := serveContexts_keeps s.store (ranFor s) (expiryStart s)
  have hload (c : CraneId) : (craneOf (expiredPart s) c).load = (craneOf s.toPart c).load := by
    cases c
    · exact load_of_core kA
    · exact load_of_core kB
  obtain ⟨hheard, hplain⟩ := hended.hears ((hfirst.trans hsecond).trans hlast)
  have hbeds := (reviewed_allotted (g := s.store) (dt := ranFor s) (sound_expiryStart hc)).1.beds
  refine ⟨askedAt s, halloc, ?_, ?_, ?_, hkeys, fun bed => ?_, fun bed ctx after hctx hafter => ?_, ?_, hbefore.unheard_prefix, ?_,
    fun hspared => ?_⟩
  · rw [tbs, hbeds]
  · rw [tbs, ebs, hall]
  · rw [expiry_alloc hc hended, hall]
  · rw [contextOf_expiry_allotted hc hended, hall]
  · rw [contextOf_expiry hc hended, hctx, Option.map_some] at hafter
    obtain rfl := Option.some.inj hafter
    refine ⟨_, contextOf_asked_some (sound_expiryStart hc) hctx, ?_, ?_, fun zone r hr => ?_⟩
    · obtain ⟨hstarved, hcount, hfresh⟩ := askedContext_starved (g := s.store) (dt := ranFor s) (p := expiryStart s) (b := bed)
        (ctx := ctx)
      exact context_apart finalContext_eq hstarved hcount hfresh
    · rw [keys_finalContext, keys_askedContext]
    · obtain ⟨r', hr', rfl⟩ := find_finalContext_cases (sound_expiryStart hc) hctx hr
      exact ⟨_, find_askedContext (sound_expiryStart hc) hctx hr', rfl⟩
  · exact hbefore.sending_eq
  · rw [← hall, ← ecl]
    exact hheard
  · rw [← hall, ← ecl]
    exact hplain (noWithdrawal_of_changedOnly hspared tpieces kmp hload)

end allocation

/-! ### The valves at an expiry (R84, R85, R88) -/

theorem traffic_offerValves {g : Store} (p : Part) : Traffic ∅ p (offerValves g p) :=
  List.foldlRecOn (motive := fun q => Traffic ∅ p q) _ _ (.refl p) fun _ hq k _ => hq.trans (traffic_stage8Zone k)

/-- A zone's grant over its rating. -/
theorem wantedOpening_eq (g : Store) (p : Part) (bed zone : Nat) :
    wantedOpening g p bed zone = ((zoneIn p bed zone).map fun k => k.grant / ratingOf g bed zone).getD 0 := by
  unfold wantedOpening zoneIn
  cases contextOf p bed with
  | none => rfl
  | some ctx => cases hr : Map.find ctx.zones zone <;> simp [hr]

section valves

variable {s t : State} {bed zone : Nat} {v : Valve} (hc : curingSound s.toPart)

/-- The wanted opening of a valve at an expiry. -/
def wantedAt (s t : State) (bed zone : Nat) (v : Valve) : Nat :=
  if s.mc.mode = .setup then v.wanted
  else ((zoneIn t.toPart bed zone).map fun k => k.grant / ratingOf s.store bed zone).getD 0

include hc

theorem zoneIn_expiry (hended : endedFrom s t (expiredPart s)) : zoneIn t.toPart bed zone = zoneIn (allottedAt s) bed zone := by
  rw [zoneIn, contextOf_expiry_allotted hc hended, zoneIn, Option.bind_map]
  rfl

/-- A valve's record after stage 7, which writes its wanted opening in RUN (R84). -/
theorem valve_allotted (hended : endedFrom s t (expiredPart s)) (hmode : s.mc.mode ≠ .watch) (hzone : zone ≤ 4)
    (hv : Map.find s.cc.valves (zoneKey bed zone) = some v) :
    Map.find (allottedAt s).cc.valves (zoneKey bed zone) = some { v with wanted := wantedAt s t bed zone v } ∧
    (allottedAt s).cc.valves.length = s.cc.valves.length := by
  obtain ⟨-, hvalves, -⟩ := askedAt_cc hc
  cases hcase : s.mc.mode with
  | watch => exact absurd hcase hmode
  | setup =>
    have hall : (allottedAt s).cc.valves = s.cc.valves := by
      rw [← hvalves, allottedAt, allottedPart, stage7, askedAt_mode, hcase]
      rfl
    rw [hall, hv, wantedAt, if_pos hcase]
    exact ⟨rfl, rfl⟩
  | run =>
    have hall : allottedAt s = allocate s.store (askedAt s) := by
      rw [allottedAt, allottedPart, stage7, askedAt_mode, hcase]
    have hwanted : wantedAt s t bed zone v = wantedOpening s.store (allocate s.store (askedAt s)) bed zone := by
      rw [wantedAt, if_neg (by rw [hcase]; decide), wantedOpening_eq, zoneIn_expiry hc hended, hall]
    obtain ⟨hbed, hzone'⟩ := keys_zoneKey (b := bed) hzone
    have hrising := risingContexts_asked (g := s.store) (dt := ranFor s) (sound_expiryStart hc)
    have hwritten : (allottedAt s).cc.valves = Map.mapRecords (fun k v =>
        { v with wanted := wantedOpening s.store (allocate s.store (askedAt s)) (keyBed k) (keyZone k) }) s.cc.valves := by
      rw [hall, allocate_cc hrising, hvalves]
    rw [hwritten, Map.find_mapRecords, hv, Option.map_some, hbed, hzone', hwanted]
    exact ⟨rfl, List.length_map _⟩

/-- Stage 8 serves the valve of every zone outside WATCH, and the event's end leaves what it offers as it stands. -/
theorem expiry_valve (hended : endedFrom s t (expiredPart s)) (hmode : s.mc.mode ≠ .watch) (hzone : zone ≤ 4)
    (hv : Map.find s.cc.valves (zoneKey bed zone) = some v) : ∃ w, Map.find t.cc.valves (zoneKey bed zone) = some w ∧
      w.wanted = wantedAt s t bed zone v ∧ valveServed s t bed zone v w := by
  obtain ⟨hallotted, hlength⟩ := valve_allotted hc hended hmode hzone hv
  obtain ⟨w, hw⟩ := serves_offerValves (g := s.store) hallotted
  obtain ⟨hbed, hzone'⟩ := keys_zoneKey (b := bed) hzone
  have hfl : (allottedAt s).fl = s.fl := by
    rw [allottedAt, allottedPart, (stage7_keeps _ _).2.2.2.2.2.1, askedPart_keeps.2.2.2.2.1]
    rfl
  rw [hbed, hzone', hfl] at hw
  have hoffers : stage8 s.store (allottedAt s) = offerValves s.store (allottedAt s) := by
    have hmode' : (allottedAt s).mc.mode = s.mc.mode := by rw [allottedAt, allottedPart, (stage7_keeps _ _).1, askedAt_mode]
    cases hcase : s.mc.mode with
    | watch => exact absurd hcase hmode
    | _ => rw [stage8, hmode', hcase]
  have hlast : (expiredPart s).fl = (offerValves s.store (allottedAt s)).fl := by
    rw [expiredPart, serveContexts_eq, mapContexts_fl, ← hoffers]
  refine ⟨w, by rw [expiry_valves hc hended, hoffers]; exact hw.there, hw.wanted, ?_⟩
  refine Serves.valveServed hw rfl rfl hfl (fun zc nd hz hnd hnodup hstands => ?_) hlength rfl rfl
  have traffic := traffic_offerValves (g := s.store) (allottedAt s)
  refine hended.offered (noCraneAt_of_nodup hnodup hz) (Remains.same ⟨hstands, ?_, ?_⟩ hlast)
  · rw [nodeOf_congr traffic.nodes, nodeOf, hfl]
    exact Option.isSome_iff_exists.mpr ⟨nd, hnd⟩
  · rw [← hfl]
    exact traffic.serial

end valves

/-! ### The expiry, bed by bed and by mode -/

/-- An allocation grants no more than the capacity, and no more than is requested (R79, R80). -/
theorem allocate_within (g : Store) (p : Part) : (allocate g p).cc.alloc.last = some .allocated ∧
    (allocate g p).cc.alloc.capacity = some (100 * g.boiler) ∧ (allocate g p).cc.alloc.granted ≤ 100 * g.boiler ∧
    (allocate g p).cc.alloc.granted ≤ (allocate g p).cc.alloc.requested := by
  obtain ⟨hcapacity, hrequested⟩ := sum_grantAll_le (100 * g.boiler) (serviceOrder (handedOver g p))
  rw [allocate_alloc]
  exact ⟨rfl, rfl, hcapacity, hrequested⟩

section event

variable {s t : State} {bed zone : Nat} {ctx : Context} {r : ZoneCuring} (hc : curingSound s.toPart)
  (hended : endedFrom s t (expiredPart s))
include hc hended

/-- A pour comes under review by a deviation due of a zone of its bed (R34). -/
theorem expiry_review (hall : ∀ e ∈ s.cc.contexts, (product s.store e.2.product).isSome) {n : Nat}
    (hreview : pourReviewed t.toPart n = true) : pourReviewed s.toPart n = true ∨
      ∃ bed ctx q zone r, contextOf s.toPart bed = some ctx ∧ ctx.pour = n ∧ product s.store ctx.product = some q ∧
        Map.find ctx.zones zone = some r ∧
        reportsDue s.store q ctx.phase (minutesAfter (ranFor s) ctx) zone (outcomeAt s bed zone) r ≠ [] := by
  rw [pourReviewed_expiry hc hended] at hreview
  exact review_cause (p := expiryStart s) hc hall hreview

/-- In WATCH the allocation is withheld and the valves stay (R87). -/
theorem expiry_watch (hmode : s.mc.mode = .watch) :
    t.cc.alloc = { s.cc.alloc with last := some .withheld } ∧ t.cc.valves = s.cc.valves := by
  obtain ⟨halloc, hvalves, -⟩ := askedAt_cc hc
  have hall : allottedAt s = withhold (askedAt s) := by rw [allottedAt, allottedPart, stage7, askedAt_mode, hmode]
  have hquiet : stage8 s.store (allottedAt s) = allottedAt s := by
    have hmode' : (allottedAt s).mc.mode = .watch := by rw [allottedAt, allottedPart, (stage7_keeps _ _).1, askedAt_mode, hmode]
    rw [stage8, hmode']
  refine ⟨?_, ?_⟩
  · rw [expiry_alloc hc hended, hall, ← halloc]
    rfl
  · rw [expiry_valves hc hended, hquiet, hall, ← hvalves]
    rfl

/-- In SETUP the allocation is the null one (R88). -/
theorem expiry_setup (hmode : s.mc.mode = .setup) : t.cc.alloc = { s.cc.alloc with last := some .null } := by
  obtain ⟨halloc, -⟩ := askedAt_cc hc
  have hall : allottedAt s = nullAllocation (askedAt s) := by rw [allottedAt, allottedPart, stage7, askedAt_mode, hmode]
  rw [expiry_alloc hc hended, hall, ← halloc]
  rfl

/-- In RUN the allocation is made, within the capacity and within what is requested (R79, R80). -/
theorem expiry_run (hmode : s.mc.mode = .run) : t.cc.alloc.last = some .allocated ∧
    t.cc.alloc.capacity = some (100 * s.store.boiler) ∧ t.cc.alloc.granted ≤ 100 * s.store.boiler ∧
    t.cc.alloc.granted ≤ t.cc.alloc.requested := by
  have hall : allottedAt s = allocate s.store (askedAt s) := by rw [allottedAt, allottedPart, stage7, askedAt_mode, hmode]
  rw [expiry_alloc hc hended, hall]
  exact allocate_within s.store (askedAt s)

/-- A zone's record after the expiry: its maturity, held value and edges, what it asks for, what it is granted, and what is
reported of it. -/
theorem expiry_zone (hctx : contextOf s.toPart bed = some ctx) (hr : Map.find ctx.zones zone = some r) :
    let after := contextAfter s bed ctx
    let out := outcomeAt s bed zone
    ∃ r', Map.find after.zones zone = some r' ∧ r'.excluded = r.excluded ∧
      r'.acc = creditedMaturity s.store (ranFor s) ctx (resolvedTo s.store out r) r.acc ∧
      (∀ q, product s.store ctx.product = some q → zoneResolved s.store q ctx.phase out r r' ∧
        heatAsked s.store q after (ratingOf s.store bed zone) (zoneLost s.store s.toPart bed zone) (resolvedTo s.store out r) r r' ∧
        ∀ d ∈ reportsDue s.store q ctx.phase (minutesAfter (ranFor s) ctx) zone out r, ∀ o,
          (bedOf s.toPart bed).pour = some ctx.pour → pourOf s.toPart ctx.pour = some o → o.state = .closed →
          (∃ o', pourOf t.toPart ctx.pour = some o' ∧ o'.review = true) ∧
          (s.cl.dropped < 65535 → t.cl.dropped = s.cl.dropped → ∃ k, .deviation bed ctx.pour d k ∈ unheard t.cl)) ∧
      (s.mc.mode = .setup → r'.grant = 0) ∧
      (s.mc.mode = .watch → r'.grant = if endsCool ctx after then 0 else r.grant) ∧
      (s.mc.mode = .run → r'.grant ≤ r'.request) := by
  intro after out
  obtain ⟨hexcluded, hacc, hspec⟩ := finalRecord_spec (g := s.store) (dt := ranFor s) (p := expiryStart s) (b := bed) (ctx := ctx)
    (z := zone) (r := r)
  refine ⟨recordAfter s bed ctx zone r, find_finalContext (sound_expiryStart hc) hctx hr, hexcluded, hacc, fun q hq => ?_,
    fun hmode => finalRecord_setup hmode, fun hmode => finalRecord_watch hmode,
    fun hmode => grant_le_of_run (sound_expiryStart hc) hctx hr hmode⟩
  obtain ⟨hresolved, hasked⟩ := hspec q hq
  exact ⟨hresolved, hasked, fun d hd o hcurrent ho hclosed => expiry_deviation hc hended hctx hr hq hd hcurrent ho hclosed⟩

end event

/-- Settles O30: each stage's work on each context is said by itself; the event's end adds withdrawals and a scan, which touch
none of it. -/
theorem curingExpiryCredits : Obligations.CuringExpiryCredits := by
  intro s hpower hc dt out zoneIn' credited minutesAt underReview
  have hended := expiry_ended hpower
  have hreply : noReply s (event (curingExpiry s.store) s) := noReply_of_link (by simp)
  refine ⟨_, rfl, ?_⟩
  generalize event (curingExpiry s.store) s = t at hended hreply ⊢
  obtain ⟨hstore, hmc, hareas, htimer, hpending, hstacks, hseq, hrestart⟩ := expiry_keeps hc hended
  refine ⟨hstore, hmc, hareas, htimer, hpending, hstacks, hseq, hreply, hrestart,
    fun bed zone hzone => expiry_results hc hended hzone, fun bed hctx => expiry_other hc hended hctx, expiry_pieces hc hended,
    fun hall n hreview => expiry_review hc hended hall hreview, fun bed ctx hctx => ?_, fun hmode => expiry_watch hc hended hmode,
    fun hmode => expiry_setup hc hended hmode, fun hmode => ?_,
    fun hmode bed zone v hzone hv => expiry_valve hc hended hmode hzone hv⟩
  · obtain ⟨hpour, hpourSeq, hproduct, hfresh, htime⟩ := finalContext_keeps (g := s.store) (dt := ranFor s) (p := expiryStart s)
      (b := bed) (ctx := ctx)
    refine ⟨contextAfter s bed ctx, by rw [contextOf_expiry hc hended, hctx, Option.map_some], hpour, hpourSeq, hproduct, hfresh,
      htime, fun q hq => ?_, expiry_bed hc hended hctx, fun zone hzone => ?_, fun zone r hr => ?_,
      fun hmode => finalContext_run (sound_expiryStart hc) hctx hmode, fun hmode => finalContext_watch hmode,
      fun hmode => finalContext_setup (sound_expiryStart hc) hctx hmode⟩
    · exact expiry_phases hc hended hctx hq
    · refine find_finalContext_none ?_
      rw [← hzone]
      show _ = (contextOf s.toPart bed).bind _
      rw [hctx]
      rfl
    · obtain ⟨r', hr', hexcluded, hacc, hspec⟩ := expiry_zone hc hended hctx hr
      refine ⟨r', hr', hexcluded, hacc.trans ?_, hspec⟩
      unfold creditedMaturity
      cases resolvedTo s.store (outcomeAt s bed zone) r <;> rfl
  · obtain ⟨hlast, hcapacity, hgranted, hrequested⟩ := expiry_run hc hended hmode
    exact ⟨hlast, hcapacity, hgranted, hrequested, allocatedIn_expiry hc hended hmode⟩

end Sys2Proof.Proofs
end
